-- ==== Sys2Proof/Word.lean ====
section
/-!
DEFINITION. The word types of the MZ4 (spec/01_one_core_one_thread.md R11; spec/00_scope.md R3).
-/

namespace Sys2Proof

/-- A 64-bit scalar register, address or doubleword (R11). -/
abbrev Word := BitVec 64

/-- One byte of memory. -/
abbrev Byte := BitVec 8

/-- A vector register, 512 bytes: byte j holds bits 8j+7:8j (R11). -/
abbrev VWord := BitVec 4096

/-- A mask register, 1,024 bits (R11). -/
abbrev MWord := BitVec 1024

/-- A 64-byte record: an engine command (R420), a fault record (R469), a block (R126) or a packet (R241);
its byte j holds bits 8j+7:8j. -/
abbrev Record := BitVec 512

/-- A scalar register field (R42). -/
abbrev Reg := BitVec 5

/-- One byte of memory at a physical address (R292). -/
abbrev Cell := Nat × Byte

end Sys2Proof
end

