-- ==== Sys2Proof/Config.lean ====
section
/-!
DEFINITION. What the spec fixes as numbers of the part, and the FREE VALUES: what it leaves open.  A free value has
no body, so nothing can be proved of it; each is named in a log entry under notes/assumptions/.
-/

namespace Sys2Proof.Config

/-- D_dev: the tag-plane latency bound on one device, in ns (R262, R525). -/
def dDev : Nat := 700

/-- HBM of a device in bytes: 384 GB (R292). -/
def hbmBytes : Nat := 0x6000000000

/-- Clusters of one compute die (R192). -/
def dieClusters : Nat := 72

/-- What a byte of memory that nothing has written reads as (DESIGN CHOICE, log entry 1). -/
def unwritten : Byte := 0

/-- Free value: the index of the in-flight happening that lands in the step of that number, if any (DESIGN CHOICE, log entry 2). -/
opaque arrives : Nat → Option Nat

/-- Free value: the context that runs ahead in the step of that number, if one does, with the address of the line that it fills and whether
that is code (R486; DESIGN CHOICE, log entry 84). -/
opaque runAhead : Nat → Option (Nat × Nat × Bool)

/-- Free value: how many units a long form completes in the step of that number before it may be pre-empted, if it is (R169; DESIGN
CHOICE, log entry 68). -/
opaque longUnits : Nat → Option Nat

/-- Free value: the firmware-complex core that has the next turn, if one has (DESIGN CHOICE, log entry 2). -/
opaque firmwareTurn : Nat → Option Nat

/-- Free value: the launch queue whose control block the active complex begins to write in the step of that number, if any (R515; DESIGN
CHOICE, log entry 69). -/
opaque blockWrite : Nat → Option Nat

/-- Free value: the BODY of a control block written in the step of that number, whose contents the spec does not give (R515; DESIGN CHOICE,
log entry 69). -/
opaque blockBody : Nat → BitVec 896

/-- Free value: whether a write of a control block goes on in the step of that number (R515; DESIGN CHOICE, log entry 69). -/
opaque blockGoesOn : Nat → Bool

/-- Free value: the context that has the next turn (DESIGN CHOICE, log entry 2). -/
opaque nextContext : Nat → Nat

/-- Free value: the nanoseconds that pass in the step of that number (DESIGN CHOICE, log entry 3). -/
opaque elapsed : Nat → Nat

/-- Free value: whether a core has dropped its translation entry for a page before the step of that number (DESIGN CHOICE, log entry 4). -/
opaque tlbEvicted : Nat → Nat → Bool

/-- Free value: whether an instruction-cache line has been evicted before the step of that number (DESIGN CHOICE, log entry 4). -/
opaque icacheEvicted : Nat → Nat → Bool

/-- Free value: the local prefixes of a scan command that was accepted with a progress index and had formed none (R437; DESIGN CHOICE, log entry
16). -/
opaque lostPrefix : Nat → Nat → BitVec 4096

/-- Free value: what a 64-byte block of another device's memory, numbered with its device, holds before this device has stored there or
seen it change (DESIGN CHOICE, log entry 5). -/
opaque farInitial : Nat → BitVec 512

/-- Free value: a block of another device's memory that others change in the step of that number, with its new contents, if any does (DESIGN
CHOICE, log entry 5). -/
opaque farChanged : Nat → Option (Nat × BitVec 512)

/-- Free value: whether tasks of other devices are registered on a counter of another device in the step of that number (R362; DESIGN CHOICE, log
entry 5). -/
opaque farRegistered : Nat → Bool

/-- Free value: what another device's directory or agent answers in that step (DESIGN CHOICE, log entry 5). -/
opaque farReply : Nat → Word

/-- Free value: whether another device answers a request of that step in time (DESIGN CHOICE, log entry 5). -/
opaque farAnswers : Nat → Bool

/-- Free value: whether an engine of another device that a partial reaches answers in that step that its group has a different R (R441; DESIGN
CHOICE, log entry 5). -/
opaque farDiffers : Nat → Bool

/-- Free value: the members of a claim group on other devices that another device's directory lists in the step of that number: device, actor and
claim handler (R371; DESIGN CHOICE, log entry 5). -/
opaque farGroup : Nat → List (Nat × BitVec 64 × BitVec 64)

/-- Free value: whether a core's location cache still holds an entry in the step of that number (R231; DESIGN CHOICE, log entry 75). -/
opaque locationKept : Nat → Bool

/-- Free value: the launch queue of which another device reports a packet complete in the step of that number, if any (R246; DESIGN CHOICE, log
entry 5). -/
opaque farCompletes : Nat → Option Nat

/-- Free value: the hops of a reply's round trip (DESIGN CHOICE, log entry 6). -/
opaque hops : Nat → Nat

/-- Free value: the cycles a request and its reply waited at the arbiters (DESIGN CHOICE, log entry 6). -/
opaque queueCycles : Nat → Nat

/-- Free value: the set of a home slice in which a line lies, whose index the spec does not give (R308; DESIGN CHOICE, log entry 6). -/
opaque sliceSet : Nat → Nat

/-- Free value: the index of a steal's victim among the cores allowed (DESIGN CHOICE, log entry 7). -/
opaque victim : Nat → Nat

/-- Free value: which of two neighbouring results a special function gives where the model's interval does not
decide (DESIGN CHOICE, log entry 8). -/
opaque undecided : Nat → Bool

/-- Free value: column and row of a cluster in the mesh of its die, which the spec does not number (DESIGN CHOICE, log entry 9). -/
opaque meshPlace : Nat → Nat × Nat

/-- Free value: the number that the management block gives this device when the job is configured (R500; DESIGN CHOICE, log entry 14). -/
opaque ownDevice : BitVec 10

/-- Free value: the 64 bytes of the window descriptor that a switch-out of that step saves, whose layout the spec does not
give (R477; DESIGN CHOICE, log entry 15). -/
opaque windowDescriptor : Nat → BitVec 512

/-- Free value: where in the spill area the device puts a scratchpad image (R482; DESIGN CHOICE, log entry 54). -/
opaque imagePlace : Nat → Nat

/-- Free value: the top of a context's stack region, and the base of its thread-local area, which the partition
supervisor sets by means the spec does not name (R37; DESIGN CHOICE, log entry 13). -/
opaque stackTop : Nat → Word

/-- Free value: see stackTop. -/
opaque localBase : Nat → Word

/-- Free value: whether a retraining of a die link succeeds (R495; DESIGN CHOICE, log entry 17). -/
opaque linkTrains : Nat → Bool

/-- Free value: the end of a die link that sends a flit in the step of that number, if one does (R493; DESIGN CHOICE, log entry 17). -/
opaque linkSends : Nat → Option Nat

/-- Free value: the virtual channel, route and payload of a flit that a die link sends in the step of that number; none for an idle flit (R493; DESIGN
CHOICE, log entry 17). -/
opaque linkPayload : Nat → Option (BitVec 2 × BitVec 40 × BitVec 2048)

/-- Free value: the record by which the device reports that two die links are down, whose contents the spec does not give (R492; DESIGN CHOICE, log
entry 17). -/
opaque linkReport : BitVec 512

/-- Free value: the identity secret of R517 (DESIGN CHOICE, log entry 10). -/
opaque secret : BitVec 256

/-- Free value: SHAKE256 of a byte string, so many bytes long (R517, R518; DESIGN CHOICE, log entry 10). -/
opaque shake256 : List Byte → Nat → List Byte

/-- Free value: the ML-DSA-65 signature of a message under the key generated from a seed (R517; DESIGN CHOICE, log entry 10). -/
opaque sign : List Byte → List Byte → List Byte

/-- Free value: the ML-DSA-65 public key generated from a seed (R517; DESIGN CHOICE, log entry 10). -/
opaque publicKey : List Byte → List Byte

/-- Free value: whether an image's signature verifies against Zarecon's keys in the boot ROM (R517; DESIGN CHOICE, log entry 10). -/
opaque verifies : List Byte → List Byte → Bool

/-- Free value: the boot ROM's bytes (R513, R518; DESIGN CHOICE, log entry 10). -/
opaque bootRom : List Byte

/-- Free value: the reply to an MCTP control message (R512; DESIGN CHOICE, log entry 11). -/
opaque mctpReply : List Byte → List Byte

/-- Free value: what a byte of firmware-complex memory reads as after a boot of that number (R513; DESIGN CHOICE, log entry 12). -/
opaque firmwareByte : Nat → Nat → Nat → Byte

/-- Free value: whether the active complex restarts its watchdog in the step of that number (R516; DESIGN CHOICE, log entry 12). -/
opaque watchdogRestarts : Nat → Bool

end Sys2Proof.Config
end

