-- ==== Sys2Proof/Machine/Bits.lean ====
section
/-!
DEFINITION. Bit fields, extension, rotation, counting and lanes (spec/00_scope.md R3, R7; spec/06 R153).
-/

namespace Sys2Proof.Machine

/-- The n-bit value v sign-extended to 64 bits (R7). -/
def sext {n : Nat} (v : BitVec n) : Word := v.signExtend 64

/-- The n-bit value v zero-extended to 64 bits (R7). -/
def zext {n : Nat} (v : BitVec n) : Word := v.zeroExtend 64

/-- Bits l+n-1 down to l of v, as an unsigned number (R7). -/
def field {k : Nat} (v : BitVec k) (l n : Nat) : Nat := v.toNat / 2 ^ l % 2 ^ n

/-- 1 or 0 as a register value. -/
def flag (b : Bool) : Word := if b then 1 else 0

/-- An exact integer reduced to a register (R8). -/
def wordOfInt (i : Int) : Word := BitVec.ofInt 64 i

/-- Zero bits above the highest 1 bit of an n-bit value; n when it is 0 (R90, R172). -/
def clz (n v : Nat) : Nat := if v % 2 ^ n = 0 then n else n - 1 - Nat.log2 (v % 2 ^ n)

/-- Zero bits below the lowest 1 bit among the first n bits; n when there is none (R90). -/
def ctz (v : Nat) : Nat → Nat → Nat
  | 0, at_ => at_
  | n + 1, at_ => if v.testBit at_ then at_ else ctz v n (at_ + 1)

/-- Number of 1 bits among the low n bits. -/
def popcount (v : Nat) : Nat → Nat
  | 0 => 0
  | n + 1 => popcount v n + (if v.testBit n then 1 else 0)

/-- Carry-less product of the low n bits of b with a (R92). -/
def clmul (a b : Nat) : Nat → Nat
  | 0 => 0
  | n + 1 => clmul a b n ^^^ (if b.testBit n then a <<< n else 0)

/-- Bit i goes to bit 63 - i (R90). -/
def reverseBits (v : Word) : Word := v.reverse

/-- Little-endian bytes of an n-byte value (R3). -/
def bytesOf (v : Nat) : Nat → List Byte
  | 0 => []
  | n + 1 => BitVec.ofNat 8 v :: bytesOf (v / 256) n

/-- The value of little-endian bytes (R3). -/
def ofBytes : List Byte → Nat
  | [] => 0
  | b :: bs => b.toNat + 256 * ofBytes bs

/-- Byte j of A goes to byte 7 - j (R90). -/
def swapBytes (v : Word) : Word := BitVec.ofNat 64 (ofBytes (bytesOf v.toNat 8).reverse)

/-- Lane i of a value, at a width in bits (R153). -/
def lane (v bits i : Nat) : Nat := v / 2 ^ (bits * i) % 2 ^ bits

/-- n lanes of a width, lane i being f i (R153). -/
def assemble (bits : Nat) (f : Nat → Nat) : Nat → Nat
  | 0 => 0
  | n + 1 => assemble bits f n + (f n % 2 ^ bits) * 2 ^ (bits * n)

/-- Lanes from a list, the first lowest. -/
def ofLanes (bits : Nat) : List Nat → Nat
  | [] => 0
  | x :: xs => x % 2 ^ bits + 2 ^ bits * ofLanes bits xs

/-- The first n bytes of old replaced by those of new; the others kept. -/
def splice (old new n : Nat) : Nat := new % 2 ^ (8 * n) + old / 2 ^ (8 * n) * 2 ^ (8 * n)

/-- The signed reading of an n-bit value. -/
def signed (bits v : Nat) : Int :=
  if v % 2 ^ bits < 2 ^ (bits - 1) then (v % 2 ^ bits : Nat) else (v % 2 ^ bits : Nat) - (2 ^ bits : Nat)

/-- An exact integer as an n-bit pattern. -/
def ofSigned (bits : Nat) (i : Int) : Nat := (i % (2 ^ bits : Nat)).toNat

/-- The entry of a key in a table, or a default. -/
def tget {α : Type} (t : List (Nat × α)) (k : Nat) (d : α) : α :=
  match t with
  | [] => d
  | (k', v) :: r => if k' = k then v else tget r k d

/-- A table with the entry of a key replaced or added. -/
def tset {α : Type} (t : List (Nat × α)) (k : Nat) (v : α) : List (Nat × α) :=
  match t with
  | [] => [(k, v)]
  | (k', v') :: r => if k' = k then (k, v) :: r else (k', v') :: tset r k v

/-- The first element that a test accepts is changed; the others are kept. -/
def updateFirst {α : Type} (p : α → Bool) (f : α → α) : List α → List α
  | [] => []
  | a :: r => if p a then f a :: r else a :: updateFirst p f r

/-- The first element that a test accepts is removed. -/
def removeFirst {α : Type} (p : α → Bool) : List α → List α
  | [] => []
  | a :: r => if p a then r else a :: removeFirst p r

/-- The element that a comparison puts first; the earlier of two equals. -/
def best {α : Type} (lt : α → α → Bool) : List α → Option α
  | [] => none
  | a :: r =>
    match best lt r with
    | none => some a
    | some b => if lt b a then some b else some a

/-- floor of the square root, bit by bit from bit k - 1 down. -/
def isqrt (n : Nat) : Nat → Nat → Nat
  | 0, r => r
  | k + 1, r => if (r + 2 ^ k) * (r + 2 ^ k) ≤ n then isqrt n k (r + 2 ^ k) else isqrt n k r

end Sys2Proof.Machine
end

