-- ==== Sys2Proof/Machine/Words.lean ====
section
/-!
DEFINITION. The words of the instruction formats, from their fields (spec/02_instruction_words.md R41).
-/

namespace Sys2Proof.Machine

/-- The halfword of format HS with those fields, lowest first (R41). -/
def hsWord (op d b : Nat) : Nat :=
  op * 0x2 + d * 0x40 + b * 0x800

/-- The word of format WR with those fields, lowest first (R41). -/
def wrWord (op d a b fn xf : Nat) : Nat :=
  1 + op * 0x2 + d * 0x80 + a * 0x1000 + b * 0x20000 + fn * 0x400000 + xf * 0x10000000

/-- The word of format WI with those fields, lowest first (R41). -/
def wiWord (op d a imm : Nat) : Nat :=
  1 + op * 0x2 + d * 0x80 + a * 0x1000 + imm * 0x20000

/-- The word of format WU with those fields, lowest first (R41). -/
def wuWord (op d imm : Nat) : Nat :=
  1 + op * 0x2 + d * 0x80 + imm * 0x1000

/-- The word of format WM with those fields, lowest first (R41). -/
def wmWord (op d a w off la : Nat) : Nat :=
  1 + op * 0x2 + d * 0x80 + a * 0x1000 + w * 0x20000 + off * 0x100000 + la * 0x10000000

/-- The word of format WB with those fields, lowest first (R41). -/
def wbWord (op a b fn off : Nat) : Nat :=
  1 + op * 0x2 + a * 0x80 + b * 0x1000 + fn * 0x20000 + off * 0x100000

/-- The word of format WJ with those fields, lowest first (R41). -/
def wjWord (op d off : Nat) : Nat :=
  1 + op * 0x2 + d * 0x80 + off * 0x1000

/-- The word of format WE with those fields, lowest first (R41). -/
def weWord (op a d sel fn : Nat) : Nat :=
  1 + op * 0x2 + a * 0x1000 + d * 0x80 + sel * 0x20000 + fn * 0x10000000

/-- The word of format WC with those fields, lowest first (R41). -/
def wcWord (op d a b sc fn la : Nat) : Nat :=
  1 + op * 0x2 + d * 0x80 + a * 0x1000 + b * 0x20000 + sc * 0x400000 + fn * 0x1000000 + la * 0x10000000

/-- The word of format WV with those fields, lowest first (R41). -/
def wvWord (op vd va vb m ty fn la : Nat) : Nat :=
  1 + op * 0x2 + vd * 0x80 + va * 0x800 + vb * 0x8000 + m * 0x80000 + ty * 0x400000 + fn * 0x2000000 + la * 0x10000000

/-- The word of format WVM with those fields, lowest first (R41). -/
def wvmWord (op v xa xb m ty o la : Nat) : Nat :=
  1 + op * 0x2 + v * 0x80 + xa * 0x800 + xb * 0x10000 + m * 0x200000 + ty * 0x1000000 + o * 0x8000000 + la * 0x10000000

/-- The word of format WVG with those fields, lowest first (R41). -/
def wvgWord (op v vi xa m ty la : Nat) : Nat :=
  1 + op * 0x2 + v * 0x80 + vi * 0x800 + xa * 0x8000 + m * 0x100000 + ty * 0x800000 + la * 0x10000000

/-- The word of format WVT with those fields, lowest first (R41). -/
def wvtWord (op vd va tys tyd rm m fn la : Nat) : Nat :=
  1 + op * 0x2 + vd * 0x80 + va * 0x800 + tys * 0x8000 + tyd * 0x40000 + rm * 0x200000 + m * 0x800000 + fn * 0x2000000 + la * 0x10000000

/-- The word of format WVX with those fields, lowest first (R41). -/
def wvxWord (op vd va x m ty fn la : Nat) : Nat :=
  1 + op * 0x2 + vd * 0x80 + va * 0x800 + x * 0x8000 + m * 0x100000 + ty * 0x800000 + fn * 0x4000000 + la * 0x10000000

/-- A word as a record's WORD field. -/
def recordWord (w : Nat) : BitVec 32 := BitVec.ofNat 32 w

end Sys2Proof.Machine
end

