-- ==== Sys2Proof/Machine/Traffic.lean ====
section
/-!
DEFINITION. What travels in an MZ4 device and in and out of it: events, messages, requests, and the happenings in
flight, the whole and indivisible steps that no instruction word encodes (spec/95_what_each_step_holds.md).
-/

namespace Sys2Proof

/-- A tag (T, M) (R9). -/
structure Tag where
  time : BitVec 64
  micro : BitVec 32
deriving DecidableEq, Repr

/-- The sender key of an event, compared field by field (R200): 0 launch packet or 1 device event; the queue
number or the sending actor; the position or the sequence number. -/
structure SenderKey where
  kind : Nat
  source : Nat
  number : Nat
deriving DecidableEq, Repr

/-- A place in a gang: the position of its member 0 in the launch queue, GSIZE, GIDX, and whether GUNIT is 1, clusters (R242,
R254). -/
structure Member where
  pos : Nat
  size : Nat
  index : Nat
  clusters : Bool
deriving DecidableEq, Repr

/-- An event (R199), with its sender in the layout of x12 (R37), the launch queue from which it descends (R260),
its position in that queue when it is a packet's own event (R246), its completion counter (R247), its declared run length (R257) and its place in a gang. -/
structure Event where
  part : Nat
  tag : Tag
  target : Word
  handler : Word
  payload : Word
  deadline : Word
  cls : BitVec 2
  key : SenderKey
  sender : BitVec 32
  queue : Nat
  packet : Option Nat
  ctr : Word
  runMax : Nat
  gang : Option Member
  /-- The task whose POST waits for the event's arrival (R276); 0 when none does. -/
  waiter : Word
  /-- What an announcement says of its claim, Ta and W (R371, R374): the payload is its address, and the sender its claimer. -/
  claim : Option (Nat × Nat)
deriving DecidableEq, Repr

/-- Who makes a request: the master id (R313), the task and context charged with it, and what a fault record
names (R469). -/
structure Origin where
  part : Nat
  cls : Nat
  index : Nat
  ctx : Nat
  tid : Word
  va : Word
  pc : Word
  word : BitVec 32
  tag : Tag
  /-- Releases wider than core that the task had made before the request, and those at system scope (R331). -/
  epoch : Nat
  sysEpoch : Nat
deriving DecidableEq, Repr

/-- The atomic operations at a serving level: counters (R336) and reductions (R364). -/
inductive AtomicOp where
  | cadd | cread | rdadd | rdaddf | rdadda | rdmax | rdmin | rdand | rdior | rdxor
deriving DecidableEq, Repr

/-- What an agent is asked to do at a location (R349): an atomic operation, a wait for at least a value, with the waiter's effective class
(R253), or for another value, or a registration's start or end. -/
inductive AgentOp where
  | act (op : AtomicOp)
  | cwait (cls : BitVec 2)
  | waita | creg | cunreg
deriving DecidableEq, Repr

/-- A task whose later operations a release holds behind a request (R331): the task, the releases wider than core that it had made when
the request was sent, and those at system scope. -/
structure Before where
  tid : Word
  epoch : Nat
  sysEpoch : Nat
deriving DecidableEq, Repr

/-- What a request's own task orders by its releases. -/
def Origin.before (o : Origin) : Before := ⟨o.tid, o.epoch, o.sysEpoch⟩

/-- A request on its way to its home: a remote store on its way to its home slice, bank, FIFO, port or register (R301, R304, R307, R384, R393): the
location that the cells' physical address names decides what it does there. -/
structure HomeReq where
  origin : Origin
  cells : List Cell
  /-- A read that another device makes over the fabric (R499, R504): its cells give only addresses. -/
  read : Bool
  /-- The remote stores that it counts as: two when two lines of one 64-byte write travel together (R132, R377). -/
  count : Nat
  /-- Whose releases order it (R331), and the tasks whose loads wait for it after an acquire (R332). -/
  order : List Before
  loads : List Word
deriving DecidableEq, Repr

/-- A store of a task on its way to its home. -/
def HomeReq.store (o : Origin) (cells : List Cell) : HomeReq := ⟨o, cells, false, 1, [o.before], []⟩

/-- Whether a release of a task has come between a store that a task ordered and what the releasing task sends now (R331): a release at a
scope within the device covers only targets of the device. -/
def Before.covers (b e : Before) (own : Bool) : Bool :=
  e.tid == b.tid && (if own then decide (e.epoch < b.epoch) else decide (e.sysEpoch < b.sysEpoch))

/-- The address of a request. -/
def HomeReq.addr (q : HomeReq) : Nat := (q.cells.head?.map (·.1)).getD 0

/-- A subscription update (R340, R341): its bytes; its task and that task's releases when the update left its batch; and, once a release has
covered it, that task's releases then. -/
structure Update where
  cells : List Cell
  sent : Before
  release : Option Before
deriving DecidableEq, Repr

/-- An update of a task that no release has covered is covered by one (R341). -/
def Update.cover (after : Before) (u : Update) : Update :=
  if u.sent.tid = after.tid ∧ u.release = none then { u with release := some after } else u

/-- A task's releases after one more (R331). -/
def Before.next (b : Before) (scope : BitVec 2) : Before :=
  ⟨b.tid, if scope = 0 then b.epoch else b.epoch + 1, if scope = 3 then b.sysEpoch + 1 else b.sysEpoch⟩

/-- A message to an endpoint (R231, R285): its word, the sender's sys.lcore bits 25:0, the sending context and
task, its forwarding count (R232), the place that it goes to (R287), and whether a directory has sent it there (R233). -/
structure Message where
  part : Nat
  endpoint : BitVec 32
  word : Word
  sender : BitVec 26
  fromCtx : Nat
  fromTid : Word
  count : Nat
  place : Word
  directed : Bool
deriving DecidableEq, Repr

/-- A request to the endpoint and claim-group directory (R230, R371).  place is where the bound task is, as EPWHERE gives it (R287). -/
inductive DirRequest where
  | bind (name : BitVec 32) (tid : Word) (place : Word)
  | move (name : BitVec 32) (tid : Word) (place : Word)
  | free (name : BitVec 32) (tid : Word)
  | lookup (name : BitVec 32)
  | groups (actor : Word) (haddr : BitVec 46) (grp : BitVec 16)
deriving DecidableEq, Repr

/-- A task that asks an agent or a directory, and its device (R230, R349). -/
structure Asker where
  device : Nat
  tid : Word
deriving DecidableEq, Repr

/-- Who objects to a claim (R344): the context and its task. -/
structure Objector where
  ctx : Nat
  tid : Word
deriving DecidableEq, Repr

/-- A raise of a task's class, which this device or another one makes (R253). -/
structure Raise where
  cls : BitVec 2
  far : Bool
deriving DecidableEq, Repr

/-- What CLAIM_DECISION brings (R344 to R346): the decision point of the claim of a number; or, in a kind-3 record from another device
(R503), a claim on an address whose home is here, or the store of one that is won. -/
inductive ClaimNews where
  | decide (claim : Nat)
  | enter (device pa : Nat) (value : Word) (claimer : BitVec 26) (ta window decideAt : Nat)
  | won (device pa : Nat) (value : Word)
deriving DecidableEq, Repr

/-- A collective partial (R442, R538): its device, the number of the command that sends it, the command code, group-table address and step or
match key it is sent under, R as its sender read it, the chunk, its rank interval [lo, hi), the sending rank, the physical cluster it goes to, and
the data. -/
structure Partial where
  device : Nat
  cmd : Nat
  code : Nat
  grp : Word
  step : Nat
  key : BitVec 32
  chunk : Nat
  lo : Nat
  hi : Nat
  rank : Nat
  ranks : Nat
  toCluster : Nat
  bytes : List Byte
deriving DecidableEq, Repr

/-- A die-link flit (R493). -/
structure Flit where
  ack : BitVec 16
  ctl : Byte
  route : BitVec 40
  payload : BitVec 2048
  crc : BitVec 32
deriving DecidableEq, Repr

/-- The fields of a launch-queue record that a register write may set (R239). -/
inductive QueueField where
  | ring | logslots | classmax | dlrel | age | gbase | gcount | phase
deriving DecidableEq, Repr

/-- What a REGISTER_WRITE names (R239, R497, R509): a field of a queue record, the fault queue's NOTIFY, the job device
table, the generation that every source stamps, or a supervisor write of a system register. -/
inductive RegTarget where
  | queue (q : Nat) (field : QueueField)
  | notify (part : Nat)
  | jobCount (part : Nat)
  | jobEntry (part index : Nat)
  | routing
  | sysreg (ctx : Nat) (sel : BitVec 11)
deriving DecidableEq, Repr

/-- A target that holds an access table (R314). -/
inductive AccessTarget where
  | homeSlice (cluster : Nat) | hbmPort (stack : Nat) | station (s : Nat) | management
deriving DecidableEq, Repr

/-- A signed image delivered for FW.UPDATE or CONFIG.WRITE (R516, R519): its bytes, its version, the minimum
firmware version and the spare clusters it names, and the state-table format it supports. -/
structure Image where
  bytes : List Byte
  signature : List Byte
  version : Nat
  minVersion : Nat
  spares : List Nat
  stations : BitVec 24
  tableFormat : Nat
deriving DecidableEq, Repr

/-- What STEAL_ANSWER carries (R220): a victim's queue engine answers a thief. -/
structure StealReq where
  thiefCtx : Nat
  victim : Nat
deriving DecidableEq, Repr

/-- Where a word that fails is held (R320): in HBM or a scratchpad bank, in a core's level-1 copies, in a cache way of a cluster's home slice, or
as an entry of the FIFO whose view the address names, counted from the oldest. -/
inductive ErrorSite where
  | word
  | copy (core : Nat)
  | way (cluster : Nat)
  | entry (index : Nat)
deriving DecidableEq, Repr

/-- A happening in flight, with what it is about: a row of spec/opcode_table.json that no word encodes. -/
inductive Happening where
  /-- EXTENSION_MIGRATION: the thread moves to a core with the extension, XF64 or XSF (R61, R484). -/
  | extensionMigration (xf64 : Bool)
  /-- LOAD_REPLY: a reply arrives for a context; writes a pending destination and adds to the delay counters (R318, R479). -/
  | loadReply (tid : Word) (dest : Reg) (value : Word) (level hops queue : Nat)
  /-- STORE_ACK: an acknowledgement, or a refusal with its record, for a task's remote store (R301). -/
  | storeAck (tid : Word) (part : Nat) (refusal : Option Record) (level : Nat)
  /-- HOME_REQUEST: a request is checked and served at its home (R307, R315). -/
  | homeRequest (q : HomeReq)
  /-- WAIT_ENTRY_WAKE: the wake of a wait-on-address entry completes the waiting instruction (R337). -/
  | waitEntryWake (tid : Word) (pa : Nat) (value : Word)
  /-- WAITAT_TIMEOUT (R363). -/
  | waitatTimeout (tid : Word) (pa : Nat)
  /-- SYSTEM_ATOMIC_REQUEST: a kind-4 record from a device (R349, R503). -/
  | systemAtomicRequest (device : Nat) (op : AgentOp) (pa : Nat) (operand : Word) (tid : Word) (reply : Bool)
  /-- FABRIC_REQUEST_TIMEOUT: a request to another device got no response (R504). -/
  | fabricRequestTimeout (q : HomeReq)
  /-- FIFO_PUSH (R304): bank is 32 times the physical cluster plus the bank number. -/
  | fifoPush (o : Origin) (bank : Nat) (value : Word)
  /-- FIFO_POP (R304). -/
  | fifoPop (tid : Word) (bank : Nat) (dest : Reg)
  /-- FIFO_COUNT (R304). -/
  | fifoCount (tid : Word) (bank : Nat) (dest : Reg)
  /-- FIFO_HELD_PUSH_DONE (R304). -/
  | fifoHeldPushDone (bank : Nat)
  /-- FIFO_HELD_POP_DONE (R305). -/
  | fifoHeldPopDone (bank : Nat)
  /-- BANK_SWITCH_DONE (R306). -/
  | bankSwitchDone (bank : Nat)
  /-- SUBSCRIPTION_UPDATE: a batched update arrives at the subscriber's core (R340). -/
  | subscriptionUpdate (sub : Nat) (u : Update)
  /-- OBJECTION_ARRIVAL (R344): at the claimer; or, back from the claimer's device, Ta and the clock at which it arrived there too late. -/
  | objectionArrival (addr : Word) (claimer : BitVec 26) (cause : Byte) (objector : Nat) (objectorTid : Word) (tag : Tag)
      (late : Option (Nat × Nat))
  /-- CLAIM_DECISION (R344 to R346). -/
  | claimDecision (news : ClaimNews)
  /-- CLAIM_RECORD_EXPIRY of a member actor's record (R374). -/
  | claimRecordExpiry (part : Nat) (actor : Word) (addr : Word) (claimer : BitVec 26)
  /-- EVENT_ARRIVAL: an event reaches its actor's current home (R202, R528). -/
  | eventArrival (e : Event)
  /-- EVENT_FORWARD: the hash home forwards an event (R197, R202). -/
  | eventForward (e : Event)
  /-- EVENT_SAFE: the home clock reaches T + B for an actor's first event (R209). -/
  | eventSafe (part : Nat) (actor : Word)
  /-- DISPATCH_PICK: a context asks for work (R221, R249). -/
  | dispatchPick (ctx : Nat)
  /-- SWITCH_OUT of a context's task (R476). -/
  | switchOut (ctx : Nat)
  /-- ACTOR_MOVE of an idle actor to a core (R197). -/
  | actorMove (part : Nat) (actor : Word) (core : Nat)
  /-- STEAL_REQUEST: an idle context asks a victim core (R220). -/
  | stealRequest (ctx : Nat)
  /-- STEAL_ANSWER: the victim's queue engine answers (R220). -/
  | stealAnswer (q : StealReq)
  /-- PRIORITY_RAISE reaches a task (R253); far: by a kind-9 record from another device (R503). -/
  | priorityRaise (tid : Word) (cls : BitVec 2) (far : Bool)
  /-- PHINT_EXPIRY of a core's reservation for an actor (R355). -/
  | phintExpiry (core : Nat) (actor : Word)
  /-- MESSAGE_ARRIVAL (R234). -/
  | messageArrival (m : Message)
  /-- MESSAGE_FORWARD by a stub location (R232). -/
  | messageForward (m : Message)
  /-- MESSAGE_REFUSED: the sender's core resends it (R234). -/
  | messageRefused (m : Message)
  /-- DIRECTORY_REQUEST (R230, R287, R371), by a task of a device. -/
  | directoryRequest (device : Nat) (tid : Word) (dest : Reg) (r : DirRequest)
  /-- STUB_EXPIRY of an endpoint's forwarding stub (R231). -/
  | stubExpiry (name : BitVec 32)
  /-- WAITI_WAKE (R114). -/
  | waitiWake (ctx : Nat)
  /-- WAITI_TIMEOUT (R114). -/
  | waitiTimeout (ctx : Nat)
  /-- JOIN_COMPLETE (R267). -/
  | joinComplete (ctx : Nat)
  /-- SAFEW_COMPLETE (R279). -/
  | safewComplete (ctx : Nat)
  /-- LEAD_TIMEOUT (R272). -/
  | leadTimeout (ctx : Nat)
  /-- FOLLOW_TIMEOUT (R273). -/
  | followTimeout (ctx : Nat)
  /-- TWAIT_LIMIT (R452). -/
  | twaitLimit (ctx : Nat)
  /-- COMMAND_PORT_WRITE: a 64-byte write queues a command (R384). -/
  | commandPortWrite (o : Origin) (engine : Nat) (cmd : Record)
  /-- STAGING_STORE to port bytes 0 to 55 (R384). -/
  | stagingStore (o : Origin) (engine : Nat) (offset : Nat) (bytes : List Byte)
  /-- STAGING_COMMIT by a 64-bit store to port bytes 56 to 63 (R384). -/
  | stagingCommit (o : Origin) (engine : Nat) (value : Word)
  /-- PUSH_HELD_ACCEPT: a push held at a full port is accepted (R385). -/
  | pushHeldAccept (core : Nat) (engine : Nat)
  /-- PROGRAM_RECORD_READ by the engine program of that number (R391). -/
  | programRecordRead (program : Nat)
  /-- COMMAND_COMPLETE of the command of that number (R389). -/
  | commandComplete (cmd : Nat)
  /-- CARRY_DELIVERY to a position of a chain (R407). -/
  | carryDelivery (chain position : Nat)
  /-- COLLECTIVE_PARTIAL arrives (R442, R538). -/
  | collectivePartial (p : Partial)
  /-- MX.FILL runs: the command of that number (R425). -/
  | mxFill (cmd : Nat)
  /-- MX.MMA (R426). -/
  | mxMma (cmd : Nat)
  /-- MX.JOINT (R432). -/
  | mxJoint (cmd : Nat)
  /-- MX.OUT (R428). -/
  | mxOut (cmd : Nat)
  /-- MX.ZERO (R429). -/
  | mxZero (cmd : Nat)
  /-- MX.RDACC (R430). -/
  | mxRdacc (cmd : Nat)
  /-- SC.LIN (R434). -/
  | scLin (cmd : Nat)
  /-- SC.PFX (R434). -/
  | scPfx (cmd : Nat)
  /-- SC.SEED (R437). -/
  | scSeed (cmd : Nat)
  /-- SC.SEG (R436). -/
  | scSeg (cmd : Nat)
  /-- CP.COPY (R438). -/
  | cpCopy (cmd : Nat)
  /-- CP.GATHER (R439). -/
  | cpGather (cmd : Nat)
  /-- CP.SCATTER (R439). -/
  | cpScatter (cmd : Nat)
  /-- CP.FILL (R438). -/
  | cpFill (cmd : Nat)
  /-- CP.CADD (R440). -/
  | cpCadd (cmd : Nat)
  /-- CP.WAIT (R440). -/
  | cpWait (cmd : Nat)
  /-- CL.RSS (R443). -/
  | clRss (cmd : Nat)
  /-- CL.AGS (R443). -/
  | clAgs (cmd : Nat)
  /-- CL.SEND (R443). -/
  | clSend (cmd : Nat)
  /-- CL.RECVA (R443). -/
  | clRecva (cmd : Nat)
  /-- CL.RATE (R444). -/
  | clRate (cmd : Nat)
  /-- CTAGS_CLEAR of a core's copy tags (R393). -/
  | ctagsClear (core : Nat) (mask : Word)
  /-- QGRP_WRITE (R370). -/
  | qgrpWrite (ctx : Nat) (value : Word)
  /-- BOUND_WRITE (R207). -/
  | boundWrite (ctx : Nat) (value : Word)
  /-- SDOWN_GO (R505). -/
  | sdownGo (part : Nat) (value : Word)
  /-- SHOOTDOWN_REQUEST: a kind-6 record (R506). -/
  | shootdownRequest (fromDevice : Nat) (frame : Nat) (size : BitVec 2) (part : Nat)
  /-- SHOOTDOWN_ACK: a kind-7 record (R506). -/
  | shootdownAck (part : Nat) (device : Nat)
  /-- SHOOTDOWN_TIMEOUT (R506). -/
  | shootdownTimeout (part : Nat)
  /-- MCMD_READ (R511). -/
  | mcmdRead (ctx : Nat) (offset : BitVec 24)
  /-- MCMD_WRITE (R511). -/
  | mcmdWrite (ctx : Nat) (offset : BitVec 24)
  /-- FWWAKE_WRITE: a wake request to a core of a firmware complex (R514). -/
  | fwwakeWrite (complex : Nat) (core : BitVec 2)
  /-- LAUNCH_CONFIG_WRITE (R237, R238). -/
  | launchConfigWrite (part : Nat) (value : Record)
  /-- QUEUE_ENABLE (R239, R260). -/
  | queueEnable (q : Nat)
  /-- QUEUE_DISABLE (R239). -/
  | queueDisable (q : Nat)
  /-- QUEUE_CLEAR (R244). -/
  | queueClear (q : Nat)
  /-- PROD_WRITE (R240). -/
  | prodWrite (q : Nat) (prod : Word)
  /-- REGISTER_WRITE (R4, R239, R509). -/
  | registerWrite (target : RegTarget) (value : Word)
  /-- FAULT_QUEUE_HEAD_WRITE (R509). -/
  | faultQueueHeadWrite (part : Nat) (head : Word)
  /-- HOST_APERTURE_ACCESS: a doubleword read, or a write when data is given (R510). -/
  | hostApertureAccess (part : Nat) (va : Word) (data : Option Word)
  /-- PACKET_ISSUE (R243, R245). -/
  | packetIssue (q : Nat)
  /-- PHASE_CLEAN (R248). -/
  | phaseClean (q : Nat) (phase : Byte)
  /-- GANG_PLACE (R254, R259). -/
  | gangPlace (q : Nat)
  /-- GANG_AGE (R259). -/
  | gangAge (q : Nat)
  /-- CLOCK_SYNC_READ (R521). -/
  | clockSyncRead
  /-- CLOCK_SYNC_REPLY with the value t2 read (R521). -/
  | clockSyncReply (t2 : Nat)
  /-- CLOCK_SYNC_STALE (R522). -/
  | clockSyncStale
  /-- FLIT_RECEIVE on a die link's receiving end (R494). -/
  | flitReceive (link : Nat) (f : Flit)
  /-- NAK_RECEIVE at a die link's sending end (R495). -/
  | nakReceive (link : Nat) (ack : BitVec 16)
  /-- NAK_REPEAT by a receiver (R495). -/
  | nakRepeat (link : Nat)
  /-- LINK_RETRAIN_DONE, well or not (R495). -/
  | linkRetrainDone (link : Nat) (ok : Bool)
  /-- STATION_DOWN (R499, R501). -/
  | stationDown (station : Nat)
  /-- FABRIC_ATOMIC_REFUSED (R499). -/
  | fabricAtomicRefused (device : Nat)
  /-- MAILBOX_UNKNOWN_KIND (R503). -/
  | mailboxUnknownKind (record : Record)
  /-- WATCHDOG_EXPIRY (R516). -/
  | watchdogExpiry
  /-- MCTP_CONTROL message on the side-band port (R512). -/
  | mctpControl (message : List Byte)
  /-- PART_CREATE from physical clusters and an HBM range in 64 KB units (R508). -/
  | partCreate (part : Nat) (clusters : List Nat) (base limit : BitVec 23)
  /-- PART_DESTROY (R508). -/
  | partDestroy (part : Nat)
  /-- ACCESS_WRITE of an access-table entry (R314). -/
  | accessWrite (target : AccessTarget) (part cls : Nat) (entry : Word)
  /-- STATION_MAP: a source device's partition at a station, or none (R502). -/
  | stationMap (station device : Nat) (part : Option Nat)
  /-- QUEUE_ASSIGN (R239, R512). -/
  | queueAssign (q part : Nat) (hshare fshare : Byte)
  /-- TEARDOWN (R487). -/
  | teardown (part : Nat)
  /-- DEBUG_WRITE of a debug-table entry: actor or task armed, SS, sys.bpa and sys.wpa (R489). -/
  | debugWrite (index : Nat) (actor : Option Word) (tid : Option Word) (ss : Bool) (bpa wpa : Word)
  /-- RETIRE of a logical cluster (R498). -/
  | retire (part cluster : Nat)
  /-- COUNTERS (R512). -/
  | counters
  /-- FW_UPDATE (R516). -/
  | fwUpdate (image : Image)
  /-- CONFIG_WRITE (R519). -/
  | configWrite (image : Image)
  /-- ATTEST with a 32-byte nonce (R518). -/
  | attest (nonce : BitVec 256)
  /-- RESET of the device (R512). -/
  | reset
  /-- CORE_RESTART of a firmware-complex core that HALT has stopped (R118). -/
  | coreRestart (complex : Nat) (core : BitVec 2)
  /-- MEMORY_ERROR: one bit, or two bits, of the 64-bit word at a physical address fail where it is held (R320, R321). -/
  | memoryError (pa : Nat) (double : Bool) (site : ErrorSite)
deriving DecidableEq, Repr

end Sys2Proof
end

