-- ==== Sys2Proof/Syntax.lean ====
section
/-!
DEFINITION. The MZ4's operations, one constructor per row of spec/opcode_table.json: 268 instruction words
(spec/02_instruction_words.md R41, R54, R57) and 119 happenings (see Sys2Proof/Machine/Traffic.lean).  Words whose
formats carry operands stand first.
-/

namespace Sys2Proof

/-- One operation of the MZ4: a row of spec/opcode_table.json.  Field names are those of R42; a field an
instruction does not use is not carried, since it must be zero (R43). -/
inductive Instr where
  /-- ADD (R89). -/
  | add (d a b : Reg)
  /-- SUB (R89). -/
  | sub (d a b : Reg)
  /-- AND (R89). -/
  | and_ (d a b : Reg)
  /-- OR (R89). -/
  | or_ (d a b : Reg)
  /-- XOR (R89). -/
  | xor_ (d a b : Reg)
  /-- ANDN (R89). -/
  | andn (d a b : Reg)
  /-- ORN (R89). -/
  | orn (d a b : Reg)
  /-- XNOR (R89). -/
  | xnor (d a b : Reg)
  /-- SHL (R89). -/
  | shl (d a b : Reg)
  /-- SHR (R89). -/
  | shr (d a b : Reg)
  /-- SRA (R89). -/
  | sra (d a b : Reg)
  /-- ROL (R89). -/
  | rol (d a b : Reg)
  /-- ROR (R89). -/
  | ror (d a b : Reg)
  /-- MIN (R89). -/
  | min (d a b : Reg)
  /-- MAX (R89). -/
  | max (d a b : Reg)
  /-- MINN (R89). -/
  | minn (d a b : Reg)
  /-- MAXN (R89). -/
  | maxn (d a b : Reg)
  /-- SLT (R89). -/
  | slt (d a b : Reg)
  /-- SLTN (R89). -/
  | sltn (d a b : Reg)
  /-- SEQ (R89). -/
  | seq (d a b : Reg)
  /-- SNE (R89). -/
  | sne (d a b : Reg)
  /-- CLZ (R90). -/
  | clz (d a : Reg)
  /-- CTZ (R90). -/
  | ctz (d a : Reg)
  /-- POPC (R90). -/
  | popc (d a : Reg)
  /-- BREV (R90). -/
  | brev (d a : Reg)
  /-- BSWAP (R90). -/
  | bswap (d a : Reg)
  /-- SEXT (R91). -/
  | sext (xf : BitVec 4) (d a : Reg)
  /-- ZEXT (R91). -/
  | zext (xf : BitVec 4) (d a : Reg)
  /-- MUL (R92). -/
  | mul (la : BitVec 4) (d a b : Reg)
  /-- MULH (R92). -/
  | mulh (la : BitVec 4) (d a b : Reg)
  /-- MULHN (R92). -/
  | mulhn (la : BitVec 4) (d a b : Reg)
  /-- DIV (R92). -/
  | div (la : BitVec 4) (d a b : Reg)
  /-- DIVN (R92). -/
  | divn (la : BitVec 4) (d a b : Reg)
  /-- REM (R92). -/
  | rem (la : BitVec 4) (d a b : Reg)
  /-- REMN (R92). -/
  | remn (la : BitVec 4) (d a b : Reg)
  /-- CLMUL (R92). -/
  | clmul (la : BitVec 4) (d a b : Reg)
  /-- CLMULH (R92). -/
  | clmulh (la : BitVec 4) (d a b : Reg)
  /-- ADDI (R94). -/
  | addi (d a : Reg) (imm : BitVec 15)
  /-- ANDI (R94). -/
  | andi (d a : Reg) (imm : BitVec 15)
  /-- ORI (R94). -/
  | ori (d a : Reg) (imm : BitVec 15)
  /-- XORI (R94). -/
  | xori (d a : Reg) (imm : BitVec 15)
  /-- SHLI (R95). -/
  | shli (d a : Reg) (amt : BitVec 6)
  /-- SHRI (R95). -/
  | shri (d a : Reg) (amt : BitVec 6)
  /-- SRAI (R95). -/
  | srai (d a : Reg) (amt : BitVec 6)
  /-- RORI (R95). -/
  | rori (d a : Reg) (amt : BitVec 6)
  /-- SLTI (R94). -/
  | slti (d a : Reg) (imm : BitVec 15)
  /-- SLTNI (R94). -/
  | sltni (d a : Reg) (imm : BitVec 15)
  /-- SEQI (R94). -/
  | seqi (d a : Reg) (imm : BitVec 15)
  /-- LIH (R96). -/
  | lih (d : Reg) (imm : BitVec 20)
  /-- LOX (R97). -/
  | lox (d : BitVec 3) (a : Reg)
  /-- SOX (R97). -/
  | sox (d : Reg) (a : BitVec 3)
  /-- LD (R99). -/
  | ld (la : BitVec 4) (d a : Reg) (off : BitVec 8) (w : BitVec 3)
  /-- ST (R100). -/
  | st (d a : Reg) (off : BitVec 8) (w : BitVec 3)
  /-- BEQ (R106). -/
  | beq (a b : Reg) (off : BitVec 12)
  /-- BNE (R106). -/
  | bne (a b : Reg) (off : BitVec 12)
  /-- BLT (R106). -/
  | blt (a b : Reg) (off : BitVec 12)
  /-- BGE (R106). -/
  | bge (a b : Reg) (off : BitVec 12)
  /-- BLTN (R106). -/
  | bltn (a b : Reg) (off : BitVec 12)
  /-- BGEN (R106). -/
  | bgen (a b : Reg) (off : BitVec 12)
  /-- JAL (R107). -/
  | jal (d : Reg) (off : BitVec 20)
  /-- JALR (R107). -/
  | jalr (d a : Reg)
  /-- MFS (R111). -/
  | mfs (d : Reg) (sel : BitVec 11)
  /-- MTS (R111). -/
  | mts (sel : BitVec 11) (a : Reg)
  /-- TRAP (R112). -/
  | trap (sel : BitVec 11)
  /-- BRK (R112). -/
  | brk (sel : BitVec 11)
  /-- WAITI (R114). -/
  | waiti (d a : Reg)
  /-- TLBI (R116). -/
  | tlbi (a : Reg)
  /-- TLBA (R117). -/
  | tlba (d a : Reg)
  /-- C_ADD (R57). -/
  | cAdd (d b : Reg)
  /-- C_SUB (R57). -/
  | cSub (d b : Reg)
  /-- C_MOV (R57). -/
  | cMov (d b : Reg)
  /-- C_ADDI (R57). -/
  | cAddi (d : Reg) (imm : BitVec 5)
  /-- C_LI (R57). -/
  | cLi (d : Reg) (imm : BitVec 5)
  /-- C_AND (R57). -/
  | cAnd (d b : Reg)
  /-- C_OR (R57). -/
  | cOr (d b : Reg)
  /-- C_XOR (R57). -/
  | cXor (d b : Reg)
  /-- C_SHLI (R57). -/
  | cShli (d : Reg) (imm : BitVec 5)
  /-- C_SHRI (R57). -/
  | cShri (d : Reg) (imm : BitVec 5)
  /-- C_SRAI (R57). -/
  | cSrai (d : Reg) (imm : BitVec 5)
  /-- C_LDSP (R57). -/
  | cLdsp (d : Reg) (imm : BitVec 5)
  /-- C_STSP (R57). -/
  | cStsp (d : Reg) (imm : BitVec 5)
  /-- C_BEQZ (R57). -/
  | cBeqz (d : Reg) (imm : BitVec 5)
  /-- C_BNEZ (R57). -/
  | cBnez (d : Reg) (imm : BitVec 5)
  /-- C_J (R57). -/
  | cJ (off : BitVec 10)
  /-- C_JR (R57). -/
  | cJr (d : Reg)
  /-- VLD (R163). -/
  | vld (la : BitVec 4) (o : BitVec 1) (ty m : BitVec 3) (xb xa : Reg) (v : BitVec 4)
  /-- VLDS (R163). -/
  | vlds (la : BitVec 4) (o : BitVec 1) (ty m : BitVec 3) (xb xa : Reg) (v : BitVec 4)
  /-- VGATHER (R165). -/
  | vgather (la : BitVec 4) (ty m : BitVec 3) (xa : Reg) (vi v : BitVec 4)
  /-- VLDB (R166). -/
  | vldb (la : BitVec 4) (o : BitVec 1) (ty m : BitVec 3) (xb xa : Reg) (v : BitVec 4)
  /-- VST (R163). -/
  | vst (la : BitVec 4) (o : BitVec 1) (ty m : BitVec 3) (xb xa : Reg) (v : BitVec 4)
  /-- VSTS (R163). -/
  | vsts (la : BitVec 4) (o : BitVec 1) (ty m : BitVec 3) (xb xa : Reg) (v : BitVec 4)
  /-- VSCATTER (R165). -/
  | vscatter (la : BitVec 4) (ty m : BitVec 3) (xa : Reg) (vi v : BitVec 4)
  /-- VLDBC (R168). -/
  | vldbc (la : BitVec 4) (o : BitVec 1) (m : BitVec 3) (xb xa : Reg) (v : BitVec 4)
  /-- VADD (R170). -/
  | vadd (la : BitVec 4) (ty m : BitVec 3) (vb va vd : BitVec 4)
  /-- VSUB (R170). -/
  | vsub (la : BitVec 4) (ty m : BitVec 3) (vb va vd : BitVec 4)
  /-- VMUL (R170). -/
  | vmul (la : BitVec 4) (ty m : BitVec 3) (vb va vd : BitVec 4)
  /-- VMIN (R170). -/
  | vmin (la : BitVec 4) (ty m : BitVec 3) (vb va vd : BitVec 4)
  /-- VMAX (R170). -/
  | vmax (la : BitVec 4) (ty m : BitVec 3) (vb va vd : BitVec 4)
  /-- VDIV (R170). -/
  | vdiv (la : BitVec 4) (ty m : BitVec 3) (vb va vd : BitVec 4)
  /-- VABS (R170). -/
  | vabs (la : BitVec 4) (ty m : BitVec 3) (va vd : BitVec 4)
  /-- VNEG (R170). -/
  | vneg (la : BitVec 4) (ty m : BitVec 3) (va vd : BitVec 4)
  /-- VFMA (R170). -/
  | vfma (la : BitVec 4) (ty m : BitVec 3) (vb va vd : BitVec 4)
  /-- VFMS (R170). -/
  | vfms (la : BitVec 4) (ty m : BitVec 3) (vb va vd : BitVec 4)
  /-- VFNMA (R170). -/
  | vfnma (la : BitVec 4) (ty m : BitVec 3) (vb va vd : BitVec 4)
  /-- VSQRT (R170). -/
  | vsqrt (la : BitVec 4) (ty m : BitVec 3) (va vd : BitVec 4)
  /-- VCPS (R170). -/
  | vcps (la : BitVec 4) (ty m : BitVec 3) (vb va vd : BitVec 4)
  /-- VIADD (R172). -/
  | viadd (la : BitVec 4) (ty m : BitVec 3) (vb va vd : BitVec 4)
  /-- VISUB (R172). -/
  | visub (la : BitVec 4) (ty m : BitVec 3) (vb va vd : BitVec 4)
  /-- VIMUL (R172). -/
  | vimul (la : BitVec 4) (ty m : BitVec 3) (vb va vd : BitVec 4)
  /-- VAND (R172). -/
  | vand (la : BitVec 4) (ty m : BitVec 3) (vb va vd : BitVec 4)
  /-- VOR (R172). -/
  | vor (la : BitVec 4) (ty m : BitVec 3) (vb va vd : BitVec 4)
  /-- VXOR (R172). -/
  | vxor (la : BitVec 4) (ty m : BitVec 3) (vb va vd : BitVec 4)
  /-- VIMIN (R172). -/
  | vimin (la : BitVec 4) (ty m : BitVec 3) (vb va vd : BitVec 4)
  /-- VIMAX (R172). -/
  | vimax (la : BitVec 4) (ty m : BitVec 3) (vb va vd : BitVec 4)
  /-- VSHL (R172). -/
  | vshl (la : BitVec 4) (ty m : BitVec 3) (vb va vd : BitVec 4)
  /-- VSHR (R172). -/
  | vshr (la : BitVec 4) (ty m : BitVec 3) (vb va vd : BitVec 4)
  /-- VSRA (R172). -/
  | vsra (la : BitVec 4) (ty m : BitVec 3) (vb va vd : BitVec 4)
  /-- VCLMUL (R172). -/
  | vclmul (la : BitVec 4) (ty m : BitVec 3) (vb va vd : BitVec 4)
  /-- VPOPC (R172). -/
  | vpopc (la : BitVec 4) (ty m : BitVec 3) (va vd : BitVec 4)
  /-- VCLZ (R172). -/
  | vclz (la : BitVec 4) (ty m : BitVec 3) (va vd : BitVec 4)
  /-- VCEQ (R173). -/
  | vceq (la : BitVec 4) (ty m : BitVec 3) (vb va : BitVec 4) (vd : BitVec 3)
  /-- VCNE (R173). -/
  | vcne (la : BitVec 4) (ty m : BitVec 3) (vb va : BitVec 4) (vd : BitVec 3)
  /-- VCLT (R173). -/
  | vclt (la : BitVec 4) (ty m : BitVec 3) (vb va : BitVec 4) (vd : BitVec 3)
  /-- VCLE (R173). -/
  | vcle (la : BitVec 4) (ty m : BitVec 3) (vb va : BitVec 4) (vd : BitVec 3)
  /-- VCGT (R173). -/
  | vcgt (la : BitVec 4) (ty m : BitVec 3) (vb va : BitVec 4) (vd : BitVec 3)
  /-- VCGE (R173). -/
  | vcge (la : BitVec 4) (ty m : BitVec 3) (vb va : BitVec 4) (vd : BitVec 3)
  /-- VSEL (R174). -/
  | vsel (la : BitVec 4) (ty m : BitVec 3) (vb va vd : BitVec 4)
  /-- VCLASS (R174). -/
  | vclass (la : BitVec 4) (ty m : BitVec 3) (va vd : BitVec 4)
  /-- VEXP2 (R175). -/
  | vexp2 (la : BitVec 4) (ty m : BitVec 3) (va vd : BitVec 4)
  /-- VLOG2 (R175). -/
  | vlog2 (la : BitVec 4) (ty m : BitVec 3) (va vd : BitVec 4)
  /-- VRCP (R175). -/
  | vrcp (la : BitVec 4) (ty m : BitVec 3) (va vd : BitVec 4)
  /-- VRSQ (R175). -/
  | vrsq (la : BitVec 4) (ty m : BitVec 3) (va vd : BitVec 4)
  /-- VTANH (R175). -/
  | vtanh (la : BitVec 4) (ty m : BitVec 3) (va vd : BitVec 4)
  /-- VSIG (R175). -/
  | vsig (la : BitVec 4) (ty m : BitVec 3) (va vd : BitVec 4)
  /-- VSIN (R175). -/
  | vsin (la : BitVec 4) (ty m : BitVec 3) (va vd : BitVec 4)
  /-- VCOS (R175). -/
  | vcos (la : BitVec 4) (ty m : BitVec 3) (va vd : BitVec 4)
  /-- VCVT (R176). -/
  | vcvt (la : BitVec 4) (m rm : BitVec 2) (tyd tys : BitVec 3) (va vd : BitVec 4)
  /-- VWIDEN (R177). -/
  | vwiden (la : BitVec 4) (m rm : BitVec 2) (tyd tys : BitVec 3) (va vd : BitVec 4)
  /-- VNARROW (R177). -/
  | vnarrow (la : BitVec 4) (m rm : BitVec 2) (tyd tys : BitVec 3) (va vd : BitVec 4)
  /-- VQNT (R180). -/
  | vqnt (la : BitVec 4) (m rm : BitVec 2) (tyd tys : BitVec 3) (va vd : BitVec 4)
  /-- VQMAX (R178). -/
  | vqmax (la : BitVec 4) (m : BitVec 2) (tyd tys : BitVec 3) (va vd : BitVec 4)
  /-- VRNG (R181). -/
  | vrng (la : BitVec 4) (m : BitVec 2) (tyd : BitVec 3) (vd : BitVec 4)
  /-- VRSUM (R182). -/
  | vrsum (la : BitVec 4) (ty m : BitVec 3) (va vd : BitVec 4)
  /-- VRMAX (R182). -/
  | vrmax (la : BitVec 4) (ty m : BitVec 3) (va vd : BitVec 4)
  /-- VRMIN (R182). -/
  | vrmin (la : BitVec 4) (ty m : BitVec 3) (va vd : BitVec 4)
  /-- VRBAND (R182). -/
  | vrband (la : BitVec 4) (ty m : BitVec 3) (va vd : BitVec 4)
  /-- VRBOR (R182). -/
  | vrbor (la : BitVec 4) (ty m : BitVec 3) (va vd : BitVec 4)
  /-- VRBXOR (R182). -/
  | vrbxor (la : BitVec 4) (ty m : BitVec 3) (va vd : BitVec 4)
  /-- VDOT (R182). -/
  | vdot (la : BitVec 4) (ty m : BitVec 3) (vb va vd : BitVec 4)
  /-- VRSUMA (R184). -/
  | vrsuma (la : BitVec 4) (ty m : BitVec 3) (vb va vd : BitVec 4)
  /-- VSHUF (R185). -/
  | vshuf (la : BitVec 4) (ty m : BitVec 3) (vb va vd : BitVec 4)
  /-- VROT (R185). -/
  | vrot (la : BitVec 4) (ty m : BitVec 3) (vb va vd : BitVec 4)
  /-- VSLIDE (R185). -/
  | vslide (la : BitVec 4) (ty m : BitVec 3) (vb va vd : BitVec 4)
  /-- VCMPR (R185). -/
  | vcmpr (la : BitVec 4) (ty m : BitVec 3) (va vd : BitVec 4)
  /-- VEXPD (R185). -/
  | vexpd (la : BitVec 4) (ty m : BitVec 3) (va vd : BitVec 4)
  /-- VIOTA (R185). -/
  | viota (la : BitVec 4) (ty m : BitVec 3) (vd : BitVec 4)
  /-- VBCAST (R185). -/
  | vbcast (la : BitVec 4) (ty m : BitVec 3) (va vd : BitVec 4)
  /-- VZIP (R185). -/
  | vzip (la : BitVec 4) (ty m : BitVec 3) (vb va vd : BitVec 4)
  /-- VGET (R186). -/
  | vget (la : BitVec 4) (ty : BitVec 3) (x : Reg) (va : BitVec 4)
  /-- VPUT (R186). -/
  | vput (la : BitVec 4) (ty : BitVec 3) (x : Reg) (va vd : BitVec 4)
  /-- VSPLAT (R186). -/
  | vsplat (la : BitVec 4) (ty m : BitVec 3) (x : Reg) (vd : BitVec 4)
  /-- VMOV (R186). -/
  | vmov (la : BitVec 4) (ty m : BitVec 3) (va vd : BitVec 4)
  /-- MAND (R187). -/
  | mand (la : BitVec 4) (vb va vd : BitVec 3)
  /-- MOR (R187). -/
  | mor (la : BitVec 4) (vb va vd : BitVec 3)
  /-- MXOR (R187). -/
  | mxor (la : BitVec 4) (vb va vd : BitVec 3)
  /-- MNOT (R187). -/
  | mnot (la : BitVec 4) (va vd : BitVec 3)
  /-- MPOPC (R187). -/
  | mpopc (la : BitVec 4) (va : BitVec 3) (vd : BitVec 4)
  /-- MFIRST (R187). -/
  | mfirst (la : BitVec 4) (va : BitVec 3) (vd : BitVec 4)
  /-- MSET (R187). -/
  | mset (la vb va : BitVec 4) (vd : BitVec 3)
  /-- MGET (R187). -/
  | mget (la vb : BitVec 4) (va : BitVec 3) (vd : BitVec 4)
  /-- VCHAIN (R188). -/
  | vchain (la : BitVec 4) (ty : BitVec 3) (va vd : BitVec 4)
  /-- VCHAINR (R188). -/
  | vchainr (la : BitVec 4) (ty : BitVec 3) (va vd : BitVec 4)
  /-- FORK (R264). -/
  | fork (d a b : Reg)
  /-- JOIN (R267). -/
  | join (d : Reg)
  /-- YIELD (R269). -/
  | yield (d : Reg)
  /-- DOMAIN (R270). -/
  | domain (d a : Reg)
  /-- SPAWNQ (R271). -/
  | spawnq (d : Reg)
  /-- LEAD (R272). -/
  | lead (d a b : Reg)
  /-- FOLLOW (R273). -/
  | follow (d a b : Reg)
  /-- BRI (R275). -/
  | bri (a b : Reg) (off : BitVec 12)
  /-- POST (R276). -/
  | post (d a b : Reg)
  /-- POSTD (R276). -/
  | postd (d a b : Reg)
  /-- SAFEW (R279). -/
  | safew (d a : Reg)
  /-- DLN (R279). -/
  | dln (d a : Reg)
  /-- TAGR (R279). -/
  | tagr (d a : Reg)
  /-- CLKR (R282). -/
  | clkr (d : Reg)
  /-- LATEQ (R283). -/
  | lateq (d a : Reg)
  /-- SEND (R285). -/
  | send (la : BitVec 4) (d a b : Reg)
  /-- RECV (R285). -/
  | recv (la : BitVec 4) (d a b : Reg)
  /-- RECVW (R285). -/
  | recvw (la : BitVec 4) (d a b : Reg)
  /-- EPBIND (R287). -/
  | epbind (la : BitVec 4) (d a : Reg)
  /-- EPFREE (R287). -/
  | epfree (la : BitVec 4) (d a : Reg)
  /-- EPWHERE (R287). -/
  | epwhere (la : BitVec 4) (d a : Reg)
  /-- PRIO (R289). -/
  | prio (d a : Reg)
  /-- PRIOQ (R289). -/
  | prioq (d a : Reg)
  /-- PHASE (R351). -/
  | phase (sc : BitVec 2)
  /-- FENCE (R352). -/
  | fence (sc : BitVec 2)
  /-- ACQ (R352). -/
  | acq (sc : BitVec 2)
  /-- REL (R352). -/
  | rel (sc : BitVec 2)
  /-- PWAIT (R354). -/
  | pwait (sc : BitVec 2) (d a b : Reg)
  /-- PHINT (R355). -/
  | phint (d a b : Reg)
  /-- CADD (R356). -/
  | cadd (la : BitVec 4) (sc : BitVec 2) (d a b : Reg)
  /-- CWAIT (R356). -/
  | cwait (la : BitVec 4) (sc : BitVec 2) (d a b : Reg)
  /-- CREAD (R358). -/
  | cread (la : BitVec 4) (sc : BitVec 2) (d a : Reg)
  /-- CREG (R359). -/
  | creg (la : BitVec 4) (sc : BitVec 2) (d a b : Reg)
  /-- CUNREG (R360). -/
  | cunreg (la : BitVec 4) (d a : Reg)
  /-- WAITA (R363). -/
  | waita (la : BitVec 4) (sc : BitVec 2) (d a b : Reg)
  /-- WAITAT (R363). -/
  | waitat (la : BitVec 4) (sc : BitVec 2) (d a b : Reg)
  /-- RDADD (R364). -/
  | rdadd (la : BitVec 4) (sc : BitVec 2) (d a b : Reg)
  /-- RDADDF (R364). -/
  | rdaddf (la : BitVec 4) (sc : BitVec 2) (d a b : Reg)
  /-- RDADDA (R364). -/
  | rdadda (la : BitVec 4) (sc : BitVec 2) (d a b : Reg)
  /-- RDMAX (R364). -/
  | rdmax (la : BitVec 4) (sc : BitVec 2) (d a b : Reg)
  /-- RDMIN (R364). -/
  | rdmin (la : BitVec 4) (sc : BitVec 2) (d a b : Reg)
  /-- RDAND (R364). -/
  | rdand (la : BitVec 4) (sc : BitVec 2) (d a b : Reg)
  /-- RDIOR (R364). -/
  | rdior (la : BitVec 4) (sc : BitVec 2) (d a b : Reg)
  /-- RDXOR (R364). -/
  | rdxor (la : BitVec 4) (sc : BitVec 2) (d a b : Reg)
  /-- SUBS (R365). -/
  | subs (d a b : Reg)
  /-- UNSUB (R366). -/
  | unsub (d a : Reg)
  /-- SFLUSH (R367). -/
  | sflush (d : Reg)
  /-- SSTAT (R368). -/
  | sstat (d a : Reg)
  /-- CLAIM (R374). -/
  | claim (d a b : Reg)
  /-- OBJECT (R374). -/
  | object (d a b : Reg)
  /-- CLAIMW (R376). -/
  | claimw (d a : Reg)
  /-- CWIN (R373). -/
  | cwin (d a b : Reg)
  /-- CFLUSH (R377). -/
  | cflush (d a b : Reg)
  /-- CINV (R377). -/
  | cinv (d a b : Reg)
  /-- BMODE (R377). -/
  | bmode (d a b : Reg)
  /-- BQRY (R378). -/
  | bqry (d a : Reg)
  /-- PREF (R379). -/
  | pref (a : Reg)
  /-- MCST (R380). -/
  | mcst (sc : BitVec 2) (d a b : Reg)
  /-- EFORK (R445). -/
  | efork (d a : Reg)
  /-- ERDV (R446). -/
  | erdv (d a : Reg)
  /-- EPUSH (R448). -/
  | epush (d a b : Reg)
  /-- ESTAT (R447). -/
  | estat (d a : Reg)
  /-- EABORT (R449). -/
  | eabort (d a b : Reg)
  /-- MCLAIM (R450). -/
  | mclaim (d a b : Reg)
  /-- MREL (R450). -/
  | mrel (d a b : Reg)
  /-- MMAP (R450). -/
  | mmap (d a b : Reg)
  /-- MJOIN (R450). -/
  | mjoin (d a : Reg)
  /-- TWANY (R452). -/
  | twany (d a b : Reg)
  /-- TWALL (R452). -/
  | twall (d a b : Reg)
  /-- TFIRST (R453). -/
  | tfirst (d a : Reg)
  /-- TCLR (R453). -/
  | tclr (d a : Reg)
  /-- SJOIN (R454). -/
  | sjoin (d a b : Reg)
  /-- SLEAVE (R454). -/
  | sleave (d a : Reg)
  /-- SCIN (R455). -/
  | scin (d a b : Reg)
  /-- SCOUT (R455). -/
  | scout (d a b : Reg)
  /-- DADD (R456). -/
  | dadd (la : BitVec 4) (m : BitVec 3) (vb va vd : BitVec 4)
  /-- DSUB (R456). -/
  | dsub (la : BitVec 4) (m : BitVec 3) (vb va vd : BitVec 4)
  /-- DMUL (R456). -/
  | dmul (la : BitVec 4) (m : BitVec 3) (vb va vd : BitVec 4)
  /-- DFMA (R456). -/
  | dfma (la : BitVec 4) (m : BitVec 3) (vb va vd : BitVec 4)
  /-- DDIV (R456). -/
  | ddiv (la : BitVec 4) (m : BitVec 3) (vb va vd : BitVec 4)
  /-- DSQRT (R456). -/
  | dsqrt (la : BitVec 4) (m : BitVec 3) (va vd : BitVec 4)
  /-- DCVT (R457). -/
  | dcvt (la : BitVec 4) (ty m : BitVec 3) (vb va vd : BitVec 4)
  /-- DMIN (R456). -/
  | dmin (la : BitVec 4) (m : BitVec 3) (vb va vd : BitVec 4)
  /-- VERF (R458). -/
  | verf (la : BitVec 4) (ty m : BitVec 3) (va vd : BitVec 4)
  /-- VLGAM (R458). -/
  | vlgam (la : BitVec 4) (ty m : BitVec 3) (va vd : BitVec 4)
  /-- VPOW (R458). -/
  | vpow (la : BitVec 4) (ty m : BitVec 3) (vb va vd : BitVec 4)
  /-- VATN2 (R458). -/
  | vatn2 (la : BitVec 4) (ty m : BitVec 3) (vb va vd : BitVec 4)
  /-- ERET (R113). -/
  | eret
  /-- SYNCI (R115). -/
  | synci
  /-- HALT (R118). -/
  | halt
  /-- C_RET (R57). -/
  | cRet
  /-- C_NOP (R57). -/
  | cNop
  /-- EXIT (R268). -/
  | exit_
  /-- DETACH (R274). -/
  | detach
  /-- REND (R278). -/
  | rend
  /-- FENCER (R353). -/
  | fencer
  /-- ILLEGAL_INSTRUCTION (R59). -/
  | illegalInstruction
  /-- EXTENSION_MIGRATION (R61, R484). -/
  | extensionMigration (xf64 : Bool)
  /-- LOAD_REPLY (R318, R479). -/
  | loadReply (tid : Word) (dest : Reg) (value : Word) (level hops queue : Nat)
  /-- STORE_ACK (R301). -/
  | storeAck (tid : Word) (part : Nat) (refusal : Option Record) (level : Nat)
  /-- HOME_REQUEST (R307, R315). -/
  | homeRequest (q : HomeReq)
  /-- WAIT_ENTRY_WAKE (R337). -/
  | waitEntryWake (tid : Word) (pa : Nat) (value : Word)
  /-- WAITAT_TIMEOUT (R363). -/
  | waitatTimeout (tid : Word) (pa : Nat)
  /-- SYSTEM_ATOMIC_REQUEST (R349, R503). -/
  | systemAtomicRequest (who : Asker) (op : AgentOp) (pa : Nat) (operand : Word) (reply : Bool)
  /-- FABRIC_REQUEST_TIMEOUT (R504). -/
  | fabricRequestTimeout (q : HomeReq)
  /-- FIFO_PUSH (R304). -/
  | fifoPush (o : Origin) (bank : Nat) (value : Word)
  /-- FIFO_POP (R304). -/
  | fifoPop (tid : Word) (bank : Nat) (dest : Reg)
  /-- FIFO_COUNT (R304). -/
  | fifoCount (tid : Word) (bank : Nat) (dest : Reg)
  /-- FIFO_HELD_PUSH_DONE (R304). -/
  | fifoHeldPushDone (bank : Nat)
  /-- FIFO_HELD_POP_DONE (R305). -/
  | fifoHeldPopDone (bank : Nat)
  /-- BANK_SWITCH_DONE (R306). -/
  | bankSwitchDone (bank : Nat)
  /-- SUBSCRIPTION_UPDATE (R340). -/
  | subscriptionUpdate (sub : Nat) (cells : List Cell) (sent : Before) (release : Option Before)
  /-- OBJECTION_ARRIVAL (R344). -/
  | objectionArrival (addr : Word) (claimer : BitVec 26) (cause : Byte) (objector : Objector) (tag : Tag)
      (late : Option (Nat × Nat))
  /-- CLAIM_DECISION (R344 to R346). -/
  | claimDecision (news : ClaimNews)
  /-- CLAIM_RECORD_EXPIRY (R374). -/
  | claimRecordExpiry (part : Nat) (actor : Word) (addr : Word) (claimer : BitVec 26)
  /-- EVENT_ARRIVAL (R202, R528). -/
  | eventArrival (e : Event)
  /-- EVENT_FORWARD (R197, R202). -/
  | eventForward (e : Event)
  /-- EVENT_SAFE (R209). -/
  | eventSafe (part : Nat) (actor : Word)
  /-- DISPATCH_PICK (R221, R249). -/
  | dispatchPick (ctx : Nat)
  /-- SWITCH_OUT (R476). -/
  | switchOut (ctx : Nat)
  /-- ACTOR_MOVE (R197). -/
  | actorMove (part : Nat) (actor : Word) (core : Nat)
  /-- STEAL_REQUEST (R220). -/
  | stealRequest (ctx : Nat)
  /-- STEAL_ANSWER (R220). -/
  | stealAnswer (q : StealReq)
  /-- PRIORITY_RAISE (R253). -/
  | priorityRaise (tid : Word) (raise : Raise)
  /-- PHINT_EXPIRY (R355). -/
  | phintExpiry (core : Nat) (actor : Word)
  /-- MESSAGE_ARRIVAL (R234). -/
  | messageArrival (m : Message)
  /-- MESSAGE_FORWARD (R232). -/
  | messageForward (m : Message)
  /-- MESSAGE_REFUSED (R234). -/
  | messageRefused (m : Message)
  /-- DIRECTORY_REQUEST (R230, R287, R371). -/
  | directoryRequest (who : Asker) (dest : Reg) (r : DirRequest)
  /-- STUB_EXPIRY (R231). -/
  | stubExpiry (name : BitVec 32)
  /-- WAITI_WAKE (R114). -/
  | waitiWake (ctx : Nat)
  /-- WAITI_TIMEOUT (R114). -/
  | waitiTimeout (ctx : Nat)
  /-- JOIN_COMPLETE (R267). -/
  | joinComplete (ctx : Nat)
  /-- SAFEW_COMPLETE (R279). -/
  | safewComplete (ctx : Nat)
  /-- LEAD_TIMEOUT (R272). -/
  | leadTimeout (ctx : Nat)
  /-- FOLLOW_TIMEOUT (R273). -/
  | followTimeout (ctx : Nat)
  /-- TWAIT_LIMIT (R452). -/
  | twaitLimit (ctx : Nat)
  /-- COMMAND_PORT_WRITE (R384). -/
  | commandPortWrite (o : Origin) (engine : Nat) (cmd : Record)
  /-- STAGING_STORE (R384). -/
  | stagingStore (o : Origin) (engine : Nat) (offset : Nat) (bytes : List Byte)
  /-- STAGING_COMMIT (R384). -/
  | stagingCommit (o : Origin) (engine : Nat) (value : Word)
  /-- PUSH_HELD_ACCEPT (R385). -/
  | pushHeldAccept (core : Nat) (engine : Nat)
  /-- PROGRAM_RECORD_READ (R391). -/
  | programRecordRead (program : Nat)
  /-- COMMAND_COMPLETE (R389). -/
  | commandComplete (cmd : Nat)
  /-- CARRY_DELIVERY (R407). -/
  | carryDelivery (chain position : Nat)
  /-- COLLECTIVE_PARTIAL (R442, R538). -/
  | collectivePartial (p : Partial)
  /-- MX (R425). -/
  | mxFill (cmd : Nat)
  /-- MX (R426). -/
  | mxMma (cmd : Nat)
  /-- MX (R432). -/
  | mxJoint (cmd : Nat)
  /-- MX (R428). -/
  | mxOut (cmd : Nat)
  /-- MX (R429). -/
  | mxZero (cmd : Nat)
  /-- MX (R430). -/
  | mxRdacc (cmd : Nat)
  /-- SC (R434). -/
  | scLin (cmd : Nat)
  /-- SC (R434). -/
  | scPfx (cmd : Nat)
  /-- SC (R437). -/
  | scSeed (cmd : Nat)
  /-- SC (R436). -/
  | scSeg (cmd : Nat)
  /-- CP (R438). -/
  | cpCopy (cmd : Nat)
  /-- CP (R439). -/
  | cpGather (cmd : Nat)
  /-- CP (R439). -/
  | cpScatter (cmd : Nat)
  /-- CP (R438). -/
  | cpFill (cmd : Nat)
  /-- CP (R440). -/
  | cpCadd (cmd : Nat)
  /-- CP (R440). -/
  | cpWait (cmd : Nat)
  /-- CL (R443). -/
  | clRss (cmd : Nat)
  /-- CL (R443). -/
  | clAgs (cmd : Nat)
  /-- CL (R443). -/
  | clSend (cmd : Nat)
  /-- CL (R443). -/
  | clRecva (cmd : Nat)
  /-- CL (R444). -/
  | clRate (cmd : Nat)
  /-- CTAGS_CLEAR (R393). -/
  | ctagsClear (core : Nat) (mask : Word)
  /-- QGRP_WRITE (R370). -/
  | qgrpWrite (ctx : Nat) (value : Word)
  /-- BOUND_WRITE (R207). -/
  | boundWrite (ctx : Nat) (value : Word)
  /-- SDOWN_GO (R505). -/
  | sdownGo (part : Nat) (value : Word)
  /-- SHOOTDOWN_REQUEST (R506). -/
  | shootdownRequest (fromDevice : Nat) (frame : Nat) (size : BitVec 2) (part : Nat)
  /-- SHOOTDOWN_ACK (R506). -/
  | shootdownAck (part : Nat) (device : Nat)
  /-- SHOOTDOWN_TIMEOUT (R506). -/
  | shootdownTimeout (part : Nat)
  /-- MCMD_READ (R511). -/
  | mcmdRead (ctx : Nat) (offset : BitVec 24)
  /-- MCMD_WRITE (R511). -/
  | mcmdWrite (ctx : Nat) (offset : BitVec 24)
  /-- FWWAKE_WRITE (R514). -/
  | fwwakeWrite (complex : Nat) (core : BitVec 2)
  /-- LAUNCH_CONFIG_WRITE (R237, R238). -/
  | launchConfigWrite (part : Nat) (value : Record)
  /-- QUEUE_ENABLE (R239, R260). -/
  | queueEnable (q : Nat)
  /-- QUEUE_DISABLE (R239). -/
  | queueDisable (q : Nat)
  /-- QUEUE_CLEAR (R244). -/
  | queueClear (q : Nat)
  /-- PROD_WRITE (R240). -/
  | prodWrite (q : Nat) (prod : Word)
  /-- REGISTER_WRITE (R4, R239, R509). -/
  | registerWrite (target : RegTarget) (value : Word)
  /-- FAULT_QUEUE_HEAD_WRITE (R509). -/
  | faultQueueHeadWrite (part : Nat) (head : Word)
  /-- HOST_APERTURE_ACCESS (R510). -/
  | hostApertureAccess (part : Nat) (va : Word) (data : Option Word)
  /-- PACKET_ISSUE (R243, R245). -/
  | packetIssue (q : Nat)
  /-- PHASE_CLEAN (R248). -/
  | phaseClean (q : Nat) (phase : Byte)
  /-- GANG_PLACE (R254, R259). -/
  | gangPlace (q : Nat)
  /-- GANG_AGE (R259). -/
  | gangAge (q : Nat)
  /-- CLOCK_SYNC_READ (R521). -/
  | clockSyncRead
  /-- CLOCK_SYNC_REPLY (R521). -/
  | clockSyncReply (t2 : Nat)
  /-- CLOCK_SYNC_STALE (R522). -/
  | clockSyncStale
  /-- FLIT_RECEIVE (R494). -/
  | flitReceive (link : Nat) (f : Flit)
  /-- NAK_RECEIVE (R495). -/
  | nakReceive (link : Nat) (ack : BitVec 16)
  /-- NAK_REPEAT (R495). -/
  | nakRepeat (link : Nat)
  /-- LINK_RETRAIN_DONE (R495). -/
  | linkRetrainDone (link : Nat) (ok : Bool)
  /-- STATION_DOWN (R499, R501). -/
  | stationDown (station : Nat)
  /-- FABRIC_ATOMIC_REFUSED (R499). -/
  | fabricAtomicRefused (device : Nat)
  /-- MAILBOX_UNKNOWN_KIND (R503). -/
  | mailboxUnknownKind (record : Record)
  /-- WATCHDOG_EXPIRY (R516). -/
  | watchdogExpiry
  /-- MCTP_CONTROL (R512). -/
  | mctpControl (message : List Byte)
  /-- PART_CREATE (R508). -/
  | partCreate (part : Nat) (clusters : List Nat) (base limit : BitVec 23)
  /-- PART_DESTROY (R508). -/
  | partDestroy (part : Nat)
  /-- ACCESS_WRITE (R314). -/
  | accessWrite (target : AccessTarget) (part cls : Nat) (entry : Word)
  /-- STATION_MAP (R502). -/
  | stationMap (station device : Nat) (part : Option Nat)
  /-- QUEUE_ASSIGN (R239, R512). -/
  | queueAssign (q part : Nat) (hshare fshare : Byte)
  /-- TEARDOWN (R487). -/
  | teardown (part : Nat)
  /-- DEBUG_WRITE (R489). -/
  | debugWrite (index : Nat) (actor : Option Word) (tid : Option Word) (ss : Bool) (bpa wpa : Word)
  /-- RETIRE (R498). -/
  | retire (part cluster : Nat)
  /-- COUNTERS (R512). -/
  | counters
  /-- FW_UPDATE (R516). -/
  | fwUpdate (image : Image)
  /-- CONFIG_WRITE (R519). -/
  | configWrite (image : Image)
  /-- ATTEST (R518). -/
  | attest (nonce : BitVec 256)
  /-- RESET (R512). -/
  | reset
  /-- CORE_RESTART (R118). -/
  | coreRestart (complex : Nat) (core : BitVec 2)
  /-- MEMORY_ERROR (R320, R321). -/
  | memoryError (pa : Nat) (double : Bool) (site : ErrorSite)
deriving DecidableEq, Repr

end Sys2Proof
end

