-- ==== Sys2Proof/WellFormed.lean ====
section
/-!
DEFINITION. Which field values an instruction accepts (spec/02_instruction_words.md R42, R43, R55; spec/06 R155, R156
and the descriptions it points to; spec/16 R457, R458; spec/01 R18).  A field an instruction does not use has no value
here: the decoder refuses it when it is not zero.
-/

namespace Sys2Proof

/-- Element size in bytes of a type code (R42, R153). -/
def typeSize (ty : BitVec 3) : Nat :=
  match ty.toNat with
  | 0 => 4 | 5 => 4 | 1 => 2 | 2 => 2 | 6 => 2 | _ => 1

/-- f32, bf16 or f16 (R156). -/
def floatType (ty : BitVec 3) : Bool := decide (ty.toNat < 3)

/-- i32, i16 or i8 (R156). -/
def intType (ty : BitVec 3) : Bool := decide (5 ≤ ty.toNat)

/-- The selectors that name a system register (R19, R203, R291, R372, R393, R398, R461, R500, R505, R511, R514, R522,
R524). -/
def assignedSelector (sel : BitVec 11) : Bool :=
  let n := sel.toNat
  decide (n ≤ 0x008) || (decide (0x100 ≤ n) && decide (n ≤ 0x107)) || (decide (0x200 ≤ n) && decide (n ≤ 0x204)) ||
  (decide (0x210 ≤ n) && decide (n ≤ 0x21F)) || n == 0x300 || (decide (0x380 ≤ n) && decide (n ≤ 0x3FF)) ||
  (decide (0x400 ≤ n) && decide (n ≤ 0x409)) || (decide (0x500 ≤ n) && decide (n ≤ 0x503)) ||
  (decide (0x600 ≤ n) && decide (n ≤ 0x607))

/-- Whether every field holds a value that the instruction accepts. -/
def Instr.wf : Instr → Bool
  | .add _ _ _ => true
  | .sub _ _ _ => true
  | .and_ _ _ _ => true
  | .or_ _ _ _ => true
  | .xor_ _ _ _ => true
  | .andn _ _ _ => true
  | .orn _ _ _ => true
  | .xnor _ _ _ => true
  | .shl _ _ _ => true
  | .shr _ _ _ => true
  | .sra _ _ _ => true
  | .rol _ _ _ => true
  | .ror _ _ _ => true
  | .min _ _ _ => true
  | .max _ _ _ => true
  | .minn _ _ _ => true
  | .maxn _ _ _ => true
  | .slt _ _ _ => true
  | .sltn _ _ _ => true
  | .seq _ _ _ => true
  | .sne _ _ _ => true
  | .clz _ _ => true
  | .ctz _ _ => true
  | .popc _ _ => true
  | .brev _ _ => true
  | .bswap _ _ => true
  | .sext xf _ _ => decide (xf.toNat < 3)
  | .zext xf _ _ => decide (xf.toNat < 3)
  | .mul _ _ _ _ => true
  | .mulh _ _ _ _ => true
  | .mulhn _ _ _ _ => true
  | .div _ _ _ _ => true
  | .divn _ _ _ _ => true
  | .rem _ _ _ _ => true
  | .remn _ _ _ _ => true
  | .clmul _ _ _ _ => true
  | .clmulh _ _ _ _ => true
  | .addi _ _ _ => true
  | .andi _ _ _ => true
  | .ori _ _ _ => true
  | .xori _ _ _ => true
  | .shli _ _ _ => true
  | .shri _ _ _ => true
  | .srai _ _ _ => true
  | .rori _ _ _ => true
  | .slti _ _ _ => true
  | .sltni _ _ _ => true
  | .seqi _ _ _ => true
  | .lih _ _ => true
  | .lox _ _ => true
  | .sox _ _ => true
  | .ld _ _ _ _ w => decide (w.toNat < 7)
  | .st _ _ _ w => decide (w.toNat < 4)
  | .beq _ _ _ => true
  | .bne _ _ _ => true
  | .blt _ _ _ => true
  | .bge _ _ _ => true
  | .bltn _ _ _ => true
  | .bgen _ _ _ => true
  | .jal _ _ => true
  | .jalr _ _ => true
  | .mfs _ sel => assignedSelector sel
  | .mts sel _ => assignedSelector sel
  | .trap _ => true
  | .brk _ => true
  | .waiti _ _ => true
  | .tlbi _ => true
  | .tlba _ _ => true
  | .cAdd _ _ => true
  | .cSub _ _ => true
  | .cMov _ _ => true
  | .cAddi _ _ => true
  | .cLi _ _ => true
  | .cAnd _ _ => true
  | .cOr _ _ => true
  | .cXor _ _ => true
  | .cShli _ _ => true
  | .cShri _ _ => true
  | .cSrai _ _ => true
  | .cLdsp _ _ => true
  | .cStsp _ _ => true
  | .cBeqz _ _ => true
  | .cBnez _ _ => true
  | .cJ _ => true
  | .cJr _ => true
  | .vld _ _ _ _ _ _ _ => true
  | .vlds _ _ _ _ _ _ _ => true
  | .vgather _ _ _ _ _ _ => true
  | .vldb _ _ ty _ _ _ _ => floatType ty
  | .vst _ _ _ _ _ _ _ => true
  | .vsts _ _ _ _ _ _ _ => true
  | .vscatter _ _ _ _ _ _ => true
  | .vldbc _ _ _ _ _ _ => true
  | .vadd _ ty _ _ _ _ => floatType ty
  | .vsub _ ty _ _ _ _ => floatType ty
  | .vmul _ ty _ _ _ _ => floatType ty
  | .vmin _ ty _ _ _ _ => floatType ty
  | .vmax _ ty _ _ _ _ => floatType ty
  | .vdiv _ ty _ _ _ _ => floatType ty
  | .vabs _ ty _ _ _ => floatType ty
  | .vneg _ ty _ _ _ => floatType ty
  | .vfma _ ty _ _ _ _ => floatType ty
  | .vfms _ ty _ _ _ _ => floatType ty
  | .vfnma _ ty _ _ _ _ => floatType ty
  | .vsqrt _ ty _ _ _ => floatType ty
  | .vcps _ ty _ _ _ _ => floatType ty
  | .viadd _ ty _ _ _ _ => intType ty
  | .visub _ ty _ _ _ _ => intType ty
  | .vimul _ ty _ _ _ _ => intType ty
  | .vand _ _ _ _ _ _ => true
  | .vor _ _ _ _ _ _ => true
  | .vxor _ _ _ _ _ _ => true
  | .vimin _ ty _ _ _ _ => intType ty
  | .vimax _ ty _ _ _ _ => intType ty
  | .vshl _ ty _ _ _ _ => intType ty
  | .vshr _ ty _ _ _ _ => intType ty
  | .vsra _ ty _ _ _ _ => intType ty
  | .vclmul _ ty _ _ _ _ => intType ty
  | .vpopc _ ty _ _ _ => intType ty
  | .vclz _ ty _ _ _ => intType ty
  | .vceq _ _ _ _ _ _ => true
  | .vcne _ _ _ _ _ _ => true
  | .vclt _ _ _ _ _ _ => true
  | .vcle _ _ _ _ _ _ => true
  | .vcgt _ _ _ _ _ _ => true
  | .vcge _ _ _ _ _ _ => true
  | .vsel _ _ _ _ _ _ => true
  | .vclass _ ty _ _ _ => floatType ty
  | .vexp2 _ ty _ _ _ => floatType ty
  | .vlog2 _ ty _ _ _ => floatType ty
  | .vrcp _ ty _ _ _ => floatType ty
  | .vrsq _ ty _ _ _ => floatType ty
  | .vtanh _ ty _ _ _ => floatType ty
  | .vsig _ ty _ _ _ => floatType ty
  | .vsin _ ty _ _ _ => floatType ty
  | .vcos _ ty _ _ _ => floatType ty
  | .vcvt _ _ _ tyd tys _ _ => typeSize tyd == typeSize tys
  | .vwiden _ _ _ tyd tys _ vd => decide (typeSize tys < typeSize tyd) && vd.toNat % (typeSize tyd / typeSize tys) == 0
  | .vnarrow _ _ _ tyd tys va _ => decide (typeSize tyd < typeSize tys) && va.toNat % (typeSize tys / typeSize tyd) == 0
  | .vqnt _ _ _ tyd tys _ _ => decide (tyd.toNat < 4) && floatType tys
  | .vqmax _ _ tyd tys _ _ => decide (tyd.toNat < 4) && floatType tys
  | .vrng _ _ tyd _ => tyd == 0 || intType tyd
  | .vrsum _ _ _ _ _ => true
  | .vrmax _ _ _ _ _ => true
  | .vrmin _ _ _ _ _ => true
  | .vrband _ ty _ _ _ => intType ty
  | .vrbor _ ty _ _ _ => intType ty
  | .vrbxor _ ty _ _ _ => intType ty
  | .vdot _ _ _ _ _ _ => true
  | .vrsuma _ _ _ _ _ _ => true
  | .vshuf _ _ _ _ _ _ => true
  | .vrot _ _ _ _ _ _ => true
  | .vslide _ _ _ _ _ _ => true
  | .vcmpr _ _ _ _ _ => true
  | .vexpd _ _ _ _ _ => true
  | .viota _ ty _ _ => intType ty
  | .vbcast _ _ _ _ _ => true
  | .vzip _ _ _ _ _ _ => true
  | .vget _ _ _ _ => true
  | .vput _ _ _ _ _ => true
  | .vsplat _ _ _ _ _ => true
  | .vmov _ _ _ _ _ => true
  | .mand _ _ _ _ => true
  | .mor _ _ _ _ => true
  | .mxor _ _ _ _ => true
  | .mnot _ _ _ => true
  | .mpopc _ _ _ => true
  | .mfirst _ _ _ => true
  | .mset _ _ _ _ => true
  | .mget _ _ _ _ => true
  | .vchain _ ty _ _ => floatType ty
  | .vchainr _ ty _ _ => floatType ty
  | .fork _ _ _ => true
  | .join _ => true
  | .yield _ => true
  | .domain _ _ => true
  | .spawnq _ => true
  | .lead _ _ _ => true
  | .follow _ _ _ => true
  | .bri _ _ _ => true
  | .post _ _ _ => true
  | .postd _ _ _ => true
  | .safew _ _ => true
  | .dln _ _ => true
  | .tagr _ _ => true
  | .clkr _ => true
  | .lateq _ _ => true
  | .send _ _ _ _ => true
  | .recv _ _ _ _ => true
  | .recvw _ _ _ _ => true
  | .epbind _ _ _ => true
  | .epfree _ _ _ => true
  | .epwhere _ _ _ => true
  | .prio _ _ => true
  | .prioq _ _ => true
  | .phase _ => true
  | .fence _ => true
  | .acq _ => true
  | .rel _ => true
  | .pwait _ _ _ _ => true
  | .phint _ _ _ => true
  | .cadd _ _ _ _ _ => true
  | .cwait _ _ _ _ _ => true
  | .cread _ _ _ _ => true
  | .creg _ _ _ _ _ => true
  | .cunreg _ _ _ => true
  | .waita _ _ _ _ _ => true
  | .waitat _ _ _ _ _ => true
  | .rdadd _ _ _ _ _ => true
  | .rdaddf _ _ _ _ _ => true
  | .rdadda _ _ _ _ _ => true
  | .rdmax _ _ _ _ _ => true
  | .rdmin _ _ _ _ _ => true
  | .rdand _ _ _ _ _ => true
  | .rdior _ _ _ _ _ => true
  | .rdxor _ _ _ _ _ => true
  | .subs _ _ _ => true
  | .unsub _ _ => true
  | .sflush _ => true
  | .sstat _ _ => true
  | .claim _ _ _ => true
  | .object _ _ _ => true
  | .claimw _ _ => true
  | .cwin _ _ _ => true
  | .cflush _ _ _ => true
  | .cinv _ _ _ => true
  | .bmode _ _ _ => true
  | .bqry _ _ => true
  | .pref _ => true
  | .mcst _ _ _ _ => true
  | .efork _ _ => true
  | .erdv _ _ => true
  | .epush _ _ _ => true
  | .estat _ _ => true
  | .eabort _ _ _ => true
  | .mclaim _ _ _ => true
  | .mrel _ _ _ => true
  | .mmap _ _ _ => true
  | .mjoin _ _ => true
  | .twany _ _ _ => true
  | .twall _ _ _ => true
  | .tfirst _ _ => true
  | .tclr _ _ => true
  | .sjoin _ _ _ => true
  | .sleave _ _ => true
  | .scin _ _ _ => true
  | .scout _ _ _ => true
  | .dadd _ _ _ _ _ => true
  | .dsub _ _ _ _ _ => true
  | .dmul _ _ _ _ _ => true
  | .dfma _ _ _ _ _ => true
  | .ddiv _ _ _ _ _ => true
  | .dsqrt _ _ _ _ => true
  | .dcvt _ ty _ vb _ _ => (ty == 0 || ty == 5) && decide (vb.toNat < 2)
  | .dmin _ _ _ _ _ => true
  | .verf _ ty _ _ _ => floatType ty
  | .vlgam _ ty _ _ _ => floatType ty
  | .vpow _ ty _ _ _ _ => floatType ty
  | .vatn2 _ ty _ _ _ _ => floatType ty
  | .eret => true
  | .synci => true
  | .halt => true
  | .cRet => true
  | .cNop => true
  | .exit_ => true
  | .detach => true
  | .rend => true
  | .fencer => true
  | .illegalInstruction => true
  | .extensionMigration _ => true
  | .loadReply _ _ _ _ _ _ => true
  | .storeAck _ _ _ _ => true
  | .homeRequest _ => true
  | .waitEntryWake _ _ _ => true
  | .waitatTimeout _ _ => true
  | .systemAtomicRequest _ _ _ _ _ => true
  | .fabricRequestTimeout _ => true
  | .fifoPush _ _ _ => true
  | .fifoPop _ _ _ => true
  | .fifoCount _ _ _ => true
  | .fifoHeldPushDone _ => true
  | .fifoHeldPopDone _ => true
  | .bankSwitchDone _ => true
  | .subscriptionUpdate _ _ _ _ => true
  | .objectionArrival _ _ _ _ _ _ => true
  | .claimDecision _ => true
  | .claimRecordExpiry _ _ _ _ => true
  | .eventArrival _ => true
  | .eventForward _ => true
  | .eventSafe _ _ => true
  | .dispatchPick _ => true
  | .switchOut _ => true
  | .actorMove _ _ _ => true
  | .stealRequest _ => true
  | .stealAnswer _ => true
  | .priorityRaise _ _ => true
  | .phintExpiry _ _ => true
  | .messageArrival _ => true
  | .messageForward _ => true
  | .messageRefused _ => true
  | .directoryRequest _ _ _ => true
  | .stubExpiry _ => true
  | .waitiWake _ => true
  | .waitiTimeout _ => true
  | .joinComplete _ => true
  | .safewComplete _ => true
  | .leadTimeout _ => true
  | .followTimeout _ => true
  | .twaitLimit _ => true
  | .commandPortWrite _ _ _ => true
  | .stagingStore _ _ _ _ => true
  | .stagingCommit _ _ _ => true
  | .pushHeldAccept _ _ => true
  | .programRecordRead _ => true
  | .commandComplete _ => true
  | .carryDelivery _ _ => true
  | .collectivePartial _ => true
  | .mxFill _ => true
  | .mxMma _ => true
  | .mxJoint _ => true
  | .mxOut _ => true
  | .mxZero _ => true
  | .mxRdacc _ => true
  | .scLin _ => true
  | .scPfx _ => true
  | .scSeed _ => true
  | .scSeg _ => true
  | .cpCopy _ => true
  | .cpGather _ => true
  | .cpScatter _ => true
  | .cpFill _ => true
  | .cpCadd _ => true
  | .cpWait _ => true
  | .clRss _ => true
  | .clAgs _ => true
  | .clSend _ => true
  | .clRecva _ => true
  | .clRate _ => true
  | .ctagsClear _ _ => true
  | .qgrpWrite _ _ => true
  | .boundWrite _ _ => true
  | .sdownGo _ _ => true
  | .shootdownRequest _ _ _ _ => true
  | .shootdownAck _ _ => true
  | .shootdownTimeout _ => true
  | .mcmdRead _ _ => true
  | .mcmdWrite _ _ => true
  | .fwwakeWrite _ _ => true
  | .launchConfigWrite _ _ => true
  | .queueEnable _ => true
  | .queueDisable _ => true
  | .queueClear _ => true
  | .prodWrite _ _ => true
  | .registerWrite _ _ => true
  | .faultQueueHeadWrite _ _ => true
  | .hostApertureAccess _ _ _ => true
  | .packetIssue _ => true
  | .phaseClean _ _ => true
  | .gangPlace _ => true
  | .gangAge _ => true
  | .clockSyncRead => true
  | .clockSyncReply _ => true
  | .clockSyncStale => true
  | .flitReceive _ _ => true
  | .nakReceive _ _ => true
  | .nakRepeat _ => true
  | .linkRetrainDone _ _ => true
  | .stationDown _ => true
  | .fabricAtomicRefused _ => true
  | .mailboxUnknownKind _ => true
  | .watchdogExpiry => true
  | .mctpControl _ => true
  | .partCreate _ _ _ _ => true
  | .partDestroy _ => true
  | .accessWrite _ _ _ _ => true
  | .stationMap _ _ _ => true
  | .queueAssign _ _ _ _ => true
  | .teardown _ => true
  | .debugWrite _ _ _ _ _ _ => true
  | .retire _ _ => true
  | .counters => true
  | .fwUpdate _ => true
  | .configWrite _ => true
  | .attest _ => true
  | .reset => true
  | .coreRestart _ _ => true
  | .memoryError _ _ _ => true

/-- Whether an instruction word encodes the operation (R39); the others are happenings. -/
def Instr.isWord : Instr → Bool
  | .add _ _ _ => true
  | .sub _ _ _ => true
  | .and_ _ _ _ => true
  | .or_ _ _ _ => true
  | .xor_ _ _ _ => true
  | .andn _ _ _ => true
  | .orn _ _ _ => true
  | .xnor _ _ _ => true
  | .shl _ _ _ => true
  | .shr _ _ _ => true
  | .sra _ _ _ => true
  | .rol _ _ _ => true
  | .ror _ _ _ => true
  | .min _ _ _ => true
  | .max _ _ _ => true
  | .minn _ _ _ => true
  | .maxn _ _ _ => true
  | .slt _ _ _ => true
  | .sltn _ _ _ => true
  | .seq _ _ _ => true
  | .sne _ _ _ => true
  | .clz _ _ => true
  | .ctz _ _ => true
  | .popc _ _ => true
  | .brev _ _ => true
  | .bswap _ _ => true
  | .sext _ _ _ => true
  | .zext _ _ _ => true
  | .mul _ _ _ _ => true
  | .mulh _ _ _ _ => true
  | .mulhn _ _ _ _ => true
  | .div _ _ _ _ => true
  | .divn _ _ _ _ => true
  | .rem _ _ _ _ => true
  | .remn _ _ _ _ => true
  | .clmul _ _ _ _ => true
  | .clmulh _ _ _ _ => true
  | .addi _ _ _ => true
  | .andi _ _ _ => true
  | .ori _ _ _ => true
  | .xori _ _ _ => true
  | .shli _ _ _ => true
  | .shri _ _ _ => true
  | .srai _ _ _ => true
  | .rori _ _ _ => true
  | .slti _ _ _ => true
  | .sltni _ _ _ => true
  | .seqi _ _ _ => true
  | .lih _ _ => true
  | .lox _ _ => true
  | .sox _ _ => true
  | .ld _ _ _ _ _ => true
  | .st _ _ _ _ => true
  | .beq _ _ _ => true
  | .bne _ _ _ => true
  | .blt _ _ _ => true
  | .bge _ _ _ => true
  | .bltn _ _ _ => true
  | .bgen _ _ _ => true
  | .jal _ _ => true
  | .jalr _ _ => true
  | .mfs _ _ => true
  | .mts _ _ => true
  | .trap _ => true
  | .brk _ => true
  | .waiti _ _ => true
  | .tlbi _ => true
  | .tlba _ _ => true
  | .cAdd _ _ => true
  | .cSub _ _ => true
  | .cMov _ _ => true
  | .cAddi _ _ => true
  | .cLi _ _ => true
  | .cAnd _ _ => true
  | .cOr _ _ => true
  | .cXor _ _ => true
  | .cShli _ _ => true
  | .cShri _ _ => true
  | .cSrai _ _ => true
  | .cLdsp _ _ => true
  | .cStsp _ _ => true
  | .cBeqz _ _ => true
  | .cBnez _ _ => true
  | .cJ _ => true
  | .cJr _ => true
  | .vld _ _ _ _ _ _ _ => true
  | .vlds _ _ _ _ _ _ _ => true
  | .vgather _ _ _ _ _ _ => true
  | .vldb _ _ _ _ _ _ _ => true
  | .vst _ _ _ _ _ _ _ => true
  | .vsts _ _ _ _ _ _ _ => true
  | .vscatter _ _ _ _ _ _ => true
  | .vldbc _ _ _ _ _ _ => true
  | .vadd _ _ _ _ _ _ => true
  | .vsub _ _ _ _ _ _ => true
  | .vmul _ _ _ _ _ _ => true
  | .vmin _ _ _ _ _ _ => true
  | .vmax _ _ _ _ _ _ => true
  | .vdiv _ _ _ _ _ _ => true
  | .vabs _ _ _ _ _ => true
  | .vneg _ _ _ _ _ => true
  | .vfma _ _ _ _ _ _ => true
  | .vfms _ _ _ _ _ _ => true
  | .vfnma _ _ _ _ _ _ => true
  | .vsqrt _ _ _ _ _ => true
  | .vcps _ _ _ _ _ _ => true
  | .viadd _ _ _ _ _ _ => true
  | .visub _ _ _ _ _ _ => true
  | .vimul _ _ _ _ _ _ => true
  | .vand _ _ _ _ _ _ => true
  | .vor _ _ _ _ _ _ => true
  | .vxor _ _ _ _ _ _ => true
  | .vimin _ _ _ _ _ _ => true
  | .vimax _ _ _ _ _ _ => true
  | .vshl _ _ _ _ _ _ => true
  | .vshr _ _ _ _ _ _ => true
  | .vsra _ _ _ _ _ _ => true
  | .vclmul _ _ _ _ _ _ => true
  | .vpopc _ _ _ _ _ => true
  | .vclz _ _ _ _ _ => true
  | .vceq _ _ _ _ _ _ => true
  | .vcne _ _ _ _ _ _ => true
  | .vclt _ _ _ _ _ _ => true
  | .vcle _ _ _ _ _ _ => true
  | .vcgt _ _ _ _ _ _ => true
  | .vcge _ _ _ _ _ _ => true
  | .vsel _ _ _ _ _ _ => true
  | .vclass _ _ _ _ _ => true
  | .vexp2 _ _ _ _ _ => true
  | .vlog2 _ _ _ _ _ => true
  | .vrcp _ _ _ _ _ => true
  | .vrsq _ _ _ _ _ => true
  | .vtanh _ _ _ _ _ => true
  | .vsig _ _ _ _ _ => true
  | .vsin _ _ _ _ _ => true
  | .vcos _ _ _ _ _ => true
  | .vcvt _ _ _ _ _ _ _ => true
  | .vwiden _ _ _ _ _ _ _ => true
  | .vnarrow _ _ _ _ _ _ _ => true
  | .vqnt _ _ _ _ _ _ _ => true
  | .vqmax _ _ _ _ _ _ => true
  | .vrng _ _ _ _ => true
  | .vrsum _ _ _ _ _ => true
  | .vrmax _ _ _ _ _ => true
  | .vrmin _ _ _ _ _ => true
  | .vrband _ _ _ _ _ => true
  | .vrbor _ _ _ _ _ => true
  | .vrbxor _ _ _ _ _ => true
  | .vdot _ _ _ _ _ _ => true
  | .vrsuma _ _ _ _ _ _ => true
  | .vshuf _ _ _ _ _ _ => true
  | .vrot _ _ _ _ _ _ => true
  | .vslide _ _ _ _ _ _ => true
  | .vcmpr _ _ _ _ _ => true
  | .vexpd _ _ _ _ _ => true
  | .viota _ _ _ _ => true
  | .vbcast _ _ _ _ _ => true
  | .vzip _ _ _ _ _ _ => true
  | .vget _ _ _ _ => true
  | .vput _ _ _ _ _ => true
  | .vsplat _ _ _ _ _ => true
  | .vmov _ _ _ _ _ => true
  | .mand _ _ _ _ => true
  | .mor _ _ _ _ => true
  | .mxor _ _ _ _ => true
  | .mnot _ _ _ => true
  | .mpopc _ _ _ => true
  | .mfirst _ _ _ => true
  | .mset _ _ _ _ => true
  | .mget _ _ _ _ => true
  | .vchain _ _ _ _ => true
  | .vchainr _ _ _ _ => true
  | .fork _ _ _ => true
  | .join _ => true
  | .yield _ => true
  | .domain _ _ => true
  | .spawnq _ => true
  | .lead _ _ _ => true
  | .follow _ _ _ => true
  | .bri _ _ _ => true
  | .post _ _ _ => true
  | .postd _ _ _ => true
  | .safew _ _ => true
  | .dln _ _ => true
  | .tagr _ _ => true
  | .clkr _ => true
  | .lateq _ _ => true
  | .send _ _ _ _ => true
  | .recv _ _ _ _ => true
  | .recvw _ _ _ _ => true
  | .epbind _ _ _ => true
  | .epfree _ _ _ => true
  | .epwhere _ _ _ => true
  | .prio _ _ => true
  | .prioq _ _ => true
  | .phase _ => true
  | .fence _ => true
  | .acq _ => true
  | .rel _ => true
  | .pwait _ _ _ _ => true
  | .phint _ _ _ => true
  | .cadd _ _ _ _ _ => true
  | .cwait _ _ _ _ _ => true
  | .cread _ _ _ _ => true
  | .creg _ _ _ _ _ => true
  | .cunreg _ _ _ => true
  | .waita _ _ _ _ _ => true
  | .waitat _ _ _ _ _ => true
  | .rdadd _ _ _ _ _ => true
  | .rdaddf _ _ _ _ _ => true
  | .rdadda _ _ _ _ _ => true
  | .rdmax _ _ _ _ _ => true
  | .rdmin _ _ _ _ _ => true
  | .rdand _ _ _ _ _ => true
  | .rdior _ _ _ _ _ => true
  | .rdxor _ _ _ _ _ => true
  | .subs _ _ _ => true
  | .unsub _ _ => true
  | .sflush _ => true
  | .sstat _ _ => true
  | .claim _ _ _ => true
  | .object _ _ _ => true
  | .claimw _ _ => true
  | .cwin _ _ _ => true
  | .cflush _ _ _ => true
  | .cinv _ _ _ => true
  | .bmode _ _ _ => true
  | .bqry _ _ => true
  | .pref _ => true
  | .mcst _ _ _ _ => true
  | .efork _ _ => true
  | .erdv _ _ => true
  | .epush _ _ _ => true
  | .estat _ _ => true
  | .eabort _ _ _ => true
  | .mclaim _ _ _ => true
  | .mrel _ _ _ => true
  | .mmap _ _ _ => true
  | .mjoin _ _ => true
  | .twany _ _ _ => true
  | .twall _ _ _ => true
  | .tfirst _ _ => true
  | .tclr _ _ => true
  | .sjoin _ _ _ => true
  | .sleave _ _ => true
  | .scin _ _ _ => true
  | .scout _ _ _ => true
  | .dadd _ _ _ _ _ => true
  | .dsub _ _ _ _ _ => true
  | .dmul _ _ _ _ _ => true
  | .dfma _ _ _ _ _ => true
  | .ddiv _ _ _ _ _ => true
  | .dsqrt _ _ _ _ => true
  | .dcvt _ _ _ _ _ _ => true
  | .dmin _ _ _ _ _ => true
  | .verf _ _ _ _ _ => true
  | .vlgam _ _ _ _ _ => true
  | .vpow _ _ _ _ _ _ => true
  | .vatn2 _ _ _ _ _ _ => true
  | .eret => true
  | .synci => true
  | .halt => true
  | .cRet => true
  | .cNop => true
  | .exit_ => true
  | .detach => true
  | .rend => true
  | .fencer => true
  | .illegalInstruction => false
  | .extensionMigration _ => false
  | .loadReply _ _ _ _ _ _ => false
  | .storeAck _ _ _ _ => false
  | .homeRequest _ => false
  | .waitEntryWake _ _ _ => false
  | .waitatTimeout _ _ => false
  | .systemAtomicRequest _ _ _ _ _ => false
  | .fabricRequestTimeout _ => false
  | .fifoPush _ _ _ => false
  | .fifoPop _ _ _ => false
  | .fifoCount _ _ _ => false
  | .fifoHeldPushDone _ => false
  | .fifoHeldPopDone _ => false
  | .bankSwitchDone _ => false
  | .subscriptionUpdate _ _ _ _ => false
  | .objectionArrival _ _ _ _ _ _ => false
  | .claimDecision _ => false
  | .claimRecordExpiry _ _ _ _ => false
  | .eventArrival _ => false
  | .eventForward _ => false
  | .eventSafe _ _ => false
  | .dispatchPick _ => false
  | .switchOut _ => false
  | .actorMove _ _ _ => false
  | .stealRequest _ => false
  | .stealAnswer _ => false
  | .priorityRaise _ _ => false
  | .phintExpiry _ _ => false
  | .messageArrival _ => false
  | .messageForward _ => false
  | .messageRefused _ => false
  | .directoryRequest _ _ _ => false
  | .stubExpiry _ => false
  | .waitiWake _ => false
  | .waitiTimeout _ => false
  | .joinComplete _ => false
  | .safewComplete _ => false
  | .leadTimeout _ => false
  | .followTimeout _ => false
  | .twaitLimit _ => false
  | .commandPortWrite _ _ _ => false
  | .stagingStore _ _ _ _ => false
  | .stagingCommit _ _ _ => false
  | .pushHeldAccept _ _ => false
  | .programRecordRead _ => false
  | .commandComplete _ => false
  | .carryDelivery _ _ => false
  | .collectivePartial _ => false
  | .mxFill _ => false
  | .mxMma _ => false
  | .mxJoint _ => false
  | .mxOut _ => false
  | .mxZero _ => false
  | .mxRdacc _ => false
  | .scLin _ => false
  | .scPfx _ => false
  | .scSeed _ => false
  | .scSeg _ => false
  | .cpCopy _ => false
  | .cpGather _ => false
  | .cpScatter _ => false
  | .cpFill _ => false
  | .cpCadd _ => false
  | .cpWait _ => false
  | .clRss _ => false
  | .clAgs _ => false
  | .clSend _ => false
  | .clRecva _ => false
  | .clRate _ => false
  | .ctagsClear _ _ => false
  | .qgrpWrite _ _ => false
  | .boundWrite _ _ => false
  | .sdownGo _ _ => false
  | .shootdownRequest _ _ _ _ => false
  | .shootdownAck _ _ => false
  | .shootdownTimeout _ => false
  | .mcmdRead _ _ => false
  | .mcmdWrite _ _ => false
  | .fwwakeWrite _ _ => false
  | .launchConfigWrite _ _ => false
  | .queueEnable _ => false
  | .queueDisable _ => false
  | .queueClear _ => false
  | .prodWrite _ _ => false
  | .registerWrite _ _ => false
  | .faultQueueHeadWrite _ _ => false
  | .hostApertureAccess _ _ _ => false
  | .packetIssue _ => false
  | .phaseClean _ _ => false
  | .gangPlace _ => false
  | .gangAge _ => false
  | .clockSyncRead => false
  | .clockSyncReply _ => false
  | .clockSyncStale => false
  | .flitReceive _ _ => false
  | .nakReceive _ _ => false
  | .nakRepeat _ => false
  | .linkRetrainDone _ _ => false
  | .stationDown _ => false
  | .fabricAtomicRefused _ => false
  | .mailboxUnknownKind _ => false
  | .watchdogExpiry => false
  | .mctpControl _ => false
  | .partCreate _ _ _ _ => false
  | .partDestroy _ => false
  | .accessWrite _ _ _ _ => false
  | .stationMap _ _ _ => false
  | .queueAssign _ _ _ _ => false
  | .teardown _ => false
  | .debugWrite _ _ _ _ _ _ => false
  | .retire _ _ => false
  | .counters => false
  | .fwUpdate _ => false
  | .configWrite _ => false
  | .attest _ => false
  | .reset => false
  | .coreRestart _ _ => false
  | .memoryError _ _ _ => false

end Sys2Proof
end

