-- ==== Sys2Proof/Decode.lean ====
section
/-!
DEFINITION. Decoding, total on any bytes, and the encoder (spec/02_instruction_words.md R39 to R59).  The definitions
that mention the later constructors are noncomputable only because Lean's code generator numbers constructors in a byte;
the kernel evaluates every one of them.
-/

namespace Sys2Proof

/-- n bits of a word from bit lo up, as a number. -/
def part (w lo n : Nat) : Nat := w / 2 ^ lo % 2 ^ n

/-- n bits of a word from bit lo up, as a field. -/
def at_ (w lo n : Nat) : BitVec n := BitVec.ofNat n (w / 2 ^ lo)

/-- An instruction whose unused fields must be zero (R43): z is the sum of what they hold. -/
def zeroed (z : Nat) (i : Instr) : Option Instr := if z = 0 then some i else none

/-- Major 0x01 (R54). -/
noncomputable def decAlu (w : Nat) : Option Instr :=
  match part w 22 6 with
  | 0 => zeroed (part w 28 4) (.add (at_ w 7 5) (at_ w 12 5) (at_ w 17 5))
  | 1 => zeroed (part w 28 4) (.sub (at_ w 7 5) (at_ w 12 5) (at_ w 17 5))
  | 2 => zeroed (part w 28 4) (.and_ (at_ w 7 5) (at_ w 12 5) (at_ w 17 5))
  | 3 => zeroed (part w 28 4) (.or_ (at_ w 7 5) (at_ w 12 5) (at_ w 17 5))
  | 4 => zeroed (part w 28 4) (.xor_ (at_ w 7 5) (at_ w 12 5) (at_ w 17 5))
  | 5 => zeroed (part w 28 4) (.andn (at_ w 7 5) (at_ w 12 5) (at_ w 17 5))
  | 6 => zeroed (part w 28 4) (.orn (at_ w 7 5) (at_ w 12 5) (at_ w 17 5))
  | 7 => zeroed (part w 28 4) (.xnor (at_ w 7 5) (at_ w 12 5) (at_ w 17 5))
  | 8 => zeroed (part w 28 4) (.shl (at_ w 7 5) (at_ w 12 5) (at_ w 17 5))
  | 9 => zeroed (part w 28 4) (.shr (at_ w 7 5) (at_ w 12 5) (at_ w 17 5))
  | 10 => zeroed (part w 28 4) (.sra (at_ w 7 5) (at_ w 12 5) (at_ w 17 5))
  | 11 => zeroed (part w 28 4) (.rol (at_ w 7 5) (at_ w 12 5) (at_ w 17 5))
  | 12 => zeroed (part w 28 4) (.ror (at_ w 7 5) (at_ w 12 5) (at_ w 17 5))
  | 13 => zeroed (part w 28 4) (.min (at_ w 7 5) (at_ w 12 5) (at_ w 17 5))
  | 14 => zeroed (part w 28 4) (.max (at_ w 7 5) (at_ w 12 5) (at_ w 17 5))
  | 15 => zeroed (part w 28 4) (.minn (at_ w 7 5) (at_ w 12 5) (at_ w 17 5))
  | 16 => zeroed (part w 28 4) (.maxn (at_ w 7 5) (at_ w 12 5) (at_ w 17 5))
  | 17 => zeroed (part w 28 4) (.slt (at_ w 7 5) (at_ w 12 5) (at_ w 17 5))
  | 18 => zeroed (part w 28 4) (.sltn (at_ w 7 5) (at_ w 12 5) (at_ w 17 5))
  | 19 => zeroed (part w 28 4) (.seq (at_ w 7 5) (at_ w 12 5) (at_ w 17 5))
  | 20 => zeroed (part w 28 4) (.sne (at_ w 7 5) (at_ w 12 5) (at_ w 17 5))
  | _ => none

/-- Major 0x02 (R54). -/
noncomputable def decBits (w : Nat) : Option Instr :=
  match part w 22 6 with
  | 0 => zeroed (part w 17 5 + part w 28 4) (.clz (at_ w 7 5) (at_ w 12 5))
  | 1 => zeroed (part w 17 5 + part w 28 4) (.ctz (at_ w 7 5) (at_ w 12 5))
  | 2 => zeroed (part w 17 5 + part w 28 4) (.popc (at_ w 7 5) (at_ w 12 5))
  | 3 => zeroed (part w 17 5 + part w 28 4) (.brev (at_ w 7 5) (at_ w 12 5))
  | 4 => zeroed (part w 17 5 + part w 28 4) (.bswap (at_ w 7 5) (at_ w 12 5))
  | 5 => zeroed (part w 17 5) (.sext (at_ w 28 4) (at_ w 7 5) (at_ w 12 5))
  | 6 => zeroed (part w 17 5) (.zext (at_ w 28 4) (at_ w 7 5) (at_ w 12 5))
  | _ => none

/-- Major 0x03 (R54). -/
noncomputable def decMulDiv (w : Nat) : Option Instr :=
  match part w 22 6 with
  | 0 => some (.mul (at_ w 28 4) (at_ w 7 5) (at_ w 12 5) (at_ w 17 5))
  | 1 => some (.mulh (at_ w 28 4) (at_ w 7 5) (at_ w 12 5) (at_ w 17 5))
  | 2 => some (.mulhn (at_ w 28 4) (at_ w 7 5) (at_ w 12 5) (at_ w 17 5))
  | 3 => some (.div (at_ w 28 4) (at_ w 7 5) (at_ w 12 5) (at_ w 17 5))
  | 4 => some (.divn (at_ w 28 4) (at_ w 7 5) (at_ w 12 5) (at_ w 17 5))
  | 5 => some (.rem (at_ w 28 4) (at_ w 7 5) (at_ w 12 5) (at_ w 17 5))
  | 6 => some (.remn (at_ w 28 4) (at_ w 7 5) (at_ w 12 5) (at_ w 17 5))
  | 7 => some (.clmul (at_ w 28 4) (at_ w 7 5) (at_ w 12 5) (at_ w 17 5))
  | 8 => some (.clmulh (at_ w 28 4) (at_ w 7 5) (at_ w 12 5) (at_ w 17 5))
  | _ => none

/-- Major 0x08 (R54). -/
noncomputable def decShiftImm (w : Nat) : Option Instr :=
  match part w 29 3 with
  | 0 => zeroed (part w 23 6) (.shli (at_ w 7 5) (at_ w 12 5) (at_ w 17 6))
  | 1 => zeroed (part w 23 6) (.shri (at_ w 7 5) (at_ w 12 5) (at_ w 17 6))
  | 2 => zeroed (part w 23 6) (.srai (at_ w 7 5) (at_ w 12 5) (at_ w 17 6))
  | 3 => zeroed (part w 23 6) (.rori (at_ w 7 5) (at_ w 12 5) (at_ w 17 6))
  | _ => none

/-- Major 0x0d (R54). -/
noncomputable def decOxm (w : Nat) : Option Instr :=
  match part w 22 6 with
  | 0 => zeroed (part w 10 2 + part w 17 5 + part w 28 4) (.lox (at_ w 7 3) (at_ w 12 5))
  | 1 => zeroed (part w 15 7 + part w 28 4) (.sox (at_ w 7 5) (at_ w 12 3))
  | _ => none

/-- Major 0x10 (R54). -/
noncomputable def decBranch (w : Nat) : Option Instr :=
  match part w 17 3 with
  | 0 => some (.beq (at_ w 7 5) (at_ w 12 5) (at_ w 20 12))
  | 1 => some (.bne (at_ w 7 5) (at_ w 12 5) (at_ w 20 12))
  | 2 => some (.blt (at_ w 7 5) (at_ w 12 5) (at_ w 20 12))
  | 3 => some (.bge (at_ w 7 5) (at_ w 12 5) (at_ w 20 12))
  | 4 => some (.bltn (at_ w 7 5) (at_ w 12 5) (at_ w 20 12))
  | 5 => some (.bgen (at_ w 7 5) (at_ w 12 5) (at_ w 20 12))
  | _ => none

/-- Major 0x12 (R54). -/
noncomputable def decJalr (w : Nat) : Option Instr :=
  match part w 22 6 with
  | 0 => zeroed (part w 17 5 + part w 28 4) (.jalr (at_ w 7 5) (at_ w 12 5))
  | _ => none

/-- Major 0x13 (R54). -/
noncomputable def decSys (w : Nat) : Option Instr :=
  match part w 28 4 with
  | 0 => zeroed (part w 12 5) (.mfs (at_ w 7 5) (at_ w 17 11))
  | 1 => zeroed (part w 7 5) (.mts (at_ w 17 11) (at_ w 12 5))
  | 2 => zeroed (part w 7 10) (.trap (at_ w 17 11))
  | 3 => zeroed (part w 7 21) .eret
  | 4 => zeroed (part w 7 10) (.brk (at_ w 17 11))
  | 5 => zeroed (part w 17 11) (.waiti (at_ w 7 5) (at_ w 12 5))
  | 6 => zeroed (part w 7 21) .synci
  | 7 => zeroed (part w 7 5 + part w 17 11) (.tlbi (at_ w 12 5))
  | 8 => zeroed (part w 17 11) (.tlba (at_ w 7 5) (at_ w 12 5))
  | 9 => zeroed (part w 7 21) .halt
  | _ => none

/-- Major 0x1c (R54). -/
noncomputable def decVfa (w : Nat) : Option Instr :=
  match part w 25 3 with
  | 0 => some (.vadd (at_ w 28 4) (at_ w 22 3) (at_ w 19 3) (at_ w 15 4) (at_ w 11 4) (at_ w 7 4))
  | 1 => some (.vsub (at_ w 28 4) (at_ w 22 3) (at_ w 19 3) (at_ w 15 4) (at_ w 11 4) (at_ w 7 4))
  | 2 => some (.vmul (at_ w 28 4) (at_ w 22 3) (at_ w 19 3) (at_ w 15 4) (at_ w 11 4) (at_ w 7 4))
  | 3 => some (.vmin (at_ w 28 4) (at_ w 22 3) (at_ w 19 3) (at_ w 15 4) (at_ w 11 4) (at_ w 7 4))
  | 4 => some (.vmax (at_ w 28 4) (at_ w 22 3) (at_ w 19 3) (at_ w 15 4) (at_ w 11 4) (at_ w 7 4))
  | 5 => some (.vdiv (at_ w 28 4) (at_ w 22 3) (at_ w 19 3) (at_ w 15 4) (at_ w 11 4) (at_ w 7 4))
  | 6 => zeroed (part w 15 4) (.vabs (at_ w 28 4) (at_ w 22 3) (at_ w 19 3) (at_ w 11 4) (at_ w 7 4))
  | _ => zeroed (part w 15 4) (.vneg (at_ w 28 4) (at_ w 22 3) (at_ w 19 3) (at_ w 11 4) (at_ w 7 4))

/-- Major 0x1d (R54). -/
noncomputable def decVfm (w : Nat) : Option Instr :=
  match part w 25 3 with
  | 0 => some (.vfma (at_ w 28 4) (at_ w 22 3) (at_ w 19 3) (at_ w 15 4) (at_ w 11 4) (at_ w 7 4))
  | 1 => some (.vfms (at_ w 28 4) (at_ w 22 3) (at_ w 19 3) (at_ w 15 4) (at_ w 11 4) (at_ w 7 4))
  | 2 => some (.vfnma (at_ w 28 4) (at_ w 22 3) (at_ w 19 3) (at_ w 15 4) (at_ w 11 4) (at_ w 7 4))
  | 3 => zeroed (part w 15 4) (.vsqrt (at_ w 28 4) (at_ w 22 3) (at_ w 19 3) (at_ w 11 4) (at_ w 7 4))
  | 4 => some (.vcps (at_ w 28 4) (at_ w 22 3) (at_ w 19 3) (at_ w 15 4) (at_ w 11 4) (at_ w 7 4))
  | _ => none

/-- Major 0x1e (R54). -/
noncomputable def decVia (w : Nat) : Option Instr :=
  match part w 25 3 with
  | 0 => some (.viadd (at_ w 28 4) (at_ w 22 3) (at_ w 19 3) (at_ w 15 4) (at_ w 11 4) (at_ w 7 4))
  | 1 => some (.visub (at_ w 28 4) (at_ w 22 3) (at_ w 19 3) (at_ w 15 4) (at_ w 11 4) (at_ w 7 4))
  | 2 => some (.vimul (at_ w 28 4) (at_ w 22 3) (at_ w 19 3) (at_ w 15 4) (at_ w 11 4) (at_ w 7 4))
  | 3 => some (.vand (at_ w 28 4) (at_ w 22 3) (at_ w 19 3) (at_ w 15 4) (at_ w 11 4) (at_ w 7 4))
  | 4 => some (.vor (at_ w 28 4) (at_ w 22 3) (at_ w 19 3) (at_ w 15 4) (at_ w 11 4) (at_ w 7 4))
  | 5 => some (.vxor (at_ w 28 4) (at_ w 22 3) (at_ w 19 3) (at_ w 15 4) (at_ w 11 4) (at_ w 7 4))
  | 6 => some (.vimin (at_ w 28 4) (at_ w 22 3) (at_ w 19 3) (at_ w 15 4) (at_ w 11 4) (at_ w 7 4))
  | _ => some (.vimax (at_ w 28 4) (at_ w 22 3) (at_ w 19 3) (at_ w 15 4) (at_ w 11 4) (at_ w 7 4))

/-- Major 0x1f (R54). -/
noncomputable def decVsh (w : Nat) : Option Instr :=
  match part w 25 3 with
  | 0 => some (.vshl (at_ w 28 4) (at_ w 22 3) (at_ w 19 3) (at_ w 15 4) (at_ w 11 4) (at_ w 7 4))
  | 1 => some (.vshr (at_ w 28 4) (at_ w 22 3) (at_ w 19 3) (at_ w 15 4) (at_ w 11 4) (at_ w 7 4))
  | 2 => some (.vsra (at_ w 28 4) (at_ w 22 3) (at_ w 19 3) (at_ w 15 4) (at_ w 11 4) (at_ w 7 4))
  | 3 => some (.vclmul (at_ w 28 4) (at_ w 22 3) (at_ w 19 3) (at_ w 15 4) (at_ w 11 4) (at_ w 7 4))
  | 4 => zeroed (part w 15 4) (.vpopc (at_ w 28 4) (at_ w 22 3) (at_ w 19 3) (at_ w 11 4) (at_ w 7 4))
  | 5 => zeroed (part w 15 4) (.vclz (at_ w 28 4) (at_ w 22 3) (at_ w 19 3) (at_ w 11 4) (at_ w 7 4))
  | _ => none

/-- Major 0x20 (R54). -/
noncomputable def decVcmp (w : Nat) : Option Instr :=
  match part w 25 3 with
  | 0 => zeroed (part w 10 1) (.vceq (at_ w 28 4) (at_ w 22 3) (at_ w 19 3) (at_ w 15 4) (at_ w 11 4) (at_ w 7 3))
  | 1 => zeroed (part w 10 1) (.vcne (at_ w 28 4) (at_ w 22 3) (at_ w 19 3) (at_ w 15 4) (at_ w 11 4) (at_ w 7 3))
  | 2 => zeroed (part w 10 1) (.vclt (at_ w 28 4) (at_ w 22 3) (at_ w 19 3) (at_ w 15 4) (at_ w 11 4) (at_ w 7 3))
  | 3 => zeroed (part w 10 1) (.vcle (at_ w 28 4) (at_ w 22 3) (at_ w 19 3) (at_ w 15 4) (at_ w 11 4) (at_ w 7 3))
  | 4 => zeroed (part w 10 1) (.vcgt (at_ w 28 4) (at_ w 22 3) (at_ w 19 3) (at_ w 15 4) (at_ w 11 4) (at_ w 7 3))
  | 5 => zeroed (part w 10 1) (.vcge (at_ w 28 4) (at_ w 22 3) (at_ w 19 3) (at_ w 15 4) (at_ w 11 4) (at_ w 7 3))
  | 6 => some (.vsel (at_ w 28 4) (at_ w 22 3) (at_ w 19 3) (at_ w 15 4) (at_ w 11 4) (at_ w 7 4))
  | _ => zeroed (part w 15 4) (.vclass (at_ w 28 4) (at_ w 22 3) (at_ w 19 3) (at_ w 11 4) (at_ w 7 4))

/-- Major 0x21 (R54). -/
noncomputable def decVsfu (w : Nat) : Option Instr :=
  match part w 25 3 with
  | 0 => zeroed (part w 15 4) (.vexp2 (at_ w 28 4) (at_ w 22 3) (at_ w 19 3) (at_ w 11 4) (at_ w 7 4))
  | 1 => zeroed (part w 15 4) (.vlog2 (at_ w 28 4) (at_ w 22 3) (at_ w 19 3) (at_ w 11 4) (at_ w 7 4))
  | 2 => zeroed (part w 15 4) (.vrcp (at_ w 28 4) (at_ w 22 3) (at_ w 19 3) (at_ w 11 4) (at_ w 7 4))
  | 3 => zeroed (part w 15 4) (.vrsq (at_ w 28 4) (at_ w 22 3) (at_ w 19 3) (at_ w 11 4) (at_ w 7 4))
  | 4 => zeroed (part w 15 4) (.vtanh (at_ w 28 4) (at_ w 22 3) (at_ w 19 3) (at_ w 11 4) (at_ w 7 4))
  | 5 => zeroed (part w 15 4) (.vsig (at_ w 28 4) (at_ w 22 3) (at_ w 19 3) (at_ w 11 4) (at_ w 7 4))
  | 6 => zeroed (part w 15 4) (.vsin (at_ w 28 4) (at_ w 22 3) (at_ w 19 3) (at_ w 11 4) (at_ w 7 4))
  | _ => zeroed (part w 15 4) (.vcos (at_ w 28 4) (at_ w 22 3) (at_ w 19 3) (at_ w 11 4) (at_ w 7 4))

/-- Major 0x22 (R54). -/
noncomputable def decVcvt (w : Nat) : Option Instr :=
  match part w 25 3 with
  | 0 => some (.vcvt (at_ w 28 4) (at_ w 23 2) (at_ w 21 2) (at_ w 18 3) (at_ w 15 3) (at_ w 11 4) (at_ w 7 4))
  | 1 => some (.vwiden (at_ w 28 4) (at_ w 23 2) (at_ w 21 2) (at_ w 18 3) (at_ w 15 3) (at_ w 11 4) (at_ w 7 4))
  | 2 => some (.vnarrow (at_ w 28 4) (at_ w 23 2) (at_ w 21 2) (at_ w 18 3) (at_ w 15 3) (at_ w 11 4) (at_ w 7 4))
  | 3 => some (.vqnt (at_ w 28 4) (at_ w 23 2) (at_ w 21 2) (at_ w 18 3) (at_ w 15 3) (at_ w 11 4) (at_ w 7 4))
  | 4 => zeroed (part w 21 2) (.vqmax (at_ w 28 4) (at_ w 23 2) (at_ w 18 3) (at_ w 15 3) (at_ w 11 4) (at_ w 7 4))
  | 5 => zeroed (part w 11 7 + part w 21 2) (.vrng (at_ w 28 4) (at_ w 23 2) (at_ w 18 3) (at_ w 7 4))
  | _ => none

/-- Major 0x23 (R54). -/
noncomputable def decVred (w : Nat) : Option Instr :=
  match part w 25 3 with
  | 0 => zeroed (part w 15 4) (.vrsum (at_ w 28 4) (at_ w 22 3) (at_ w 19 3) (at_ w 11 4) (at_ w 7 4))
  | 1 => zeroed (part w 15 4) (.vrmax (at_ w 28 4) (at_ w 22 3) (at_ w 19 3) (at_ w 11 4) (at_ w 7 4))
  | 2 => zeroed (part w 15 4) (.vrmin (at_ w 28 4) (at_ w 22 3) (at_ w 19 3) (at_ w 11 4) (at_ w 7 4))
  | 3 => zeroed (part w 15 4) (.vrband (at_ w 28 4) (at_ w 22 3) (at_ w 19 3) (at_ w 11 4) (at_ w 7 4))
  | 4 => zeroed (part w 15 4) (.vrbor (at_ w 28 4) (at_ w 22 3) (at_ w 19 3) (at_ w 11 4) (at_ w 7 4))
  | 5 => zeroed (part w 15 4) (.vrbxor (at_ w 28 4) (at_ w 22 3) (at_ w 19 3) (at_ w 11 4) (at_ w 7 4))
  | 6 => some (.vdot (at_ w 28 4) (at_ w 22 3) (at_ w 19 3) (at_ w 15 4) (at_ w 11 4) (at_ w 7 4))
  | _ => some (.vrsuma (at_ w 28 4) (at_ w 22 3) (at_ w 19 3) (at_ w 15 4) (at_ w 11 4) (at_ w 7 4))

/-- Major 0x24 (R54). -/
noncomputable def decVperm (w : Nat) : Option Instr :=
  match part w 25 3 with
  | 0 => some (.vshuf (at_ w 28 4) (at_ w 22 3) (at_ w 19 3) (at_ w 15 4) (at_ w 11 4) (at_ w 7 4))
  | 1 => some (.vrot (at_ w 28 4) (at_ w 22 3) (at_ w 19 3) (at_ w 15 4) (at_ w 11 4) (at_ w 7 4))
  | 2 => some (.vslide (at_ w 28 4) (at_ w 22 3) (at_ w 19 3) (at_ w 15 4) (at_ w 11 4) (at_ w 7 4))
  | 3 => zeroed (part w 15 4) (.vcmpr (at_ w 28 4) (at_ w 22 3) (at_ w 19 3) (at_ w 11 4) (at_ w 7 4))
  | 4 => zeroed (part w 15 4) (.vexpd (at_ w 28 4) (at_ w 22 3) (at_ w 19 3) (at_ w 11 4) (at_ w 7 4))
  | 5 => zeroed (part w 11 8) (.viota (at_ w 28 4) (at_ w 22 3) (at_ w 19 3) (at_ w 7 4))
  | 6 => zeroed (part w 15 4) (.vbcast (at_ w 28 4) (at_ w 22 3) (at_ w 19 3) (at_ w 11 4) (at_ w 7 4))
  | _ => some (.vzip (at_ w 28 4) (at_ w 22 3) (at_ w 19 3) (at_ w 15 4) (at_ w 11 4) (at_ w 7 4))

/-- Major 0x25 (R54). -/
noncomputable def decVxs (w : Nat) : Option Instr :=
  match part w 26 2 with
  | 0 => zeroed (part w 7 4 + part w 20 3) (.vget (at_ w 28 4) (at_ w 23 3) (at_ w 15 5) (at_ w 11 4))
  | 1 => zeroed (part w 20 3) (.vput (at_ w 28 4) (at_ w 23 3) (at_ w 15 5) (at_ w 11 4) (at_ w 7 4))
  | 2 => zeroed (part w 11 4) (.vsplat (at_ w 28 4) (at_ w 23 3) (at_ w 20 3) (at_ w 15 5) (at_ w 7 4))
  | _ => zeroed (part w 15 5) (.vmov (at_ w 28 4) (at_ w 23 3) (at_ w 20 3) (at_ w 11 4) (at_ w 7 4))

/-- Major 0x26 (R54). -/
noncomputable def decVmsk (w : Nat) : Option Instr :=
  match part w 25 3 with
  | 0 => zeroed (part w 10 1 + part w 14 1 + part w 18 7) (.mand (at_ w 28 4) (at_ w 15 3) (at_ w 11 3) (at_ w 7 3))
  | 1 => zeroed (part w 10 1 + part w 14 1 + part w 18 7) (.mor (at_ w 28 4) (at_ w 15 3) (at_ w 11 3) (at_ w 7 3))
  | 2 => zeroed (part w 10 1 + part w 14 1 + part w 18 7) (.mxor (at_ w 28 4) (at_ w 15 3) (at_ w 11 3) (at_ w 7 3))
  | 3 => zeroed (part w 10 1 + part w 14 11) (.mnot (at_ w 28 4) (at_ w 11 3) (at_ w 7 3))
  | 4 => zeroed (part w 14 11) (.mpopc (at_ w 28 4) (at_ w 11 3) (at_ w 7 4))
  | 5 => zeroed (part w 14 11) (.mfirst (at_ w 28 4) (at_ w 11 3) (at_ w 7 4))
  | 6 => zeroed (part w 10 1 + part w 19 6) (.mset (at_ w 28 4) (at_ w 15 4) (at_ w 11 4) (at_ w 7 3))
  | _ => zeroed (part w 14 1 + part w 19 6) (.mget (at_ w 28 4) (at_ w 15 4) (at_ w 11 3) (at_ w 7 4))

/-- Major 0x27 (R54). -/
noncomputable def decChain (w : Nat) : Option Instr :=
  match part w 25 3 with
  | 0 => zeroed (part w 15 7) (.vchain (at_ w 28 4) (at_ w 22 3) (at_ w 11 4) (at_ w 7 4))
  | 1 => zeroed (part w 15 7) (.vchainr (at_ w 28 4) (at_ w 22 3) (at_ w 11 4) (at_ w 7 4))
  | _ => none

/-- Major 0x28 (R54). -/
noncomputable def decTask (w : Nat) : Option Instr :=
  match part w 22 6 with
  | 0 => zeroed (part w 28 4) (.fork (at_ w 7 5) (at_ w 12 5) (at_ w 17 5))
  | 1 => zeroed (part w 12 10 + part w 28 4) (.join (at_ w 7 5))
  | 2 => zeroed (part w 7 15 + part w 28 4) .exit_
  | 3 => zeroed (part w 12 10 + part w 28 4) (.yield (at_ w 7 5))
  | 4 => zeroed (part w 17 5 + part w 28 4) (.domain (at_ w 7 5) (at_ w 12 5))
  | 5 => zeroed (part w 12 10 + part w 28 4) (.spawnq (at_ w 7 5))
  | _ => none

/-- Major 0x29 (R54). -/
noncomputable def decFgrp (w : Nat) : Option Instr :=
  match part w 22 6 with
  | 0 => zeroed (part w 28 4) (.lead (at_ w 7 5) (at_ w 12 5) (at_ w 17 5))
  | 1 => zeroed (part w 28 4) (.follow (at_ w 7 5) (at_ w 12 5) (at_ w 17 5))
  | 2 => zeroed (part w 7 15 + part w 28 4) .detach
  | _ => none

/-- Major 0x2a (R54). -/
noncomputable def decBri (w : Nat) : Option Instr :=
  match part w 17 3 with
  | 0 => some (.bri (at_ w 7 5) (at_ w 12 5) (at_ w 20 12))
  | _ => none

/-- Major 0x2b (R54). -/
noncomputable def decEvent (w : Nat) : Option Instr :=
  match part w 22 6 with
  | 0 => zeroed (part w 28 4) (.post (at_ w 7 5) (at_ w 12 5) (at_ w 17 5))
  | 1 => zeroed (part w 28 4) (.postd (at_ w 7 5) (at_ w 12 5) (at_ w 17 5))
  | 2 => zeroed (part w 7 15 + part w 28 4) .rend
  | 3 => zeroed (part w 17 5 + part w 28 4) (.safew (at_ w 7 5) (at_ w 12 5))
  | 4 => zeroed (part w 17 5 + part w 28 4) (.dln (at_ w 7 5) (at_ w 12 5))
  | 5 => zeroed (part w 17 5 + part w 28 4) (.tagr (at_ w 7 5) (at_ w 12 5))
  | 6 => zeroed (part w 12 10 + part w 28 4) (.clkr (at_ w 7 5))
  | 7 => zeroed (part w 17 5 + part w 28 4) (.lateq (at_ w 7 5) (at_ w 12 5))
  | _ => none

/-- Major 0x2c (R54). -/
noncomputable def decMsg (w : Nat) : Option Instr :=
  match part w 22 6 with
  | 0 => some (.send (at_ w 28 4) (at_ w 7 5) (at_ w 12 5) (at_ w 17 5))
  | 1 => some (.recv (at_ w 28 4) (at_ w 7 5) (at_ w 12 5) (at_ w 17 5))
  | 2 => some (.recvw (at_ w 28 4) (at_ w 7 5) (at_ w 12 5) (at_ w 17 5))
  | 3 => zeroed (part w 17 5) (.epbind (at_ w 28 4) (at_ w 7 5) (at_ w 12 5))
  | 4 => zeroed (part w 17 5) (.epfree (at_ w 28 4) (at_ w 7 5) (at_ w 12 5))
  | 5 => zeroed (part w 17 5) (.epwhere (at_ w 28 4) (at_ w 7 5) (at_ w 12 5))
  | _ => none

/-- Major 0x2d (R54). -/
noncomputable def decPri (w : Nat) : Option Instr :=
  match part w 22 6 with
  | 0 => zeroed (part w 17 5 + part w 28 4) (.prio (at_ w 7 5) (at_ w 12 5))
  | 1 => zeroed (part w 17 5 + part w 28 4) (.prioq (at_ w 7 5) (at_ w 12 5))
  | _ => none

/-- Major 0x2e (R54). -/
noncomputable def decSync (w : Nat) : Option Instr :=
  match part w 24 4 with
  | 0 => zeroed (part w 7 15 + part w 28 4) (.phase (at_ w 22 2))
  | 1 => zeroed (part w 7 15 + part w 28 4) (.fence (at_ w 22 2))
  | 2 => zeroed (part w 7 15 + part w 28 4) (.acq (at_ w 22 2))
  | 3 => zeroed (part w 7 15 + part w 28 4) (.rel (at_ w 22 2))
  | 4 => zeroed (part w 28 4) (.pwait (at_ w 22 2) (at_ w 7 5) (at_ w 12 5) (at_ w 17 5))
  | 5 => zeroed (part w 22 2 + part w 28 4) (.phint (at_ w 7 5) (at_ w 12 5) (at_ w 17 5))
  | 6 => zeroed (part w 7 17 + part w 28 4) .fencer
  | _ => none

/-- Major 0x2f (R54). -/
noncomputable def decCtr (w : Nat) : Option Instr :=
  match part w 24 4 with
  | 0 => some (.cadd (at_ w 28 4) (at_ w 22 2) (at_ w 7 5) (at_ w 12 5) (at_ w 17 5))
  | 1 => some (.cwait (at_ w 28 4) (at_ w 22 2) (at_ w 7 5) (at_ w 12 5) (at_ w 17 5))
  | 2 => zeroed (part w 17 5) (.cread (at_ w 28 4) (at_ w 22 2) (at_ w 7 5) (at_ w 12 5))
  | 3 => some (.creg (at_ w 28 4) (at_ w 22 2) (at_ w 7 5) (at_ w 12 5) (at_ w 17 5))
  | 4 => zeroed (part w 17 7) (.cunreg (at_ w 28 4) (at_ w 7 5) (at_ w 12 5))
  | _ => none

/-- Major 0x30 (R54). -/
noncomputable def decWait (w : Nat) : Option Instr :=
  match part w 24 4 with
  | 0 => some (.waita (at_ w 28 4) (at_ w 22 2) (at_ w 7 5) (at_ w 12 5) (at_ w 17 5))
  | 1 => some (.waitat (at_ w 28 4) (at_ w 22 2) (at_ w 7 5) (at_ w 12 5) (at_ w 17 5))
  | _ => none

/-- Major 0x31 (R54). -/
noncomputable def decRed (w : Nat) : Option Instr :=
  match part w 24 4 with
  | 0 => some (.rdadd (at_ w 28 4) (at_ w 22 2) (at_ w 7 5) (at_ w 12 5) (at_ w 17 5))
  | 1 => some (.rdaddf (at_ w 28 4) (at_ w 22 2) (at_ w 7 5) (at_ w 12 5) (at_ w 17 5))
  | 2 => some (.rdadda (at_ w 28 4) (at_ w 22 2) (at_ w 7 5) (at_ w 12 5) (at_ w 17 5))
  | 3 => some (.rdmax (at_ w 28 4) (at_ w 22 2) (at_ w 7 5) (at_ w 12 5) (at_ w 17 5))
  | 4 => some (.rdmin (at_ w 28 4) (at_ w 22 2) (at_ w 7 5) (at_ w 12 5) (at_ w 17 5))
  | 5 => some (.rdand (at_ w 28 4) (at_ w 22 2) (at_ w 7 5) (at_ w 12 5) (at_ w 17 5))
  | 6 => some (.rdior (at_ w 28 4) (at_ w 22 2) (at_ w 7 5) (at_ w 12 5) (at_ w 17 5))
  | 7 => some (.rdxor (at_ w 28 4) (at_ w 22 2) (at_ w 7 5) (at_ w 12 5) (at_ w 17 5))
  | _ => none

/-- Major 0x32 (R54). -/
noncomputable def decSubs (w : Nat) : Option Instr :=
  match part w 24 4 with
  | 0 => zeroed (part w 22 2 + part w 28 4) (.subs (at_ w 7 5) (at_ w 12 5) (at_ w 17 5))
  | 1 => zeroed (part w 17 7 + part w 28 4) (.unsub (at_ w 7 5) (at_ w 12 5))
  | 2 => zeroed (part w 12 12 + part w 28 4) (.sflush (at_ w 7 5))
  | 3 => zeroed (part w 17 7 + part w 28 4) (.sstat (at_ w 7 5) (at_ w 12 5))
  | _ => none

/-- Major 0x33 (R54). -/
noncomputable def decClaim (w : Nat) : Option Instr :=
  match part w 24 4 with
  | 0 => zeroed (part w 22 2 + part w 28 4) (.claim (at_ w 7 5) (at_ w 12 5) (at_ w 17 5))
  | 1 => zeroed (part w 22 2 + part w 28 4) (.object (at_ w 7 5) (at_ w 12 5) (at_ w 17 5))
  | 2 => zeroed (part w 17 7 + part w 28 4) (.claimw (at_ w 7 5) (at_ w 12 5))
  | 3 => zeroed (part w 22 2 + part w 28 4) (.cwin (at_ w 7 5) (at_ w 12 5) (at_ w 17 5))
  | _ => none

/-- Major 0x34 (R54). -/
noncomputable def decCache (w : Nat) : Option Instr :=
  match part w 24 4 with
  | 0 => zeroed (part w 22 2 + part w 28 4) (.cflush (at_ w 7 5) (at_ w 12 5) (at_ w 17 5))
  | 1 => zeroed (part w 22 2 + part w 28 4) (.cinv (at_ w 7 5) (at_ w 12 5) (at_ w 17 5))
  | 2 => zeroed (part w 22 2 + part w 28 4) (.bmode (at_ w 7 5) (at_ w 12 5) (at_ w 17 5))
  | 3 => zeroed (part w 17 7 + part w 28 4) (.bqry (at_ w 7 5) (at_ w 12 5))
  | 4 => zeroed (part w 7 5 + part w 17 7 + part w 28 4) (.pref (at_ w 12 5))
  | _ => none

/-- Major 0x35 (R54). -/
noncomputable def decMcst (w : Nat) : Option Instr :=
  match part w 24 4 with
  | 0 => zeroed (part w 28 4) (.mcst (at_ w 22 2) (at_ w 7 5) (at_ w 12 5) (at_ w 17 5))
  | _ => none

/-- Major 0x36 (R54). -/
noncomputable def decEng (w : Nat) : Option Instr :=
  match part w 22 6 with
  | 0 => zeroed (part w 17 5 + part w 28 4) (.efork (at_ w 7 5) (at_ w 12 5))
  | 1 => zeroed (part w 17 5 + part w 28 4) (.erdv (at_ w 7 5) (at_ w 12 5))
  | 2 => zeroed (part w 28 4) (.epush (at_ w 7 5) (at_ w 12 5) (at_ w 17 5))
  | 3 => zeroed (part w 17 5 + part w 28 4) (.estat (at_ w 7 5) (at_ w 12 5))
  | 4 => zeroed (part w 28 4) (.eabort (at_ w 7 5) (at_ w 12 5) (at_ w 17 5))
  | _ => none

/-- Major 0x37 (R54). -/
noncomputable def decMxc (w : Nat) : Option Instr :=
  match part w 22 6 with
  | 0 => zeroed (part w 28 4) (.mclaim (at_ w 7 5) (at_ w 12 5) (at_ w 17 5))
  | 1 => zeroed (part w 28 4) (.mrel (at_ w 7 5) (at_ w 12 5) (at_ w 17 5))
  | 2 => zeroed (part w 28 4) (.mmap (at_ w 7 5) (at_ w 12 5) (at_ w 17 5))
  | 3 => zeroed (part w 17 5 + part w 28 4) (.mjoin (at_ w 7 5) (at_ w 12 5))
  | _ => none

/-- Major 0x38 (R54). -/
noncomputable def decTags (w : Nat) : Option Instr :=
  match part w 22 6 with
  | 0 => zeroed (part w 28 4) (.twany (at_ w 7 5) (at_ w 12 5) (at_ w 17 5))
  | 1 => zeroed (part w 28 4) (.twall (at_ w 7 5) (at_ w 12 5) (at_ w 17 5))
  | 2 => zeroed (part w 17 5 + part w 28 4) (.tfirst (at_ w 7 5) (at_ w 12 5))
  | 3 => zeroed (part w 17 5 + part w 28 4) (.tclr (at_ w 7 5) (at_ w 12 5))
  | _ => none

/-- Major 0x39 (R54). -/
noncomputable def decSplice (w : Nat) : Option Instr :=
  match part w 22 6 with
  | 0 => zeroed (part w 28 4) (.sjoin (at_ w 7 5) (at_ w 12 5) (at_ w 17 5))
  | 1 => zeroed (part w 17 5 + part w 28 4) (.sleave (at_ w 7 5) (at_ w 12 5))
  | 2 => zeroed (part w 28 4) (.scin (at_ w 7 5) (at_ w 12 5) (at_ w 17 5))
  | 3 => zeroed (part w 28 4) (.scout (at_ w 7 5) (at_ w 12 5) (at_ w 17 5))
  | _ => none

/-- Major 0x3a (R54). -/
noncomputable def decXf64 (w : Nat) : Option Instr :=
  match part w 25 3 with
  | 0 => zeroed (part w 22 3) (.dadd (at_ w 28 4) (at_ w 19 3) (at_ w 15 4) (at_ w 11 4) (at_ w 7 4))
  | 1 => zeroed (part w 22 3) (.dsub (at_ w 28 4) (at_ w 19 3) (at_ w 15 4) (at_ w 11 4) (at_ w 7 4))
  | 2 => zeroed (part w 22 3) (.dmul (at_ w 28 4) (at_ w 19 3) (at_ w 15 4) (at_ w 11 4) (at_ w 7 4))
  | 3 => zeroed (part w 22 3) (.dfma (at_ w 28 4) (at_ w 19 3) (at_ w 15 4) (at_ w 11 4) (at_ w 7 4))
  | 4 => zeroed (part w 22 3) (.ddiv (at_ w 28 4) (at_ w 19 3) (at_ w 15 4) (at_ w 11 4) (at_ w 7 4))
  | 5 => zeroed (part w 15 4 + part w 22 3) (.dsqrt (at_ w 28 4) (at_ w 19 3) (at_ w 11 4) (at_ w 7 4))
  | 6 => some (.dcvt (at_ w 28 4) (at_ w 22 3) (at_ w 19 3) (at_ w 15 4) (at_ w 11 4) (at_ w 7 4))
  | _ => zeroed (part w 22 3) (.dmin (at_ w 28 4) (at_ w 19 3) (at_ w 15 4) (at_ w 11 4) (at_ w 7 4))

/-- Major 0x3b (R54). -/
noncomputable def decXsf (w : Nat) : Option Instr :=
  match part w 25 3 with
  | 0 => zeroed (part w 15 4) (.verf (at_ w 28 4) (at_ w 22 3) (at_ w 19 3) (at_ w 11 4) (at_ w 7 4))
  | 1 => zeroed (part w 15 4) (.vlgam (at_ w 28 4) (at_ w 22 3) (at_ w 19 3) (at_ w 11 4) (at_ w 7 4))
  | 2 => some (.vpow (at_ w 28 4) (at_ w 22 3) (at_ w 19 3) (at_ w 15 4) (at_ w 11 4) (at_ w 7 4))
  | 3 => some (.vatn2 (at_ w 28 4) (at_ w 22 3) (at_ w 19 3) (at_ w 15 4) (at_ w 11 4) (at_ w 7 4))
  | _ => none

/-- A 32-bit word by its major opcode (R40, R54); what no row defines is refused (R59). -/
noncomputable def decodeRow32 (w : Nat) : Option Instr :=
  match part w 1 6 with
  | 1 => decAlu w
  | 2 => decBits w
  | 3 => decMulDiv w
  | 4 => some (.addi (at_ w 7 5) (at_ w 12 5) (at_ w 17 15))
  | 5 => some (.andi (at_ w 7 5) (at_ w 12 5) (at_ w 17 15))
  | 6 => some (.ori (at_ w 7 5) (at_ w 12 5) (at_ w 17 15))
  | 7 => some (.xori (at_ w 7 5) (at_ w 12 5) (at_ w 17 15))
  | 8 => decShiftImm w
  | 9 => some (.slti (at_ w 7 5) (at_ w 12 5) (at_ w 17 15))
  | 10 => some (.sltni (at_ w 7 5) (at_ w 12 5) (at_ w 17 15))
  | 11 => some (.seqi (at_ w 7 5) (at_ w 12 5) (at_ w 17 15))
  | 12 => some (.lih (at_ w 7 5) (at_ w 12 20))
  | 13 => decOxm w
  | 14 => some (.ld (at_ w 28 4) (at_ w 7 5) (at_ w 12 5) (at_ w 20 8) (at_ w 17 3))
  | 15 => zeroed (part w 28 4) (.st (at_ w 7 5) (at_ w 12 5) (at_ w 20 8) (at_ w 17 3))
  | 16 => decBranch w
  | 17 => some (.jal (at_ w 7 5) (at_ w 12 20))
  | 18 => decJalr w
  | 19 => decSys w
  | 20 => some (.vld (at_ w 28 4) (at_ w 27 1) (at_ w 24 3) (at_ w 21 3) (at_ w 16 5) (at_ w 11 5) (at_ w 7 4))
  | 21 => some (.vlds (at_ w 28 4) (at_ w 27 1) (at_ w 24 3) (at_ w 21 3) (at_ w 16 5) (at_ w 11 5) (at_ w 7 4))
  | 22 => zeroed (part w 26 2) (.vgather (at_ w 28 4) (at_ w 23 3) (at_ w 20 3) (at_ w 15 5) (at_ w 11 4) (at_ w 7 4))
  | 23 => some (.vldb (at_ w 28 4) (at_ w 27 1) (at_ w 24 3) (at_ w 21 3) (at_ w 16 5) (at_ w 11 5) (at_ w 7 4))
  | 24 => some (.vst (at_ w 28 4) (at_ w 27 1) (at_ w 24 3) (at_ w 21 3) (at_ w 16 5) (at_ w 11 5) (at_ w 7 4))
  | 25 => some (.vsts (at_ w 28 4) (at_ w 27 1) (at_ w 24 3) (at_ w 21 3) (at_ w 16 5) (at_ w 11 5) (at_ w 7 4))
  | 26 => zeroed (part w 26 2) (.vscatter (at_ w 28 4) (at_ w 23 3) (at_ w 20 3) (at_ w 15 5) (at_ w 11 4) (at_ w 7 4))
  | 27 => zeroed (part w 24 3) (.vldbc (at_ w 28 4) (at_ w 27 1) (at_ w 21 3) (at_ w 16 5) (at_ w 11 5) (at_ w 7 4))
  | 28 => decVfa w
  | 29 => decVfm w
  | 30 => decVia w
  | 31 => decVsh w
  | 32 => decVcmp w
  | 33 => decVsfu w
  | 34 => decVcvt w
  | 35 => decVred w
  | 36 => decVperm w
  | 37 => decVxs w
  | 38 => decVmsk w
  | 39 => decChain w
  | 40 => decTask w
  | 41 => decFgrp w
  | 42 => decBri w
  | 43 => decEvent w
  | 44 => decMsg w
  | 45 => decPri w
  | 46 => decSync w
  | 47 => decCtr w
  | 48 => decWait w
  | 49 => decRed w
  | 50 => decSubs w
  | 51 => decClaim w
  | 52 => decCache w
  | 53 => decMcst w
  | 54 => decEng w
  | 55 => decMxc w
  | 56 => decTags w
  | 57 => decSplice w
  | 58 => decXf64 w
  | 59 => decXsf w
  | _ => none

/-- A 16-bit word by its op5 code (R57). -/
noncomputable def decodeRow16 (w : Nat) : Option Instr :=
  match part w 1 5 with
  | 1 => some (.cAdd (at_ w 6 5) (at_ w 11 5))
  | 2 => some (.cSub (at_ w 6 5) (at_ w 11 5))
  | 3 => some (.cMov (at_ w 6 5) (at_ w 11 5))
  | 4 => some (.cAddi (at_ w 6 5) (at_ w 11 5))
  | 5 => some (.cLi (at_ w 6 5) (at_ w 11 5))
  | 6 => some (.cAnd (at_ w 6 5) (at_ w 11 5))
  | 7 => some (.cOr (at_ w 6 5) (at_ w 11 5))
  | 8 => some (.cXor (at_ w 6 5) (at_ w 11 5))
  | 9 => some (.cShli (at_ w 6 5) (at_ w 11 5))
  | 10 => some (.cShri (at_ w 6 5) (at_ w 11 5))
  | 11 => some (.cSrai (at_ w 6 5) (at_ w 11 5))
  | 12 => some (.cLdsp (at_ w 6 5) (at_ w 11 5))
  | 13 => some (.cStsp (at_ w 6 5) (at_ w 11 5))
  | 14 => some (.cBeqz (at_ w 6 5) (at_ w 11 5))
  | 15 => some (.cBnez (at_ w 6 5) (at_ w 11 5))
  | 16 => some (.cJ (at_ w 6 10))
  | 17 => zeroed (part w 11 5) (.cJr (at_ w 6 5))
  | 18 => zeroed (part w 6 10) .cRet
  | 19 => zeroed (part w 6 10) .cNop
  | _ => none

/-- What the bytes at an address decode to. -/
inductive Decoded where
  /-- A legal word, with its length in bytes. -/
  | word (i : Instr) (len : Nat)
  /-- No row of R54 or R57 has this opcode or function, or a field it does not use is not zero (R59). -/
  | noInstruction
  /-- A field holds a value that the instruction does not accept (R43). -/
  | notAccepted (i : Instr)
  /-- Fewer bytes than the word has. -/
  | short
deriving DecidableEq, Repr

/-- A row's instruction with its accepted values checked (R43). -/
def accepted (o : Option Instr) (len : Nat) : Decoded :=
  match o with
  | none => .noInstruction
  | some i => if i.wf then .word i len else .notAccepted i

/-- The decoder: little-endian halfwords, the length by bit 0 of the first (R39). -/
noncomputable def decodeBytes : List Byte → Decoded
  | b0 :: b1 :: r =>
    let h := b0.toNat + 256 * b1.toNat
    if h % 2 = 0 then accepted (decodeRow16 h) 2
    else
      match r with
      | b2 :: b3 :: _ => accepted (decodeRow32 (h + 65536 * b2.toNat + 16777216 * b3.toNat)) 4
      | _ => .short
  | _ => .short

/-- The instruction that the decoder reads from bits numbered as spec/opcode_table.json numbers them. -/
noncomputable def decodeTableWord (_nbits w : Nat) : Option Instr :=
  match decodeBytes (Machine.bytesOf w 4) with
  | .word i _ => some i
  | _ => none

/-- The word that encodes an instruction, from the formats of R41; a happening has none, and 0 is no instruction (R57). -/
def Instr.encode : Instr → Nat
  | .add d a b => Machine.wrWord 0x1 d.toNat a.toNat b.toNat 0 0
  | .sub d a b => Machine.wrWord 0x1 d.toNat a.toNat b.toNat 1 0
  | .and_ d a b => Machine.wrWord 0x1 d.toNat a.toNat b.toNat 2 0
  | .or_ d a b => Machine.wrWord 0x1 d.toNat a.toNat b.toNat 3 0
  | .xor_ d a b => Machine.wrWord 0x1 d.toNat a.toNat b.toNat 4 0
  | .andn d a b => Machine.wrWord 0x1 d.toNat a.toNat b.toNat 5 0
  | .orn d a b => Machine.wrWord 0x1 d.toNat a.toNat b.toNat 6 0
  | .xnor d a b => Machine.wrWord 0x1 d.toNat a.toNat b.toNat 7 0
  | .shl d a b => Machine.wrWord 0x1 d.toNat a.toNat b.toNat 8 0
  | .shr d a b => Machine.wrWord 0x1 d.toNat a.toNat b.toNat 9 0
  | .sra d a b => Machine.wrWord 0x1 d.toNat a.toNat b.toNat 10 0
  | .rol d a b => Machine.wrWord 0x1 d.toNat a.toNat b.toNat 11 0
  | .ror d a b => Machine.wrWord 0x1 d.toNat a.toNat b.toNat 12 0
  | .min d a b => Machine.wrWord 0x1 d.toNat a.toNat b.toNat 13 0
  | .max d a b => Machine.wrWord 0x1 d.toNat a.toNat b.toNat 14 0
  | .minn d a b => Machine.wrWord 0x1 d.toNat a.toNat b.toNat 15 0
  | .maxn d a b => Machine.wrWord 0x1 d.toNat a.toNat b.toNat 16 0
  | .slt d a b => Machine.wrWord 0x1 d.toNat a.toNat b.toNat 17 0
  | .sltn d a b => Machine.wrWord 0x1 d.toNat a.toNat b.toNat 18 0
  | .seq d a b => Machine.wrWord 0x1 d.toNat a.toNat b.toNat 19 0
  | .sne d a b => Machine.wrWord 0x1 d.toNat a.toNat b.toNat 20 0
  | .clz d a => Machine.wrWord 0x2 d.toNat a.toNat 0 0 0
  | .ctz d a => Machine.wrWord 0x2 d.toNat a.toNat 0 1 0
  | .popc d a => Machine.wrWord 0x2 d.toNat a.toNat 0 2 0
  | .brev d a => Machine.wrWord 0x2 d.toNat a.toNat 0 3 0
  | .bswap d a => Machine.wrWord 0x2 d.toNat a.toNat 0 4 0
  | .sext xf d a => Machine.wrWord 0x2 d.toNat a.toNat 0 5 xf.toNat
  | .zext xf d a => Machine.wrWord 0x2 d.toNat a.toNat 0 6 xf.toNat
  | .mul la d a b => Machine.wrWord 0x3 d.toNat a.toNat b.toNat 0 la.toNat
  | .mulh la d a b => Machine.wrWord 0x3 d.toNat a.toNat b.toNat 1 la.toNat
  | .mulhn la d a b => Machine.wrWord 0x3 d.toNat a.toNat b.toNat 2 la.toNat
  | .div la d a b => Machine.wrWord 0x3 d.toNat a.toNat b.toNat 3 la.toNat
  | .divn la d a b => Machine.wrWord 0x3 d.toNat a.toNat b.toNat 4 la.toNat
  | .rem la d a b => Machine.wrWord 0x3 d.toNat a.toNat b.toNat 5 la.toNat
  | .remn la d a b => Machine.wrWord 0x3 d.toNat a.toNat b.toNat 6 la.toNat
  | .clmul la d a b => Machine.wrWord 0x3 d.toNat a.toNat b.toNat 7 la.toNat
  | .clmulh la d a b => Machine.wrWord 0x3 d.toNat a.toNat b.toNat 8 la.toNat
  | .addi d a imm => Machine.wiWord 0x4 d.toNat a.toNat imm.toNat
  | .andi d a imm => Machine.wiWord 0x5 d.toNat a.toNat imm.toNat
  | .ori d a imm => Machine.wiWord 0x6 d.toNat a.toNat imm.toNat
  | .xori d a imm => Machine.wiWord 0x7 d.toNat a.toNat imm.toNat
  | .shli d a amt => Machine.wiWord 0x8 d.toNat a.toNat amt.toNat
  | .shri d a amt => Machine.wiWord 0x8 d.toNat a.toNat (1 * 0x1000 + amt.toNat)
  | .srai d a amt => Machine.wiWord 0x8 d.toNat a.toNat (2 * 0x1000 + amt.toNat)
  | .rori d a amt => Machine.wiWord 0x8 d.toNat a.toNat (3 * 0x1000 + amt.toNat)
  | .slti d a imm => Machine.wiWord 0x9 d.toNat a.toNat imm.toNat
  | .sltni d a imm => Machine.wiWord 0xa d.toNat a.toNat imm.toNat
  | .seqi d a imm => Machine.wiWord 0xb d.toNat a.toNat imm.toNat
  | .lih d imm => Machine.wuWord 0xc d.toNat imm.toNat
  | .lox d a => Machine.wrWord 0xd d.toNat a.toNat 0 0 0
  | .sox d a => Machine.wrWord 0xd d.toNat a.toNat 0 1 0
  | .ld la d a off w => Machine.wmWord 0xe d.toNat a.toNat w.toNat off.toNat la.toNat
  | .st d a off w => Machine.wmWord 0xf d.toNat a.toNat w.toNat off.toNat 0
  | .beq a b off => Machine.wbWord 0x10 a.toNat b.toNat 0 off.toNat
  | .bne a b off => Machine.wbWord 0x10 a.toNat b.toNat 1 off.toNat
  | .blt a b off => Machine.wbWord 0x10 a.toNat b.toNat 2 off.toNat
  | .bge a b off => Machine.wbWord 0x10 a.toNat b.toNat 3 off.toNat
  | .bltn a b off => Machine.wbWord 0x10 a.toNat b.toNat 4 off.toNat
  | .bgen a b off => Machine.wbWord 0x10 a.toNat b.toNat 5 off.toNat
  | .jal d off => Machine.wjWord 0x11 d.toNat off.toNat
  | .jalr d a => Machine.wrWord 0x12 d.toNat a.toNat 0 0 0
  | .mfs d sel => Machine.weWord 0x13 0 d.toNat sel.toNat 0
  | .mts sel a => Machine.weWord 0x13 a.toNat 0 sel.toNat 1
  | .trap sel => Machine.weWord 0x13 0 0 sel.toNat 2
  | .brk sel => Machine.weWord 0x13 0 0 sel.toNat 4
  | .waiti d a => Machine.weWord 0x13 a.toNat d.toNat 0 5
  | .tlbi a => Machine.weWord 0x13 a.toNat 0 0 7
  | .tlba d a => Machine.weWord 0x13 a.toNat d.toNat 0 8
  | .cAdd d b => Machine.hsWord 0x1 d.toNat b.toNat
  | .cSub d b => Machine.hsWord 0x2 d.toNat b.toNat
  | .cMov d b => Machine.hsWord 0x3 d.toNat b.toNat
  | .cAddi d imm => Machine.hsWord 0x4 d.toNat imm.toNat
  | .cLi d imm => Machine.hsWord 0x5 d.toNat imm.toNat
  | .cAnd d b => Machine.hsWord 0x6 d.toNat b.toNat
  | .cOr d b => Machine.hsWord 0x7 d.toNat b.toNat
  | .cXor d b => Machine.hsWord 0x8 d.toNat b.toNat
  | .cShli d imm => Machine.hsWord 0x9 d.toNat imm.toNat
  | .cShri d imm => Machine.hsWord 0xa d.toNat imm.toNat
  | .cSrai d imm => Machine.hsWord 0xb d.toNat imm.toNat
  | .cLdsp d imm => Machine.hsWord 0xc d.toNat imm.toNat
  | .cStsp d imm => Machine.hsWord 0xd d.toNat imm.toNat
  | .cBeqz d imm => Machine.hsWord 0xe d.toNat imm.toNat
  | .cBnez d imm => Machine.hsWord 0xf d.toNat imm.toNat
  | .cJ off => Machine.hsWord 0x10 (off.toNat % 32) (off.toNat / 32)
  | .cJr d => Machine.hsWord 0x11 d.toNat 0
  | .vld la o ty m xb xa v => Machine.wvmWord 0x14 v.toNat xa.toNat xb.toNat m.toNat ty.toNat o.toNat la.toNat
  | .vlds la o ty m xb xa v => Machine.wvmWord 0x15 v.toNat xa.toNat xb.toNat m.toNat ty.toNat o.toNat la.toNat
  | .vgather la ty m xa vi v => Machine.wvgWord 0x16 v.toNat vi.toNat xa.toNat m.toNat ty.toNat la.toNat
  | .vldb la o ty m xb xa v => Machine.wvmWord 0x17 v.toNat xa.toNat xb.toNat m.toNat ty.toNat o.toNat la.toNat
  | .vst la o ty m xb xa v => Machine.wvmWord 0x18 v.toNat xa.toNat xb.toNat m.toNat ty.toNat o.toNat la.toNat
  | .vsts la o ty m xb xa v => Machine.wvmWord 0x19 v.toNat xa.toNat xb.toNat m.toNat ty.toNat o.toNat la.toNat
  | .vscatter la ty m xa vi v => Machine.wvgWord 0x1a v.toNat vi.toNat xa.toNat m.toNat ty.toNat la.toNat
  | .vldbc la o m xb xa v => Machine.wvmWord 0x1b v.toNat xa.toNat xb.toNat m.toNat 0 o.toNat la.toNat
  | .vadd la ty m vb va vd => Machine.wvWord 0x1c vd.toNat va.toNat vb.toNat m.toNat ty.toNat 0 la.toNat
  | .vsub la ty m vb va vd => Machine.wvWord 0x1c vd.toNat va.toNat vb.toNat m.toNat ty.toNat 1 la.toNat
  | .vmul la ty m vb va vd => Machine.wvWord 0x1c vd.toNat va.toNat vb.toNat m.toNat ty.toNat 2 la.toNat
  | .vmin la ty m vb va vd => Machine.wvWord 0x1c vd.toNat va.toNat vb.toNat m.toNat ty.toNat 3 la.toNat
  | .vmax la ty m vb va vd => Machine.wvWord 0x1c vd.toNat va.toNat vb.toNat m.toNat ty.toNat 4 la.toNat
  | .vdiv la ty m vb va vd => Machine.wvWord 0x1c vd.toNat va.toNat vb.toNat m.toNat ty.toNat 5 la.toNat
  | .vabs la ty m va vd => Machine.wvWord 0x1c vd.toNat va.toNat 0 m.toNat ty.toNat 6 la.toNat
  | .vneg la ty m va vd => Machine.wvWord 0x1c vd.toNat va.toNat 0 m.toNat ty.toNat 7 la.toNat
  | .vfma la ty m vb va vd => Machine.wvWord 0x1d vd.toNat va.toNat vb.toNat m.toNat ty.toNat 0 la.toNat
  | .vfms la ty m vb va vd => Machine.wvWord 0x1d vd.toNat va.toNat vb.toNat m.toNat ty.toNat 1 la.toNat
  | .vfnma la ty m vb va vd => Machine.wvWord 0x1d vd.toNat va.toNat vb.toNat m.toNat ty.toNat 2 la.toNat
  | .vsqrt la ty m va vd => Machine.wvWord 0x1d vd.toNat va.toNat 0 m.toNat ty.toNat 3 la.toNat
  | .vcps la ty m vb va vd => Machine.wvWord 0x1d vd.toNat va.toNat vb.toNat m.toNat ty.toNat 4 la.toNat
  | .viadd la ty m vb va vd => Machine.wvWord 0x1e vd.toNat va.toNat vb.toNat m.toNat ty.toNat 0 la.toNat
  | .visub la ty m vb va vd => Machine.wvWord 0x1e vd.toNat va.toNat vb.toNat m.toNat ty.toNat 1 la.toNat
  | .vimul la ty m vb va vd => Machine.wvWord 0x1e vd.toNat va.toNat vb.toNat m.toNat ty.toNat 2 la.toNat
  | .vand la ty m vb va vd => Machine.wvWord 0x1e vd.toNat va.toNat vb.toNat m.toNat ty.toNat 3 la.toNat
  | .vor la ty m vb va vd => Machine.wvWord 0x1e vd.toNat va.toNat vb.toNat m.toNat ty.toNat 4 la.toNat
  | .vxor la ty m vb va vd => Machine.wvWord 0x1e vd.toNat va.toNat vb.toNat m.toNat ty.toNat 5 la.toNat
  | .vimin la ty m vb va vd => Machine.wvWord 0x1e vd.toNat va.toNat vb.toNat m.toNat ty.toNat 6 la.toNat
  | .vimax la ty m vb va vd => Machine.wvWord 0x1e vd.toNat va.toNat vb.toNat m.toNat ty.toNat 7 la.toNat
  | .vshl la ty m vb va vd => Machine.wvWord 0x1f vd.toNat va.toNat vb.toNat m.toNat ty.toNat 0 la.toNat
  | .vshr la ty m vb va vd => Machine.wvWord 0x1f vd.toNat va.toNat vb.toNat m.toNat ty.toNat 1 la.toNat
  | .vsra la ty m vb va vd => Machine.wvWord 0x1f vd.toNat va.toNat vb.toNat m.toNat ty.toNat 2 la.toNat
  | .vclmul la ty m vb va vd => Machine.wvWord 0x1f vd.toNat va.toNat vb.toNat m.toNat ty.toNat 3 la.toNat
  | .vpopc la ty m va vd => Machine.wvWord 0x1f vd.toNat va.toNat 0 m.toNat ty.toNat 4 la.toNat
  | .vclz la ty m va vd => Machine.wvWord 0x1f vd.toNat va.toNat 0 m.toNat ty.toNat 5 la.toNat
  | .vceq la ty m vb va vd => Machine.wvWord 0x20 vd.toNat va.toNat vb.toNat m.toNat ty.toNat 0 la.toNat
  | .vcne la ty m vb va vd => Machine.wvWord 0x20 vd.toNat va.toNat vb.toNat m.toNat ty.toNat 1 la.toNat
  | .vclt la ty m vb va vd => Machine.wvWord 0x20 vd.toNat va.toNat vb.toNat m.toNat ty.toNat 2 la.toNat
  | .vcle la ty m vb va vd => Machine.wvWord 0x20 vd.toNat va.toNat vb.toNat m.toNat ty.toNat 3 la.toNat
  | .vcgt la ty m vb va vd => Machine.wvWord 0x20 vd.toNat va.toNat vb.toNat m.toNat ty.toNat 4 la.toNat
  | .vcge la ty m vb va vd => Machine.wvWord 0x20 vd.toNat va.toNat vb.toNat m.toNat ty.toNat 5 la.toNat
  | .vsel la ty m vb va vd => Machine.wvWord 0x20 vd.toNat va.toNat vb.toNat m.toNat ty.toNat 6 la.toNat
  | .vclass la ty m va vd => Machine.wvWord 0x20 vd.toNat va.toNat 0 m.toNat ty.toNat 7 la.toNat
  | .vexp2 la ty m va vd => Machine.wvWord 0x21 vd.toNat va.toNat 0 m.toNat ty.toNat 0 la.toNat
  | .vlog2 la ty m va vd => Machine.wvWord 0x21 vd.toNat va.toNat 0 m.toNat ty.toNat 1 la.toNat
  | .vrcp la ty m va vd => Machine.wvWord 0x21 vd.toNat va.toNat 0 m.toNat ty.toNat 2 la.toNat
  | .vrsq la ty m va vd => Machine.wvWord 0x21 vd.toNat va.toNat 0 m.toNat ty.toNat 3 la.toNat
  | .vtanh la ty m va vd => Machine.wvWord 0x21 vd.toNat va.toNat 0 m.toNat ty.toNat 4 la.toNat
  | .vsig la ty m va vd => Machine.wvWord 0x21 vd.toNat va.toNat 0 m.toNat ty.toNat 5 la.toNat
  | .vsin la ty m va vd => Machine.wvWord 0x21 vd.toNat va.toNat 0 m.toNat ty.toNat 6 la.toNat
  | .vcos la ty m va vd => Machine.wvWord 0x21 vd.toNat va.toNat 0 m.toNat ty.toNat 7 la.toNat
  | .vcvt la m rm tyd tys va vd => Machine.wvtWord 0x22 vd.toNat va.toNat tys.toNat tyd.toNat rm.toNat m.toNat 0 la.toNat
  | .vwiden la m rm tyd tys va vd => Machine.wvtWord 0x22 vd.toNat va.toNat tys.toNat tyd.toNat rm.toNat m.toNat 1 la.toNat
  | .vnarrow la m rm tyd tys va vd => Machine.wvtWord 0x22 vd.toNat va.toNat tys.toNat tyd.toNat rm.toNat m.toNat 2 la.toNat
  | .vqnt la m rm tyd tys va vd => Machine.wvtWord 0x22 vd.toNat va.toNat tys.toNat tyd.toNat rm.toNat m.toNat 3 la.toNat
  | .vqmax la m tyd tys va vd => Machine.wvtWord 0x22 vd.toNat va.toNat tys.toNat tyd.toNat 0 m.toNat 4 la.toNat
  | .vrng la m tyd vd => Machine.wvtWord 0x22 vd.toNat 0 0 tyd.toNat 0 m.toNat 5 la.toNat
  | .vrsum la ty m va vd => Machine.wvWord 0x23 vd.toNat va.toNat 0 m.toNat ty.toNat 0 la.toNat
  | .vrmax la ty m va vd => Machine.wvWord 0x23 vd.toNat va.toNat 0 m.toNat ty.toNat 1 la.toNat
  | .vrmin la ty m va vd => Machine.wvWord 0x23 vd.toNat va.toNat 0 m.toNat ty.toNat 2 la.toNat
  | .vrband la ty m va vd => Machine.wvWord 0x23 vd.toNat va.toNat 0 m.toNat ty.toNat 3 la.toNat
  | .vrbor la ty m va vd => Machine.wvWord 0x23 vd.toNat va.toNat 0 m.toNat ty.toNat 4 la.toNat
  | .vrbxor la ty m va vd => Machine.wvWord 0x23 vd.toNat va.toNat 0 m.toNat ty.toNat 5 la.toNat
  | .vdot la ty m vb va vd => Machine.wvWord 0x23 vd.toNat va.toNat vb.toNat m.toNat ty.toNat 6 la.toNat
  | .vrsuma la ty m vb va vd => Machine.wvWord 0x23 vd.toNat va.toNat vb.toNat m.toNat ty.toNat 7 la.toNat
  | .vshuf la ty m vb va vd => Machine.wvWord 0x24 vd.toNat va.toNat vb.toNat m.toNat ty.toNat 0 la.toNat
  | .vrot la ty m vb va vd => Machine.wvWord 0x24 vd.toNat va.toNat vb.toNat m.toNat ty.toNat 1 la.toNat
  | .vslide la ty m vb va vd => Machine.wvWord 0x24 vd.toNat va.toNat vb.toNat m.toNat ty.toNat 2 la.toNat
  | .vcmpr la ty m va vd => Machine.wvWord 0x24 vd.toNat va.toNat 0 m.toNat ty.toNat 3 la.toNat
  | .vexpd la ty m va vd => Machine.wvWord 0x24 vd.toNat va.toNat 0 m.toNat ty.toNat 4 la.toNat
  | .viota la ty m vd => Machine.wvWord 0x24 vd.toNat 0 0 m.toNat ty.toNat 5 la.toNat
  | .vbcast la ty m va vd => Machine.wvWord 0x24 vd.toNat va.toNat 0 m.toNat ty.toNat 6 la.toNat
  | .vzip la ty m vb va vd => Machine.wvWord 0x24 vd.toNat va.toNat vb.toNat m.toNat ty.toNat 7 la.toNat
  | .vget la ty x va => Machine.wvxWord 0x25 0 va.toNat x.toNat 0 ty.toNat 0 la.toNat
  | .vput la ty x va vd => Machine.wvxWord 0x25 vd.toNat va.toNat x.toNat 0 ty.toNat 1 la.toNat
  | .vsplat la ty m x vd => Machine.wvxWord 0x25 vd.toNat 0 x.toNat m.toNat ty.toNat 2 la.toNat
  | .vmov la ty m va vd => Machine.wvxWord 0x25 vd.toNat va.toNat 0 m.toNat ty.toNat 3 la.toNat
  | .mand la vb va vd => Machine.wvWord 0x26 vd.toNat va.toNat vb.toNat 0 0 0 la.toNat
  | .mor la vb va vd => Machine.wvWord 0x26 vd.toNat va.toNat vb.toNat 0 0 1 la.toNat
  | .mxor la vb va vd => Machine.wvWord 0x26 vd.toNat va.toNat vb.toNat 0 0 2 la.toNat
  | .mnot la va vd => Machine.wvWord 0x26 vd.toNat va.toNat 0 0 0 3 la.toNat
  | .mpopc la va vd => Machine.wvWord 0x26 vd.toNat va.toNat 0 0 0 4 la.toNat
  | .mfirst la va vd => Machine.wvWord 0x26 vd.toNat va.toNat 0 0 0 5 la.toNat
  | .mset la vb va vd => Machine.wvWord 0x26 vd.toNat va.toNat vb.toNat 0 0 6 la.toNat
  | .mget la vb va vd => Machine.wvWord 0x26 vd.toNat va.toNat vb.toNat 0 0 7 la.toNat
  | .vchain la ty va vd => Machine.wvWord 0x27 vd.toNat va.toNat 0 0 ty.toNat 0 la.toNat
  | .vchainr la ty va vd => Machine.wvWord 0x27 vd.toNat va.toNat 0 0 ty.toNat 1 la.toNat
  | .fork d a b => Machine.wrWord 0x28 d.toNat a.toNat b.toNat 0 0
  | .join d => Machine.wrWord 0x28 d.toNat 0 0 1 0
  | .yield d => Machine.wrWord 0x28 d.toNat 0 0 3 0
  | .domain d a => Machine.wrWord 0x28 d.toNat a.toNat 0 4 0
  | .spawnq d => Machine.wrWord 0x28 d.toNat 0 0 5 0
  | .lead d a b => Machine.wrWord 0x29 d.toNat a.toNat b.toNat 0 0
  | .follow d a b => Machine.wrWord 0x29 d.toNat a.toNat b.toNat 1 0
  | .bri a b off => Machine.wbWord 0x2a a.toNat b.toNat 0 off.toNat
  | .post d a b => Machine.wrWord 0x2b d.toNat a.toNat b.toNat 0 0
  | .postd d a b => Machine.wrWord 0x2b d.toNat a.toNat b.toNat 1 0
  | .safew d a => Machine.wrWord 0x2b d.toNat a.toNat 0 3 0
  | .dln d a => Machine.wrWord 0x2b d.toNat a.toNat 0 4 0
  | .tagr d a => Machine.wrWord 0x2b d.toNat a.toNat 0 5 0
  | .clkr d => Machine.wrWord 0x2b d.toNat 0 0 6 0
  | .lateq d a => Machine.wrWord 0x2b d.toNat a.toNat 0 7 0
  | .send la d a b => Machine.wrWord 0x2c d.toNat a.toNat b.toNat 0 la.toNat
  | .recv la d a b => Machine.wrWord 0x2c d.toNat a.toNat b.toNat 1 la.toNat
  | .recvw la d a b => Machine.wrWord 0x2c d.toNat a.toNat b.toNat 2 la.toNat
  | .epbind la d a => Machine.wrWord 0x2c d.toNat a.toNat 0 3 la.toNat
  | .epfree la d a => Machine.wrWord 0x2c d.toNat a.toNat 0 4 la.toNat
  | .epwhere la d a => Machine.wrWord 0x2c d.toNat a.toNat 0 5 la.toNat
  | .prio d a => Machine.wrWord 0x2d d.toNat a.toNat 0 0 0
  | .prioq d a => Machine.wrWord 0x2d d.toNat a.toNat 0 1 0
  | .phase sc => Machine.wcWord 0x2e 0 0 0 sc.toNat 0 0
  | .fence sc => Machine.wcWord 0x2e 0 0 0 sc.toNat 1 0
  | .acq sc => Machine.wcWord 0x2e 0 0 0 sc.toNat 2 0
  | .rel sc => Machine.wcWord 0x2e 0 0 0 sc.toNat 3 0
  | .pwait sc d a b => Machine.wcWord 0x2e d.toNat a.toNat b.toNat sc.toNat 4 0
  | .phint d a b => Machine.wcWord 0x2e d.toNat a.toNat b.toNat 0 5 0
  | .cadd la sc d a b => Machine.wcWord 0x2f d.toNat a.toNat b.toNat sc.toNat 0 la.toNat
  | .cwait la sc d a b => Machine.wcWord 0x2f d.toNat a.toNat b.toNat sc.toNat 1 la.toNat
  | .cread la sc d a => Machine.wcWord 0x2f d.toNat a.toNat 0 sc.toNat 2 la.toNat
  | .creg la sc d a b => Machine.wcWord 0x2f d.toNat a.toNat b.toNat sc.toNat 3 la.toNat
  | .cunreg la d a => Machine.wcWord 0x2f d.toNat a.toNat 0 0 4 la.toNat
  | .waita la sc d a b => Machine.wcWord 0x30 d.toNat a.toNat b.toNat sc.toNat 0 la.toNat
  | .waitat la sc d a b => Machine.wcWord 0x30 d.toNat a.toNat b.toNat sc.toNat 1 la.toNat
  | .rdadd la sc d a b => Machine.wcWord 0x31 d.toNat a.toNat b.toNat sc.toNat 0 la.toNat
  | .rdaddf la sc d a b => Machine.wcWord 0x31 d.toNat a.toNat b.toNat sc.toNat 1 la.toNat
  | .rdadda la sc d a b => Machine.wcWord 0x31 d.toNat a.toNat b.toNat sc.toNat 2 la.toNat
  | .rdmax la sc d a b => Machine.wcWord 0x31 d.toNat a.toNat b.toNat sc.toNat 3 la.toNat
  | .rdmin la sc d a b => Machine.wcWord 0x31 d.toNat a.toNat b.toNat sc.toNat 4 la.toNat
  | .rdand la sc d a b => Machine.wcWord 0x31 d.toNat a.toNat b.toNat sc.toNat 5 la.toNat
  | .rdior la sc d a b => Machine.wcWord 0x31 d.toNat a.toNat b.toNat sc.toNat 6 la.toNat
  | .rdxor la sc d a b => Machine.wcWord 0x31 d.toNat a.toNat b.toNat sc.toNat 7 la.toNat
  | .subs d a b => Machine.wcWord 0x32 d.toNat a.toNat b.toNat 0 0 0
  | .unsub d a => Machine.wcWord 0x32 d.toNat a.toNat 0 0 1 0
  | .sflush d => Machine.wcWord 0x32 d.toNat 0 0 0 2 0
  | .sstat d a => Machine.wcWord 0x32 d.toNat a.toNat 0 0 3 0
  | .claim d a b => Machine.wcWord 0x33 d.toNat a.toNat b.toNat 0 0 0
  | .object d a b => Machine.wcWord 0x33 d.toNat a.toNat b.toNat 0 1 0
  | .claimw d a => Machine.wcWord 0x33 d.toNat a.toNat 0 0 2 0
  | .cwin d a b => Machine.wcWord 0x33 d.toNat a.toNat b.toNat 0 3 0
  | .cflush d a b => Machine.wcWord 0x34 d.toNat a.toNat b.toNat 0 0 0
  | .cinv d a b => Machine.wcWord 0x34 d.toNat a.toNat b.toNat 0 1 0
  | .bmode d a b => Machine.wcWord 0x34 d.toNat a.toNat b.toNat 0 2 0
  | .bqry d a => Machine.wcWord 0x34 d.toNat a.toNat 0 0 3 0
  | .pref a => Machine.wcWord 0x34 0 a.toNat 0 0 4 0
  | .mcst sc d a b => Machine.wcWord 0x35 d.toNat a.toNat b.toNat sc.toNat 0 0
  | .efork d a => Machine.wrWord 0x36 d.toNat a.toNat 0 0 0
  | .erdv d a => Machine.wrWord 0x36 d.toNat a.toNat 0 1 0
  | .epush d a b => Machine.wrWord 0x36 d.toNat a.toNat b.toNat 2 0
  | .estat d a => Machine.wrWord 0x36 d.toNat a.toNat 0 3 0
  | .eabort d a b => Machine.wrWord 0x36 d.toNat a.toNat b.toNat 4 0
  | .mclaim d a b => Machine.wrWord 0x37 d.toNat a.toNat b.toNat 0 0
  | .mrel d a b => Machine.wrWord 0x37 d.toNat a.toNat b.toNat 1 0
  | .mmap d a b => Machine.wrWord 0x37 d.toNat a.toNat b.toNat 2 0
  | .mjoin d a => Machine.wrWord 0x37 d.toNat a.toNat 0 3 0
  | .twany d a b => Machine.wrWord 0x38 d.toNat a.toNat b.toNat 0 0
  | .twall d a b => Machine.wrWord 0x38 d.toNat a.toNat b.toNat 1 0
  | .tfirst d a => Machine.wrWord 0x38 d.toNat a.toNat 0 2 0
  | .tclr d a => Machine.wrWord 0x38 d.toNat a.toNat 0 3 0
  | .sjoin d a b => Machine.wrWord 0x39 d.toNat a.toNat b.toNat 0 0
  | .sleave d a => Machine.wrWord 0x39 d.toNat a.toNat 0 1 0
  | .scin d a b => Machine.wrWord 0x39 d.toNat a.toNat b.toNat 2 0
  | .scout d a b => Machine.wrWord 0x39 d.toNat a.toNat b.toNat 3 0
  | .dadd la m vb va vd => Machine.wvWord 0x3a vd.toNat va.toNat vb.toNat m.toNat 0 0 la.toNat
  | .dsub la m vb va vd => Machine.wvWord 0x3a vd.toNat va.toNat vb.toNat m.toNat 0 1 la.toNat
  | .dmul la m vb va vd => Machine.wvWord 0x3a vd.toNat va.toNat vb.toNat m.toNat 0 2 la.toNat
  | .dfma la m vb va vd => Machine.wvWord 0x3a vd.toNat va.toNat vb.toNat m.toNat 0 3 la.toNat
  | .ddiv la m vb va vd => Machine.wvWord 0x3a vd.toNat va.toNat vb.toNat m.toNat 0 4 la.toNat
  | .dsqrt la m va vd => Machine.wvWord 0x3a vd.toNat va.toNat 0 m.toNat 0 5 la.toNat
  | .dcvt la ty m vb va vd => Machine.wvWord 0x3a vd.toNat va.toNat vb.toNat m.toNat ty.toNat 6 la.toNat
  | .dmin la m vb va vd => Machine.wvWord 0x3a vd.toNat va.toNat vb.toNat m.toNat 0 7 la.toNat
  | .verf la ty m va vd => Machine.wvWord 0x3b vd.toNat va.toNat 0 m.toNat ty.toNat 0 la.toNat
  | .vlgam la ty m va vd => Machine.wvWord 0x3b vd.toNat va.toNat 0 m.toNat ty.toNat 1 la.toNat
  | .vpow la ty m vb va vd => Machine.wvWord 0x3b vd.toNat va.toNat vb.toNat m.toNat ty.toNat 2 la.toNat
  | .vatn2 la ty m vb va vd => Machine.wvWord 0x3b vd.toNat va.toNat vb.toNat m.toNat ty.toNat 3 la.toNat
  | .eret => Machine.weWord 0x13 0 0 0 3
  | .synci => Machine.weWord 0x13 0 0 0 6
  | .halt => Machine.weWord 0x13 0 0 0 9
  | .cRet => Machine.hsWord 0x12 0 0
  | .cNop => Machine.hsWord 0x13 0 0
  | .exit_ => Machine.wrWord 0x28 0 0 0 2 0
  | .detach => Machine.wrWord 0x29 0 0 0 2 0
  | .rend => Machine.wrWord 0x2b 0 0 0 2 0
  | .fencer => Machine.wcWord 0x2e 0 0 0 0 6 0
  | .illegalInstruction => 0
  | .extensionMigration _ => 0
  | .loadReply _ _ _ _ _ _ => 0
  | .storeAck _ _ _ _ => 0
  | .homeRequest _ => 0
  | .waitEntryWake _ _ _ => 0
  | .waitatTimeout _ _ => 0
  | .systemAtomicRequest _ _ _ _ _ => 0
  | .fabricRequestTimeout _ => 0
  | .fifoPush _ _ _ => 0
  | .fifoPop _ _ _ => 0
  | .fifoCount _ _ _ => 0
  | .fifoHeldPushDone _ => 0
  | .fifoHeldPopDone _ => 0
  | .bankSwitchDone _ => 0
  | .subscriptionUpdate _ _ _ _ => 0
  | .objectionArrival _ _ _ _ _ _ => 0
  | .claimDecision _ => 0
  | .claimRecordExpiry _ _ _ _ => 0
  | .eventArrival _ => 0
  | .eventForward _ => 0
  | .eventSafe _ _ => 0
  | .dispatchPick _ => 0
  | .switchOut _ => 0
  | .actorMove _ _ _ => 0
  | .stealRequest _ => 0
  | .stealAnswer _ => 0
  | .priorityRaise _ _ => 0
  | .phintExpiry _ _ => 0
  | .messageArrival _ => 0
  | .messageForward _ => 0
  | .messageRefused _ => 0
  | .directoryRequest _ _ _ => 0
  | .stubExpiry _ => 0
  | .waitiWake _ => 0
  | .waitiTimeout _ => 0
  | .joinComplete _ => 0
  | .safewComplete _ => 0
  | .leadTimeout _ => 0
  | .followTimeout _ => 0
  | .twaitLimit _ => 0
  | .commandPortWrite _ _ _ => 0
  | .stagingStore _ _ _ _ => 0
  | .stagingCommit _ _ _ => 0
  | .pushHeldAccept _ _ => 0
  | .programRecordRead _ => 0
  | .commandComplete _ => 0
  | .carryDelivery _ _ => 0
  | .collectivePartial _ => 0
  | .mxFill _ => 0
  | .mxMma _ => 0
  | .mxJoint _ => 0
  | .mxOut _ => 0
  | .mxZero _ => 0
  | .mxRdacc _ => 0
  | .scLin _ => 0
  | .scPfx _ => 0
  | .scSeed _ => 0
  | .scSeg _ => 0
  | .cpCopy _ => 0
  | .cpGather _ => 0
  | .cpScatter _ => 0
  | .cpFill _ => 0
  | .cpCadd _ => 0
  | .cpWait _ => 0
  | .clRss _ => 0
  | .clAgs _ => 0
  | .clSend _ => 0
  | .clRecva _ => 0
  | .clRate _ => 0
  | .ctagsClear _ _ => 0
  | .qgrpWrite _ _ => 0
  | .boundWrite _ _ => 0
  | .sdownGo _ _ => 0
  | .shootdownRequest _ _ _ _ => 0
  | .shootdownAck _ _ => 0
  | .shootdownTimeout _ => 0
  | .mcmdRead _ _ => 0
  | .mcmdWrite _ _ => 0
  | .fwwakeWrite _ _ => 0
  | .launchConfigWrite _ _ => 0
  | .queueEnable _ => 0
  | .queueDisable _ => 0
  | .queueClear _ => 0
  | .prodWrite _ _ => 0
  | .registerWrite _ _ => 0
  | .faultQueueHeadWrite _ _ => 0
  | .hostApertureAccess _ _ _ => 0
  | .packetIssue _ => 0
  | .phaseClean _ _ => 0
  | .gangPlace _ => 0
  | .gangAge _ => 0
  | .clockSyncRead => 0
  | .clockSyncReply _ => 0
  | .clockSyncStale => 0
  | .flitReceive _ _ => 0
  | .nakReceive _ _ => 0
  | .nakRepeat _ => 0
  | .linkRetrainDone _ _ => 0
  | .stationDown _ => 0
  | .fabricAtomicRefused _ => 0
  | .mailboxUnknownKind _ => 0
  | .watchdogExpiry => 0
  | .mctpControl _ => 0
  | .partCreate _ _ _ _ => 0
  | .partDestroy _ => 0
  | .accessWrite _ _ _ _ => 0
  | .stationMap _ _ _ => 0
  | .queueAssign _ _ _ _ => 0
  | .teardown _ => 0
  | .debugWrite _ _ _ _ _ _ => 0
  | .retire _ _ => 0
  | .counters => 0
  | .fwUpdate _ => 0
  | .configWrite _ => 0
  | .attest _ => 0
  | .reset => 0
  | .coreRestart _ _ => 0
  | .memoryError _ _ _ => 0

/-- The length of a word in bytes, by bit 0 of its first halfword (R39). -/
def wordLen (w : Nat) : Nat := if w % 2 = 0 then 2 else 4

/-- The bytes of an instruction's word, as they lie in memory (R39). -/
def Instr.bytes (i : Instr) : List Byte := Machine.bytesOf i.encode (wordLen i.encode)

end Sys2Proof
end

