-- ==== Sys2Proof/Machine/Numeric.lean ====
section
/-!
DEFINITION. Number formats, exact values, rounding, the stochastic stream and the A64 window
(spec/05_number_formats.md R119 to R152).
-/

namespace Sys2Proof.Machine

/-- The floating-point element formats (R119). -/
inductive FloatFmt where
  | f64 | f32 | bf16 | f16 | e4m3 | e5m2
deriving DecidableEq, Repr

/-- Exponent bits (R119). -/
def FloatFmt.ebits : FloatFmt → Nat
  | .f64 => 11 | .f32 => 8 | .bf16 => 8 | .f16 => 5 | .e4m3 => 4 | .e5m2 => 5

/-- Mantissa bits (R119). -/
def FloatFmt.mbits : FloatFmt → Nat
  | .f64 => 52 | .f32 => 23 | .bf16 => 7 | .f16 => 10 | .e4m3 => 3 | .e5m2 => 2

/-- Exponent bias (R119). -/
def FloatFmt.bias (f : FloatFmt) : Nat := 2 ^ (f.ebits - 1) - 1

/-- Width in bits. -/
def FloatFmt.bits (f : FloatFmt) : Nat := 1 + f.ebits + f.mbits

/-- FP32 and FP64 are the wide formats (R122). -/
def FloatFmt.wide : FloatFmt → Bool
  | .f64 => true | .f32 => true | _ => false

/-- The code of the largest finite magnitude (R119). -/
def FloatFmt.maxCode : FloatFmt → Nat
  | .e4m3 => 0x7E
  | f => (2 ^ f.ebits - 1) * 2 ^ f.mbits - 1

/-- The canonical NaN (R123). -/
def FloatFmt.nan : FloatFmt → Nat
  | .f64 => 0x7FF8000000000000 | .f32 => 0x7FC00000 | .bf16 => 0x7FC0 | .f16 => 0x7E00 | .e4m3 => 0x7F | .e5m2 => 0x7E

/-- The code of an infinity's magnitude; E4M3 has none and saturates (R119, R138). -/
def FloatFmt.infCode : FloatFmt → Nat
  | .e4m3 => 0x7E
  | f => (2 ^ f.ebits - 1) * 2 ^ f.mbits

/-- A value: (-1)^neg times m times 2^e, an infinity, or a NaN that is signalling or not (R119, R120). -/
inductive Val where
  | fin (neg : Bool) (m : Nat) (e : Int)
  | inf (neg : Bool)
  | nan (signalling : Bool)
deriving DecidableEq, Repr

/-- The value of a code of a floating-point format (R119, R120). -/
def decodeFloat (f : FloatFmt) (c : Nat) : Val :=
  let neg := c / 2 ^ (f.ebits + f.mbits) % 2 = 1
  let ex := c / 2 ^ f.mbits % 2 ^ f.ebits
  let ma := c % 2 ^ f.mbits
  if f = .e4m3 then
    if ex = 15 ∧ ma = 7 then .nan false
    else if ex = 0 then .fin neg ma (-9) else .fin neg (8 + ma) (ex - 10 : Int)
  else if ex = 2 ^ f.ebits - 1 then
    if ma = 0 then .inf neg else .nan (f ≠ .e5m2 ∧ ma < 2 ^ (f.mbits - 1))
  else if ex = 0 then .fin neg ma (1 - (f.bias : Int) - f.mbits)
  else .fin neg (2 ^ f.mbits + ma) ((ex : Int) - f.bias - f.mbits)

/-- The 4-bit kinds: 0 uniform integer, 1 E2M1, 2 power of two, 3 hybrid (R124).  Twice the magnitude of
magnitude code c. -/
def kindMag2 (kind c : Nat) : Nat :=
  match kind, c with
  | 0, c => 2 * c
  | 1, 0 => 0 | 1, 1 => 1 | 1, 2 => 2 | 1, 3 => 3 | 1, 4 => 4 | 1, 5 => 6 | 1, 6 => 8 | 1, _ => 12
  | 2, 0 => 0 | 2, c => 2 ^ c
  | _, 0 => 0 | _, 1 => 2 | _, 2 => 4 | _, 3 => 6 | _, 4 => 8 | _, 5 => 16 | _, 6 => 32 | _, _ => 64

/-- The value of a 4-bit code (R124, R125). -/
def decode4 (kind c : Nat) : Val :=
  if kind = 0 then
    let i := signed 4 c
    .fin (i < 0) i.natAbs 0
  else .fin (c / 8 % 2 = 1) (kindMag2 kind (c % 8)) (-1)

/-- An integer as a value. -/
def intVal (i : Int) : Val := .fin (i < 0) i.natAbs 0

/-- The element types of R42: a floating-point format or a signed integer of a width. -/
inductive ElemTy where
  | flt (f : FloatFmt)
  | int (bits : Nat)
deriving DecidableEq, Repr

/-- The type of a ty code (R42). -/
def elemTy (ty : BitVec 3) : ElemTy :=
  match ty.toNat with
  | 0 => .flt .f32 | 1 => .flt .bf16 | 2 => .flt .f16 | 3 => .flt .e4m3 | 4 => .flt .e5m2
  | 5 => .int 32 | 6 => .int 16 | _ => .int 8

/-- Element width in bits (R153). -/
def ElemTy.bits : ElemTy → Nat
  | .flt f => f.bits
  | .int b => b

/-- Lanes of a 512-byte register (R153). -/
def ElemTy.lanes (t : ElemTy) : Nat := 4096 / t.bits

/-- val(e) at a type (R153). -/
def decodeElem (t : ElemTy) (c : Nat) : Val :=
  match t with
  | .flt f => decodeFloat f c
  | .int b => intVal (signed b c)

/-- An exact magnitude with its sign: (m + eps) times 2^e, where eps is 0, or strictly between 0 and 1 when sticky. -/
structure Exact where
  neg : Bool
  m : Nat
  e : Int
  sticky : Bool
deriving DecidableEq, Repr

/-- The rounding modes (R42): nearest-even, toward zero, stochastic. -/
inductive Mode where
  | rne | rtz | rsto
deriving DecidableEq, Repr

/-- The mode of an rm field of 0 to 2, or of sys.frm. -/
def modeOf (rm : BitVec 2) : Mode := if rm = 1 then .rtz else if rm = 2 then .rsto else .rne

/-- The sticky flags of sys.fflags, from bit 5 down: SAT NV DZ OF UF NX (R27). -/
structure Flags where
  sat : Bool := false
  nv : Bool := false
  dz : Bool := false
  of : Bool := false
  uf : Bool := false
  nx : Bool := false
deriving DecidableEq, Repr

/-- Two sets of flags together. -/
def Flags.or (a b : Flags) : Flags :=
  ⟨a.sat || b.sat, a.nv || b.nv, a.dz || b.dz, a.of || b.of, a.uf || b.uf, a.nx || b.nx⟩

/-- The six bits of sys.fflags (R27). -/
def Flags.toBits (f : Flags) : BitVec 6 :=
  BitVec.ofNat 6 (f.sat.toNat * 32 + f.nv.toNat * 16 + f.dz.toNat * 8 + f.of.toNat * 4 + f.uf.toNat * 2 + f.nx.toNat)

/-- The five command flags of R424, from bit 4 down: SAT NV OF UF NX. -/
def Flags.toCmd (f : Flags) : BitVec 5 :=
  BitVec.ofNat 5 (f.sat.toNat * 16 + f.nv.toNat * 8 + f.of.toNat * 4 + f.uf.toNat * 2 + f.nx.toNat)

/-- An exact value compared with n times 2^q: less, equal or greater. -/
def Exact.cmp (x : Exact) (n : Nat) (q : Int) : Ordering :=
  let a := if q ≤ x.e then x.m * 2 ^ (x.e - q).toNat else x.m
  let b := if q ≤ x.e then n else n * 2 ^ (q - x.e).toNat
  if a < b then .lt else if a = b then (if x.sticky then .gt else .eq) else .gt

/-- The number of quanta 2^q below or at the value, and whether the value lies above that (lo of R136). -/
def Exact.floor (x : Exact) (q : Int) : Nat × Bool :=
  if q ≤ x.e then (x.m * 2 ^ (x.e - q).toNat, x.sticky)
  else
    let d := (q - x.e).toNat
    (x.m / 2 ^ d, x.sticky || x.m % 2 ^ d ≠ 0)

/-- Whether a value between lo and lo + gap, both counted in quanta 2^q, is rounded up (R134 to R136): even says
which neighbour a tie takes (true: the upper one). -/
def roundsUp (x : Exact) (q : Int) (lo gap : Nat) (mode : Mode) (tieUp : Bool) (z : Nat) : Bool :=
  match mode with
  | .rtz => false
  | .rne =>
    match x.cmp (2 * lo + gap) (q - 1) with
    | .lt => false
    | .eq => tieUp
    | .gt => true
  | .rsto =>
    -- (a - lo) * 2^24 + z * gap ≥ gap * 2^24, in quanta of 2^(q - 24)
    match x.cmp (lo * 2 ^ 24 + (2 ^ 24 - z) * gap) (q - 24) with
    | .lt => false
    | _ => true

/-- round(x, F, mode) for a finite x and a floating-point format (R133 to R140): the code and the flags. -/
def roundFloat (f : FloatFmt) (mode : Mode) (z : Nat) (x : Exact) : Nat × Flags :=
  let sgn := if x.neg then 2 ^ (f.bits - 1) else 0
  let emin : Int := 1 - (f.bias : Int)
  let p := f.mbits + 1
  let maxM := match decodeFloat f f.maxCode with | .fin _ m _ => m | _ => 0
  let maxE := match decodeFloat f f.maxCode with | .fin _ _ e => e | _ => 0
  if x.m = 0 ∧ ¬ x.sticky then (sgn, {})
  else if x.cmp maxM maxE = .gt then
    if f.wide then
      let emax : Int := f.bias
      match mode with
      | .rne =>
        if x.cmp (2 ^ (p + 1) - 1) (emax - p) = .lt then (sgn + f.maxCode, { nx := true })
        else (sgn + f.infCode, { of := true, nx := true })
      | _ =>
        if x.cmp 1 (emax + 1) = .lt then (sgn + f.maxCode, { nx := true })
        else (sgn + f.maxCode, { of := true, nx := true })
    else (sgn + f.maxCode, { sat := true, nx := true })
  else
    let ex : Int := if x.m = 0 then emin else max emin ((Nat.log2 x.m : Int) + x.e)
    let q := ex - f.mbits
    let (n, above) := x.floor q
    let up := above && roundsUp x q n 1 mode (n % 2 = 1) z
    let r := if up then n + 1 else n
    -- r quanta of 2^(ex - mbits): a carry into the next binade falls out of the addition
    let code := if r < 2 ^ f.mbits then r else r - 2 ^ f.mbits + (ex - emin + 1).toNat * 2 ^ f.mbits
    let tiny := r < 2 ^ f.mbits ∧ ex = emin
    (sgn + code, { nx := above, uf := above && tiny })

/-- round into a 4-bit kind (R133 to R140). -/
def round4 (kind : Nat) (mode : Mode) (z : Nat) (x : Exact) : Nat × Flags :=
  let top := if kind = 0 ∧ x.neg then 8 else 7
  let put := fun (c : Nat) => if kind = 0 then (if x.neg then (16 - c) % 16 else c) else (if x.neg then 8 + c else c)
  if x.cmp (kindMag2 kind top) (-1) = .gt then (put top, { sat := true, nx := true })
  else
    -- the largest magnitude code whose magnitude does not exceed the value
    let lo := ((List.range (top + 1)).filter fun c => x.cmp (kindMag2 kind c) (-1) ≠ .lt).length - 1
    let exact := x.cmp (kindMag2 kind lo) (-1) = .eq
    let a := kindMag2 kind lo
    let b := kindMag2 kind (lo + 1)
    let tieUp := if kind = 2 then (if lo = 0 then false else (lo + 1) % 2 = 1) else (lo + 1) % 2 = 0
    let up := !exact && roundsUp x (-1) a (b - a) mode tieUp z
    let c := if up then lo + 1 else lo
    (put c, { nx := !exact, uf := !exact && c = 0 })

/-- round into an integer type of a width (R133 to R140). -/
def roundInt (bits : Nat) (mode : Mode) (z : Nat) (x : Exact) : Nat × Flags :=
  let top := if x.neg then 2 ^ (bits - 1) else 2 ^ (bits - 1) - 1
  if x.cmp top 0 = .gt then (ofSigned bits (if x.neg then -(top : Int) else top), { nv := true })
  else
    let (n, above) := x.floor 0
    let r := if above && roundsUp x 0 n 1 mode (n % 2 = 1) z then n + 1 else n
    (ofSigned bits (if x.neg then -(r : Int) else r), { nx := above, uf := above && r = 0 })

/-- A finite value as an exact one. -/
def exactOf (neg : Bool) (m : Nat) (e : Int) : Exact := ⟨neg, m, e, false⟩

/-- The special results of R138 for a floating-point destination. -/
def floatInf (f : FloatFmt) (neg : Bool) : Nat × Flags :=
  (f.infCode + (if neg then 2 ^ (f.bits - 1) else 0), { sat := f = .e4m3 })

/-- round(v, F, mode) of any value into a floating-point format (R133 to R140). -/
def roundValFloat (f : FloatFmt) (mode : Mode) (z : Nat) : Val → Nat × Flags
  | .fin neg m e => roundFloat f mode z (exactOf neg m e)
  | .inf neg => floatInf f neg
  | .nan s => (f.nan, { nv := s })

/-- round(v, t, mode) of any value into an element type (R133 to R140). -/
def roundVal (t : ElemTy) (mode : Mode) (z : Nat) (v : Val) : Nat × Flags :=
  match t with
  | .flt f => roundValFloat f mode z v
  | .int b =>
    match v with
    | .fin neg m e => roundInt b mode z (exactOf neg m e)
    | .inf neg => (if neg then 2 ^ (b - 1) else 2 ^ (b - 1) - 1, { nv := true })
    | .nan _ => (0, { nv := true })

/-- round(v, kind, mode) of any value into a 4-bit kind (R133 to R140, R180). -/
def roundVal4 (kind : Nat) (mode : Mode) (z : Nat) (v : Val) : Nat × Flags :=
  match v with
  | .fin neg m e => round4 kind mode z (exactOf neg m e)
  | .inf neg =>
    (if kind = 0 then (if neg then 8 else 7) else (if neg then 15 else 7), { sat := true })
  | .nan _ => (0, { nv := true })

/-- The xorshift128+ state of a logical core with what seed() starts from (R141 to R143). -/
structure Stream where
  s0 : Word
  s1 : Word
  start : Word
deriving DecidableEq, Repr

/-- The constant of R143. -/
def golden : Word := 0x9E3779B97F4A7C15

/-- sm() on the running s: the output and the new s (R143). -/
def sm (s : Word) : Word × Word :=
  let s := s + golden
  let z := (s ^^^ (s >>> 30)) * 0xBF58476D1CE4E5B9
  let z := (z ^^^ (z >>> 27)) * 0x94D049BB133111EB
  (z ^^^ (z >>> 31), s)

/-- What seed() starts from: SEED and the device and logical core number L (R143). -/
def seedStart (seed : Word) (l : Nat) : Word := seed ^^^ (BitVec.ofNat 64 l * golden)

/-- One draw: the 64-bit output and the new state (R142). -/
def draw (st : Stream) : Word × Stream :=
  let (s0, s1) :=
    if st.s0 = 0 ∧ st.s1 = 0 then
      let (a, s) := sm st.start
      let (b, _) := sm s
      (a, b)
    else (st.s0, st.s1)
  let a := s0 ^^^ (s0 <<< 23)
  let n := a ^^^ s1 ^^^ (a >>> 17) ^^^ (s1 >>> 26)
  (n + s1, { st with s0 := s1, s1 := n })

/-- What an instruction that computes on numbers carries along: its mode, the stream and the flags raised so far. -/
structure Num where
  mode : Mode
  stream : Stream
  flags : Flags
deriving DecidableEq, Repr

/-- The draw z of an element, taken only in stochastic mode (R136, R158). -/
def Num.z (n : Num) : Nat × Num :=
  match n.mode with
  | .rsto => let (w, st) := draw n.stream; (w.toNat / 2 ^ 40, { n with stream := st })
  | _ => (0, n)

/-- Flags raised. -/
def Num.raise (n : Num) (f : Flags) : Num := { n with flags := n.flags.or f }

/-- The result of an arithmetic step before rounding: an exact value (with the flags of the operation) or a code
that needs no rounding. -/
inductive Result where
  | exact (x : Exact) (f : Flags)
  | value (v : Val) (f : Flags)
deriving DecidableEq, Repr

/-- A result rounded once into a floating-point format (R159). -/
def roundResult (f : FloatFmt) (mode : Mode) (z : Nat) : Result → Nat × Flags
  | .exact x g => let (c, h) := roundFloat f mode z x; (c, g.or h)
  | .value (.nan _) g => (f.nan, g)
  | .value v g => let (c, h) := roundValFloat f mode z v; (c, g.or h)

/-- NV of a signalling NaN operand (R159). -/
def sigNan : Val → Bool
  | .nan s => s
  | _ => false

/-- The exact sum of two finite signed magnitudes, as a signed integer at the lower exponent. -/
def sumInt (n1 : Bool) (m1 : Nat) (e1 : Int) (n2 : Bool) (m2 : Nat) (e2 : Int) : Int × Int :=
  let e := min e1 e2
  let a : Int := m1 * 2 ^ (e1 - e).toNat
  let b : Int := m2 * 2 ^ (e2 - e).toNat
  ((if n1 then -a else a) + (if n2 then -b else b), e)

/-- a + b, exactly (R159, R171). -/
def addVal (a b : Val) : Result :=
  match a, b with
  | .nan s, b => .value (.nan false) { nv := s || sigNan b }
  | a, .nan s => .value (.nan false) { nv := s || sigNan a }
  | .inf s, .inf t => if s = t then .value (.inf s) {} else .value (.nan false) { nv := true }
  | .inf s, .fin _ _ _ => .value (.inf s) {}
  | .fin _ _ _, .inf t => .value (.inf t) {}
  | .fin n1 m1 e1, .fin n2 m2 e2 =>
    let (i, e) := sumInt n1 m1 e1 n2 m2 e2
    .exact ⟨if i = 0 then n1 && n2 && m1 = 0 && m2 = 0 else i < 0, i.natAbs, e, false⟩ {}

/-- The value with its sign turned. -/
def negVal : Val → Val
  | .fin n m e => .fin (!n) m e
  | .inf n => .inf (!n)
  | .nan s => .nan s

/-- a times b, exactly, as a value (R159); the flag is NV. -/
def mulExact (a b : Val) : Val × Bool :=
  match a, b with
  | .nan s, b => (.nan false, s || sigNan b)
  | a, .nan s => (.nan false, s || sigNan a)
  | .inf s, .inf t => (.inf (s != t), false)
  | .inf s, .fin t m _ => if m = 0 then (.nan false, true) else (.inf (s != t), false)
  | .fin s m _, .inf t => if m = 0 then (.nan false, true) else (.inf (s != t), false)
  | .fin n1 m1 e1, .fin n2 m2 e2 => (.fin (n1 != n2) (m1 * m2) (e1 + e2), false)

/-- A value as a result. -/
def resultOf (v : Val) (f : Flags) : Result :=
  match v with
  | .fin n m e => .exact ⟨n, m, e, false⟩ f
  | v => .value v f

/-- a times b (R170). -/
def mulVal (a b : Val) : Result :=
  let (v, nv) := mulExact a b
  resultOf v { nv := nv }

/-- a times b plus c, with one rounding to come (R170). -/
def fmaVal (a b c : Val) : Result :=
  let (p, nv) := mulExact a b
  let nv := nv || sigNan c
  match addVal p c with
  | .exact x f => .exact x (f.or { nv := nv })
  | .value v f => .value v (f.or { nv := nv })

/-- The exact quotient of two magnitudes to at least 128 bits, and whether it is inexact. -/
def divExact (n1 : Bool) (m1 : Nat) (e1 : Int) (n2 : Bool) (m2 : Nat) (e2 : Int) : Exact :=
  let k := 128 + Nat.log2 m2
  let a := m1 * 2 ^ k
  ⟨n1 != n2, a / m2, e1 - e2 - k, a % m2 ≠ 0⟩

/-- a / b (R159, R170). -/
def divVal (a b : Val) : Result :=
  match a, b with
  | .nan s, b => .value (.nan false) { nv := s || sigNan b }
  | a, .nan s => .value (.nan false) { nv := s || sigNan a }
  | .inf _, .inf _ => .value (.nan false) { nv := true }
  | .inf s, .fin t _ _ => .value (.inf (s != t)) {}
  | .fin s _ _, .inf t => .exact ⟨s != t, 0, 0, false⟩ {}
  | .fin n1 m1 e1, .fin n2 m2 e2 =>
    if m2 = 0 then
      if m1 = 0 then .value (.nan false) { nv := true } else .value (.inf (n1 != n2)) { dz := true }
    else .exact (divExact n1 m1 e1 n2 m2 e2) {}

/-- The exact square root of m times 2^e to at least 128 bits. -/
def sqrtExact (m : Nat) (e : Int) : Exact :=
  let odd := (e % 2).toNat
  let n := m * 2 ^ (256 + odd)
  let r := isqrt n (Nat.log2 n / 2 + 1) 0
  ⟨false, r, (e - odd) / 2 - 128, r * r ≠ n⟩

/-- The square root (R159, R170): the root of -0 is -0. -/
def sqrtVal (a : Val) : Result :=
  match a with
  | .nan s => .value (.nan false) { nv := s }
  | .inf s => if s then .value (.nan false) { nv := true } else .value (.inf false) {}
  | .fin s m e =>
    if m = 0 then .exact ⟨s, 0, 0, false⟩ {}
    else if s then .value (.nan false) { nv := true } else .exact (sqrtExact m e) {}

/-- 1 / sqrt a (R175). -/
def rsqVal (a : Val) : Result :=
  match a with
  | .nan s => .value (.nan false) { nv := s }
  | .inf s => if s then .value (.nan false) { nv := true } else .exact ⟨false, 0, 0, false⟩ {}
  | .fin s m e =>
    if m = 0 then .value (.inf s) { dz := true }
    else if s then .value (.nan false) { nv := true }
    else
      -- 1 / (m 2^e) as N 2^-(2k) with N rounded down, then its root; exact only when both steps are
      let odd := (e % 2).toNat
      let k := 192 + Nat.log2 m
      let n := 2 ^ (2 * k) / (m * 2 ^ odd)
      let r := isqrt n (Nat.log2 n / 2 + 1) 0
      .exact ⟨false, r, -((e - odd) / 2) - k, r * r * (m * 2 ^ odd) ≠ 2 ^ (2 * k)⟩ {}

/-- The ordering of two values that are not NaNs, with -0 below +0 when strict is set (R171, R173). -/
def cmpVal (zeros : Bool) (a b : Val) : Ordering :=
  match a, b with
  | .inf s, .inf t => if s = t then .eq else if s then .lt else .gt
  | .inf s, _ => if s then .lt else .gt
  | _, .inf t => if t then .gt else .lt
  | .fin n1 m1 e1, .fin n2 m2 e2 =>
    let (i, _) := sumInt n1 m1 e1 (!n2) m2 e2
    if i < 0 then .lt else if i > 0 then .gt
    else if zeros ∧ m1 = 0 ∧ m2 = 0 ∧ n1 ≠ n2 then (if n1 then .lt else .gt) else .eq
  | _, _ => .eq

/-- Whether a value is a NaN. -/
def isNan : Val → Bool
  | .nan _ => true
  | _ => false

/-- VMIN (greater = false) and VMAX on codes of a format (R171): the code chosen, and NV. -/
def minMax (f : FloatFmt) (greater : Bool) (ca cb : Nat) : Nat × Bool :=
  let a := decodeFloat f ca
  let b := decodeFloat f cb
  let nv := sigNan a || sigNan b
  if isNan a && isNan b then (f.nan, nv)
  else if isNan a then (cb, nv)
  else if isNan b then (ca, nv)
  else
    match cmpVal true a b with
    | .lt => (if greater then cb else ca, nv)
    | .gt => (if greater then ca else cb, nv)
    | .eq => (ca, nv)

/-- The 64-bit extremes of A64 (R147, R148). -/
def a64Max : Int := 2 ^ 63 - 1
/-- The least A64 integer. -/
def a64Min : Int := -(2 ^ 63)

/-- An integer clamped to the A64 range, and whether it was (R148). -/
def clampA64 (q : Int) : Int × Bool :=
  if q > a64Max then (a64Max, true) else if q < a64Min then (a64Min, true) else (q, false)

/-- p times 2^f rounded to an integer, nearest-even (R148). -/
def windowOf (neg : Bool) (m : Nat) (e : Int) (f : Nat) : Int :=
  let x : Exact := ⟨neg, m, e + f, false⟩
  let (n, above) := x.floor 0
  let r := if above && roundsUp x 0 n 1 .rne (n % 2 = 1) 0 then n + 1 else n
  if neg then -(r : Int) else r

/-- One product entering an accumulator (R148): the new Q and whether a clamp occurred. -/
def accumulate (q0 : Int) (neg : Bool) (m : Nat) (e : Int) (f : Nat) : Int × Bool :=
  let (q, s1) := clampA64 (windowOf neg m e f)
  let (r, s2) := clampA64 (q0 + q)
  (r, s1 || s2)

/-- A floating-point value converted into A64 at window exponent f (R152). -/
def toA64 (mode : Mode) (z f : Nat) (v : Val) : Int × Flags :=
  match v with
  | .nan _ => (0, { nv := true })
  | .inf s => (if s then a64Min else a64Max, { sat := true })
  | .fin neg m e =>
    let x : Exact := ⟨neg, m, e + f, false⟩
    let (n, above) := x.floor 0
    let r := if above && roundsUp x 0 n 1 mode (n % 2 = 1) z then n + 1 else n
    let (q, c) := clampA64 (if neg then -(r : Int) else r)
    if c then (q, { sat := true, nx := true }) else (q, { nx := above, uf := above && r = 0 })

/-- A64 read at window exponent f: the exact value (R147). -/
def a64Val (q : Int) (f : Nat) : Val := .fin (q < 0) q.natAbs (-(f : Int))

/-- Round an FP32 result to nearest-even, as the engines and the chain do (R190, R404). -/
def f32Add (a b : Nat) : Nat × Flags :=
  roundResult .f32 .rne 0 (addVal (decodeFloat .f32 a) (decodeFloat .f32 b))

end Sys2Proof.Machine
end

