-- ==== Sys2Proof/Machine/State.lean ====
section
/-!
DEFINITION. The state of an MZ4 device as plain data, the reasons a step can stop, and the state after reset.
Each field cites the rule that names it; INVENTORY.md lists them all with their reset values.
-/

namespace Sys2Proof.Machine

/-- A stop with a fault.  Every trap, fault, refusal and error of the manual is a next state (R1, R466, R317), so the
machine's own meanings raise none; the one constructor is for a state that no run reaches. -/
inductive Fault where
  /-- Raised by a step of a context whose resident thread is marked as held by no level of R14 (PL 3): safe, since
  no run from reset reaches it (R14: "Never held"). -/
  | levelNeverHeld
deriving DecidableEq, Repr

/-- A stop without a meaning. -/
inductive Refusal where
  /-- Raised by an arm of exec whose instruction has no meaning yet: safe. -/
  | notModelled (mnemonic : String)
  /-- Raised by a step of a firmware-complex core at an instruction whose effect there the manual does not give: a trap of level 2, or an
  access of a compute core's memory, cache or engines (R513): safe. -/
  | firmwareCode
deriving DecidableEq, Repr

/-- An open lookahead window: the instructions still inside it and the old values of the pending destinations that
no window instruction has written (R45, R46, R50). -/
structure Window where
  left : Nat
  xs : List (Nat × Word)
  vs : List (Nat × VWord)
  ms : List (Nat × MWord)
deriving DecidableEq, Repr

/-- An entry of the dispatch ring (R473), with the number of its command when it holds one. -/
structure RingEntry where
  seq : BitVec 32
  pc : Word
  word : BitVec 32
  pidx : BitVec 32
  state : Nat
  flags : BitVec 5
  addr : Word
  cmd : Option Nat
deriving DecidableEq, Repr

/-- The memory-accessing vector instructions (R474). -/
inductive VKind where
  | vld | vlds | vst | vsts | vgather | vscatter | vldb | vldbc | vchain | vchainr
deriving DecidableEq, Repr

/-- A memory-accessing vector instruction with its sources as they stood when it issued (R47, R474), the index of the unit from which
it goes on (R169), and the flags of the units done, which merge when it completes (R28). -/
structure VMem where
  kind : VKind
  ty : BitVec 3
  vreg : Nat
  base : Word
  step : Word
  idx : VWord
  data : VWord
  mask : MWord
  ox : List Word
  seq : BitVec 32
  pc : Word
  word : BitVec 32
  level : BitVec 2
  start : Nat
  flags : Flags
deriving DecidableEq, Repr

/-- A late fault not yet taken (R467): the instructions still to execute before its point, how many traps the code that
issued it had nested when it did (R470), and its record. -/
structure LateFault where
  seq : BitVec 32
  left : Nat
  depth : Nat
  code : Nat
  sub : Nat
  rpl : Bool
  pidx : BitVec 32
  record : Option Record
deriving DecidableEq, Repr

/-- What a long-latency instruction that has issued waits for. -/
inductive PendKind where
  /-- An entry of the wait-on-address table (R337): CWAIT (value at least expected), WAITA and WAITAT (value differs); once woken, the value
  that its wake message carries. -/
  | entry (pa : Nat) (atLeast : Bool) (expected : Word) (scope : BitVec 2) (limit : Option Nat) (woken : Option Word)
  /-- A pop or a count of a FIFO (R304). -/
  | fifo (bank : Nat)
  /-- A reply from another device or the directory (R230, R349, R504), and whether it will report that RDADDA clamped (R364). -/
  | reply (clamped : Bool)
  /-- A SEND not yet accepted (R285). -/
  | sending (name : BitVec 32)
  /-- RECVW: a message of an endpoint; the second register takes its sender (R285). -/
  | recv (name : BitVec 32) (second : Reg)
  /-- A memory-accessing vector instruction that does not start while the replay slot is held (R474), or a long form that is in progress (R169). -/
  | vector (m : VMem)
deriving DecidableEq, Repr

/-- A long-latency instruction that has issued and not completed: the window instructions left to it, after which the
context issues nothing until it completes (R46), and the traps nested when it issued. -/
structure Pend where
  kind : PendKind
  dest : Reg
  left : Nat
  depth : Nat
  la : Nat
  pc : Word
  word : BitVec 32
  va : Word
deriving DecidableEq, Repr

/-- A record fault: its cause and record, held until a slot is free (R469). -/
structure HeldRecord where
  /-- 0 once its trap has been taken, and for the record of a trap that was due at once. -/
  code : Nat
  sub : Nat
  record : Record
  /-- The slot it was written into; none while it waits for one. -/
  slot : Option Nat
  /-- The refusal of a remote store, which sys.unack counts until the record is written. -/
  unack : Bool
deriving DecidableEq, Repr

/-- sys.cause (R462). -/
structure Cause where
  late : Bool
  rpl : Bool
  ppl : BitVec 2
  sub : BitVec 16
  code : BitVec 8
deriving DecidableEq, Repr

/-- Why a context that holds a thread issues nothing. -/
inductive Wait where
  /-- The instruction at the pc is tried again at the context's turn: FENCER, REND, EXIT, ERDV, SCIN, SCOUT,
  SJOIN, MJOIN, SFLUSH, a full ring, 256 unacknowledged stores. -/
  | retry
  /-- PWAIT or CLAIMW, tried again like the others; its context is kept but for R251 (R476). -/
  | keeping
  /-- WAITI, with its limit on the clock (R114). -/
  | waiti (dest : Reg) (limit : Word)
  /-- JOIN, or the join that REND and EXIT include when no destination is given (R214, R267). -/
  | join (dest : Option Reg)
  /-- SAFEW, with the clock value it waits for (R279). -/
  | safew (dest : Reg) (target : Nat)
  /-- TWANY or TWALL: the tags waited for, and the limit on the clock (R452). -/
  | twait (dest : Reg) (mask : Word) (all : Bool) (limit : Word)
  /-- A POST or POSTD whose event has not arrived (R276). -/
  | posting (dest : Reg)
  /-- LEAD: followers wanted, the limit on the clock, and the followers that joined (R272). -/
  | lead (count : Nat) (limit : Word) (dest : Reg) (joined : List Nat)
  /-- FOLLOW: the leader's core, the limit on the clock (R273). -/
  | follow (leader : Nat) (limit : Word) (dest : Reg) (accepted : Bool)
  /-- A BMODE whose switch is in progress, with the old descriptor (R378). -/
  | bank (bank : Nat) (old : Word) (dest : Reg)
deriving DecidableEq, Repr

/-- What a context does. -/
inductive Run where
  | idle
  | running
  | waiting (w : Wait)
  | halted
deriving DecidableEq, Repr

/-- A thread context with the task it holds (R11, R19, R203, R291, R461), and what of the task moves with it. -/
structure Ctx where
  /-- 4 times the physical core plus the context index (R23). -/
  key : Nat
  part : Nat
  run : Run
  x : Vector Word 32
  v : Vector VWord 16
  m : Vector MWord 8
  ox : Vector Word 8
  pc : Word
  /-- sys.status (R20). -/
  pl : BitVec 2
  lao : Bool
  rae : Bool
  ss : Bool
  xf64 : Bool
  xsf : Bool
  fflags : BitVec 6
  frm : BitVec 2
  /-- SEED as it was when the reaction started (R237). -/
  seed : Word
  /-- sys.lcore (R22), loaded at entry. -/
  lcore : BitVec 26
  /-- sys.tagt and sys.tagm (R204). -/
  tag : Tag
  dline : Word
  /-- sys.prio (R206). -/
  cls : BitVec 2
  eff : BitVec 2
  raised : BitVec 2
  /-- sys.bound (R207): XDEV and EXTRA. -/
  bound : BitVec 33
  domain : BitVec 2
  /-- sys.follow (R224). -/
  members : BitVec 16
  leader : BitVec 4
  role : BitVec 2
  unack : Nat
  /-- sys.phase (R324). -/
  brk : BitVec 16
  pcnt : BitVec 32
  /-- sys.qgrp (R370): HADDR and GRP. -/
  haddr : BitVec 46
  grp : BitVec 16
  /-- sys.daccsel and the counters it selects, keyed by 4 times INDEX plus QTY (R319). -/
  daccsel : BitVec 8
  dacc : List (Nat × Word)
  /-- Trap registers (R461). -/
  pidx : BitVec 32
  cause : Cause
  epc : BitVec 63
  eseq : BitVec 32
  frec : Word
  tid : Word
  nextSeq : BitVec 32
  ring : List RingEntry
  bpa : Word
  wpa : Word
  /-- sys.mcmd and sys.mdat (R511). -/
  mcmdErr : Bool
  mcmdOff : BitVec 21
  mdat : Word
  /-- Open windows, and the kept windows of the code each trap interrupted, innermost first (R49). -/
  windows : List Window
  kept : List (List Window)
  /-- Late faults and record faults not yet taken (R467, R469), and which record slots are in use. -/
  faults : List LateFault
  records : List HeldRecord
  slots : BitVec 4
  /-- The replay slot (R474). -/
  replay : Option VMem
  /-- Debug traps to take before the next instruction at level 0 (R490): a watchpoint hit, and a single step. -/
  watchHit : Bool
  stepDue : Bool
  /-- Command-port staging slots, matrix to collective (R384). -/
  staging : Vector Record 4
  /-- Long-latency instructions not completed; the pending-load bits (R479) are their destinations. -/
  pends : List Pend
  /-- The task: root or not, its actor, its parent, its children outstanding, ended and not yet joined (with the
  scopes of their EXITs), and the scope of the FORK that made it (R213 to R219, R266). -/
  root : Bool
  late : Bool
  actor : Word
  parent : Word
  children : Nat
  joinable : List (BitVec 2)
  forkScope : BitVec 2
  entryTarget : Word
  entrySender : BitVec 32
  queue : Nat
  packet : Option Nat
  ctr : Word
  runMax : Nat
  /-- Whether the reaction is a backfill (R257, R258). -/
  backfill : Bool
  startedAt : Nat
  gang : Option Member
  /-- Unjoined engine program handles, bit h - 1 for handle h (R445). -/
  handles : BitVec 4
  /-- Decisions of this task's claims not yet read: address and outcome (R376). -/
  decisions : List (Word × Nat)
  /-- The target core on which a task that was switched out to migrate resumes (R485). -/
  target : Option Nat
  /-- The releases made at a scope wider than core, and those at system scope, which order what is sent after them (R331; the model's own). -/
  epoch : Nat
  sysEpoch : Nat
  /-- The word that the leader has forwarded and this follower, stalled, has not issued (R225). -/
  forwarded : Option (BitVec 32)
  /-- The units that a long form completes in one step before it may be pre-empted, if that many (R169; the model's own). -/
  limit : Option Nat
deriving DecidableEq, Repr

/-- A level-1 line copy (R299, R300, R335): the line number, its bytes, which bytes hold stores not sent to the home,
the last store into it and the tasks whose stores it holds unsent (R301, R331), the contexts that hold it and those it is closed to, and whether it lies in the
snapshot buffer; ros marks a line of a read-only-shared page (R332).  Copies of the two lines of a 64-byte block that were fetched or written
as one have one stamp, and pair marks one whose unsent bytes are half of one 64-byte write (R132). -/
structure Line where
  num : Nat
  data : BitVec 256
  unsent : BitVec 32
  owner : Option Origin
  writers : List Before
  held : BitVec 4
  closed : BitVec 4
  ros : Bool
  stamp : Nat
  pair : Bool
  inBuffer : Bool
  /-- Bit errors of the copy's four 64-bit words: bits 3:0 words with a correctable one, bits 7:4 words with an uncorrectable
  one (R320, R321). -/
  bad : BitVec 8
deriving DecidableEq, Repr

/-- A leaf translation (R297). -/
structure Leaf where
  pa : Nat
  size : Nat
  x : Bool
  ros : Bool
  blk : Bool
  wsc : BitVec 2
  u : Bool
  w : Bool
  r : Bool
deriving DecidableEq, Repr

/-- A translation entry of a core (R298). -/
structure TlbEntry where
  part : Nat
  va : Nat
  leaf : Leaf
deriving DecidableEq, Repr

/-- A forked task in a deque (R216): its steal domain and the core it was pushed on. -/
structure DequeEntry where
  task : Ctx
  level : BitVec 2
  core : Nat
  spilled : Bool
deriving DecidableEq, Repr

/-- A PHINT reservation (R355). -/
structure Hint where
  actor : Word
  ctx : Nat
  until_ : Nat
deriving DecidableEq, Repr

/-- What a core's contexts share (R26, R216, R249, R299, R393). -/
structure Core where
  lines : List Line
  icache : List (Nat × BitVec 256)
  tlb : List TlbEntry
  s0 : Word
  s1 : Word
  ctags : Word
  /-- The scope of the release of the completion that set each tag (R394). -/
  tagScope : List (Nat × BitVec 2)
  deque : List DequeEntry
  pickCount : Nat
  hints : List Hint
  /-- The location cache (R231): a name of a partition's job, and where its task was, as EPWHERE gives it. -/
  locations : List ((Nat × BitVec 32) × Word)
  /-- The core's carry register (R435). -/
  carry : VWord
  /-- The index of the context that issued last (R193). -/
  lastIssued : Nat
  /-- Whether an SC.SEED has loaded it since it was last consumed (R435). -/
  seeded : Bool
  /-- Pushes held at a full command port, oldest first: engine, who pushes, and the command (R385). -/
  heldPushes : List (Nat × Origin × Record)
  /-- The scratchpad image of a core that was retired, until a task resumes on it: its address and its size (R482). -/
  image : Option (Word × Nat)
deriving DecidableEq, Repr

/-- Who pops a FIFO (R304, R305): a task, into a destination, or another device over the fabric. -/
inductive Popper where
  | task (tid : Word) (dest : Reg)
  | device (number : Nat)
deriving DecidableEq, Repr

/-- A FIFO bank (R304): entries oldest first, held pushes (who makes them, and the value) and held pops (a task and its destination; or
another device that reads it); bad lists the entries with an error, counted from the oldest, and whether it is uncorrectable (R320). -/
structure Fifo where
  entries : List Word
  bad : List (Nat × Bool)
  pushes : List (Origin × Word)
  pops : List Popper
deriving DecidableEq, Repr

/-- A quad member's binding (R401, R450). -/
structure Quad where
  tid : Word
  rank : Nat
  members : List Nat
  jseq : Nat
  /-- Whether its MJOIN has completed. -/
  told : Bool
deriving DecidableEq, Repr

/-- A FIFO with no entry and no access held. -/
def Fifo.empty : Fifo := ⟨[], [], [], []⟩

/-- A line in a cache way of a home slice (R308): its number, device included, the bank of the way, and whether it is a replica of a line of
a read-only-shared page (R310). -/
structure Way where
  num : Nat
  bank : Nat
  ros : Bool
deriving DecidableEq, Repr

/-- What a cluster holds besides its cores (R192, R302, R395, R398, R416). -/
structure Cluster where
  /-- Bank descriptors that differ from the reset ones (R303), and switches in progress with the new descriptor. -/
  banks : List (Nat × BitVec 9)
  switching : List (Nat × BitVec 9)
  fifos : List (Nat × Fifo)
  /-- The lines of the home slice, the latest used first (R308), and the 64-bit words of them that hold an error, with whether it is
  uncorrectable (R320). -/
  slice : List Way
  badWays : List (Nat × Bool)
  /-- Operand memory: row 128 s + r of slot s; a row not listed reads zero. -/
  slots : List (Nat × BitVec 1024)
  /-- Accumulator memory: value 16384 t + 128 i + j of tile t; a value not listed reads zero. -/
  tiles : List (Nat × Word)
  tileStatus : List (Nat × BitVec 2)
  slotOwner : List (Nat × Word)
  tileOwner : List (Nat × Word)
  /-- Slots (0 to 63) and tiles (64, 65) given up while a command still names them (R392). -/
  leaving : List Nat
  rowmap : List (Nat × Word)
  share : Nat
  quad : List Quad
  /-- Partials held by the collective engine, keyed by hold area, whose memory has their data (R443), and partials accepted, with
  the number of the command that took each (R538). -/
  partials : List (Nat × List Partial)
  arrived : List (Nat × Partial)
deriving DecidableEq, Repr

/-- A splice chain (R406, R454): its length, the task and core at each taken position, the pending seed, the carry
toward each position and whether it has been delivered, and the tail slot. -/
structure Chain where
  n : Nat
  taken : List (Nat × Word × Nat)
  /-- The tasks whose SJOIN has not completed, and whether all positions have been taken since (R454). -/
  joining : List (Word × Bool)
  seed : Option VWord
  carries : List (Nat × Bool × VWord)
  tail : Option VWord
deriving DecidableEq, Repr

/-- A group of a collective command: R, the own rank, and each rank's device and logical cluster (R441). -/
structure Group where
  ranks : Nat
  rank : Nat
  places : List (Nat × Nat)
deriving DecidableEq, Repr

/-- An engine command pushed or accepted and not completed (R383, R387, R389, R447).  state is coded as ESTAT codes it; 0 for an
EPUSH whose write has not reached the port. -/
structure Cmd where
  num : Nat
  cluster : Nat
  core : Nat
  engine : Nat
  /-- 0 for the core's port; otherwise the number of the engine program. -/
  program : Nat
  record : Record
  tid : Word
  ctx : Nat
  part : Nat
  seq : BitVec 32
  pc : Word
  word : BitVec 32
  tag : Tag
  level : BitVec 2
  state : Nat
  flags : Flags
  pidx : Nat
  addr : Word
  /-- It waits for a carry, a seed, a counter or a partial (R407, R437, R440, R443). -/
  waiting : Bool
  /-- The command accepted before it in its stream, when that had not completed (R388). -/
  prev : Option Nat
  /-- A carry it waits for can no longer come, or its joint operation cannot go on (R408, R432). -/
  broken : Bool
  /-- 1 for a command that failed its check, 2 for one that its port refused or whose record could not be read (R386, R391, R423,
  R448); otherwise 0. -/
  unread : Nat
  /-- A scan's local prefixes so far, each with whether a segment has started by it, and its carry-in once the carry pass has
  started (R405, R437). -/
  kept : List (VWord × VWord × Bool)
  carryIn : Option VWord
  /-- The row-to-core map as it stood when an MX.OUT started (R398). -/
  map : Option (List (Nat × Word))
  /-- The group that a collective command read when it was accepted, and whether it has sent its partials (R441, R443). -/
  group : Option Group
  sent : Bool
  /-- The wait-on-address entry of a CP.WAIT: the key of its location, and whether a write has satisfied it (R337, R440). -/
  entry : Option (Nat × Bool)
deriving DecidableEq, Repr

/-- What the scan engine keeps of a command that was stopped, saved with its task (R437): the command's record with its progress index
cleared, its local prefixes, and its carry-in once it had taken it. -/
structure SavedScan where
  tid : Word
  record : Record
  kept : List (VWord × VWord × Bool)
  carryIn : Option VWord
deriving DecidableEq, Repr

/-- An engine program (R391, R445), with the address and word of its EFORK (R387) and the widest scope of its commands, for ERDV
(R322). -/
structure Program where
  num : Nat
  cluster : Nat
  core : Nat
  engine : Nat
  tid : Word
  ctx : Nat
  handle : Nat
  pc : Word
  word : BitVec 32
  addr : Word
  count : Nat
  next : Nat
  completed : Nat
  aborted : Nat
  scope : BitVec 2
  /-- Its task's releases at the EFORK, which its record reads follow (R331, R339). -/
  after : Before
  ended : Bool
deriving DecidableEq, Repr

/-- A claim (R343 to R346, R374), with the claimer's actor.  One of another device on an address whose home is here has no task here. -/
structure Claim where
  num : Nat
  part : Nat
  group : Nat
  addr : Word
  pa : Nat
  value : Word
  claimer : BitVec 26
  tid : Word
  ctx : Nat
  ta : Nat
  window : Nat
  decideAt : Nat
  failed : Option Nat
  decided : Bool
  actor : Word
deriving DecidableEq, Repr

/-- A member actor's record of a claim (R374). -/
structure ClaimRecord where
  addr : Word
  claimer : BitVec 26
  ta : Nat
  window : Nat
  until_ : Nat
deriving DecidableEq, Repr

/-- What the device keeps for an actor (R197, R208, R211, R283, R289, R354, R370, R374). -/
structure Actor where
  part : Nat
  addr : Word
  home : Option Nat
  running : Bool
  started : Option (Tag × SenderKey)
  ended : Option Word
  bound : Option (BitVec 33)
  nextBound : Option (BitVec 33)
  lateHandler : Word
  floor : BitVec 2
  reactionFloor : BitVec 2
  haddr : BitVec 46
  grp : BitVec 16
  claims : List ClaimRecord
  /-- The running reaction's next sequence number for each target (R200). -/
  seqs : List (Nat × Nat)
  /-- The gang of which it is, or was last, a member: its queue and the position of its member 0 (R197). -/
  gang : Option (Nat × Nat)
deriving DecidableEq, Repr

/-- An event in a core's queue (R202): the core, whether it is spilled, whether it has become safe (R209), and whether it
came late, with the EXCESS of its record and its handler (R211, R283, R531). -/
structure Queued where
  event : Event
  core : Nat
  spilled : Bool
  safe : Bool
  late : Bool
  excess : Nat
  /-- The late handler registered when it was found late (R283). -/
  handler : Word
deriving DecidableEq, Repr

/-- A forwarding stub of an endpoint (R231): the context that keeps it, the context that its task moved to, and until when it stays. -/
structure Stub where
  at_ : Nat
  target : Nat
  until_ : Nat
deriving DecidableEq, Repr

/-- A binding of an endpoint name to a task of this device (R229, R284), with its receive queue, its mailbox and its forwarding stubs. -/
structure Endpoint where
  name : BitVec 32
  part : Nat
  tid : Word
  ctx : Nat
  queue : List (Word × BitVec 26)
  mailbox : List (Word × BitVec 26)
  stubs : List Stub
deriving DecidableEq, Repr

/-- What the own directory records of a name that a task of another device holds (R230): the task, and where it is, as EPWHERE gives it. -/
structure FarBinding where
  name : BitVec 32
  part : Nat
  tid : Word
  place : Word
deriving DecidableEq, Repr

/-- What the own directory records of a member of a claim group on another device (R371): the job's partition here, the group, the device,
the actor and its claim handler. -/
structure FarMember where
  part : Nat
  group : Nat
  device : Nat
  actor : Word
  haddr : BitVec 46
deriving DecidableEq, Repr

/-- A counter registration (R359). -/
structure Registration where
  pa : Nat
  va : Word
  tid : Word
  ctx : Nat
  scope : BitVec 2
  owed : Nat
deriving DecidableEq, Repr

/-- A wait that another device has placed on a location of this one (R337, R349): the device and its task, the location, whether it waits for at
least the value or for another one, and the value. -/
structure FarWait where
  device : Nat
  tid : Word
  key : Nat
  atLeast : Bool
  expected : Word
  /-- The waiter's effective class (R253). -/
  cls : BitVec 2
deriving DecidableEq, Repr

/-- A subscription (R340, R365, R368). -/
structure Sub where
  num : Nat
  tid : Word
  core : Nat
  dest : Nat
  source : Nat
  size : Nat
  pubCore : Nat
  end_ : Nat
  /-- Bytes batched at the publisher, by the task that stored them and by line, and updates that the subscriber's core has acknowledged. -/
  batch : List (Word × List Cell)
  received : List Update
  applied : Nat
deriving DecidableEq, Repr

/-- A gang issued and not placed (R254, R256, R259): the position of member 0, GSIZE, whether a unit is a cluster, since
when it is blocked, whether it has aged, and the contexts it has reserved. -/
structure Gang where
  pos : Nat
  size : Nat
  clusters : Bool
  since : Nat
  aged : Bool
  reserved : List Nat
deriving DecidableEq, Repr

/-- A launch queue record (R239). -/
structure Queue where
  ring : Word
  logslots : Nat
  classmax : BitVec 2
  enable : Bool
  part : Nat
  dlrel : BitVec 32
  age : BitVec 32
  gbase : BitVec 32
  gcount : BitVec 16
  hshare : Byte
  fshare : Byte
  prod : Word
  cons : Word
  done : Word
  phase : Byte
  state : BitVec 2
  err : Byte
  ovr : Byte
  gang : Option Gang
  /-- Cores that started a reaction of this queue since its last clean (R248). -/
  cores : List Nat
  /-- Its packets whose reactions are on other devices (R246). -/
  away : Nat
deriving DecidableEq, Repr

/-- A partition (R237, R508, R509), with the system registers its contexts share (R37). -/
structure Partition where
  exists_ : Bool
  clusters : List Nat
  base : BitVec 23
  limit : BitVec 23
  config : Record
  ptbase : BitVec 46
  cwin : List (Nat × Word)
  evec : BitVec 58
  sabase : BitVec 50
  sanum : BitVec 20
  saUsed : List Nat
  frbase : BitVec 56
  dfab : BitVec 32
  eclk : BitVec 32
  /-- sys.sdown (R505): BUSY, ERR, FRAME, SIZE, devices that have answered, when it started. -/
  sdBusy : Bool
  sdErr : Bool
  sdFrame : BitVec 42
  sdSize : BitVec 2
  sdSeen : List Nat
  sdAt : Nat
  /-- Fault queue (R509). -/
  fqHead : Word
  fqTail : Word
  fqOvf : Word
  fqNotify : Word
  faultQueue : List Record
  /-- What the 256 places of the fault queue last took, by place (R509). -/
  fqPlaces : List (Nat × Record)
  /-- Job device table: its count, and its entries by index (R509). -/
  jobCount : Nat
  jobTable : List (Nat × Nat)
  spillUsed : Nat
  /-- Its execution context has been torn down (R487). -/
  gone : Bool
deriving DecidableEq, Repr

/-- A debug-table entry (R489). -/
structure DebugEntry where
  actor : Option Word
  tid : Option Word
  ss : Bool
  bpa : Word
  wpa : Word
deriving DecidableEq, Repr

/-- One end pair of a die link seen from one die (R493 to R495): the receiver's expected number and NAK state, and
the sender's next number, unacknowledged flits, NAKs for one number, and retraining. -/
structure Link where
  expected : Nat
  accepted : List Flit
  nakSince : Option Nat
  sendNext : Nat
  unacked : List Flit
  naks : Nat
  nakFor : Nat
  retraining : Bool
  failures : Nat
  down : Bool
deriving DecidableEq, Repr

/-- A core of a firmware complex (R114, R118, R513, R514): its context, whether it has left the boot ROM's loop of WAITI, and whether a
wake request is held for it. -/
structure FwCore where
  ctx : Ctx
  started : Bool
  wake : Bool
deriving DecidableEq, Repr

/-- A copy of a launch queue's control block (R515): BEGIN, the 112 bytes of BODY, END. -/
structure ControlCopy where
  begin_ : Word
  body : BitVec 896
  end_ : Word
deriving DecidableEq, Repr

/-- The control block of a launch queue: its two copies (R515). -/
structure ControlBlock where
  a : ControlCopy
  b : ControlCopy
deriving DecidableEq, Repr

/-- A write of a control block in progress (R515): the queue, whether it goes into copy A, the version it writes, the new BODY, and
whether the BODY has been written. -/
structure BlockWrite where
  queue : Nat
  first : Bool
  version : Word
  body : BitVec 896
  bodyDone : Bool
deriving DecidableEq, Repr

/-- What the device puts on the wire or on the side-band port. -/
inductive Sent where
  /-- A mailbox record to another device: destination, kind and body (R503). -/
  | mailbox (device kind : Nat) (body : List Byte)
  /-- An event for an actor on another device (kind 1). -/
  | event (device : Nat) (e : Event)
  /-- A message for a task on another device (kind 2). -/
  | message (device : Nat) (m : Message)
  /-- A fabric read of so many bytes (R499, R521). -/
  | read (device pa n : Nat)
  /-- A plain fabric write (R499). -/
  | write (device : Nat) (cells : List Cell)
  /-- An atomic request at system scope (kind 4). -/
  | atomic (device : Nat) (op : AgentOp) (pa : Nat) (operand : Word) (tid : Word)
  /-- A collective partial (kind 8). -/
  | collective (device : Nat) (p : Partial)
  /-- A reply on the side-band port, to a management command or to a host access: status and bytes (R510, R512). -/
  | reply (status : Nat) (body : List Byte)
  /-- A NAK on a die link (R495). -/
  | nak (link : Nat) (ack : BitVec 16)
  /-- A flit that a die link sends (R493). -/
  | flit (link : Nat) (f : Flit)
  /-- A flit sent again (R495). -/
  | resend (link : Nat) (f : Flit)
  /-- An error response to a fabric request (R499). -/
  | error (device : Nat)
  /-- The response to a fabric request: the bytes that a read returns, none for a write (R499, R504). -/
  | response (device : Nat) (bytes : List Byte)
  /-- The fault queue's TAIL written to its NOTIFY address (R509). -/
  | notify (address value : Word)
  /-- A host doubleword read through the aperture (R510). -/
  | hostRead (value : Word)
deriving DecidableEq, Repr

/-- Firmware, configuration and identity (R513 to R519). -/
structure Firmware where
  active : Nat
  started : Bool
  watchdogAt : Nat
  image : Image
  config : Image
  m1 : List Byte
  m2 : List Byte
  cores : List FwCore
  /-- Bytes that firmware cores have written into the memory of their complexes: address 2^64 times the complex plus the address (R513,
  R514). -/
  memory : List Cell
  /-- The control blocks of launch queues that have been written (R515), a write in progress, and what the complex that took over last
  read from each (R516). -/
  blocks : List (Nat × ControlBlock)
  writing : Option BlockWrite
  imported : List (Nat × BitVec 896)
  /-- An image in flash did not verify: only the side-band port works (R513). -/
  failed : Bool
  /-- Counts the boots; the bytes of firmware, which each boot may change, are applied to it (the model's own). -/
  boots : Nat
deriving DecidableEq, Repr

/-- The clock master and sys.csync (R520 to R522). -/
structure Sync where
  sync : Bool
  bad : Bool
  master : BitVec 10
  err : BitVec 16
  exchanged : Nat
  readAt : Option Nat
  slewed : Nat
  /-- Whether a launch queue has been enabled since reset. -/
  launched : Bool
  /-- Whether an exchange has completed since reset, when the next read is due, and the offset not yet slewed. -/
  begun : Bool
  due : Nat
  offset : Int
deriving DecidableEq, Repr

/-- The state of a device. -/
structure State where
  /-- The context whose turn it is, and every other context that holds a thread. -/
  cx : Ctx
  others : List Ctx
  /-- Switched-out tasks with the core each resumes on and its save area (R476, R478). -/
  ready : List (Nat × Nat × Ctx)
  /-- Tasks waiting in JOIN whose context runs a child (R219). -/
  beneath : List Ctx
  cores : List (Nat × Core)
  clusters : List (Nat × Cluster)
  parts : List (Nat × Partition)
  /-- Physical memory: HBM of the own device and scratchpad banks (R292, R293), in canonical form. -/
  mem : List Cell
  /-- Memory of other devices as it stands at their homes, by blocks of 64 bytes whose number includes the device; a block not listed reads
  as Config.farInitial gives it (R290, R325; the model's own). -/
  far : List (Nat × BitVec 512)
  /-- Words that hold a detected error: physical address and whether it is uncorrectable (R320, R321). -/
  badWords : List (Nat × Bool)
  /-- The management block's counters (R320, R503): of errors by level, 0 to 31 for SRAM banks, 34 to 41 for HBM stacks, 43 for
  level-1 lines; 64 for mailbox records discarded. -/
  errors : List (Nat × Nat)
  /-- sys.clock's master, in ns (R205, R520). -/
  clock : Nat
  actors : List Actor
  events : List Queued
  endpoints : List Endpoint
  /-- What the directories of this device record of other devices' tasks and actors (R230, R371). -/
  farBindings : List FarBinding
  farMembers : List FarMember
  registrations : List Registration
  farWaits : List FarWait
  /-- Raises of own tasks that other devices have sent and not ended (R253). -/
  farRaises : List (Word × BitVec 2)
  subs : List Sub
  claims : List Claim
  cmds : List Cmd
  programs : List Program
  /-- What the scan engine has saved with tasks, latest first (R437). -/
  savedScans : List SavedScan
  chains : List (Nat × Chain)
  queues : List (Nat × Queue)
  access : List ((AccessTarget × Nat × Nat) × Word)
  stations : List ((Nat × Nat) × Nat)
  stationsDown : BitVec 24
  debugTable : List (Nat × DebugEntry)
  links : List (Nat × Link)
  /-- The generation that sources stamp (R496), the logical destinations that a physical cluster other than their own serves, the
  physical clusters that have been retired, and the clusters whose RETIRE is in progress (R498). -/
  routeGen : Nat
  routes : List (Nat × Nat)
  retired : List Nat
  retiring : List Nat
  spares : List Nat
  dev : BitVec 10
  sync : Sync
  firmware : Firmware
  nextTid : Nat
  /-- Happenings in flight, oldest first; those from outside stand among them (the model's own). -/
  inflight : List Happening
  /-- What left the device, oldest first (the model's own). -/
  outbox : List Sent
  /-- Counts the steps; free values are applied to it (the model's own). -/
  turn : Nat
  /-- The firmware-complex core that has the turn, if one has (the model's own). -/
  fwTurn : Option Nat
  /-- Numbers claims, commands, programs and subscriptions, from 1 (the model's own). -/
  serial : Nat
deriving DecidableEq, Repr

/-- A context that holds no thread (R36).  (DESIGN CHOICE, log entry 18.) -/
def Ctx.idle (key : Nat) : Ctx where
  key := key
  part := 0
  run := .idle
  x := Vector.replicate 32 0
  v := Vector.replicate 16 0
  m := Vector.replicate 8 0
  ox := Vector.replicate 8 0
  pc := 0
  pl := 0
  lao := false
  rae := true
  ss := false
  xf64 := false
  xsf := false
  fflags := 0
  frm := 0
  seed := 0
  lcore := 0
  tag := ⟨0, 0⟩
  dline := 0
  cls := 0
  eff := 0
  raised := 0
  bound := 0
  domain := 0
  members := 0
  leader := 0
  role := 0
  unack := 0
  brk := 0
  pcnt := 0
  haddr := 0
  grp := 0
  daccsel := 0
  dacc := []
  pidx := 0
  cause := ⟨false, false, 0, 0, 0⟩
  epc := 0
  eseq := 0
  frec := 0
  tid := 0
  nextSeq := 0
  ring := []
  bpa := 0
  wpa := 0
  mcmdErr := false
  mcmdOff := 0
  mdat := 0
  windows := []
  kept := []
  faults := []
  records := []
  slots := 0
  replay := none
  watchHit := false
  stepDue := false
  staging := Vector.replicate 4 0
  pends := []
  root := false
  late := false
  actor := 0
  parent := 0
  children := 0
  joinable := []
  forkScope := 0
  entryTarget := 0
  entrySender := 0
  queue := 0
  packet := none
  ctr := 0
  runMax := 0
  backfill := false
  startedAt := 0
  gang := none
  handles := 0
  decisions := []
  target := none
  epoch := 0
  sysEpoch := 0
  forwarded := none
  limit := none

/-- A core after reset (R25, R393). -/
def Core.reset : Core where
  lines := []
  icache := []
  tlb := []
  s0 := 0
  s1 := 0
  ctags := 0
  tagScope := []
  deque := []
  pickCount := 0
  hints := []
  locations := []
  carry := 0
  lastIssued := 3
  seeded := false
  heldPushes := []
  image := none

/-- A cluster after reset (R303, R398, R444). -/
def Cluster.reset : Cluster where
  banks := []
  switching := []
  fifos := []
  slice := []
  badWays := []
  slots := []
  tiles := []
  tileStatus := []
  slotOwner := []
  tileOwner := []
  leaving := []
  rowmap := []
  share := 64
  quad := []
  partials := []
  arrived := []

/-- A partition that has not been created (R237, R464, R505, R524). -/
def Partition.reset : Partition where
  exists_ := false
  clusters := []
  base := 0
  limit := 0
  config := 0
  ptbase := 0
  cwin := []
  evec := 0
  sabase := 0
  sanum := 0
  saUsed := []
  frbase := 0
  dfab := 2500
  eclk := 100
  sdBusy := false
  sdErr := false
  sdFrame := 0
  sdSize := 0
  sdSeen := []
  sdAt := 0
  fqHead := 0
  fqTail := 0
  fqOvf := 0
  fqNotify := 0
  faultQueue := []
  fqPlaces := []
  jobCount := 0
  jobTable := []
  spillUsed := 0
  gone := false

/-- A launch queue record after reset: every field zero except LOGSLOTS (R239). -/
def Queue.reset : Queue where
  ring := 0
  logslots := 6
  classmax := 0
  enable := false
  part := 0
  dlrel := 0
  age := 0
  gbase := 0
  gcount := 0
  hshare := 0
  fshare := 0
  prod := 0
  cons := 0
  done := 0
  phase := 0
  state := 0
  err := 0
  ovr := 0
  gang := none
  cores := []
  away := 0

/-- A die link after training (R494). -/
def Link.reset : Link := ⟨0, [], none, 0, [], 0, 0, false, 0, false⟩

/-- An image of no bytes, for a flash the manual does not describe further (log entry 12). -/
def Image.blank : Image := ⟨[], [], 0, 0, [], 0, 1⟩

/-- The key of the one context of firmware core k, 4 times its complex plus its number there: above those of the compute dies. -/
def fwKey (k : Nat) : Nat := 64 * (4 * Config.dieClusters) + 4 * k

/-- The partition number that firmware cores carry: that of no partition. -/
def fwPart : Nat := 96

/-- Core k of the firmware complexes after reset: level 2, registers zero, PC 0 of the boot ROM; core 0 of each runs and cores 1 to 3
stay in WAITI with no time limit (R513, R514). -/
def FwCore.reset (k : Nat) : FwCore where
  ctx := { Ctx.idle (fwKey k) with run := if k % 4 = 0 then .running else .waiting (.waiti 0 0), pl := 2, part := fwPart }
  started := k % 4 = 0
  wake := false

/-- The device right after reset (R36, R513).  (DESIGN CHOICE, log entry 18.) -/
def State.reset : State where
  cx := Ctx.idle 0
  others := []
  ready := []
  beneath := []
  cores := []
  clusters := []
  parts := []
  mem := []
  far := []
  badWords := []
  errors := []
  clock := 0
  actors := []
  events := []
  endpoints := []
  farBindings := []
  farMembers := []
  registrations := []
  farWaits := []
  farRaises := []
  subs := []
  claims := []
  cmds := []
  programs := []
  savedScans := []
  chains := []
  queues := []
  access := []
  stations := []
  stationsDown := 0
  debugTable := []
  links := []
  routeGen := 0
  routes := []
  retired := []
  retiring := []
  spares := []
  dev := 0
  sync := ⟨false, false, 0, 65535, 0, none, 0, false, false, 0, 0⟩
  firmware := ⟨0, false, 0, Image.blank, Image.blank, [], [], (List.range 8).map FwCore.reset, [], [], none, [], false, 0⟩
  nextTid := 0
  inflight := []
  outbox := []
  turn := 0
  fwTurn := none
  serial := 1

/-- The answer of a meaning. -/
abbrev Out := Host.Outcome State Fault Refusal

end Sys2Proof.Machine
end

