-- ==== Sys2Proof/Machine/Memory.lean ====
section
/-!
DEFINITION. Physical memory in canonical form, the physical address map (R292, R293), home slices (R307, R310), access
tables (R313 to R317) and translation (R295 to R298).
-/

namespace Sys2Proof.Machine

/-- What the byte at an address reads as.  (DESIGN CHOICE, log entry 1.) -/
def Memory.read (m : List Cell) (a : Nat) : Byte :=
  match m with
  | [] => Config.unwritten
  | (k, b) :: r => if k = a then b else Memory.read r a

/-- The memory with one byte written, in canonical form. -/
def Memory.write (m : List Cell) (a : Nat) (b : Byte) : List Cell :=
  match m with
  | [] => if b = Config.unwritten then [] else [(a, b)]
  | (k, c) :: r =>
    if a < k then (if b = Config.unwritten then (k, c) :: r else (a, b) :: (k, c) :: r)
    else if a = k then (if b = Config.unwritten then r else (a, b) :: r)
    else (k, c) :: Memory.write r a b

/-- The canonical form from a least address on: addresses strictly rising, no entry equal to what an unlisted address
reads as. -/
def Memory.wfFrom (lo : Nat) : List Cell → Bool
  | [] => true
  | (k, b) :: r => decide (lo ≤ k) && decide (b ≠ Config.unwritten) && Memory.wfFrom (k + 1) r

/-- The canonical form.  (DESIGN CHOICE, log entry 1.) -/
def Memory.wf (m : List Cell) : Bool := Memory.wfFrom 0 m

/-- n bytes from an address up. -/
def Memory.readBytes (m : List Cell) (a : Nat) : Nat → List Byte
  | 0 => []
  | n + 1 => Memory.read m a :: Memory.readBytes m (a + 1) n

/-- Bytes written from an address up. -/
def Memory.writeBytes (m : List Cell) (a : Nat) : List Byte → List Cell
  | [] => m
  | b :: bs => Memory.writeBytes (Memory.write m a b) (a + 1) bs

/-- Cells written one after another. -/
def Memory.writeCells (m : List Cell) : List Cell → List Cell
  | [] => m
  | (a, b) :: r => Memory.writeCells (Memory.write m a b) r

/-- The memory with a range no longer listed. -/
def Memory.clear (m : List Cell) (a n : Nat) : List Cell := m.filter (fun c => c.1 < a || a + n ≤ c.1)

/-- n bytes of the own device's physical memory; an address is taken without its device number. -/
def State.peek (s : State) (pa n : Nat) : List Byte := Memory.readBytes s.mem (pa % 2 ^ 48) n

/-- Bytes written to the own device's physical memory.  A store that overwrites a whole 64-bit word replaces a bad word
(R321). -/
def State.poke (s : State) (pa : Nat) (bytes : List Byte) : State :=
  let a := pa % 2 ^ 48
  { s with
    mem := Memory.writeBytes s.mem a bytes
    badWords := s.badWords.filter (fun w => !(a ≤ 8 * w.1 && 8 * w.1 + 8 ≤ a + bytes.length)) }

/-- The device that a physical address names (R292). -/
def deviceOf (pa : Nat) : Nat := pa / 2 ^ 48 % 1024

/-- A 64-byte block of another device's memory. -/
def State.farBlock (s : State) (k : Nat) : BitVec 512 := tget s.far k (Config.farInitial k)

/-- n bytes of another device's memory. -/
def State.farPeek (s : State) (pa n : Nat) : List Byte :=
  (List.range n).map (fun j => BitVec.ofNat 8 (lane (s.farBlock ((pa + j) / 64)).toNat 8 ((pa + j) % 64)))

/-- One byte of another device's memory changes. -/
def State.farPut (s : State) (c : Cell) : State :=
  let b := (s.farBlock (c.1 / 64)).toNat
  let j := c.1 % 64
  { s with far := tset s.far (c.1 / 64) (BitVec.ofNat 512 (b - lane b 8 j * 2 ^ (8 * j) + c.2.toNat * 2 ^ (8 * j))) }

/-- n bytes at a physical address, of whichever device. -/
def State.bytesAt (s : State) (pa n : Nat) : List Byte := if deviceOf pa = s.dev.toNat then s.peek pa n else s.farPeek pa n

/-- A range of physical memory zeroed (R306, R508). -/
def State.wipe (s : State) (pa n : Nat) : State := { s with mem := Memory.clear s.mem (pa % 2 ^ 48) n }

/-- Whether a range holds a word with an uncorrectable error (R321). -/
def State.uncorrectable (s : State) (pa n : Nat) : Bool :=
  s.badWords.any (fun w => w.2 && decide (8 * w.1 < pa % 2 ^ 48 + n) && decide (pa % 2 ^ 48 < 8 * w.1 + 8))

/-- A counter of the management block rises by some amount (R320, R503).  (DESIGN CHOICE, log entry 55.) -/
def State.countErrors (s : State) (level n : Nat) : State := { s with errors := tset s.errors level (tget s.errors level 0 + n) }

/-- The core of a context key. -/
def coreOf (key : Nat) : Nat := key / 4

/-- The physical cluster, 72 times the die plus the cluster, of a context key. -/
def clusterOf (key : Nat) : Nat := key / 64

/-- The compute die of a physical cluster (R491). -/
def dieOf (cluster : Nat) : Nat := cluster / Config.dieClusters

/-- The core of the context whose turn it is. -/
def State.core (s : State) : Core := tget s.cores (coreOf s.cx.key) Core.reset

/-- A core changed. -/
def State.withCore (s : State) (core : Nat) (f : Core → Core) : State :=
  { s with cores := tset s.cores core (f (tget s.cores core Core.reset)) }

/-- The cluster of that physical number. -/
def State.cluster (s : State) (c : Nat) : Cluster := tget s.clusters c Cluster.reset

/-- A cluster changed. -/
def State.withCluster (s : State) (c : Nat) (f : Cluster → Cluster) : State :=
  { s with clusters := tset s.clusters c (f (s.cluster c)) }

/-- The partition of that number. -/
def State.partition (s : State) (p : Nat) : Partition := tget s.parts p Partition.reset

/-- The partition of the context whose turn it is. -/
def State.part (s : State) : Partition := s.partition s.cx.part

/-- A partition changed. -/
def State.withPart (s : State) (p : Nat) (f : Partition → Partition) : State :=
  { s with parts := tset s.parts p (f (s.partition p)) }

/-- The launch queue record of that number (R239). -/
def State.queue (s : State) (q : Nat) : Queue := tget s.queues q Queue.reset

/-- A launch queue record changed. -/
def State.withQueue (s : State) (q : Nat) (f : Queue → Queue) : State :=
  { s with queues := tset s.queues q (f (s.queue q)) }

/-- The context of a key, when it holds a thread or has the turn. -/
def State.ctxAt (s : State) (key : Nat) : Option Ctx :=
  if s.cx.key = key then some s.cx else s.others.find? (fun c => c.key == key)

/-- A context changed.  (DESIGN CHOICE, log entry 22.) -/
def State.withCtx (s : State) (key : Nat) (f : Ctx → Ctx) : State :=
  if s.cx.key = key then { s with cx := f s.cx }
  else { s with others := updateFirst (fun c => c.key == key) f s.others }

/-- The running context changed. -/
def State.withCx (s : State) (f : Ctx → Ctx) : State := { s with cx := f s.cx }

/-- A task changed, wherever it is: on a context, switched out, or waiting beneath a child. -/
def State.withTask (s : State) (tid : Word) (f : Ctx → Ctx) : State :=
  if s.cx.tid = tid ∧ s.cx.run ≠ .idle then { s with cx := f s.cx }
  else
    { s with
      others := updateFirst (fun c => c.tid == tid) f s.others
      ready := updateFirst (fun r => r.2.2.tid == tid) (fun r => (r.1, r.2.1, f r.2.2)) s.ready
      beneath := updateFirst (fun c => c.tid == tid) f s.beneath }

/-- A task, wherever it is. -/
def State.taskOf (s : State) (tid : Word) : Option Ctx :=
  if s.cx.tid = tid ∧ s.cx.run ≠ .idle then some s.cx
  else match s.others.find? (fun c => c.tid == tid) with
    | some c => some c
    | none =>
      match s.ready.find? (fun r => r.2.2.tid == tid) with
      | some r => some r.2.2
      | none => s.beneath.find? (fun c => c.tid == tid)

/-- A happening put in flight. -/
def State.send (s : State) (i : Happening) : State := { s with inflight := s.inflight ++ [i] }

/-- A happening put in flight ahead of the others: one that goes on after a stop on its way keeps its place (R234, R305, R383). -/
def State.sendFirst (s : State) (i : Happening) : State := { s with inflight := i :: s.inflight }

/-- A happening put in flight so many times. -/
def State.sendMany (s : State) (i : Happening) : Nat → State
  | 0 => s
  | n + 1 => (s.send i).sendMany i n

/-- A record put on the wire. -/
def State.emit (s : State) (o : Sent) : State := { s with outbox := s.outbox ++ [o] }

/-- The devices of a partition's job (R509). -/
def Partition.jobDevices (p : Partition) : List Nat := (List.range p.jobCount).map (fun i => tget p.jobTable i 0)

/-- The logical cluster of a physical one in a partition (R508). -/
def Partition.logical (p : Partition) (cluster : Nat) : Option Nat := p.clusters.findIdx? (· == cluster)

/-- The logical core number of a physical core (R22). -/
def Partition.logicalCore (p : Partition) (core : Nat) : Nat :=
  match p.logical (core / 16) with
  | some l => 16 * l + core % 16
  | none => 0

/-- The physical core of a logical one. -/
def Partition.physicalCore (p : Partition) (l : Nat) : Option Nat :=
  (p.clusters[l / 16]?).map (fun c => 16 * c + l % 16)

/-- The multiplicative hash of R196 and R307, scaled to n. -/
def hashTo (v n : Nat) : Nat := v * golden.toNat % 2 ^ 64 / 2 ^ 32 * n / 2 ^ 32

/-- The home cluster of an HBM offset (R307). -/
def Partition.homeOf (p : Partition) (off : Nat) : Option Nat :=
  p.clusters[hashTo (off / 256) p.clusters.length]?

/-- The stack that serves an HBM offset (R294). -/
def stackOf (off : Nat) : Nat := Nat.xor (off / 2 ^ 8 % 8) (Nat.xor (off / 2 ^ 11 % 8) (off / 2 ^ 14 % 8))

/-- The descriptor of a bank, 32 times the cluster plus the bank number (R302, R303); bit 8 is BUSY. -/
def State.bank (s : State) (g : Nat) : BitVec 9 :=
  let b := g % 32
  let c := s.cluster (g / 32)
  let d := tget c.banks b (if b < 16 then BitVec.ofNat 9 (16 * b + 1) else if b < 30 then 0 else 2)
  if (c.switching.any (fun e => e.1 == b)) then d ||| 0x100 else d

/-- MODE of a bank descriptor. -/
def bankMode (d : BitVec 9) : Nat := field d 0 2

/-- OWNER of a bank descriptor. -/
def bankOwner (d : BitVec 9) : Nat := field d 4 4

/-- BUSY of a bank descriptor. -/
def bankBusy (d : BitVec 9) : Bool := d.getLsbD 8

/-- Mesh hops between two clusters of one die. -/
def meshHops (a b : Nat) : Nat :=
  let p := Config.meshPlace a
  let q := Config.meshPlace b
  (p.1 - q.1) + (q.1 - p.1) + (p.2 - q.2) + (q.2 - p.2)

/-- The physical cluster that serves a logical destination (R496, R498). -/
def State.routed (s : State) (cluster : Nat) : Nat := tget s.routes cluster cluster

/-- Whether a cluster has a cache-way bank (R308). -/
def State.caches (s : State) (cluster : Nat) : Bool :=
  (List.range 32).any (fun b => bankMode (s.bank (32 * cluster + b)) == 0)

/-- The replicating slice of a cluster's core (R310): its own cluster's, which passes every access on (R308), when no cluster of the die has
a cache-way bank (DEDUCED, log entry 85). -/
def State.replicaOf (s : State) (p : Partition) (cluster : Nat) : Nat :=
  if s.caches cluster then cluster
  else (best (fun a b => meshHops (s.routed cluster) (s.routed a) < meshHops (s.routed cluster) (s.routed b))
    (p.clusters.filter (fun c => dieOf c == dieOf cluster && s.caches c))).getD cluster

/-- What a physical address names (R292, R293).  Banks carry 32 times the physical cluster plus the bank number. -/
inductive Place where
  | hbm (dev off : Nat)
  | scratchpad (g off : Nat)
  | fifo (g off : Nat)
  | port (core off : Nat)
  | tags (core : Nat)
  | farWindow (dev : Nat)
  | nowhere
deriving DecidableEq, Repr

/-- The location that a window offset of a core names (R293). -/
def State.windowAt (s : State) (core woff : Nat) : Place :=
  let bank := 32 * (core / 16) + woff / 65536 % 32
  let d := s.bank bank
  if woff < 32 * 65536 then
    if bankMode d = 1 ∧ bankOwner d = core % 16 then .scratchpad bank (woff % 65536) else .nowhere
  else if 2 ^ 32 ≤ woff ∧ woff < 2 ^ 32 + 32 * 65536 then
    if bankMode d = 2 ∧ bankOwner d = core % 16 ∧ woff % 65536 < 24 then .fifo bank (woff % 65536) else .nowhere
  else if 2 ^ 33 ≤ woff ∧ woff < 2 ^ 33 + 256 then .port core (woff - 2 ^ 33)
  else if 2 ^ 33 + 4096 ≤ woff ∧ woff < 2 ^ 33 + 4104 then .tags core
  else .nowhere

/-- The location of a physical address (R292, R293). -/
def State.placeOf (s : State) (pa : Nat) : Place :=
  let dev := pa / 2 ^ 48 % 1024
  if pa / 2 ^ 47 % 2 = 0 then
    if pa % 2 ^ 47 < Config.hbmBytes then .hbm dev (pa % 2 ^ 47) else .nowhere
  else if pa / 2 ^ 38 % 128 ≥ Config.dieClusters then .nowhere
  else if dev ≠ s.dev.toNat then .farWindow dev
  else
    let cluster := pa / 2 ^ 45 % 4 * Config.dieClusters + pa / 2 ^ 38 % 128
    s.windowAt (16 * cluster + pa / 2 ^ 34 % 16) (pa % 2 ^ 34)

/-- The physical address, without the device, of window offset woff of a physical core. -/
def windowAddr (core woff : Nat) : Nat :=
  let cluster := core / 16
  2 ^ 47 + dieOf cluster * 2 ^ 45 + cluster % Config.dieClusters * 2 ^ 38 + core % 16 * 2 ^ 34 + woff

/-- The bank's descriptor's BUSY for a place that is a bank (R306). -/
def State.placeBusy (s : State) (pa : Nat) : Bool :=
  let cluster := pa / 2 ^ 45 % 4 * Config.dieClusters + pa / 2 ^ 38 % 128
  let woff := pa % 2 ^ 34
  pa / 2 ^ 47 % 2 = 1 && pa / 2 ^ 48 % 1024 = s.dev.toNat && decide (woff % 2 ^ 32 < 32 * 65536) && decide (woff < 2 ^ 33) &&
    bankBusy (s.bank (32 * cluster + woff / 65536 % 32))

/-- An access-table entry (R314). -/
def State.accessEntry (s : State) (t : AccessTarget) (part cls : Nat) : Word :=
  match s.access.find? (fun e => e.1 == (t, part, cls)) with
  | some e => e.2
  | none => 0

/-- The rights of R314 by bit: RD, WR, AT, CM. -/
def rightRead : Nat := 0
/-- See rightRead. -/
def rightWrite : Nat := 1
/-- See rightRead. -/
def rightAtomic : Nat := 2
/-- See rightRead. -/
def rightCommand : Nat := 3

/-- Whether a target's entry holds a right (R315); class 7 holds every right (R314). -/
def State.holdsRight (s : State) (t : AccessTarget) (part cls right : Nat) : Bool :=
  cls = 7 || (s.accessEntry t part cls).getLsbD right

/-- Whether an HBM offset lies within the entry's range (R315). -/
def State.inEntryRange (s : State) (t : AccessTarget) (part cls off : Nat) : Bool :=
  let e := s.accessEntry t part cls
  cls = 7 || (decide (field e 4 23 ≤ off / 65536) && decide (off / 65536 < field e 27 23))

/-- Whether a home slice or HBM port grants a request (R315). -/
def State.targetGrants (s : State) (t : AccessTarget) (part cls right off : Nat) : Bool :=
  s.holdsRight t part cls right && s.inEntryRange t part cls off

/-- The live station that serves an offset on the fabric: one that is down has handed its index to the next live one (R501).  (DEDUCED, log entry 59.) -/
def State.stationOf (s : State) (index : Nat) : Option Nat :=
  ((List.range 24).map (fun k => (index + k) % 24)).find? (fun st => !s.stationsDown.getLsbD st)

/-- The station of a read or write at an address (R501). -/
def stationIndex (pa : Nat) : Nat := pa % 2 ^ 47 / 256 % 24

/-- Whether the station by which a request to another device leaves grants it (R314, R315, R501).  (DEDUCED, log entry 59.) -/
def State.grantsFabric (s : State) (part cls right pa : Nat) : Bool :=
  (s.stationOf (stationIndex pa)).any (fun st => s.holdsRight (.station st) part cls right)

/-- The banks that a cluster's home slice may fill (R302, R308). -/
def State.cacheBanks (s : State) (cluster : Nat) : List Nat :=
  (List.range 32).filter (fun b => bankMode (s.bank (32 * cluster + b)) == 0 && !bankBusy (s.bank (32 * cluster + b)))

/-- The way of a home slice that holds the line of an address (R308). -/
def State.wayOf (s : State) (cluster pa : Nat) : Option Way := (s.cluster cluster).slice.find? (fun w => w.num == pa / 32)

/-- Whether the slice that serves an HBM address grants a request, and, when the slice misses, the HBM port too, or, for a line of another
device that it replicates, the fabric station (R310, R315). -/
def State.grantsHbm (s : State) (slice : Option Nat) (part cls right pa : Nat) : Bool :=
  match slice with
  | none => false
  | some h =>
    s.targetGrants (.homeSlice h) part cls right (pa % 2 ^ 47) &&
      ((s.wayOf h pa).isSome ||
        (if deviceOf pa = s.dev.toNat then s.targetGrants (.hbmPort (stackOf (pa % 2 ^ 47))) part cls right (pa % 2 ^ 47)
         else s.grantsFabric part cls right pa))

/-- Whether a window location grants a request (R315). -/
def State.grantsWindow (s : State) (cluster part cls right : Nat) : Bool :=
  (s.partition part).clusters.contains cluster && s.holdsRight (.homeSlice cluster) part cls right

/-- The level whose counter an error at a physical address adds to (R320). -/
def State.errorLevel (s : State) (pa : Nat) : Nat :=
  match s.placeOf (s.dev.toNat * 2 ^ 48 + pa % 2 ^ 48) with
  | .hbm _ off => 34 + stackOf off
  | _ => pa % 2 ^ 34 / 65536 % 32

/-- A read repairs the correctable errors that it meets, each counted at its level (R320). -/
def State.scrub (s : State) (pa n : Nat) : State :=
  let met := fun (w : Nat × Bool) => !w.2 && decide (8 * w.1 < pa % 2 ^ 48 + n) && decide (pa % 2 ^ 48 < 8 * w.1 + 8)
  if s.badWords.any met then
    { s with badWords := s.badWords.filter (fun w => !met w) }.countErrors (s.errorLevel pa) (s.badWords.filter met).length
  else s

/-- Whether an address of this device holds an uncorrectable error; another device's is not known here. -/
def State.spoiledAt (s : State) (pa n : Nat) : Bool := pa / 2 ^ 48 % 1024 = s.dev.toNat && s.uncorrectable pa n

/-- The repairs of a read, when its address is on this device. -/
def State.scrubAt (s : State) (pa n : Nat) : State := if pa / 2 ^ 48 % 1024 = s.dev.toNat then s.scrub pa n else s

/-- Whether n bytes from an address touch a 64-bit word. -/
def wordMeets (pa n w : Nat) : Bool := decide (8 * w < pa + n) && decide (pa < 8 * w + 8)

/-- Whether a read through a home slice meets an uncorrectable error: in the way that holds the line, else at the line's home (R321). -/
def State.sliceBad (s : State) (h pa n : Nat) : Bool :=
  if (s.wayOf h pa).isSome then (s.cluster h).badWays.any (fun w => w.2 && wordMeets pa n w.1) else s.spoiledAt pa n

/-- A line leaves a home slice (R308).  What failed in its way is then found at its home, but for a replica, whose home has its own.
(DESIGN CHOICE, log entry 71.) -/
def State.dropWay (s : State) (h : Nat) (way : Way) : State :=
  let met := fun (w : Nat × Bool) => wordMeets (32 * way.num) 32 w.1
  let left := if way.ros then [] else ((s.cluster h).badWays.filter met).map (fun (w : Nat × Bool) => (w.1 % 2 ^ 45, w.2))
  { s with badWords := s.badWords.filter (fun (w : Nat × Bool) => !left.any (fun (v : Nat × Bool) => v.1 == w.1)) ++ left }.withCluster h (fun c =>
    { c with slice := c.slice.filter (fun w => w != way), badWays := c.badWays.filter (fun w => !met w) })

/-- A line that a home slice serves is the latest used of its set; one that misses takes a free way of the set, or that of its least
recently used line (R308). -/
def State.fillWay (s : State) (h pa : Nat) (ros : Bool) : State :=
  let c := s.cluster h
  let banks := s.cacheBanks h
  match s.wayOf h pa with
  | some w => s.withCluster h (fun c => { c with slice := w :: c.slice.filter (fun v => v != w) })
  | none =>
    if banks.isEmpty then s
    else
      let peers := c.slice.filter (fun w => Config.sliceSet w.num == Config.sliceSet (pa / 32))
      let full := decide (banks.length ≤ c.slice.length) && decide (banks.length ≤ peers.length)
      let last := if full then peers.getLast? else none
      let bank := last.elim ((banks.find? (fun b => !peers.any (fun w => w.bank == b))).getD 0) (·.bank)
      let failed := if deviceOf pa = s.dev.toNat then s.badWords.filter (fun (w : Nat × Bool) => wordMeets (pa / 32 * 32 % 2 ^ 48) 32 w.1) else []
      (last.elim s (s.dropWay h)).withCluster h (fun c =>
        { c with
          slice := ⟨pa / 32, bank, ros⟩ :: c.slice
          badWays := c.badWays ++ failed.map (fun (w : Nat × Bool) => (pa / 2 ^ 48 * 2 ^ 45 + w.1, w.2)) })

/-- A read through a home slice repairs the correctable errors that it meets, each counted at the level that holds the word (R320), and the
slice then holds the line. -/
def State.readSlice (s : State) (h pa n : Nat) (ros : Bool) : State :=
  match s.wayOf h pa with
  | none => (s.scrubAt pa n).fillWay h pa ros
  | some w =>
    let met := fun (e : Nat × Bool) => !e.2 && wordMeets pa n e.1
    let some_ := (s.cluster h).badWays.filter met
    (if some_.isEmpty then s
     else (s.withCluster h (fun c => { c with badWays := c.badWays.filter (fun e => !met e) })).countErrors w.bank some_.length).fillWay h pa
      ros

/-- A write through a home slice: a 64-bit word written whole holds no error (R321), and the slice then holds the line. -/
def State.writeSlice (s : State) (h pa : Nat) (cells : List Cell) : State :=
  (s.fillWay h pa false).withCluster h (fun c =>
    { c with badWays := c.badWays.filter (fun w => !((List.range 8).all (fun j => cells.any (fun e => e.1 == 8 * w.1 + j)))) })

/-- The level that serves an HBM request of a core, as an accumulator index (R318): the slice that has the line, else the stack, or the other
device. -/
def State.levelOf (s : State) (core : Nat) (slice : Option Nat) (pa : Nat) : Nat :=
  match slice with
  | none => 43
  | some h =>
    match s.wayOf h pa with
    | none => if deviceOf pa = s.dev.toNat then 34 + stackOf (pa % 2 ^ 47) else 42
    | some w => if h = core / 16 then w.bank else if dieOf h = dieOf (core / 16) then 32 else 33

/-- A page-table entry read at a physical address (R297). -/
def State.tableEntry (s : State) (pa : Nat) : Word := BitVec.ofNat 64 (ofBytes (s.peek pa 8))

/-- TYPE of a table entry, 0 when a zero field is not zero (R295, R297). -/
def entryType (e : Word) : Nat :=
  if e.getLsbD 63 ∨ e.getLsbD 7 ∨ e.getLsbD 3 ∨ e.getLsbD 2 then 0 else field e 0 2

/-- The address of a table entry's next table or page frame (R297). -/
def entryAddr (e : Word) : Nat := field e 8 50 * 256

/-- Whether a table of n entries may lie at an address (R295): aligned to its size, in HBM of the own device. -/
def State.tableAt (s : State) (pa n : Nat) : Bool :=
  pa % (8 * n) = 0 && pa / 2 ^ 48 % 1024 = s.dev.toNat && pa / 2 ^ 47 % 2 = 0 && decide (pa % 2 ^ 47 < Config.hbmBytes)

/-- A leaf entry of a page size, when its frame is aligned (R295). -/
def leafOfEntry (e : Word) (size : Nat) : Option Leaf :=
  if entryAddr e % size = 0 then
    some { pa := entryAddr e, size := size, x := e.getLsbD 62, ros := e.getLsbD 61, blk := e.getLsbD 60,
           wsc := BitVec.ofNat 2 (field e 58 2), u := e.getLsbD 6, w := e.getLsbD 5, r := e.getLsbD 4 }
  else none

/-- The page sizes by level 0 to 2. -/
def pageSize : Nat → Nat
  | 0 => 2 ^ 16
  | 1 => 2 ^ 21
  | _ => 2 ^ 30

/-- The address of the entry that a walk reads in the table of a level (R295). -/
def walkSlot (va table : Nat) : Nat → Nat
  | 0 => table + va / 2 ^ 16 % 32 * 8
  | n + 1 => table + va / 2 ^ (21 + 9 * n) % 512 * 8

/-- The walk from the table of a level down (R295); an entry that cannot be read is no valid one (R321; DESIGN CHOICE, log entry 71). -/
def State.walkFrom (s : State) (va : Nat) : Nat → Nat → Option Leaf
  | 0, table =>
    let e := s.tableEntry (walkSlot va table 0)
    if s.tableAt table 32 ∧ entryType e = 2 ∧ !s.uncorrectable (walkSlot va table 0) 8 then leafOfEntry e (2 ^ 16) else none
  | n + 1, table =>
    let e := s.tableEntry (walkSlot va table (n + 1))
    if !s.tableAt table 512 || s.uncorrectable (walkSlot va table (n + 1)) 8 then none
    else if entryType e = 1 then s.walkFrom va n (entryAddr e)
    else if entryType e = 2 ∧ n < 2 then leafOfEntry e (pageSize (n + 1))
    else none

/-- The walk of R295: none is a page fault. -/
def State.walk (s : State) (part va : Nat) : Option Leaf :=
  if va / 2 ^ 48 ≠ 0 ∨ va / 2 ^ 16 = 0 then none
  else s.walkFrom va 3 ((s.partition part).ptbase.toNat * 4096)

/-- The translation entry that a core uses for an address, unless it has dropped it (R298, R116). -/
def State.tlbFind (s : State) (core part va : Nat) : Option Leaf :=
  match (tget s.cores core Core.reset).tlb.find?
      (fun e => e.part == part && e.va / e.leaf.size == va / e.leaf.size) with
  | none => none
  | some e => if Config.tlbEvicted s.turn e.va then none else some e.leaf

/-- The leaf that maps an address for a partition, as a core translates it (R295, R298); the page at address 0 is never mapped,
whatever leaf covers it (R32). -/
def State.leafAt (s : State) (core part va : Nat) : Option Leaf :=
  if va / 2 ^ 16 = 0 ∨ va / 2 ^ 48 ≠ 0 then none
  else
    match s.tlbFind core part va with
    | some l => some l
    | none => s.walk part va

/-- A walk repairs the correctable errors of the entries that it reads (R320). -/
def State.walkRepairs (s : State) (va : Nat) : Nat → Nat → State
  | 0, table => s.scrub (walkSlot va table 0) 8
  | n + 1, table =>
    let e := s.tableEntry (walkSlot va table (n + 1))
    (if entryType e = 1 then s.walkRepairs va n (entryAddr e) else s).scrub (walkSlot va table (n + 1)) 8

/-- The core's translation entries after a translation, 64 at most (R298), and what a walk has repaired. -/
def State.tlbFill (s : State) (core part va : Nat) (l : Leaf) : State :=
  (if (s.tlbFind core part va).isSome then s else s.walkRepairs va 3 ((s.partition part).ptbase.toNat * 4096)).withCore core (fun c =>
    { c with tlb := (⟨part, va / l.size * l.size, l⟩ ::
        c.tlb.filter (fun e => !(e.part == part && e.va / e.leaf.size == va / e.leaf.size))).take 64 })

/-- The physical address of an address on a page. -/
def Leaf.addr (l : Leaf) (va : Nat) : Nat := l.pa + va % l.size

/-- The code of the fault that a load or store takes on a leaf at a level, 0 for none (R101, R311).  (DEDUCED, log entry 65.) -/
def Leaf.check (l : Leaf) (level : BitVec 2) (store : Bool) : Nat :=
  if store then (if !l.w || l.ros then 8 else if level = 0 ∧ !l.u then 8 else 0)
  else (if level = 0 ∧ !l.u then 7 else if !l.r then 7 else 0)

/-- What a translated and checked address answers. -/
inductive Xlat where
  | ok (leaf : Leaf) (pa : Nat)
  | fault (code pa : Nat)
deriving DecidableEq, Repr

/-- Translation and permission check of a data access (R101, R316).  (DEDUCED, log entry 65.) -/
def State.translate (s : State) (core part : Nat) (level : BitVec 2) (va : Nat) (store : Bool) : Xlat :=
  match s.leafAt core part va with
  | none => .fault 7 0
  | some l => if l.check level store = 0 then .ok l (l.addr va) else .fault (l.check level store) (l.addr va)

end Sys2Proof.Machine
end

