-- ==== Sys2Proof/Machine/Cache.lean ====
section
/-!
DEFINITION. Line copies of the level-1 data cache (R299, R300, R320, R335), and remote stores (R301).
-/

namespace Sys2Proof.Machine

/-- Who a context is to a home (R313, R469). -/
def State.originOf (s : State) (c : Ctx) (va : Word) (word : BitVec 32) : Origin where
  part := c.part
  cls := 0
  index := (s.partition c.part).logicalCore (coreOf c.key)
  ctx := c.key
  tid := c.tid
  va := va
  pc := c.pc
  word := word
  tag := c.tag
  epoch := c.epoch
  sysEpoch := c.sysEpoch

/-- What a task's releases so far order (R331). -/
def Ctx.before (c : Ctx) : Before := ⟨c.tid, c.epoch, c.sysEpoch⟩

/-- One more, or one less, remote store not acknowledged of a task (R301).  (DEDUCED, log entry 29.) -/
def State.owe (s : State) (tid : Word) : State := s.withTask tid (fun c => { c with unack := c.unack + 1 })

/-- See owe. -/
def State.paid (s : State) (tid : Word) : State := s.withTask tid (fun c => { c with unack := c.unack - 1 })

/-- A remote store leaves for its home (R301). -/
def State.remoteStore (s : State) (o : Origin) (cells : List Cell) : State :=
  (s.owe o.tid).send (.homeRequest (.store o cells))

/-- Bytes from an address on as cells. -/
def cellsOf (pa : Nat) : List Byte → List Cell
  | [] => []
  | b :: bs => (pa, b) :: cellsOf (pa + 1) bs

/-- The stores of a core still on their way to a home, oldest first. -/
def State.pendingCells (s : State) (core : Nat) : List Cell :=
  s.inflight.flatMap (fun i =>
    match i with
    | .homeRequest q => if q.origin.cls = 0 ∧ coreOf q.origin.ctx = core then q.cells else []
    | _ => [])

/-- The latest byte that cells give an address, or a default. -/
def lastCell (cells : List Cell) (a : Nat) (d : Byte) : Byte :=
  cells.foldl (fun acc c => if c.1 = a then c.2 else acc) d

/-- Whether a line holds bytes that its home has not been sent (R300). -/
def Line.dirty (l : Line) : Bool := l.unsent != 0 && l.owner.isSome

/-- The cells of a line that its home has not been sent (R300). -/
def Line.unsentCells (l : Line) : List Cell :=
  (List.range 32).filterMap (fun j =>
    if l.unsent.getLsbD j then some (l.num * 32 + j, BitVec.ofNat 8 (lane l.data.toNat 8 j)) else none)

/-- The bytes that a core's lines hold and their homes have not been sent. -/
def State.unsentCells (s : State) (core : Nat) : List Cell := (tget s.cores core Core.reset).lines.flatMap Line.unsentCells

/-- Memory as a core finds it when it fetches: what reached the homes, then the stores that the core has sent, then those that its
lines still hold (R104, R115, R326). -/
def State.peekFrom (s : State) (core pa n : Nat) : List Byte :=
  let cells := s.pendingCells core ++ s.unsentCells core
  ((s.bytesAt pa n).zipIdx).map (fun p => lastCell cells (pa + p.2) p.1)

/-- Whether a line copy serves a context of its core (R335). -/
def Line.serves (l : Line) (k : Nat) : Bool := if l.inBuffer then l.held.getLsbD k else !l.closed.getLsbD k

/-- The scope a line records (R300). -/
def Line.scope (l : Line) : Nat := if l.unsent = 0 then 3 else 0

/-- The 64-bit words of a line that n bytes from byte j touch. -/
def lineWords (j n : Nat) : List Nat := (List.range 4).filter (fun w => decide (8 * w < j + n) && decide (j < 8 * w + 8))

/-- Whether one of the words that n bytes of a line touch holds an uncorrectable error (R321). -/
def Line.spoiled (l : Line) (j n : Nat) : Bool := (lineWords j n).any (fun w => l.bad.getLsbD (w + 4))

/-- The words that n bytes of a line touch lose some of their error bits. -/
def Line.clearBad (l : Line) (words : List Nat) (mask : Nat) : Line :=
  { l with bad := l.bad &&& ~~~(BitVec.ofNat 8 ((words.map (fun w => mask * 2 ^ w)).sum)) }

/-- The correctable errors of a core's copies of a line that a read or a write-back meets are repaired in place (R320). -/
def State.mendLine (s : State) (core num j n : Nat) : State :=
  let met := ((tget s.cores core Core.reset).lines.filter (fun l => l.num == num)).flatMap
    (fun l => (lineWords j n).filter l.bad.getLsbD)
  if met.isEmpty then s
  else
    (s.withCore core (fun c => { c with lines := c.lines.map (fun l => if l.num = num then l.clearBad (lineWords j n) 1 else l) })).countErrors
      43 met.length

end Sys2Proof.Machine
end

