-- ==== Sys2Proof/Machine/Home.lean ====
section
/-!
DEFINITION. What homes, banks and agents do with requests and their answers (R301, R318): fault records and the fault queue (R469, R509), stores that
enter a byte's order (R325), the wait-on-address table (R337), FIFO pushes (R304), counters, reductions and registrations
(R336, R349, R359 to R364).
-/

namespace Sys2Proof.Machine

/-- n bytes of a record from byte i, as a number. -/
def rfield (r : Record) (i n : Nat) : Nat := r.toNat / 2 ^ (8 * i) % 2 ^ (8 * n)

/-- A fault record in the layout of R469. -/
def mkRecord (code sub flags : Nat) (pidx : BitVec 32) (tag : Tag) (seq : BitVec 32) (va pa pc : Word) (word : BitVec 32)
    (tid : Word) : Record :=
  BitVec.ofNat 512
    (code % 256 + sub % 65536 * 2 ^ 8 + flags % 256 * 2 ^ 24 + pidx.toNat * 2 ^ 32 + tag.time.toNat * 2 ^ 64 +
      tag.micro.toNat * 2 ^ 128 + seq.toNat * 2 ^ 160 + va.toNat * 2 ^ 192 + pa.toNat * 2 ^ 256 + pc.toNat * 2 ^ 320 +
      word.toNat * 2 ^ 384 + tid.toNat * 2 ^ 448)

/-- The record of a data fault of a request (R469). -/
def originRecord (o : Origin) (code sub flags : Nat) (pa : Nat) : Record :=
  mkRecord code sub flags 0 o.tag 0 o.va (BitVec.ofNat 64 pa) o.pc o.word o.tid

/-- The bytes of a record, lowest first. -/
def recordBytes (r : Record) : List Byte := bytesOf r.toNat 64

/-- A record appended to a partition's fault queue: dropped and counted when 256 wait (R509); TAIL goes to the NOTIFY
address. -/
def State.faultQueue (s : State) (part : Nat) (r : Record) : State :=
  let p := s.partition part
  if p.faultQueue.length ≥ 256 then
    s.withPart part (fun p => { p with fqOvf := if p.fqOvf = BitVec.allOnes 64 then p.fqOvf else p.fqOvf + 1 })
  else
    let s1 := s.withPart part (fun p =>
      { p with
        faultQueue := p.faultQueue ++ [r]
        fqTail := p.fqTail + 1
        fqPlaces := tset p.fqPlaces (p.fqTail.toNat % 256) r })
    if p.fqNotify = 0 then s1 else s1.emit (.notify p.fqNotify (p.fqTail + 1))

/-- Records appended in order. -/
def State.faultQueueAll (s : State) (part : Nat) : List Record → State
  | [] => s
  | r :: rs => (s.faultQueue part r).faultQueueAll part rs

/-- Counters of an accumulator index, saturating (R318, R319). -/
def Ctx.addDelay (c : Ctx) (level hops queue : Nat) : Ctx :=
  let bump := fun (t : List (Nat × Word)) (k n : Nat) =>
    tset t k (BitVec.ofNat 64 (Nat.min ((tget t k 0).toNat + n) (2 ^ 64 - 1)))
  if 42 < level then c
  else { c with dacc := bump (bump (bump c.dacc (4 * level) 1) (4 * level + 1) hops) (4 * level + 2) (Nat.min queue (2 ^ 24 - 1)) }

/-- A record delivered to a task, or to the fault queue when the task has ended (R317, R469). -/
def State.deliver (s : State) (tid : Word) (part : Nat) (code sub : Nat) (r : Record) (unack : Bool) : State :=
  match s.taskOf tid with
  | none => s.faultQueue part r
  | some _ => s.withTask tid (fun c => { c with records := c.records ++ [⟨code, sub, r, none, unack⟩] })

/-- An acknowledgement, or a refusal with its record, of a task's remote store (R301, R318): the delay counters of its
level rise; the refusal of a store whose record must wait still counts in sys.unack (R469). -/
def State.acked (s : State) (tid : Word) (part : Nat) (refusal : Option Record) (level : Nat) : State :=
  let s1 := s.withTask tid (fun c => c.addDelay level (Config.hops s.turn) (Config.queueCycles s.turn))
  refusal.elim (s1.paid tid) (fun r => s1.deliver tid part (rfield r 0 1) (rfield r 1 2) r true)

/-- The 64-bit word at a physical address of the own device. -/
def State.wordAt (s : State) (pa : Nat) : Word := BitVec.ofNat 64 (ofBytes (s.peek (pa / 8 * 8) 8))

/-- A location as entries and registrations name it: those of another device lie beyond every address of this one. -/
def State.locationKey (s : State) (pa : Nat) : Nat := if deviceOf pa = s.dev.toNat then pa % 2 ^ 48 else 2 ^ 60 + pa

/-- What the 8-byte location of a key holds. -/
def State.keyValue (s : State) (key : Nat) : Word :=
  if key < 2 ^ 60 then s.wordAt key else BitVec.ofNat 64 (ofBytes (s.farPeek ((key - 2 ^ 60) / 8 * 8) 8))

/-- Whether a value satisfies an entry of the wait-on-address table (R337, R357, R363). -/
def entrySatisfied (atLeast : Bool) (expected value : Word) : Bool :=
  if atLeast then decide (expected.toNat ≤ value.toNat) else value != expected

/-- Whether a pending instruction is an entry, not yet woken, on the 8-byte location of a key that a value satisfies. -/
def Pend.hit (p : Pend) (key : Nat) (value : Word) : Bool :=
  match p.kind with
  | .entry a atLeast e _ _ none => a / 8 == key / 8 && entrySatisfied atLeast e value
  | _ => false

/-- The contexts that hold or wait for something, each once. -/
def State.allTasks (s : State) : List Ctx := s.cx :: s.others ++ s.ready.map (·.2.2) ++ s.beneath

/-- An entry is woken, at most once, with the value that its wake carries (R337). -/
def Pend.wokenBy (p : Pend) (value : Word) : Pend :=
  match p.kind with
  | .entry a l e sc lim none => { p with kind := .entry a l e sc lim (some value) }
  | _ => p

/-- The entries of a task that a test accepts are woken with a value: one wake message for each (R337). -/
def State.wakeTask (s : State) (key : Nat) (value : Word) (test : Pend → Bool) (c : Ctx) : State :=
  (s.withTask c.tid (fun c => { c with pends := c.pends.map (fun p => if test p then p.wokenBy value else p) })).sendMany
    (.waitEntryWake c.tid key value) (c.pends.filter test).length

/-- The waits of other devices that a test names are woken with a value, each by a kind-5 record (R337, R503). -/
def State.wakeFar (s : State) (value : Word) (test : FarWait → Bool) : State :=
  (s.farWaits.filter test).foldl (fun s w => s.emit (.mailbox w.device 5 (bytesOf w.tid.toNat 8 ++ bytesOf w.key 8 ++ bytesOf value.toNat 8)))
    { s with farWaits := s.farWaits.filter (fun w => !test w) }

/-- The entry of a CP.WAIT on the location of a key is satisfied by a value (R337, R440). -/
def Cmd.wokenBy (key : Nat) (value : Word) (k : Cmd) : Cmd :=
  match k.entry with
  | some (a, false) => if a / 8 = key / 8 ∧ rfield k.record 24 8 ≤ value.toNat then { k with entry := some (a, true) } else k
  | _ => k

/-- Every entry for the location of a key is tested against what it now holds (R337). -/
def State.testEntries (s : State) (key : Nat) : State :=
  let v := s.keyValue key
  let s1 := { s with cmds := s.cmds.map (Cmd.wokenBy key v) }
  ((s.allTasks.filter (fun c => c.pends.any (fun p => p.hit key v))).foldl
    (fun (s : State) c => s.wakeTask key v (fun p => p.hit key v) c) s1).wakeFar v
      (fun w => w.key / 8 == key / 8 && entrySatisfied w.atLeast w.expected v)

/-- Cells accepted into their bytes' order (R325), and the entries of their locations tested. -/
def State.accept (s : State) (cells : List Cell) : State :=
  let local_ := cells.map (fun c => (c.1 % 2 ^ 48, c.2))
  let words := (local_.map (fun c => c.1 / 8)).dedup
  let s1 := { s with
    mem := Memory.writeCells s.mem local_
    badWords := s.badWords.filter (fun w =>
      !((List.range 8).all (fun j => local_.any (fun c => c.1 == 8 * w.1 + j)))) }
  words.foldl (fun s w => s.testEntries (8 * w)) s1

/-- Cells accepted at their home on another device, as this device sees it (R325), and the entries of their locations tested. -/
def State.farAccept (s : State) (cells : List Cell) : State :=
  (cells.map (fun c => c.1 / 8)).dedup.foldl (fun s w => s.testEntries (2 ^ 60 + 8 * w)) (cells.foldl State.farPut s)

/-- Cells accepted at the home that a partition's master finds for an HBM address of this device (R307, R308, R325). -/
def State.acceptHome (s : State) (part pa : Nat) (cells : List Cell) : State :=
  (((s.partition part).homeOf (pa % 2 ^ 47)).elim s (fun h => s.writeSlice h pa cells)).accept cells

/-- The bytes of cells. -/
def cellBytes (cells : List Cell) : List Byte := cells.map (·.2)

/-- The scratchpad bank's level for delay accounting (R318). -/
def bankLevel (core g : Nat) : Nat :=
  if g / 32 = core / 16 then g % 32 else if dieOf (g / 32) = dieOf (core / 16) then 32 else 33

/-- The level, as an accumulator index, that a physical address is served at for a core; 43 where R318 lists none. -/
def State.levelAt (s : State) (core part pa : Nat) : Nat :=
  match s.placeOf pa with
  | .hbm dev off => if dev ≠ s.dev.toNat then 42 else s.levelOf core ((s.partition part).homeOf off) pa
  | .scratchpad g _ => bankLevel core g
  | .fifo g _ => bankLevel core g
  | .farWindow _ => 42
  | _ => 43

/-- The level at which a request is served (R318). -/
def State.requestLevel (s : State) (q : HomeReq) (pa : Nat) : Nat := s.levelAt (coreOf q.origin.ctx) q.origin.part pa

/-- The acknowledgements of the remote stores of a request leave its home (R301). -/
def State.ack (s : State) (q : HomeReq) (level : Nat) : State :=
  s.sendMany (.storeAck q.origin.tid q.origin.part none level) q.count

/-- The refusals of n remote stores whose lines follow one another. -/
def State.refuseFrom (s : State) (q : HomeReq) (pa level : Nat) : Nat → State
  | 0 => s
  | n + 1 => (s.send (.storeAck q.origin.tid q.origin.part (some (originRecord q.origin 9 1 1 pa)) level)).refuseFrom q
      (pa / 32 * 32 + 32) level n

/-- A request refused at its home: its acknowledgement carries the record (R301, R317). -/
def State.refuse (s : State) (q : HomeReq) (pa : Nat) : State := s.refuseFrom q pa (s.requestLevel q pa) q.count

/-- Copy tags are cleared (R393, R394). -/
def State.clearTags (s : State) (core : Nat) (mask : Word) : State :=
  s.withCore core (fun c =>
    { c with ctags := c.ctags &&& ~~~mask, tagScope := c.tagScope.filter (fun e => !mask.getLsbD e.1) })

/-- A 64-byte write or a store to a port of a core (R384), once granted. -/
def State.portWrite (s : State) (o : Origin) (pa off : Nat) (bytes : List Byte) : State :=
  let n := bytes.length
  let e := off / 64
  if n = 64 ∧ off % 64 = 0 then s.sendFirst (.commandPortWrite o e (BitVec.ofNat 512 (ofBytes bytes)))
  else if n = 8 ∧ off % 64 = 56 then s.sendFirst (.stagingCommit o e (BitVec.ofNat 64 (ofBytes bytes)))
  else if n ≤ 8 ∧ off % n = 0 ∧ off % 64 + n ≤ 56 then s.sendFirst (.stagingStore o e (off % 64) bytes)
  else s.refuse (.store o (cellsOf pa bytes)) pa

/-- A remote store that goes to another device: refused by the station, or sent over the fabric, where its home accepts it or no response
comes in time (R315, R501, R504). -/
def State.serveFar (s : State) (q : HomeReq) (dev pa : Nat) : State :=
  if !s.grantsFabric q.origin.part q.origin.cls rightWrite pa then s.refuse q pa
  else
    let s1 := s.emit (.write dev q.cells)
    if Config.farAnswers s.turn then (s1.farAccept q.cells).ack q 42 else s1.send (.fabricRequestTimeout q)

/-- A remote store served where it arrives (R307, R315): refused, held at a bank that is being switched (R306), accepted
and acknowledged, passed to a FIFO, a port or the copy-tag register, or sent to another device. -/
def State.serve (s : State) (q : HomeReq) : State :=
  match q.cells with
  | [] => s.ack q 43
  | (pa, _) :: _ =>
    let o := q.origin
    let level := s.requestLevel q pa
    if s.placeBusy pa then s.sendFirst (.homeRequest q)
    else
      match s.placeOf pa with
      | .hbm dev off =>
        if dev ≠ s.dev.toNat then s.serveFar q dev pa
        else if s.grantsHbm ((s.partition o.part).homeOf off) o.part o.cls rightWrite pa then
          (s.acceptHome o.part pa q.cells).ack q level
        else s.refuse q pa
      | .scratchpad g _ =>
        if s.grantsWindow (g / 32) o.part o.cls rightWrite then (s.accept q.cells).ack q level else s.refuse q pa
      | .fifo g off =>
        if s.grantsWindow (g / 32) o.part o.cls rightWrite ∧ off = 0 ∧ q.cells.length = 8 then
          s.sendFirst (.fifoPush o g (BitVec.ofNat 64 (ofBytes (cellBytes q.cells))))
        else s.refuse q pa
      | .port core off =>
        if coreOf o.ctx = core ∧ s.grantsWindow (core / 16) o.part o.cls rightCommand then
          s.portWrite o pa off (cellBytes q.cells)
        else s.refuse q pa
      | .tags core =>
        if coreOf o.ctx = core ∧ q.cells.length ≤ 8 ∧ s.grantsWindow (core / 16) o.part o.cls rightWrite then
          (s.clearTags core (BitVec.ofNat 64 (ofBytes (cellBytes q.cells) * 2 ^ (8 * (pa % 8))))).ack q level
        else s.refuse q pa
      | .farWindow dev => s.serveFar q dev pa
      | .nowhere => s.refuse q pa

/-- Whether the stores of one context to two addresses reach what they name in order, as a FIFO, a port and another device's window take them (R305,
R383, R503). -/
def State.inSequence (s : State) (a b : Nat) : Bool :=
  match s.placeOf a, s.placeOf b with
  | .fifo g _, .fifo g' _ => g == g'
  | .port c _, .port c' _ => c == c'
  | .tags c, .tags c' => c == c'
  | .farWindow d, .farWindow d' => d == d'
  | _, _ => false

/-- Whether a happening in flight is a remote store, not yet accepted, behind which a release holds what its task sends (R331). -/
def State.heldBack (s : State) (b : Before) (i : Happening) : Bool :=
  match i with
  | .homeRequest e => e.origin.cls == 0 && e.order.any (fun o => b.covers o (decide (deviceOf e.addr = s.dev.toNat)))
  | .fifoPush o _ _ => o.cls == 0 && b.covers o.before true
  | .commandPortWrite o _ _ => b.covers o.before true
  | .stagingStore o _ _ _ => b.covers o.before true
  | .stagingCommit o _ _ => b.covers o.before true
  | .subscriptionUpdate _ u => b.covers u.sent true
  | _ => false

/-- Whether a remote store of the running task that it has released is held at a full FIFO or a full port (R304, R385). -/
def State.heldAside (s : State) (b : Before) : Bool :=
  s.clusters.any (fun c => c.2.fifos.any (fun f => f.2.pushes.any (fun p => p.1.cls == 0 && b.covers p.1.before true))) ||
    s.cores.any (fun c => c.2.heldPushes.any (fun p => b.covers p.2.1.before true))

/-- The device whose directory holds entry n of a job (R230, R371). -/
def State.directoryOf (s : State) (part n : Nat) : Nat :=
  let t := (s.partition part).jobDevices
  if t.isEmpty then s.dev.toNat else t.getD (n % t.length) s.dev.toNat

/-- Where a context is, as EPWHERE gives it (R287). -/
def State.placeWord (s : State) (part key : Nat) : Word :=
  BitVec.ofNat 64 ((s.partition part).logicalCore (coreOf key) + s.dev.toNat * 2 ^ 16 + key % 4 * 2 ^ 26)

/-- What the own device tells another's directory of an endpoint, in a kind-2 record whose layout the manual does not give (R230, R503): 0 a
binding, 1 its end, 2 a lookup, 3 a move; the name, the task and a place. -/
def State.tellDirectory (s : State) (part kind : Nat) (name : BitVec 32) (tid place : Word) : State :=
  let d := s.directoryOf part name.toNat
  if d = s.dev.toNat then s
  else s.emit (.mailbox d 2 (bytesOf kind 1 ++ bytesOf name.toNat 4 ++ bytesOf tid.toNat 8 ++ bytesOf place.toNat 8))

/-- The partition whose access-table entries check what comes from another device (R502). -/
def State.stationPart (s : State) (device : Nat) : Option Nat :=
  (s.stationOf (Nat.xor s.dev.toNat device % 24)).bind (fun st => (s.stations.find? (fun e => e.1 == (st, device))).map (·.2))

/-- Whether something that a task has stored and then released has still to be acknowledged, so that what the release orders after it is
not sent yet (R331). -/
def State.unreleased (s : State) (b : Before) : Bool := s.inflight.any (s.heldBack b) || s.heldAside b

/-- Whether an earlier request must reach its home before a later one: those of a core for one 64-byte block, and those of a context that go to one
FIFO or port, keep their order, and a release holds what its task sends after it (R301, R305, R326, R331, R383).  (DEDUCED, log entry 30.) -/
def State.requestBefore (s : State) (e q : HomeReq) : Bool :=
  if e.origin.cls = 6 ∨ q.origin.cls = 6 then
    e.origin.cls == q.origin.cls && e.origin.index == q.origin.index && e.addr / 256 == q.addr / 256
  else
    (coreOf e.origin.ctx == coreOf q.origin.ctx && e.addr / 64 == q.addr / 64) ||
      (e.origin.ctx == q.origin.ctx && s.inSequence e.addr q.addr) || s.heldBack q.origin.before (.homeRequest e)

/-- The requests in flight that a test names, with those that must reach their homes before them, and what else is in flight. -/
def State.splitBefore (s : State) (first : HomeReq → Bool) : List Happening → List HomeReq × List Happening
  | [] => ([], [])
  | i :: r =>
    let p := s.splitBefore first r
    match i with
    | .homeRequest e => if first e || p.1.any (s.requestBefore e) then (e :: p.1, p.2) else (p.1, i :: p.2)
    | _ => (p.1, i :: p.2)

/-- Requests served in order. -/
def State.serveAll (s : State) : List HomeReq → State
  | [] => s
  | q :: r => (s.serve q).serveAll r

/-- The requests that a test names reach their homes: an access that acts in place comes after them (R104, R331, R350). -/
def State.drainFirst (s : State) (first : HomeReq → Bool) : State :=
  let p := s.splitBefore first s.inflight
  { s with inflight := p.2 }.serveAll p.1

/-- A load of a core that its home serves comes after the core's stores to the block that it reads (R104, R329). -/
def State.drainHome (s : State) (core pa : Nat) : State :=
  s.drainFirst (fun e => e.origin.cls == 0 && coreOf e.origin.ctx == core && e.addr / 64 == pa / 64)

/-- An update arrives at the subscriber's core, which acknowledges it (R340, R341); one of a subscription that has ended is discarded. -/
def State.updateArrives (s : State) (n : Nat) (u : Update) : State :=
  match s.subs.find? (fun b => b.num == n) with
  | none => s.paid u.sent.tid
  | some b =>
    let s1 := s.acked u.sent.tid 0 none (bankLevel b.pubCore (32 * (b.core / 16) + b.dest / 65536 % 32))
    if b.end_ ≠ 0 then s1
    else { s1 with subs := updateFirst (fun b => b.num == n) (fun b => { b with received := b.received ++ [u] }) s1.subs }

/-- Whether a happening is a request or an update that a core has sent. -/
def State.sentBy (s : State) (core : Nat) (i : Happening) : Bool :=
  match i with
  | .homeRequest q => q.origin.cls == 0 && coreOf q.origin.ctx == core
  | .subscriptionUpdate n _ => s.subs.any (fun b => b.num == n && b.pubCore == core)
  | _ => false

/-- Requests and updates arrive, in order. -/
def State.landAll (s : State) : List Happening → State
  | [] => s
  | .homeRequest q :: r => (s.serve q).landAll r
  | .subscriptionUpdate n u :: r => (s.updateArrives n u).landAll r
  | _ :: r => s.landAll r

/-- Every request and update that a core has sent reaches its home. -/
def State.drain (s : State) (core : Nat) : State :=
  ({ s with inflight := s.inflight.filter (fun i => !s.sentBy core i) }).landAll (s.inflight.filter (s.sentBy core))

/-- What a task sends to a location comes after its core's stores to that home, and after what its releases hold before it, requests and
subscription updates (R331, R350; DESIGN CHOICE, log entry 43). -/
def State.drainSent (s : State) (c : Ctx) (pa : Nat) : State :=
  let s1 := s.drainFirst (fun e => s.requestBefore e (.store (s.originOf c 0 0) [(pa, 0)]))
  let mine := fun (i : Happening) => match i with | .subscriptionUpdate _ u => c.before.covers u.sent true | _ => false
  { s1 with inflight := s1.inflight.filter (fun i => !mine i) }.landAll (s1.inflight.filter mine)

/-- The tasks that a context holds, those that wait in JOIN beneath its own among them. -/
def State.tasksOn (s : State) (key : Nat) : List Ctx := (s.ctxAt key).toList ++ s.beneath.filter (fun c => c.key == key)

/-- The remote stores not acknowledged of every task on a context (R301).  (DESIGN CHOICE, log entry 20.) -/
def State.owedOn (s : State) (key : Nat) : Nat := ((s.tasksOn key).map (·.unack)).sum

/-- See owedOn: those of the running context. -/
def State.owed (s : State) : Nat := s.owedOn s.cx.key

/-- The acknowledgements of some tasks that are on their way. -/
def acksOf (tids : List Word) (l : List Happening) : List (Word × Nat × Option Record × Nat) :=
  l.filterMap (fun i =>
    match i with
    | .storeAck t p r v => if tids.contains t then some (t, p, r, v) else none
    | _ => none)

/-- The happenings in flight that are none of those. -/
def otherAcks (tids : List Word) (l : List Happening) : List Happening :=
  l.filter (fun i =>
    match i with
    | .storeAck t _ _ _ => !tids.contains t
    | _ => true)

/-- Acknowledgements taken one after another. -/
def State.ackedAll (s : State) : List (Word × Nat × Option Record × Nat) → State
  | [] => s
  | (t, p, r, v) :: l => (s.acked t p r v).ackedAll l

/-- Room for n more remote stores of a task within the 256 of its context: a store that would be the 257th waits within its instruction, while what the
core has sent reaches its homes and the answers return (R301; DESIGN CHOICE, log entry 20). -/
def State.ackRoom (s : State) (tid : Word) (n : Nat) : State :=
  match s.taskOf tid with
  | none => s
  | some c =>
    if s.owedOn c.key + n ≤ 256 then s
    else
      let s1 := s.drain (coreOf c.key)
      let tids := (s1.tasksOn c.key).map (·.tid)
      { s1 with inflight := otherAcks tids s1.inflight }.ackedAll (acksOf tids s1.inflight)

/-- Whether an instruction is a CWAIT, not yet woken, on a location. -/
def Pend.cwait (p : Pend) (pa : Nat) : Bool :=
  match p.kind with
  | .entry a true _ _ _ none => a / 8 == pa / 8
  | _ => false

/-- The contexts that wait in CWAIT on a location (R253). -/
def State.waiters (s : State) (pa : Nat) : List Ctx := s.allTasks.filter (fun c => c.pends.any (fun p => p.cwait pa))

/-- EFF of a task from its class, floors and raises (R253, R289). -/
def Ctx.withRaise (c : Ctx) (floor : BitVec 2) (raise : BitVec 2) : Ctx :=
  { c with raised := raise, eff := BitVec.ofNat 2 (Nat.max c.cls.toNat (Nat.max floor.toNat raise.toNat)) }

/-- What the device keeps for an actor that has never run (R208, R283, R289, R370). -/
def Actor.fresh (part : Nat) (addr : Word) : Actor :=
  ⟨part, addr, none, false, none, none, none, none, 0, 0, 0, 0, 0, [], [], none⟩

/-- The actor of an address in a partition. -/
def State.actorOf (s : State) (part : Nat) (addr : Word) : Actor :=
  (s.actors.find? (fun a => a.part == part && a.addr == addr)).getD (Actor.fresh part addr)

/-- An actor changed. -/
def State.withActor (s : State) (part : Nat) (addr : Word) (f : Actor → Actor) : State :=
  let here := fun (a : Actor) => a.part == part && a.addr == addr
  if s.actors.any here then { s with actors := updateFirst here f s.actors }
  else { s with actors := s.actors ++ [f (Actor.fresh part addr)] }

/-- Members of a claim group that the own device's directory and actors record (R370, R371). -/
def State.groupSize (s : State) (part g : Nat) : Nat :=
  (s.actors.filter (fun a => a.part == part && a.grp.getLsbD g)).length +
    (s.farMembers.filter (fun m => m.part == part && m.group == g)).length

/-- The floor of a task: its reaction's and its actor's, whichever is higher (R289). -/
def State.floorOf (s : State) (c : Ctx) : BitVec 2 :=
  let a := s.actorOf c.part c.actor
  BitVec.ofNat 2 (Nat.max a.floor.toNat a.reactionFloor.toNat)

/-- The greatest class of contexts. -/
def maxEff (l : List Ctx) : BitVec 2 := BitVec.ofNat 2 (l.foldl (fun m c => Nat.max m c.eff.toNat) 0)

/-- Of two classes the higher. -/
def higherOf (a b : BitVec 2) : BitVec 2 := if a.toNat ≤ b.toNat then b else a

/-- The raises in force for a task: the classes of the waits on the counters it is registered on, those of other devices among them, and what
other devices have sent (R253). -/
def State.raiseOf (s : State) (tid : Word) : BitVec 2 :=
  let keys := (s.registrations.filter (fun r => r.tid == tid)).map (·.pa)
  let far := (s.farWaits.filter (fun w => w.atLeast && keys.any (fun k => k / 8 == w.key / 8))).map (·.cls) ++
    (s.farRaises.filter (fun r => r.1 == tid)).map (·.2)
  far.foldl higherOf (maxEff (keys.flatMap s.waiters))

/-- Of two classes the lower. -/
def lowerOf (a b : BitVec 2) : BitVec 2 := if a.toNat ≤ b.toNat then a else b

/-- The raises of tasks fall to what is still in force (R253). -/
def State.lowerRaises (s : State) : List Word → State
  | [] => s
  | t :: ts =>
    (match s.taskOf t with
      | none => s
      | some c => s.withTask t (fun d => d.withRaise (s.floorOf c) (lowerOf c.raised (s.raiseOf t)))).lowerRaises ts

/-- A wait has ended: the raises that rested on it fall at once, along every chain (R253). -/
def State.lowerAll (s : State) : State :=
  let tids := (s.registrations.map (·.tid)).dedup
  tids.foldl (fun s _ => s.lowerRaises tids) s

/-- The tasks registered on a location. -/
def State.registered (s : State) (pa : Nat) : List Word := (s.registrations.filter (fun r => r.pa == pa)).map (·.tid)

/-- A raise sent to a task, when the class is higher than its own; to one of another device in a kind-9 record (R253, R503). -/
def State.raiseTask (s : State) (cls : BitVec 2) (t : Word) : State :=
  if t.toNat / 2 ^ 48 ≠ s.dev.toNat then s.emit (.mailbox (t.toNat / 2 ^ 48) 9 (bytesOf t.toNat 8 ++ bytesOf cls.toNat 1))
  else
    match s.taskOf t with
    | none => s
    | some c => if c.eff.toNat < cls.toNat then s.send (.priorityRaise t cls false) else s

/-- Raises sent to the tasks registered on a location, by its device when that is another (R253, R503). -/
def State.raiseAll (s : State) (pa : Nat) (by_ : Word) (cls : BitVec 2) : State :=
  let s1 := if pa < 2 ^ 60 then s
    else s.emit (.mailbox (deviceOf (pa - 2 ^ 60)) 9 (bytesOf by_.toNat 8 ++ bytesOf cls.toNat 1))
  (s1.registered pa).foldl (fun s t => s.raiseTask cls t) s1

/-- A task passes its effective class on to those that its waits in CWAIT rest on (R253). -/
def State.passOn (s : State) (c : Ctx) : State :=
  c.pends.foldl (fun s p => match p.kind with
    | .entry pa true _ _ _ none => s.raiseAll pa c.tid c.eff
    | _ => s) s

/-- Each CWAIT entry that the value does not satisfy wakes starved when a counter's last registration ends (R362), those of other devices'
tasks counted. -/
def State.starve (s : State) (pa : Nat) : State :=
  if !(s.registered pa).isEmpty || (decide (2 ^ 60 ≤ pa) && Config.farRegistered s.turn) then s
  else
    ((s.waiters pa).foldl (fun s c => s.wakeTask pa (BitVec.allOnes 64) (fun p => p.cwait pa) c) s).wakeFar (BitVec.allOnes 64)
      (fun w => w.atLeast && w.key / 8 == pa / 8)

/-- A registration ends (R359, R360, R362). -/
def State.endRegistration (s : State) (pa : Nat) (tid : Word) : State :=
  ((({ s with registrations := s.registrations.filter (fun r => !(r.pa == pa && r.tid == tid)) }).starve pa).lowerRaises [tid]).lowerAll

/-- The new value of an atomic operation, the value it returns, and whether RDADDA clamped (R356, R358, R364). -/
def atomicResult (op : AtomicOp) (old x : Word) : Word × Word × Bool :=
  match op with
  | .cadd =>
    let v := BitVec.ofNat 64 (Nat.min (old.toNat + x.toNat) (2 ^ 64 - 2))
    (v, v, false)
  | .cread => (old, old, false)
  | .rdadd => (old + x, old, false)
  | .rdaddf =>
    let r := (f32Add (old.toNat % 2 ^ 32) (x.toNat % 2 ^ 32)).1
    (BitVec.ofNat 64 (old.toNat / 2 ^ 32 * 2 ^ 32 + r), BitVec.ofNat 64 (old.toNat % 2 ^ 32), false)
  | .rdadda =>
    let (q, c) := clampA64 (old.toInt + x.toInt)
    (wordOfInt q, old, c)
  | .rdmax => (if old.slt x then x else old, old, false)
  | .rdmin => (if x.slt old then x else old, old, false)
  | .rdand => (old &&& x, old, false)
  | .rdior => (old ||| x, old, false)
  | .rdxor => (old ^^^ x, old, false)

/-- The width of an atomic's location in bytes (R349, R364). -/
def atomicSize : AtomicOp → Nat
  | .rdaddf => 4
  | _ => 8

/-- A CADD by a registered task lowers what it owes (R359). -/
def State.payOwed (s : State) (pa : Nat) (tid : Word) (x : Word) : State :=
  match s.registrations.find? (fun r => r.pa == pa && r.tid == tid) with
  | none => s
  | some r =>
    if r.owed ≤ x.toNat then s.endRegistration pa tid
    else { s with registrations :=
            updateFirst (fun r => r.pa == pa && r.tid == tid) (fun r => { r with owed := r.owed - x.toNat }) s.registrations }

/-- The physical address of a key. -/
def State.keyAddr (s : State) (key : Nat) : Nat := if key < 2 ^ 60 then s.dev.toNat * 2 ^ 48 + key else key - 2 ^ 60

/-- An access of this device's memory by its home: of HBM through the slice that a partition gives it (R307, R320). -/
def State.touchHome (s : State) (part pa n : Nat) : State :=
  match s.placeOf pa with
  | .hbm _ off => ((s.partition part).homeOf off).elim (s.scrub pa n) (fun h => s.readSlice h pa n false)
  | _ => s.scrub pa n

/-- What a write at a location puts into its order (R325), at its home on this device or on another. -/
def State.acceptAt (s : State) (part pa : Nat) (cells : List Cell) : State :=
  if deviceOf pa ≠ s.dev.toNat then s.farAccept cells
  else match s.placeOf pa with
    | .hbm _ _ => s.acceptHome part pa cells
    | _ => s.accept cells

/-- An atomic operation acts on its location in place, on this device or another (R336, R349): what it returns, whether it clamped, and the
state.  CREAD writes nothing. -/
def State.atomicAt (s : State) (part : Nat) (op : AtomicOp) (pa : Nat) (x : Word) (tid : Word) : Word × Bool × State :=
  let n := atomicSize op
  let old := BitVec.ofNat 64 (ofBytes (s.bytesAt pa n))
  let (new, out, clamp) := atomicResult op old x
  let s := if deviceOf pa = s.dev.toNat then s.touchHome part pa n else s.emit (.atomic (deviceOf pa) (.act op) pa x tid)
  if op = .cread then (out, clamp, s)
  else
    let s1 := s.acceptAt part pa (cellsOf pa (bytesOf new.toNat n))
    (out, clamp, if op = .cadd then s1.payOwed (s.locationKey pa) tid x else s1)

/-- Whether a location is accepted for an operation at a scope by a core (R349): on another device writable HBM or a scratchpad bank of a
device of the partition's job.  (DEDUCED, log entry 41.) -/
def State.atomicAccepts (s : State) (core part : Nat) (scope : BitVec 2) (pa : Nat) : Bool :=
  let job := scope = 3 && (s.partition part).jobDevices.contains (deviceOf pa)
  match s.placeOf pa with
  | .hbm dev _ => if dev = s.dev.toNat then decide (2 ≤ scope.toNat) else job
  | .scratchpad g _ =>
    match scope.toNat with
    | 0 => g / 32 == core / 16 && bankOwner (s.bank g) == core % 16
    | 1 => g / 32 == core / 16
    | _ => true
  | .farWindow _ => job && decide (pa % 2 ^ 34 < 32 * 65536)
  | _ => false

/-- Whether the access tables grant an operation on a location: its home's, or those of the station by which the request leaves (R315).
(DEDUCED, log entry 41.) -/
def State.atomicGrants (s : State) (part cls pa : Nat) : Bool :=
  match s.placeOf pa with
  | .hbm dev off =>
    if dev = s.dev.toNat then s.grantsHbm ((s.partition part).homeOf off) part cls rightAtomic pa else s.grantsFabric part cls rightAtomic pa
  | .scratchpad g _ => s.grantsWindow (g / 32) part cls rightAtomic
  | .farWindow _ => s.grantsFabric part cls rightAtomic pa
  | _ => false

/-- Whether an operation on a location of this device would meet an uncorrectable error (R321). -/
def State.spoiledFor (s : State) (part pa n : Nat) : Bool :=
  match s.placeOf pa with
  | .hbm dev off => dev == s.dev.toNat && ((s.partition part).homeOf off).any (fun h => s.sliceBad h pa n)
  | _ => s.spoiledAt pa n

/-- Why an operation of a core, or an engine, on a translated location is refused (R315, R317, R321, R349); 0 when it is accepted. -/
def State.agentRefuses (s : State) (core part cls : Nat) (scope : BitVec 2) (leaf : Leaf) (pa n : Nat) : Nat :=
  if leaf.ros ∨ (pa / 2 ^ 47 % 2 = 0 ∧ !leaf.w) ∨ !s.atomicAccepts core part scope pa ∨ !s.atomicGrants part cls pa then 9
  else if s.spoiledFor part pa n then 11
  else 0

end Sys2Proof.Machine
end

