-- ==== Sys2Proof/Machine/Bounds.lean ====
section
/-!
DEFINITION. Launch configurations, input bounds and the safe test (spec/08 R207 to R209, spec/09 R237).
-/

namespace Sys2Proof.Machine

/-- The actor that an event is addressed to (R195). -/
def actorAddr (a : Word) : Word := a &&& ~~~63

/-- SEED of a partition's launch configuration (R237). -/
def Partition.seed (p : Partition) : Word := BitVec.ofNat 64 (rfield p.config 0 8)

/-- The declaration that a partition's launch configuration gives an actor that has never run (R208, R237), as sys.bound
holds it. -/
def Partition.defaultBound (p : Partition) : BitVec 33 :=
  BitVec.ofNat 33 (rfield p.config 8 4 + rfield p.config 12 1 % 2 * 2 ^ 32)

/-- The declaration in force for an actor (R207, R208): its own, which a reaction's start fixes for one that has none (DESIGN CHOICE, log entry
79), or the partition's default. -/
def State.declared (s : State) (part : Nat) (actor : Word) : BitVec 33 :=
  ((s.actorOf part actor).bound).getD (s.partition part).defaultBound

/-- The input bound B of a declaration, in ns (R207). -/
def Partition.boundOf (p : Partition) (b : BitVec 33) : Nat :=
  (if b.getLsbD 32 then p.dfab.toNat + p.eclk.toNat else Config.dDev) + b.toNat % 2 ^ 32

/-- The input bound of an actor. -/
def State.inputBound (s : State) (part : Nat) (actor : Word) : Nat := (s.partition part).boundOf (s.declared part actor)

/-- Whether the clock makes a tag time safe under a bound (R209, R279). -/
def State.pastBound (s : State) (t b : Nat) : Bool := decide (Nat.min (2 ^ 64 - 1) (t + b) ≤ s.clock)

/-- Whether a queued event is safe (R209). -/
def State.isSafe (s : State) (q : Queued) : Bool :=
  q.safe || s.pastBound q.event.tag.time.toNat (s.inputBound q.event.part (actorAddr q.event.target))

/-- The safe events are marked, since a safe event stays safe (R209): made before a bound or a clock changes. -/
def State.markSafe (s : State) : State :=
  { s with events := s.events.map (fun q => { q with safe := s.isSafe q }) }

end Sys2Proof.Machine
end

