-- ==== Sys2Proof/Machine/Context.lean ====
section
/-!
DEFINITION. What an instruction does to its own context: registers, windows (R44 to R51, R475) and the pc.
-/

namespace Sys2Proof.Machine

/-- The registers an instruction writes; the pending destinations of a long-latency one (R45). -/
structure Dests where
  xs : List Reg
  vs : List (BitVec 4)
  ms : List (BitVec 3)
deriving DecidableEq, Repr

/-- What a scalar register holds, whatever windows are open. -/
def Ctx.rawX (c : Ctx) (r : Reg) : Word := c.x[r.toNat]'(r.isLt)

/-- What a vector register holds, whatever windows are open. -/
def Ctx.rawV (c : Ctx) (r : BitVec 4) : VWord := c.v[r.toNat]'(r.isLt)

/-- What a mask register holds, whatever windows are open. -/
def Ctx.rawM (c : Ctx) (r : BitVec 3) : MWord := c.m[r.toNat]'(r.isLt)

/-- The old value that an open window keeps for a register (R46). -/
def oldOf {α : Type} (sel : Window → List (Nat × α)) (n : Nat) (ws : List Window) : Option α :=
  ws.findSome? (fun w => ((sel w).find? (fun e => e.1 == n)).map (·.2))

/-- The value an instruction reads from a scalar register: x0 is zero (R11), a pending destination gives its old value
(R46, R50). -/
def Ctx.readX (c : Ctx) (r : Reg) : Word := if r = 0 then 0 else (oldOf (·.xs) r.toNat c.windows).getD (c.rawX r)

/-- The value an instruction reads from a vector register. -/
def Ctx.readV (c : Ctx) (r : BitVec 4) : VWord := (oldOf (·.vs) r.toNat c.windows).getD (c.rawV r)

/-- The value an instruction reads from a mask register: m0 is all ones (R11). -/
def Ctx.readM (c : Ctx) (r : BitVec 3) : MWord :=
  if r = 0 then BitVec.allOnes 1024 else (oldOf (·.ms) r.toNat c.windows).getD (c.rawM r)

/-- A write to a scalar register: x0 discards it; a window no longer keeps an old value for the register (R50). -/
def Ctx.writeX (c : Ctx) (r : Reg) (v : Word) : Ctx :=
  if r = 0 then c
  else { c with x := c.x.set r.toNat v r.isLt,
                windows := c.windows.map (fun w => { w with xs := w.xs.filter (fun e => e.1 != r.toNat) }) }

/-- A write to a vector register.  (DEDUCED, log entry 66.) -/
def Ctx.writeV (c : Ctx) (r : BitVec 4) (v : VWord) : Ctx :=
  { c with v := c.v.set r.toNat v r.isLt,
           windows := c.windows.map (fun w => { w with vs := w.vs.filter (fun e => e.1 != r.toNat) }) }

/-- A write to a mask register: m0 discards it.  (DEDUCED, log entry 66.) -/
def Ctx.writeM (c : Ctx) (r : BitVec 3) (v : MWord) : Ctx :=
  if r = 0 then c
  else { c with m := c.m.set r.toNat v r.isLt,
                windows := c.windows.map (fun w => { w with ms := w.ms.filter (fun e => e.1 != r.toNat) }) }

/-- Operand-extension register n. -/
def Ctx.readOx (c : Ctx) (n : BitVec 3) : Word := c.ox[n.toNat]'(n.isLt)

/-- Whether one of the registers written is a pending destination of an open window (R46). -/
def Ctx.hazard (c : Ctx) (d : Dests) : Bool :=
  c.windows.any (fun w =>
    d.xs.any (fun r => r != 0 && w.xs.any (fun e => e.1 == r.toNat)) ||
    d.vs.any (fun r => w.vs.any (fun e => e.1 == r.toNat)) ||
    d.ms.any (fun r => r != 0 && w.ms.any (fun e => e.1 == r.toNat)))

/-- Whether the window would keep more than two vector or two mask registers (R475). -/
def Ctx.overCapacity (c : Ctx) (d : Dests) : Bool :=
  decide (2 < (c.windows.map (fun w => w.vs.length)).sum + d.vs.dedup.length) ||
  decide (2 < (c.windows.map (fun w => w.ms.length)).sum + (d.ms.filter (· != 0)).dedup.length)

/-- The windows after one more instruction (R45). -/
def tickWindows (ws : List Window) : List Window :=
  (ws.map (fun w => { w with left := w.left - 1 })).filter (fun w => w.left != 0)

/-- The window that a long-latency instruction opens, with the values its destinations held before it (R45, R46).  (DEDUCED, log entry 19.) -/
def Ctx.capture (c : Ctx) (la : BitVec 4) (d : Dests) : List Window :=
  if la = 0 then []
  else [⟨la.toNat, (d.xs.filter (· != 0)).map (fun r => (r.toNat, c.rawX r)), d.vs.map (fun r => (r.toNat, c.rawV r)),
         (d.ms.filter (· != 0)).map (fun r => (r.toNat, c.rawM r))⟩]

/-- The traps nested on the context. -/
def Ctx.depth (c : Ctx) : Nat := c.kept.length

/-- An instruction has executed: the windows, late faults and pending instructions of the code it belongs to count it
(R45, R467, R470), and the pc moves on to next. -/
def Ctx.stepTo (c : Ctx) (next : Word) : Ctx :=
  { c with
    pc := next &&& ~~~1
    windows := tickWindows c.windows
    faults := c.faults.map (fun f => if f.depth = c.depth then { f with left := f.left - 1 } else f)
    pends := c.pends.map (fun p => if p.depth = c.depth then { p with left := p.left - 1 } else p)
    run := .running }

/-- An instruction of that length has executed. -/
def Ctx.retire (c : Ctx) (len : Nat) : Ctx := c.stepTo (c.pc + BitVec.ofNat 64 len)

/-- A long-latency instruction has executed: before is the context as it stood at issue, whose values the new window keeps
(R45, R47).  (DEDUCED, log entry 19.) -/
def Ctx.retireLong (c before : Ctx) (la : BitVec 4) (d : Dests) : Ctx :=
  let r := c.retire 4
  { r with windows := r.windows ++ before.capture la d }

/-- Every open window closes (R51). -/
def Ctx.closeWindows (c : Ctx) : Ctx := { c with windows := [] }

/-- The context waits, and tests its condition again at its turn (R193). -/
def Ctx.stall (c : Ctx) : Ctx := { c with run := .waiting .retry }

/-- Whether an instruction that waits is tried again at its context's turn. -/
def triedAgain (r : Run) : Bool := r == .waiting .retry || r == .waiting .keeping

/-- The context waits in PWAIT or CLAIMW, and tests its condition again at its turn (R193, R476). -/
def Ctx.stallKeeping (c : Ctx) : Ctx := { c with run := .waiting .keeping }

end Sys2Proof.Machine
end

