-- ==== Sys2Proof/Machine/Lines.lean ====
section
/-!
DEFINITION. What a core's level-1 cache does with the homes of its lines: write-backs (R300, R301), fills and evictions (R299, R335), loads
and stores (R104, R326, R327), releases, acquires and phase boundaries (R322, R323, R331, R332), and subscription batches (R340, R341).
-/

namespace Sys2Proof.Machine

/-- The record of a write-back whose data holds an uncorrectable error (R321, R469). -/
def writeBackRecord (o : Origin) (num : Nat) : Record := mkRecord 11 1 1 0 o.tag 0 0 (BitVec.ofNat 64 (32 * num)) 0 0 o.tid

/-- Remote stores counted, n of them. -/
def State.oweMany (s : State) (tid : Word) (n : Nat) : State := s.withTask tid (fun c => { c with unack := c.unack + n })

/-- Whether a line copy holds an uncorrectable error in bytes that its home has not been sent (R321). -/
def Line.unsentBad (l : Line) : Bool := (List.range 4).any (fun w => l.bad.getLsbD (w + 4) && field l.unsent (8 * w) 8 != 0)

/-- What a write-back sends: a remote store for each line, or, when its data holds an uncorrectable error, nothing but the records that go
to the context charged (R301, R321).  (DEDUCED, log entry 29.) -/
def State.sendBack (s : State) (q : HomeReq) (lines : List Line) : State :=
  let s1 := (s.ackRoom q.origin.tid q.count).oweMany q.origin.tid q.count
  if lines.any Line.unsentBad then
    lines.foldl (fun s l => s.send (.storeAck q.origin.tid q.origin.part (some (writeBackRecord q.origin l.num)) 43)) s1
  else s1.send (.homeRequest q)

/-- What the contexts of a core that a mask names have released so far. -/
def State.holders (s : State) (core : Nat) (held : BitVec 4) : List Before :=
  ((List.range 4).filter held.getLsbD).filterMap (fun k => (s.ctxAt (4 * core + k)).map Ctx.before)

/-- A line copy to be written back, with the other half of a 64-byte write that it holds unsent (R132), in order. -/
def withMate (lines : List Line) (l : Line) : List Line :=
  match (if l.pair then lines.find? (fun k => k.num / 2 == l.num / 2 && k.num != l.num && k.unsent != 0 && k.pair) else none) with
  | none => [l]
  | some k => if l.num ≤ k.num then [l, k] else [k, l]

/-- A line is written back to its home (R300, R301), with the other half of a 64-byte write (R132), and charged to the task that last stored
into it; its copies then record scope 3.  Releases of the tasks whose stores it carries, of those that hold it and of by_ order it (R331,
R334), and the loads of some tasks wait for it (R332).  (DEDUCED, log entry 30.) -/
def State.writeBack (s : State) (core num : Nat) (by_ : List Before) (loads : List Word) : State :=
  let lines := (tget s.cores core Core.reset).lines
  match lines.find? (fun l => l.num == num && l.dirty) with
  | none => s
  | some l =>
    match l.owner with
    | none => s
    | some o =>
      let all := withMate lines l
      let order := (all.flatMap (fun k => k.writers ++ s.holders core k.held) ++ by_).dedup
      let q : HomeReq := ⟨o, all.flatMap Line.unsentCells, false, all.length, order, loads⟩
      ((all.foldl (fun s k => s.mendLine core k.num 0 32) s).sendBack q all).withCore core (fun c =>
        { c with lines := c.lines.map (fun k =>
            if all.any (fun a => a.num == k.num) then { k with unsent := 0, writers := [], pair := false } else k) })

/-- Lines written back, one after another. -/
def State.writeBackAll (s : State) (core : Nat) (by_ : List Before) (loads : List Word) : List Nat → State
  | [] => s
  | n :: r => (s.writeBack core n by_ loads).writeBackAll core by_ loads r

/-- The numbers of a core's lines that record scope 0. -/
def State.dirtyLines (s : State) (core : Nat) : List Nat :=
  ((tget s.cores core Core.reset).lines.filter (·.dirty)).map (·.num) |>.dedup

/-- The last element that a test accepts, taken out of a list. -/
def takeLast {α : Type} (p : α → Bool) (l : List α) : Option (α × List α) :=
  match l with
  | [] => none
  | a :: r =>
    match takeLast p r with
    | some (b, r') => some (b, a :: r')
    | none => if p a then some (a, r) else none

/-- A context of a core loses its hold on a line: sys.phase.BRK rises by 1, saturating (R324, R335). -/
def Ctx.broken (c : Ctx) : Ctx := { c with brk := if c.brk = 65535 then 65535 else c.brk + 1 }

/-- Every context of a core that a mask names suffers a snapshot break. -/
def State.breakHolds (s : State) (core : Nat) (held : BitVec 4) : Nat → State
  | 0 => s
  | n + 1 => (if held.getLsbD n then s.withCtx (4 * core + n) Ctx.broken else s).breakHolds core held n

/-- Whether a copy lies in a set of the cache proper. -/
def Line.inSet (l : Line) (set : Nat) : Bool := l.num % 256 == set && !l.inBuffer

/-- Whether a fill of a set would push no held copy out of it (R335). -/
def Core.roomFor (c : Core) (set : Nat) : Bool :=
  decide ((c.lines.filter (·.inSet set)).length < 8) || c.lines.any (fun l => l.inSet set && l.held == 0)

/-- Room made in a core's set for one more line: the least recently used copy that none holds goes; else one moves to the
snapshot buffer, whose oldest entry is dropped when it is full (R335).  The list of lines is in order of use, the latest
first; entries of the buffer keep their order. -/
def State.makeRoom (s : State) (core set : Nat) : State :=
  let lines := (tget s.cores core Core.reset).lines
  if (lines.filter (·.inSet set)).length < 8 then s
  else
    match takeLast (fun l => l.inSet set && l.held == 0) lines with
    | some (l, _) =>
      (s.writeBack core l.num [] []).withCore core (fun c =>
        { c with lines := (takeLast (fun l => l.inSet set && l.held == 0) c.lines).elim c.lines (·.2) })
    | none =>
      let s1 :=
        if (lines.filter (·.inBuffer)).length < 32 then s
        else
          match takeLast (·.inBuffer) lines with
          | none => s
          | some (l, _) =>
            ((s.writeBack core l.num [] []).breakHolds core l.held 4).withCore core (fun c =>
              { c with lines := (takeLast (·.inBuffer) c.lines).elim c.lines (·.2) })
      s1.withCore core (fun c =>
        match takeLast (·.inSet set) c.lines with
        | none => c
        | some (l, r) => { c with lines := { l with inBuffer := true } :: r })

/-- The answer to a read. -/
inductive Read where
  | value (bytes : List Byte) (s : State)
  | fault (code pa : Nat)
  /-- The bank is being switched, a FIFO has no entry, or an acquire's write-backs are on their way (R304, R306, R332). -/
  | held
deriving Repr

/-- The copy of a line that serves a context: the one that it holds, else the latest used of those that are not closed to it (R327, R335). -/
def State.lineFor (s : State) (key num : Nat) : Option Line :=
  let mine := (tget s.cores (coreOf key) Core.reset).lines.filter (fun l => l.num == num && l.serves (key % 4))
  (mine.find? (fun l => l.held.getLsbD (key % 4))).orElse (fun _ => mine.head?)

/-- A context takes a copy into its snapshot (R335): the copy becomes the latest used. -/
def State.hold (s : State) (key num : Nat) : State :=
  match s.lineFor key num with
  | none => s
  | some l =>
    let l' := { l with held := l.held ||| BitVec.ofNat 4 (2 ^ (key % 4)) }
    s.withCore (coreOf key) (fun c =>
      { c with lines := if l.inBuffer then updateFirst (fun k => k == l) (fun _ => l') c.lines
                        else l' :: removeFirst (fun k => k == l) c.lines })

/-- n bytes of a line from byte j of its data. -/
def lineBytes (data : BitVec 256) (j n : Nat) : List Byte := bytesOf (data.toNat / 2 ^ (8 * j)) n

/-- The slice that serves an HBM address for a core of a partition (R307, R310). -/
def State.sliceFor (s : State) (core part : Nat) (leaf : Leaf) (pa : Nat) : Option Nat :=
  if leaf.ros then some (s.replicaOf (s.partition part) (core / 16)) else (s.partition part).homeOf (pa % 2 ^ 47)

/-- The words of a line that a fill finds with an uncorrectable error, as bits 7:4, but for those that the core's own stores, on their way,
replace (R321). -/
def State.fillBad (s : State) (core h num : Nat) : BitVec 8 :=
  let own := s.pendingCells core ++ s.unsentCells core
  let bad := fun (w : Nat) =>
    s.sliceBad h (32 * num + 8 * w) 8 && !((List.range 8).all (fun j => own.any (fun c => c.1 == 32 * num + 8 * w + j)))
  BitVec.ofNat 8 (((List.range 4).filter bad).map (fun w => 2 ^ (w + 4))).sum

/-- A line copy fetched into a core through a slice (R299, R320, R335), which holds unsent what other copies of its core hold unsent;
errors that the slice cannot correct come with it (R321). -/
def State.fillLine (s : State) (core h num : Nat) (ros : Bool) : State :=
  let data := BitVec.ofNat 256 (ofBytes (s.peekFrom core (32 * num) 32))
  let bad := s.fillBad core h num
  let fresh : Line := ⟨num, data, 0, none, [], 0, 0, ros, s.turn, false, false, bad⟩
  let copy := ((tget s.cores core Core.reset).lines.find? (fun l => l.num == num && l.dirty)).elim fresh
    (fun l => { fresh with unsent := l.unsent, owner := l.owner, writers := l.writers, pair := l.pair })
  ((s.readSlice h (32 * num) 32 ros).makeRoom core (num % 256)).withCore core (fun c =>
    { c with lines := copy :: c.lines })

/-- Whether a core's home slice, or a replicating slice, gives it the line of an address: granted (R315), and, for a line of another device
that the slice does not hold, answered in time (R310, R504). -/
def State.lineGranted (s : State) (core part : Nat) (leaf : Leaf) (pa : Nat) : Bool :=
  s.grantsHbm (s.sliceFor core part leaf pa) part 0 rightRead pa &&
    (deviceOf pa == s.dev.toNat || (s.sliceFor core part leaf pa).any (fun h => (s.wayOf h pa).isSome) || Config.farAnswers s.turn)

/-- A context fetches a line (R290, R307, R310), none when it is refused; of a block-formatted page the other line of the 64-byte block comes
with it, unless a copy serves the context (R132).  (DEDUCED, log entry 24.) -/
def State.fetchLine (s : State) (key part : Nat) (leaf : Leaf) (pa : Nat) : Option State :=
  let core := coreOf key
  match s.sliceFor core part leaf pa with
  | none => none
  | some h =>
    if !s.lineGranted core part leaf pa then none
    else
      let mate := Nat.xor (pa / 32) 1
      let s1 := if leaf.blk ∧ (s.lineFor key mate).isNone then s.fillLine core h mate leaf.ros else s
      some (s1.fillLine core h (pa / 32) leaf.ros)

/-- A load through the level-1 cache (R299, R326, R335): the copy that serves the context, or a fresh one; the context
then holds it. -/
def State.cachedRead (s : State) (key part : Nat) (tid : Word) (leaf : Leaf) (pa n : Nat) : Read :=
  let core := coreOf key
  let take := fun (s : State) =>
    match s.lineFor key (pa / 32) with
    | none => Read.fault 9 pa
    | some l =>
      if l.spoiled (pa % 32) n then .fault 11 pa
      else .value (lineBytes l.data (pa % 32) n) ((s.mendLine core (pa / 32) (pa % 32) n).hold key (pa / 32))
  if (s.lineFor key (pa / 32)).isSome then take s
  else
    match s.fetchLine key part leaf pa with
    | none => .fault 9 pa
    | some s1 =>
      take (s1.send (.loadReply tid 0 0 (s.levelOf core (s.sliceFor core part leaf pa) pa) (Config.hops s.turn) (Config.queueCycles s.turn)))

/-- A context gives up the copies of a line that serve it, and suffers a break for one that it holds (R335). -/
def State.giveUpLine (s : State) (key num : Nat) : State :=
  let bit := BitVec.ofNat 4 (2 ^ (key % 4))
  let held := (s.lineFor key num).any (fun l => l.held.getLsbD (key % 4))
  (if held then s.withCtx key Ctx.broken else s).withCore (coreOf key) (fun c =>
    { c with lines := c.lines.map (fun l =>
        if l.num = num then { l with held := l.held &&& ~~~bit, closed := l.closed ||| bit } else l) })

/-- Before a read of a 64-byte block a context gives up copies of its two lines that were not fetched or written as one, so that the block
read is of one write (R132; DESIGN CHOICE, log entry 72). -/
def State.alignBlock (s : State) (key pa : Nat) : State :=
  match s.lineFor key (pa / 32), s.lineFor key (pa / 32 + 1) with
  | none, none => s
  | some a, some b => if a.stamp = b.stamp then s else (s.giveUpLine key (pa / 32)).giveUpLine key (pa / 32 + 1)
  | _, _ => (s.giveUpLine key (pa / 32)).giveUpLine key (pa / 32 + 1)

/-- Bytes put into a line's data from byte j on. -/
def putLine (data : BitVec 256) (j : Nat) (bytes : List Byte) : BitVec 256 :=
  let n := bytes.length
  let low := data.toNat % 2 ^ (8 * j)
  let high := data.toNat / 2 ^ (8 * (j + n)) * 2 ^ (8 * (j + n))
  BitVec.ofNat 256 (low + ofBytes bytes * 2 ^ (8 * j) + high)

/-- The mask of n bytes from byte j. -/
def byteMask (j n : Nat) : BitVec 32 := BitVec.ofNat 32 ((2 ^ n - 1) * 2 ^ j)

/-- A line copy after a store into it (R300, R321): with WSC = 0 its bytes are not sent.  whole gives the stamp of a store that is half of one
64-byte write (R132). -/
def Line.stored (l : Line) (j : Nat) (bytes : List Byte) (o : Origin) (wsc : BitVec 2) (whole : Option Nat) : Line :=
  let mask := byteMask j bytes.length
  let unsent := if wsc = 0 then l.unsent ||| mask else l.unsent &&& ~~~mask
  let writers := if wsc = 0 ∧ !l.writers.any (fun b => b.tid == o.tid) then l.writers ++ [o.before] else l.writers
  { l.clearBad ((List.range 4).filter (fun w => decide (j ≤ 8 * w) && decide (8 * w + 8 ≤ j + bytes.length))) 17 with
    data := putLine l.data j bytes
    unsent := unsent
    owner := some { o with va := 0, pc := 0, word := 0 }
    writers := if unsent = 0 then [] else writers
    stamp := whole.getD l.stamp
    pair := whole.isSome && decide (wsc = 0) }

/-- A store writes every copy of its line in the core, which become the latest used (R299, R335). -/
def State.writeLine (s : State) (core num j : Nat) (bytes : List Byte) (o : Origin) (wsc : BitVec 2) (whole : Option Nat) : State :=
  s.withCore core (fun c =>
    let after := c.lines.map (fun l => if l.num = num then l.stored j bytes o wsc whole else l)
    let top := fun (l : Line) => l.num == num && !l.inBuffer
    { c with lines := after.filter top ++ after.filter (fun l => !top l) })

/-- A store writes one line of its core; the line is fetched first when the core holds no copy (R299). -/
def State.storeLine (s : State) (core : Nat) (o : Origin) (leaf : Leaf) (pa : Nat) (bytes : List Byte) (whole : Option Nat) : State :=
  let num := pa / 32
  let s1 :=
    if (tget s.cores core Core.reset).lines.any (fun l => l.num == num) then s
    else s.fillLine core ((s.sliceFor core o.part leaf pa).getD 0) num leaf.ros
  s1.writeLine core num (pa % 32) bytes o leaf.wsc whole

/-- A store of at most 64 bytes to writable HBM of the own device (R299, R300). -/
def State.cachedWrite (s : State) (core : Nat) (o : Origin) (leaf : Leaf) (pa : Nat) (bytes : List Byte) : State :=
  let n := 32 - pa % 32
  let whole := if bytes.length = 64 then some s.turn else none
  let s1 := s.storeLine core o leaf pa (bytes.take n) whole
  let s2 := if bytes.length ≤ n then s1 else s1.storeLine core o leaf (pa + n) (bytes.drop n) whole
  if leaf.wsc = 0 then s2 else s2.remoteStore o (cellsOf pa bytes)

/-- Whether a scope of a core contains another core of the device (R330). -/
def scopeHas (scope : BitVec 2) (core other : Nat) : Bool :=
  match scope.toNat with
  | 0 => core == other
  | 1 => core / 16 == other / 16
  | _ => true

/-- A store's bytes within a publisher's region join the batch of their task and line; the later store wins a byte (R340). -/
def batchStore (tid : Word) (batch : List (Word × List Cell)) (cells : List Cell) : List (Word × List Cell) :=
  match cells with
  | [] => batch
  | (a, b) :: r =>
    let line := fun (l : Word × List Cell) => l.1 == tid && l.2.any (fun c => c.1 / 32 == a / 32)
    let put := fun (l : Word × List Cell) =>
      (l.1, if l.2.any (fun c => c.1 == a) then l.2.map (fun c => if c.1 = a then (a, b) else c) else l.2 ++ [(a, b)])
    batchStore tid (if batch.any line then updateFirst line put batch else batch ++ [(tid, [(a, b)])]) r

/-- What a store by a publisher's core adds to its subscriptions (R340). -/
def State.publish (s : State) (core : Nat) (tid : Word) (cells : List Cell) : State :=
  { s with subs := s.subs.map (fun b =>
      if b.pubCore ≠ core ∨ b.end_ ≠ 0 then b
      else
        let mine := cells.filter (fun c => b.source ≤ c.1 % 2 ^ 48 && c.1 % 2 ^ 48 < b.source + b.size)
        { b with batch := batchStore tid b.batch (mine.map (fun c => (b.dest + (c.1 % 2 ^ 48 - b.source), c.2))) }) }

/-- Updates sent, each a remote store of its task (R340). -/
def State.sendUpdates (s : State) : List (Nat × Update) → State
  | [] => s
  | (n, u) :: r => (((s.ackRoom u.sent.tid 1).oweMany u.sent.tid 1).send (.subscriptionUpdate n u)).sendUpdates r

/-- An update on its way is covered when its subscription is one of some. -/
def coverUpdate (nums : List Nat) (after : Before) (i : Happening) : Happening :=
  match i with
  | .subscriptionUpdate n u => .subscriptionUpdate n (if nums.contains n then u.cover after else u)
  | i => i

/-- The part of a release that subscriptions see (R340, R341): a release of any scope closes the batches of its task and sends them, and one
whose scope contains the subscriber's core covers that task's updates. -/
def State.releaseSubs (s : State) (core : Nat) (sent after : Before) (scope : BitVec 2) : State :=
  let here := s.subs.filter (fun b => b.pubCore == core && b.end_ == 0)
  let covered := (here.filter (fun b => scopeHas scope core b.core)).map (·.num)
  let sends := here.flatMap (fun b => (b.batch.filter (fun l => l.1 == sent.tid)).map (fun l => (b.num, (⟨l.2, sent, none⟩ : Update))))
  let s1 := s.sendUpdates sends
  { s1 with
    inflight := s1.inflight.map (coverUpdate covered after)
    subs := s1.subs.map (fun b =>
      if b.pubCore ≠ core ∨ b.end_ ≠ 0 then b
      else
        { b with
          batch := b.batch.filter (fun l => l.1 != sent.tid)
          received := if covered.contains b.num then b.received.map (Update.cover after) else b.received }) }

/-- A task after a release at a scope. -/
def Ctx.released (c : Ctx) (scope : BitVec 2) : Ctx :=
  { c with epoch := (c.before.next scope).epoch, sysEpoch := (c.before.next scope).sysEpoch }

/-- What a release of a task at a scope sends (R331, R340). -/
def State.releaseOf (s : State) (c : Ctx) (scope : BitVec 2) : State :=
  let core := coreOf c.key
  (if scope = 0 then s else s.writeBackAll core [c.before] [] (s.dirtyLines core)).releaseSubs core c.before (c.before.next scope) scope

/-- A release at a scope by a context (R331): every line of its core that records scope 0 is written back when the scope is wider than core, and
what the task sends later waits until what it has stored before is acknowledged.  (DEDUCED, log entry 30.) -/
def State.release (s : State) (key : Nat) (scope : BitVec 2) : State :=
  match s.ctxAt key with
  | none => s
  | some c => (s.releaseOf c scope).withCtx key (fun c => c.released scope)

/-- What an acquire leaves of a core's lines (R332): a copy that another context holds is closed to the acquirer; one that
the acquirer keeps held stays; any other goes, but for lines of read-only-shared pages. -/
def acquireLines (k : Nat) (lines : List Line) : List Line :=
  lines.filterMap (fun l =>
    if l.ros then some l
    else if l.held.getLsbD k then some l
    else if l.held ≠ 0 then some { l with closed := l.closed ||| BitVec.ofNat 4 (2 ^ k) }
    else none)

/-- An acquire at a scope by a context (R332): the loads that follow wait for what is written back here. -/
def State.acquire (s : State) (key : Nat) (scope : BitVec 2) : State :=
  if scope = 0 then s
  else
    let core := coreOf key
    (s.writeBackAll core [] ((s.ctxAt key).toList.map (·.tid)) (s.dirtyLines core)).withCore core (fun c =>
      { c with lines := acquireLines (key % 4) c.lines })

/-- Whether the loads of a task wait for a write-back that its acquire has made (R332). -/
def State.loadsWait (s : State) (tid : Word) : Bool :=
  s.inflight.any (fun i => match i with | .homeRequest q => q.loads.contains tid | _ => false)

/-- A context's holds end (R327, R335).  A copy in the snapshot buffer that nobody holds any more serves nobody. -/
def State.dropHolds (s : State) (key : Nat) : State :=
  let free := fun (l : Line) => { l with held := l.held &&& ~~~(BitVec.ofNat 4 (2 ^ (key % 4))) }
  let core := coreOf key
  let gone := ((tget s.cores core Core.reset).lines.map free).filter (fun l => l.inBuffer && l.held == 0)
  (s.writeBackAll core [] [] (gone.map (·.num))).withCore core (fun c =>
    { c with lines := (c.lines.map free).filter (fun l => !(l.inBuffer && l.held == 0)) })

/-- A context starts a reaction or a forked task (R322, R323): what it held is held no longer, and the acquire follows. -/
def State.enterPhase (s : State) (key : Nat) (scope : BitVec 2) : State := (s.dropHolds key).acquire key scope

/-- Whether a context holds any line (R476). -/
def State.holdsAny (s : State) (key : Nat) : Bool :=
  (tget s.cores (coreOf key) Core.reset).lines.any (fun l => l.held.getLsbD (key % 4))

/-- Whether an acknowledged update is due (R341): a release that covers it has completed. -/
def State.isDue (s : State) (u : Update) : Bool := u.release.any (fun b => !s.unreleased b)

/-- The due updates of a task's subscriptions are applied to its region (R323, R341). -/
def State.applyDue (s : State) (tid : Word) : State :=
  let mine := s.subs.filter (fun b => b.tid == tid)
  let cells := mine.flatMap (fun b => (b.received.filter s.isDue).flatMap (·.cells))
  let s1 := if cells.isEmpty then s else s.accept cells
  { s1 with
    subs := s1.subs.map (fun b =>
      if b.tid = tid then
        { b with received := b.received.filter (fun u => !s.isDue u), applied := b.applied + (b.received.filter s.isDue).length }
      else b) }

/-- The end of the running thread's phase, the updates that are due, and the acquire of the next (R323). -/
def State.nextPhase (s : State) (acq : Option (BitVec 2)) : State :=
  let key := s.cx.key
  let s1 := (s.dropHolds key).applyDue s.cx.tid
  acq.elim s1 (s1.acquire key)

/-- A phase boundary of the running thread (R323): its release, the end of the phase, the updates due, its acquire. -/
def State.boundary (s : State) (rel acq : Option (BitVec 2)) : State :=
  ((rel.elim s (s.release s.cx.key)).withCx (fun c => { c with pcnt := c.pcnt + 1 })).nextPhase acq

end Sys2Proof.Machine
end

