-- ==== Sys2Proof/Machine/Finish.lean ====
section
/-!
DEFINITION. What the end of a task does (R214, R361, R365, R392, R408, R469): its registrations, subscriptions, bindings,
claims on slots and tiles, chain positions and records end, its reaction or its parent learns of it, and its context
becomes free.
-/

namespace Sys2Proof.Machine

/-- Whether a matrix command names a slot (0 to 63) or a tile (64, 65) (R425 to R432). -/
def commandNames (c : Cmd) (n : Nat) : Bool :=
  let b := fun i => rfield c.record i 1
  let range := fun (lo len : Nat) => decide (lo ≤ n) && decide (n < lo + len) && decide (n < 64)
  match b 0 with
  | 0 => n == b 24
  | 1 => range (b 16) (b 20) || range (b 17) (b 20) || n == 64 + b 18
  | 2 => range (b 16) (b 18) || range (b 17) (2 * b 18) || decide (64 ≤ n)
  | 3 => decide (64 ≤ n) && (b 16 == 2 || n == 64 + b 16)
  | 4 => decide (64 ≤ n) && (b 16).testBit (n - 64)
  | 5 => n == 64 + b 16
  | _ => false

/-- A command not yet completed or aborted: queued, running, faulted or stopped (R447). -/
def Cmd.outstanding (c : Cmd) : Bool := c.state == 1 || c.state == 2 || c.state == 4 || c.state == 6

/-- The owner of a slot (0 to 63) or tile (64, 65) of a cluster (R395). -/
def Cluster.ownerOf (c : Cluster) (n : Nat) : Word :=
  if n < 64 then tget c.slotOwner n 0 else tget c.tileOwner (n - 64) 0

/-- A slot or tile becomes free (R392). -/
def Cluster.freeUnit (c : Cluster) (n : Nat) : Cluster :=
  { c with
    slotOwner := c.slotOwner.filter (fun e => e.1 != n)
    tileOwner := c.tileOwner.filter (fun e => e.1 + 64 != n)
    leaving := c.leaving.filter (· != n) }

/-- The slots and tiles given up return to the free pool once no command of their task names them (R392). -/
def State.returnUnits (s : State) (cluster : Nat) : State :=
  let c := s.cluster cluster
  let free := c.leaving.filter (fun n =>
    !s.cmds.any (fun k => k.cluster == cluster && k.tid == c.ownerOf n && k.outstanding && k.engine == 0 && commandNames k n))
  s.withCluster cluster (fun c => free.foldl Cluster.freeUnit c)

/-- The binding of a quad ends at every member, and the joint commands of its members cannot go on (R403, R432). -/
def State.endQuad (s : State) (cluster : Nat) : State :=
  let ms := cluster :: (s.cluster cluster).quad.flatMap (·.members)
  let s1 := ms.foldl (fun s m => s.withCluster m (fun c => { c with quad := [] })) s
  { s1 with cmds := s1.cmds.map (fun k =>
      if ms.contains k.cluster && k.engine == 0 && rfield k.record 0 1 == 2 && (k.state == 1 || k.state == 2) then
        { k with broken := true } else k) }

/-- Every slot and tile that a task holds in a cluster is given up, and its quad binding ends. -/
def State.giveUpAll (s : State) (cluster : Nat) (tid : Word) : State :=
  let s1 := s.withCluster cluster (fun c =>
    { c with leaving := (c.leaving ++ ((List.range 66).filter (fun n => c.ownerOf n == tid))).dedup })
  (if (s1.cluster cluster).quad.any (fun q => q.tid == tid) then s1.endQuad cluster else s1).returnUnits cluster

/-- The number of a chain: of a partition, on a die, by its name (R454). -/
def chainKey (part die c : Nat) : Nat := 64 * part + 16 * die + c

/-- The chain a scan command names (R434), if any. -/
def commandChain (k : Cmd) : Option Nat :=
  let c := rfield k.record 17 1
  if k.engine = 1 ∧ c ≠ 255 then some (chainKey k.part (dieOf k.cluster) c) else none

/-- A task's position on a chain, by chain. -/
def State.positionOn (s : State) (chain : Nat) (tid : Word) : Option Nat :=
  match s.chains.find? (fun e => e.1 == chain) with
  | none => none
  | some e => (e.2.taken.find? (fun t => t.2.1 == tid)).map (·.1)

/-- A position of a chain falls vacant: the commands of the chain that wait for a carry toward it or from it fault (R408): its own, the
next position's that wait for their carry-in, and those of the one before that hold their carry-in and wait to send.  An SC.SEED waits
for no carry.  A chain whose last position leaves is free (R454). -/
def State.leaveChain (s : State) (chain : Nat) (tid : Word) : State :=
  match s.positionOn chain tid with
  | none => s
  | some p =>
    let carried := fun (q : Nat) => s.chains.any (fun e => e.1 == chain && e.2.carries.any (fun c => c.1 == q))
    let near : Cmd → Bool := fun k =>
      match s.positionOn chain k.tid with
      | some q => q == p || (q == p + 1 && k.carryIn.isNone && !carried q) || (q + 1 == p && k.carryIn.isSome && (decide (k.pidx ≤ rfield k.record 20 4) || !carried p))
      | none => false
    { s with
      chains := (s.chains.map (fun e =>
        if e.1 = chain then
          (e.1, { e.2 with taken := e.2.taken.filter (fun t => t.2.1 != tid), joining := e.2.joining.filter (fun j => j.1 != tid),
                           carries := e.2.carries.filter (fun c => c.1 != p) })
        else e)).filter (fun e => e.1 != chain || !e.2.taken.isEmpty)
      cmds := s.cmds.map (fun k =>
        if commandChain k == some chain && rfield k.record 0 1 != 0x42 && k.waiting && near k then { k with broken := true } else k) }

/-- A task gives up its positions on every chain (R454). -/
def State.leaveChains (s : State) (tid : Word) : List Nat → State
  | [] => s
  | c :: r => (s.leaveChain c tid).leaveChains tid r

/-- A CADD that the device makes for a task on a location, after what that task's releases hold before it (R247, R331, R361). -/
def State.addFor (s : State) (c : Ctx) (pa : Nat) (amount : Word) (tid : Word) : State :=
  ((s.drainSent c pa).atomicAt c.part .cadd pa amount tid).2.2

/-- The owed amounts of a task that ends by REND or EXIT are added to their counters (R361), on the own device or another; an add
that is refused leaves a record in the fault queue. -/
def State.depart (s : State) (c : Ctx) : List Registration → State
  | [] => s
  | r :: rs =>
    let pa := s.keyAddr r.pa
    let s1 :=
      if s.atomicGrants c.part 0 pa ∧ s.atomicAccepts (coreOf c.key) c.part r.scope pa ∧ (deviceOf pa = s.dev.toNat ∨ Config.farAnswers s.turn) then
        s.addFor c pa (BitVec.ofNat 64 r.owed) 0
      else s.faultQueue c.part (originRecord (s.originOf c r.va 0) 9 1 1 pa)
    (s1.endRegistration r.pa c.tid).depart c rs

/-- The completion CADD of a launch packet, at system scope, checked as the front end's (R243, R247): a release at system scope for the
context that held the reaction's root. -/
def State.completionAdd (s : State) (c : Ctx) : State :=
  if c.ctr = 0 then s
  else
    let refused := fun (s : State) (pa : Nat) => s.faultQueue c.part (originRecord (s.originOf c c.ctr 0) 9 1 1 pa)
    let s1 := s.releaseOf c 3
    match s1.leafAt (coreOf c.key) c.part c.ctr.toNat with
    | none => refused s1 0
    | some l =>
      let pa := l.addr c.ctr.toNat
      if pa % 8 = 0 ∧ s1.agentRefuses (coreOf c.key) c.part 5 3 l pa 8 = 0 ∧ (deviceOf pa = s1.dev.toNat ∨ Config.farAnswers s1.turn) then
        s1.addFor (c.released 3) pa 1 0
      else refused s1 pa

/-- One more packet of a queue has completed: DONE rises, and a disabled queue with no packet left becomes state 0 (R239, R246). -/
def Queue.completeOne (q : Queue) : Queue :=
  { q with done := q.done + 1, state := if !q.enable ∧ q.done + 1 = q.cons then 0 else q.state }

/-- A launch packet's reaction has ended: DONE rises, a backfill that overran is counted, and a disabled queue with no
packet left becomes state 0 (R239, R246, R247, R258). -/
def State.packetDone (s : State) (c : Ctx) : State :=
  match c.packet with
  | none => s
  | some _ =>
    let overrun := c.backfill ∧ s.clock > c.startedAt + c.runMax
    (s.completionAdd c).withQueue c.queue (fun q =>
      { q.completeOne with ovr := if overrun ∧ q.ovr ≠ 255 then q.ovr + 1 else q.ovr })

/-- A reaction ends: its actor is free, keeps the tag of a normal reaction that ended, and takes the bound that the
reaction declared (R207, R214, R289, R354). -/
def State.reactionDone (s : State) (c : Ctx) : State :=
  (s.markSafe.withActor c.part c.actor (fun a =>
    { a with
      running := false
      ended := if c.late then a.ended else some c.tag.time
      bound := if a.nextBound = none then a.bound else a.nextBound
      nextBound := none
      reactionFloor := 0
      seqs := [] })).packetDone c

/-- A child ends: its parent may join it, with the scope of its EXIT (R266). -/
def State.childDone (s : State) (c : Ctx) (scope : BitVec 2) : State :=
  s.withTask c.parent (fun p => { p with children := p.children - 1, joinable := p.joinable ++ [scope] })

/-- The context of a key is idle (R38); a task that waited beneath a child in JOIN has it back (R219). -/
def State.freeContext (s : State) (key part : Nat) : State :=
  let idle := { Ctx.idle key with part := part }
  match s.beneath.find? (fun c => c.key == key) with
  | some c =>
    { s with
      cx := if s.cx.key = key then c else s.cx
      others := s.others.map (fun o => if o.key = key then c else o)
      beneath := removeFirst (fun c => c.key == key) s.beneath }
  | none =>
    { s with
      cx := if s.cx.key = key then idle else s.cx
      others := s.others.filter (fun o => o.key != key) }

/-- The endpoint bindings of a task end, and their directories know it (R229, R288). -/
def State.unbindAll (s : State) (c : Ctx) : State :=
  let mine := s.endpoints.filter (fun e => e.tid == c.tid)
  { mine.foldl (fun s e => s.tellDirectory e.part 1 e.name c.tid 0) s with endpoints := s.endpoints.filter (fun e => e.tid != c.tid) }

/-- What ends with a task, whatever ended it. -/
def State.cleanup (s : State) (c : Ctx) : State :=
  let s0 := s.faultQueueAll c.part (c.records.map (·.record))
  let s1 := ((s0.registrations.filter (fun r => r.tid == c.tid)).foldl (fun s r => s.endRegistration r.pa c.tid) s0).unbindAll c
  let s2 := { s1 with
    subs := s1.subs.filter (fun b => b.tid != c.tid)
    programs := s1.programs.filter (fun p => p.tid != c.tid || !p.ended)
    savedScans := s1.savedScans.filter (fun v => v.tid != c.tid) }
  (s2.leaveChains c.tid (s2.chains.map (·.1))).giveUpAll (clusterOf c.key) c.tid

/-- The areas of switched-out tasks that end return to the pool. -/
def State.dropReady (s : State) (tid : Word) : State :=
  match s.ready.find? (fun r => r.2.2.tid == tid) with
  | none => s
  | some r =>
    { s with ready := s.ready.filter (fun r => r.2.2.tid != tid) }.withPart r.2.2.part
      (fun p => { p with saUsed := p.saUsed.filter (· != r.2.1) })

/-- The members of a follow group that are not the leader: their contexts' keys (R223). -/
def State.followers (s : State) (leader : Ctx) : List Nat :=
  ((s.cx :: s.others).filter (fun c =>
    clusterOf c.key == clusterOf leader.key && c.role == 2 && c.leader.toNat == coreOf leader.key % 16 &&
      c.part == leader.part && c.actor == leader.actor)).map (·.key)

/-- A context that leaves its group: ROLE and MEMBERS read 0, LEADER keeps its value, of which the manual says nothing (R224; DESIGN
CHOICE, log entry 70). -/
def Ctx.ungrouped (c : Ctx) : Ctx := { c with role := 0, members := 0, forwarded := none }

/-- Every follower leaves the group of a leader, and fetches for itself (R227). -/
def State.disband (s : State) (leader : Ctx) : State :=
  ((s.followers leader).foldl (fun s k => s.withCtx k Ctx.ungrouped) s).withCtx leader.key Ctx.ungrouped

/-- A member leaves its follow group; a group with no followers left ends (R227, R228). -/
def State.leaveGroup (s : State) (c : Ctx) : State :=
  if c.role = 1 then s.disband c
  else if c.role = 2 then
    let bit := BitVec.ofNat 16 (2 ^ (coreOf c.key % 16))
    let drop : Ctx → Ctx := fun d =>
      if d.role ≠ 0 ∧ clusterOf d.key = clusterOf c.key ∧ d.leader = c.leader ∧ d.actor = c.actor then
        { d with members := d.members &&& ~~~bit } else d
    let s1 := { s with cx := drop s.cx, others := s.others.map drop }
    let s2 := s1.withCtx c.key Ctx.ungrouped
    let lead : Ctx → Ctx := fun d =>
      if d.role = 1 ∧ clusterOf d.key = clusterOf c.key ∧ d.actor = c.actor ∧ (s2.followers d).isEmpty then d.ungrouped else d
    { s2 with cx := lead s2.cx, others := s2.others.map lead }
  else s

/-- Followers that wait at a LEAD which ends are released with status 3 (R272, R273). -/
def State.releaseFollowers (s : State) : List Nat → State
  | [] => s
  | k :: ks =>
    (s.withCtx k (fun c =>
      match c.run with
      | .waiting (.follow _ _ d true) => (c.writeX d 3).retire 4
      | _ => c)).releaseFollowers ks

/-- A LEAD no longer counts a follower. -/
def Ctx.unseat (c : Ctx) (follower : Nat) : Ctx :=
  match c.run with
  | .waiting (.lead n limit d joined) => { c with run := .waiting (.lead n limit d (joined.filter (· != follower))) }
  | _ => c

/-- A member leaves its group, and a LEAD or FOLLOW in progress is given up, to be executed again (R227, R273): a LEAD releases the
followers that have joined, and one that a FOLLOW has joined no longer counts it. -/
def State.leaveFollow (s : State) (c : Ctx) : State :=
  match c.run with
  | .waiting (.lead _ _ _ joined) => (s.releaseFollowers joined).withCtx c.key (fun c => { c with run := .running })
  | .waiting (.follow _ _ _ _) =>
    { s with cx := s.cx.unseat c.key, others := s.others.map (fun (d : Ctx) => d.unseat c.key) }.withCtx c.key (fun c => { c with run := .running })
  | _ => s.leaveGroup c

/-- A task ends (R214): it leaves its follow group (R228), its hold on its snapshot ends (R322), and raises that rested on its waits fall (R253).  scope is that of its release, for the JOIN that joins it. -/
def State.finish (s : State) (c : Ctx) (scope : BitVec 2) : State :=
  let s1 := (s.leaveFollow c).cleanup c
  let s2 := if c.root then s1.reactionDone c else s1.childDone c scope
  (if s2.ready.any (fun r => r.2.2.tid == c.tid) then s2.dropReady c.tid
   else if s2.beneath.any (fun b => b.tid == c.tid) then { s2 with beneath := s2.beneath.filter (fun b => b.tid != c.tid) }
   else (s2.dropHolds c.key).freeContext c.key c.part).lowerAll

/-- A task is ended by a fault that cannot be delivered (R464, R466): the record goes to the partition's fault queue. -/
def State.kill (s : State) (c : Ctx) (r : Record) : State := (s.faultQueue c.part r).finish c 0

end Sys2Proof.Machine
end

