-- ==== Sys2Proof/Machine/Ops.lean ====
section
/-!
DEFINITION. The named operations over registers and memory: windows (R44 to R51, R475), the dispatch ring (R471), data
accesses of a thread (R290, R99 to R105), fault records (R469), taking a trap (R466) and returning from one (R468).
-/

namespace Sys2Proof.Machine

/-- The running context waits. -/
def State.stall (s : State) : State := s.withCx Ctx.stall

/-- The running context waits in PWAIT or CLAIMW. -/
def State.stallKeeping (s : State) : State := s.withCx Ctx.stallKeeping

/-- The vector entry of a cause (R465). -/
def trapGroup (code : Nat) (late : Bool) : Nat :=
  if code = 13 then 3 else if code = 14 ∨ code = 15 then 2 else if late then 1 else 0

/-- The handler's address (R466). -/
def Partition.vector (p : Partition) (group : Nat) : Word := BitVec.ofNat 64 (p.evec.toNat * 64 + 0x40 * group)

/-- What a trap does to the context (R466): the open windows are kept for ERET (R49). -/
def Ctx.enterTrap (c : Ctx) (vector : Word) (code sub : Nat) (late rpl : Bool) (resume : Word) (seq pidx : BitVec 32)
    (frec : Word) : Ctx :=
  { c with
    cause := ⟨late, rpl, c.pl, BitVec.ofNat 16 sub, BitVec.ofNat 8 code⟩
    pl := 1
    epc := BitVec.ofNat 63 (resume.toNat / 2)
    eseq := seq
    pidx := pidx
    frec := frec
    windows := []
    kept := c.windows :: c.kept
    pc := vector
    run := .running }

/-- The virtual address of record slot i of a context (R464, R469). -/
def State.slotAddr (s : State) (c : Ctx) (i : Nat) : Word :=
  let p := s.partition c.part
  BitVec.ofNat 64 (p.frbase.toNat * 256 + 256 * (4 * p.logicalCore (coreOf c.key) + c.key % 4) + 64 * i)

/-- The lowest free slot of a context (R469). -/
def Ctx.freeSlot (c : Ctx) : Option Nat := (List.range 4).find? (fun i => !c.slots.getLsbD i)

/-- A write that the device makes through a partition's translation, at level 1 (R464): none when it fails.  The copies of
the line in the core it is made for are written too.  (DEDUCED, log entry 28.) -/
def State.deviceWrite (s : State) (core part : Nat) (va : Nat) (bytes : List Byte) : Option State :=
  match s.translate core part 1 va true with
  | .fault _ _ => none
  | .ok _ pa =>
    match s.placeOf pa with
    | .hbm dev off =>
      if dev = s.dev.toNat ∧ s.grantsHbm ((s.partition part).homeOf off) part 0 rightWrite pa then
        some ((s.acceptHome part pa (cellsOf pa bytes)).withCore core (fun c =>
          { c with lines := c.lines.map (fun l =>
              { l with data := ofLanes 8 ((List.range 32).map (fun j =>
                  (lastCell (cellsOf pa bytes) (32 * l.num + j) (BitVec.ofNat 8 (lane l.data.toNat 8 j))).toNat)) }) }))
      else none
    | _ => none

/-- A record written into a slot of a context. -/
def State.writeSlot (s : State) (c : Ctx) (i : Nat) (r : Record) : Option State :=
  (s.deviceWrite (coreOf c.key) c.part (s.slotAddr c i).toNat (recordBytes r)).map (fun s1 =>
    s1.withCtx c.key (fun d => { d with slots := d.slots ||| BitVec.ofNat 4 (2 ^ i) }))

/-- The running context takes a trap (R466).  With no vector base the task is ended instead, with a record of the cause in
the fault queue; a record that finds no free slot goes there too (R469). -/
def State.trap (s : State) (code sub : Nat) (late rpl : Bool) (resume : Word) (seq pidx : BitVec 32)
    (record : Option Record) : State :=
  let c := s.cx
  let fallback := mkRecord code sub (if late then 1 else 0) pidx c.tag seq 0 0 c.pc 0 c.tid
  if s.part.evec = 0 then s.kill c (record.getD fallback)
  else
    let enter := fun (s : State) (frec : Word) =>
      (s.leaveGroup s.cx).withCx (fun c =>
        c.enterTrap (s.part.vector (trapGroup code late)) code sub late rpl resume seq pidx frec)
    match record with
    | none => enter s 0
    | some r =>
      match c.freeSlot with
      | none => enter (s.faultQueue c.part r) 0
      | some i =>
        match s.writeSlot c i r with
        | none => s.kill c r
        | some s1 => enter (s1.withCx (fun c => { c with records := c.records ++ [⟨0, sub, r, some i, false⟩] })) (s.slotAddr c i)

/-- The late faults of the running code whose point this is: those whose windows have closed; before an instruction of R51, all
(R467). -/
def Ctx.faultsDue (c : Ctx) (closing : Bool) : List LateFault :=
  c.faults.filter (fun f => f.depth == c.depth && (closing || f.left == 0))

/-- The first of them in sequence order (R467). -/
def Ctx.firstFault (c : Ctx) (closing : Bool) : Option LateFault :=
  best (fun a b => decide ((c.nextSeq - b.seq).toNat < (c.nextSeq - a.seq).toNat)) (c.faultsDue closing)

/-- The first record fault that is due: written, not yet taken, at level 0 (R467, R469, R470). -/
def Ctx.firstRecord (c : Ctx) : Option HeldRecord :=
  if c.pl = 0 then c.records.find? (fun h => h.slot.isSome && h.code != 0) else none

/-- A late fault is taken (R466, R467); of the debug causes a watchpoint is late (DEDUCED, log entry 60). -/
def State.takeFault (s : State) (f : LateFault) : State :=
  let s1 := s.withCx (fun c => { c with faults := removeFirst (fun g => g == f) c.faults })
  s1.trap f.code f.sub (f.code != 15 || f.sub == 2) f.rpl s1.cx.pc f.seq f.pidx f.record

/-- A record fault is taken: its record stands in a slot already (R467, R469). -/
def State.takeRecord (s : State) (h : HeldRecord) : State :=
  if s.part.evec = 0 then s.finish s.cx 0
  else
    let frec := s.slotAddr s.cx (h.slot.getD 0)
    ((s.leaveGroup s.cx).withCx (fun c =>
      { c with records := updateFirst (fun r => r == h) (fun r => { r with code := 0 }) c.records })).withCx
      (fun c => c.enterTrap (s.part.vector (trapGroup h.code true)) h.code h.sub true false c.pc 0 0 frec)

/-- The asynchronous trap that is due before the running context's next instruction, if any: ring faults first, then records (R467).  (DEDUCED, log entry 60.) -/
def State.asyncTrap (s : State) (closing : Bool) : Option State :=
  match s.cx.firstFault closing with
  | some f => some (s.takeFault f)
  | none => s.cx.firstRecord.map s.takeRecord

/-- A precise trap at the instruction, without a record (R465). -/
def State.precise (s : State) (code sub : Nat) : State := s.trap code sub false false s.cx.pc 0 0 none

/-- A precise data fault at the instruction, with its record (R101, R465, R469); sys.cause.LATE stays 0 (DEDUCED, log entry 60). -/
def State.preciseData (s : State) (code sub : Nat) (va : Word) (pa : Nat) (word : BitVec 32) : State :=
  s.trap code sub false false s.cx.pc 0 0
    (some (mkRecord code sub 0 0 s.cx.tag 0 va (BitVec.ofNat 64 pa) s.cx.pc word s.cx.tid))

/-- The instruction's checks against open windows, before its own effect (R46, R475).  (DEDUCED, log entry 26.) -/
def State.gate (s : State) (la : BitVec 4) (d : Dests) (effect : State) : State :=
  if s.cx.hazard d ∧ !s.cx.lao then s.precise 4 0
  else if la ≠ 0 ∧ s.cx.overCapacity d then s.precise 5 0
  else effect

/-- A scalar instruction that writes one register and moves on (R86). -/
def State.scalar (s : State) (d : Reg) (v : Word) (len : Nat) : State :=
  s.gate 0 ⟨[d], [], []⟩ (s.withCx (fun c => (c.writeX d v).retire len))

/-- A long-latency instruction that writes one scalar register (R45). -/
def State.scalarLong (s : State) (la : BitVec 4) (d : Reg) (v : Word) : State :=
  s.gate la ⟨[d], [], []⟩ (s.withCx (fun c => (c.writeX d v).retireLong s.cx la ⟨[d], [], []⟩))

/-- The sequence number after another (R471). -/
def seqNext (q : BitVec 32) : BitVec 32 := if q = BitVec.allOnes 32 then 1 else q + 1

/-- Ring entries not yet completed (R472). -/
def Ctx.ringOut (c : Ctx) : Nat :=
  (c.ring.filter (fun e => e.state == 1 || e.state == 2 || e.state == 4 || e.state == 6)).length

/-- Whether the entry that the next one takes the place of is not yet completed, as when 64 are not: no entry is reused before it completes
(R471).  (DEDUCED, log entry 83.) -/
def Ctx.ringFull (c : Ctx) : Bool :=
  decide (64 ≤ c.ringOut) ||
    (c.ring.length == 64 && c.ring.head?.any (fun e => e.state == 1 || e.state == 2 || e.state == 4 || e.state == 6))

/-- A new ring entry, which takes the place of the one 64 earlier (R471). -/
def Ctx.ringTake (c : Ctx) (pc : Word) (word : BitVec 32) (pidx : BitVec 32) (state : Nat) (addr : Word) (cmd : Option Nat) :
    Ctx :=
  { c with
    ring := (c.ring ++ [(⟨c.nextSeq, pc, word, pidx, state, 0, addr, cmd⟩ : RingEntry)]).drop (c.ring.length - 63)
    nextSeq := seqNext c.nextSeq }

/-- A ring entry changed. -/
def Ctx.ringSet (c : Ctx) (seq : BitVec 32) (f : RingEntry → RingEntry) : Ctx :=
  { c with ring := c.ring.map (fun e => if e.seq = seq then f e else e) }

/-- The windows and ring checks of a vector, extension or EPUSH instruction (R46, R471, R475). -/
def State.ringGate (s : State) (la : BitVec 4) (d : Dests) (effect : State) : State :=
  s.gate la d (if s.cx.ringFull then s.stall else effect)

/-- The first record of the running task that waits for a slot is written, when a slot is free (R469): a refused remote
store then leaves sys.unack. -/
def State.settleOne (s : State) : State :=
  let c := s.cx
  match c.records.find? (fun h => h.slot == none), c.freeSlot with
  | some h, some i =>
    match s.writeSlot c i h.record with
    | none => s.kill { c with records := removeFirst (fun h => h.slot == none) c.records } h.record
    | some s1 =>
      s1.withCx (fun d =>
        { d with
          records := updateFirst (fun h => h.slot == none) (fun h => { h with slot := some i }) d.records
          unack := if h.unack then d.unack - 1 else d.unack })
  | _, _ => s

/-- Records settled while slots are free. -/
def State.settle (s : State) : Nat → State
  | 0 => s
  | n + 1 => (s.settleOne).settle n

/-- What a data access touches in the watched mode (R489, R490). -/
def Ctx.watches (c : Ctx) (va n : Nat) (store : Bool) : Bool :=
  let mode := field c.wpa 0 2
  (if store then mode == 1 || mode == 3 else mode == 2 || mode == 3) &&
    decide (va / 8 ≤ field c.wpa 3 61) && decide (field c.wpa 3 61 ≤ (va + n - 1) / 8)

/-- A scalar access that touches the watched granule (R490). -/
def State.watch (s : State) (va n : Nat) (store : Bool) : State :=
  if s.cx.pl = 0 ∧ s.cx.watches va n store then s.withCx (fun c => { c with watchHit := true }) else s

/-- A load of another device's memory, or of its window, which its home serves when the other device answers in time (R290, R504). -/
def State.farRead (s : State) (pa n : Nat) : Read :=
  if !s.grantsFabric s.cx.part 0 rightRead pa then .fault 9 pa
  else if Config.farAnswers s.turn then
    let s1 := s.drainHome (coreOf s.cx.key) pa
    .value (s1.farPeek pa n) ((s1.emit (.read (deviceOf pa) pa n)).send (.loadReply s.cx.tid 0 0 42 (Config.hops s.turn) (Config.queueCycles s.turn)))
  else .fault 9 pa

/-- A load from a scratchpad bank (R290, R329). -/
def State.bankRead (s : State) (g pa n : Nat) : Read :=
  let core := coreOf s.cx.key
  if !s.grantsWindow (g / 32) s.cx.part 0 rightRead then .fault 9 pa
  else
    let s1 := s.drainHome core pa
    if s1.uncorrectable pa n then .fault 11 pa
    else
      .value (s1.peek pa n)
        ((s1.scrub pa n).send (.loadReply s.cx.tid 0 0 (bankLevel core g) (Config.hops s.turn) (Config.queueCycles s.turn)))

/-- A data read of the running thread at a level (R99, R290, R315, R329, R332).  FIFOs are read by LD alone (R304). -/
def State.dataRead (s : State) (va n : Nat) (level : BitVec 2) : Read :=
  let core := coreOf s.cx.key
  match s.translate core s.cx.part level va false with
  | .fault code pa => .fault code pa
  | .ok leaf pa =>
    let s1 := s.tlbFill core s.cx.part va leaf
    if s.placeBusy pa || s.loadsWait s.cx.tid then .held
    else
      match s.placeOf pa with
      | .hbm dev _ =>
        if leaf.ros ∨ dev = s.dev.toNat then s1.cachedRead s.cx.key s.cx.part s.cx.tid leaf pa n else s1.farRead pa n
      | .scratchpad g _ => s1.bankRead g pa n
      | .tags core' =>
        if core' = core ∧ s.grantsWindow (core / 16) s.cx.part 0 rightRead then
          .value (((bytesOf s.core.ctags.toNat 8).drop (pa % 8)).take n) s1
        else .fault 9 pa
      | .farWindow _ => s1.farRead pa n
      | _ => .fault 9 pa

/-- The answer to a store. -/
inductive Wrote where
  | done (s : State)
  | fault (code pa : Nat)
  | held
deriving Repr

/-- Whether a store to a place leaves the core for a home (R300, R301). -/
def State.leavesCore (s : State) (leaf : Leaf) (pa : Nat) : Bool :=
  match s.placeOf pa with
  | .hbm dev _ => dev != s.dev.toNat || leaf.wsc != 0
  | .scratchpad g _ => !(g / 32 == coreOf s.cx.key / 16 && bankOwner (s.bank g) == coreOf s.cx.key % 16)
  | _ => true

/-- A translated and checked store of the running thread takes effect (R100, R104, R300, R301). -/
def State.putData (s : State) (leaf : Leaf) (pa : Nat) (bytes : List Byte) (va : Word) (word : BitVec 32) : State :=
  let core := coreOf s.cx.key
  let o := s.originOf s.cx va word
  let cells := cellsOf pa bytes
  match s.placeOf pa with
  | .hbm dev _ => if dev ≠ s.dev.toNat then s.remoteStore o cells else s.cachedWrite core o leaf pa bytes
  | .scratchpad g _ =>
    if s.leavesCore leaf pa then s.remoteStore o cells
    else if s.grantsWindow (g / 32) s.cx.part 0 rightWrite then (s.accept cells).publish core s.cx.tid cells
    else (s.owe s.cx.tid).send (.storeAck s.cx.tid s.cx.part (some (originRecord o 9 1 1 pa)) (bankLevel core g))
  | _ => s.remoteStore o cells

/-- Whether an address lies in a bank of the running core that is being switched: a store there waits with its instruction, while one to another
core's bank is held at the bank (R301, R306). -/
def State.ownBusy (s : State) (pa : Nat) : Bool :=
  s.placeBusy pa && pa / 2 ^ 34 % 16 == coreOf s.cx.key % 16 &&
    pa / 2 ^ 45 % 4 * Config.dieClusters + pa / 2 ^ 38 % 128 == coreOf s.cx.key / 16 && decide (pa % 2 ^ 34 < 32 * 65536)

/-- A data store of the running thread at a level (R100, R102, R104, R300, R301). -/
def State.dataWrite (s : State) (va : Nat) (bytes : List Byte) (level : BitVec 2) (word : BitVec 32) : Wrote :=
  let core := coreOf s.cx.key
  match s.translate core s.cx.part level va true with
  | .fault code pa => .fault code pa
  | .ok leaf pa =>
    if s.ownBusy pa ∨ (256 ≤ s.owed ∧ s.leavesCore leaf pa) then .held
    else .done ((s.tlbFill core s.cx.part va leaf).putData leaf pa bytes (BitVec.ofNat 64 va) word)

/-- Where ERET resumes (R113, R468). -/
def Ctx.resume (c : Ctx) : Word := BitVec.ofNat 64 (c.epc.toNat * 2)

/-- The record slot that sys.frec names is freed (R468, R469). -/
def State.freeFrec (s : State) : State :=
  match (List.range 4).find? (fun i => s.slotAddr s.cx i == s.cx.frec) with
  | none => s
  | some i =>
    s.withCx (fun c =>
      { c with
        slots := c.slots &&& ~~~(BitVec.ofNat 4 (2 ^ i))
        records := removeFirst (fun h => h.slot == some i) c.records })

/-- The return from a trap, once a replay has been made (R113, R468): the saved level and pc, and the kept windows of the
interrupted code. -/
def State.returnFromTrap (s : State) : State :=
  s.freeFrec.withCx (fun c =>
    { c with
      pl := c.cause.ppl
      pc := c.resume
      windows := c.kept.headD []
      kept := c.kept.drop 1
      run := .running })

/-- A register written by a reply: windows keep the old value they hold for it (R46, R479); x0 discards it. -/
def Ctx.putX (c : Ctx) (r : Reg) (v : Word) : Ctx := if r = 0 then c else { c with x := c.x.set r.toNat v r.isLt }

/-- The windows open so far no longer keep old values of registers that a window instruction writes (R50). -/
def Ctx.forget (c : Ctx) (d : Dests) : Ctx :=
  { c with windows := c.windows.map (fun w =>
      { w with xs := w.xs.filter (fun e => !d.xs.any (fun r => e.1 == r.toNat))
               vs := w.vs.filter (fun e => !d.vs.any (fun r => e.1 == r.toNat))
               ms := w.ms.filter (fun e => !d.ms.any (fun r => e.1 == r.toNat)) }) }

/-- A long-latency instruction that has issued and will complete later: its window opens, and it is pending (R45, R46); an earlier
window keeps nothing for the registers that it writes, which LAO = 1 alone allows (R50). -/
def Ctx.retirePend (c before : Ctx) (la : BitVec 4) (d : Dests) (kind : PendKind) (dest : Reg) (word : BitVec 32) (va : Word) :
    Ctx :=
  let r := (c.forget d).retireLong before la d
  { r with pends := r.pends ++ [⟨kind, dest, la.toNat, before.depth, la.toNat, before.pc, word, va⟩] }

/-- Whether a pending instruction is a memory-accessing vector instruction. -/
def Pend.isVector (p : Pend) : Bool := match p.kind with | .vector _ => true | _ => false

/-- Whether a pending instruction is an access whose reply is on its way. -/
def Pend.inProgress (p : Pend) : Bool :=
  match p.kind with
  | .fifo _ => true
  | .reply _ => true
  | _ => false

/-- The late fault of the instruction that holds the replay slot, when the running code issued it. -/
def State.slotFault (s : State) : Option State :=
  match s.cx.replay with
  | none => none
  | some m => (s.cx.faults.find? (fun f => f.seq == m.seq && f.depth == s.cx.depth)).map s.takeFault

/-- An instruction that waits for a vector access of the running code waits for its turn; when the access is held back by the replay
slot, the late fault of the slot's holder is taken at once, before its own point (DESIGN CHOICE, log entry 67). -/
def State.stallOnSlot (s : State) : State := s.slotFault.getD s.stall

/-- The first pending instruction that a test accepts completes: it leaves, and its destination takes a value. -/
def Ctx.completePend (c : Ctx) (p : Pend → Bool) (v : Option Word) : Ctx :=
  match c.pends.find? p with
  | none => c
  | some q =>
    let c1 := { c with pends := removeFirst p c.pends }
    v.elim c1 (c1.putX q.dest)

/-- A late fault that the context takes when n more instructions have executed (R102, R467). -/
def Ctx.addFault (c : Ctx) (seq : BitVec 32) (left code sub : Nat) (rpl : Bool) (pidx : BitVec 32) (record : Option Record) :
    Ctx :=
  { c with faults := c.faults ++ [⟨seq, left, c.depth, code, sub, rpl, pidx, record⟩] }

/-- A load or atomic with a destination that is refused, or reads a bad word (R102, R321, R349): a precise fault with
la = 0; otherwise its window opens, the destination keeps its old value, and the fault comes when the window closes. -/
def State.refuseLoad (s : State) (la : BitVec 4) (d : Reg) (code sub : Nat) (va : Word) (pa : Nat) (word : BitVec 32) : State :=
  if la = 0 then s.preciseData code sub va pa word
  else
    let r := mkRecord code sub 1 0 s.cx.tag 0 va (BitVec.ofNat 64 pa) s.cx.pc word s.cx.tid
    s.withCx (fun c => (c.retireLong c la ⟨[d], [], []⟩).addFault 0 la.toNat code sub false 0 (some r))

/-- The values of the running thread's registers. -/
def State.x (s : State) (r : Reg) : Word := s.cx.readX r

/-- An instruction of this chapter that finds an operand outside its limits (R263, R348). -/
def State.illegalOperand (s : State) : State := s.precise 2 0

end Sys2Proof.Machine
end

