-- ==== Sys2Proof/Machine/Alu.lean ====
section
/-!
DEFINITION. Register arithmetic and logic, bit-field operations, multiplies, divides and immediates (spec/04_scalar_instructions.md
R86 to R98).
-/

namespace Sys2Proof.Machine

/-- The signed comparison of two registers. -/
def slt (a b : Word) : Bool := decide (a.toInt < b.toInt)

/-- The unsigned comparison of two registers. -/
def ult (a b : Word) : Bool := decide (a.toNat < b.toNat)

/-- The shift amount of R89: bits 5:0. -/
def shamt (b : Word) : Nat := b.toNat % 64

/-- Arithmetic right shift (R89): toward minus infinity. -/
def sar (a : Word) (n : Nat) : Word := wordOfInt (a.toInt / 2 ^ n)

/-- Rotation left by n, 0 to 63 (R89). -/
def rotl (a : Word) (n : Nat) : Word := (a <<< n) ||| (a >>> (64 - n))

/-- Rotation right by n, 0 to 63 (R89). -/
def rotr (a : Word) (n : Nat) : Word := (a >>> n) ||| (a <<< (64 - n))

/-- A register instruction of major 0x01 (R89). -/
def State.alu (s : State) (f : Word → Word → Word) (d a b : Reg) : Out := .next (s.scalar d (f (s.x a) (s.x b)) 4)

/-- ADD (R89). -/
def execAdd (d a b : Reg) (s : State) : Out := s.alu (fun A B => A + B) d a b

/-- SUB (R89). -/
def execSub (d a b : Reg) (s : State) : Out := s.alu (fun A B => A - B) d a b

/-- AND (R89). -/
def execAnd (d a b : Reg) (s : State) : Out := s.alu (fun A B => A &&& B) d a b

/-- OR (R89). -/
def execOr (d a b : Reg) (s : State) : Out := s.alu (fun A B => A ||| B) d a b

/-- XOR (R89). -/
def execXor (d a b : Reg) (s : State) : Out := s.alu (fun A B => A ^^^ B) d a b

/-- ANDN (R89). -/
def execAndn (d a b : Reg) (s : State) : Out := s.alu (fun A B => A &&& ~~~B) d a b

/-- ORN (R89). -/
def execOrn (d a b : Reg) (s : State) : Out := s.alu (fun A B => A ||| ~~~B) d a b

/-- XNOR (R89). -/
def execXnor (d a b : Reg) (s : State) : Out := s.alu (fun A B => ~~~(A ^^^ B)) d a b

/-- SHL (R89). -/
def execShl (d a b : Reg) (s : State) : Out := s.alu (fun A B => A <<< shamt B) d a b

/-- SHR (R89). -/
def execShr (d a b : Reg) (s : State) : Out := s.alu (fun A B => A >>> shamt B) d a b

/-- SRA (R89). -/
def execSra (d a b : Reg) (s : State) : Out := s.alu (fun A B => sar A (shamt B)) d a b

/-- ROL (R89). -/
def execRol (d a b : Reg) (s : State) : Out := s.alu (fun A B => rotl A (shamt B)) d a b

/-- ROR (R89). -/
def execRor (d a b : Reg) (s : State) : Out := s.alu (fun A B => rotr A (shamt B)) d a b

/-- MIN (R89). -/
def execMin (d a b : Reg) (s : State) : Out := s.alu (fun A B => if slt A B then A else B) d a b

/-- MAX (R89). -/
def execMax (d a b : Reg) (s : State) : Out := s.alu (fun A B => if slt B A then A else B) d a b

/-- MINN (R89). -/
def execMinn (d a b : Reg) (s : State) : Out := s.alu (fun A B => if ult A B then A else B) d a b

/-- MAXN (R89). -/
def execMaxn (d a b : Reg) (s : State) : Out := s.alu (fun A B => if ult B A then A else B) d a b

/-- SLT (R89). -/
def execSlt (d a b : Reg) (s : State) : Out := s.alu (fun A B => flag (slt A B)) d a b

/-- SLTN (R89). -/
def execSltn (d a b : Reg) (s : State) : Out := s.alu (fun A B => flag (ult A B)) d a b

/-- SEQ (R89). -/
def execSeq (d a b : Reg) (s : State) : Out := s.alu (fun A B => flag (A == B)) d a b

/-- SNE (R89). -/
def execSne (d a b : Reg) (s : State) : Out := s.alu (fun A B => flag (A != B)) d a b

/-- A bit-field instruction of major 0x02 (R90). -/
def State.bits (s : State) (f : Word → Word) (d a : Reg) : Out := .next (s.scalar d (f (s.x a)) 4)

/-- The low bits that an xf value selects, and their number (R55, R91). -/
def xfBits (xf : BitVec 4) : Nat := match xf.toNat with | 0 => 8 | 1 => 16 | _ => 32

/-- The low n bits of a register sign-extended (R90). -/
def sextLow (v : Word) (n : Nat) : Word := wordOfInt (signed n v.toNat)

/-- The low n bits of a register zero-extended (R90). -/
def zextLow (v : Word) (n : Nat) : Word := BitVec.ofNat 64 (v.toNat % 2 ^ n)

/-- CLZ (R90). -/
def execClz (d a : Reg) (s : State) : Out := s.bits (fun A => BitVec.ofNat 64 (clz 64 A.toNat)) d a

/-- CTZ (R90). -/
def execCtz (d a : Reg) (s : State) : Out := s.bits (fun A => BitVec.ofNat 64 (ctz A.toNat 64 0)) d a

/-- POPC (R90). -/
def execPopc (d a : Reg) (s : State) : Out := s.bits (fun A => BitVec.ofNat 64 (popcount A.toNat 64)) d a

/-- BREV (R90). -/
def execBrev (d a : Reg) (s : State) : Out := s.bits (fun A => reverseBits A) d a

/-- BSWAP (R90). -/
def execBswap (d a : Reg) (s : State) : Out := s.bits (fun A => swapBytes A) d a

/-- SEXT (R90, R91). -/
def execSext (xf : BitVec 4) (d a : Reg) (s : State) : Out := s.bits (fun A => sextLow A (xfBits xf)) d a

/-- ZEXT (R90, R91). -/
def execZext (xf : BitVec 4) (d a : Reg) (s : State) : Out := s.bits (fun A => zextLow A (xfBits xf)) d a

/-- An instruction of major 0x03: its destination is pending over its window (R92). -/
def State.muldiv (s : State) (f : Word → Word → Word) (la : BitVec 4) (d a b : Reg) : Out :=
  .next (s.scalarLong la d (f (s.x a) (s.x b)))

/-- MUL (R92, R93). -/
def execMul (la : BitVec 4) (d a b : Reg) (s : State) : Out := s.muldiv (fun A B => A * B) la d a b

/-- MULH (R92, R93). -/
def execMulh (la : BitVec 4) (d a b : Reg) (s : State) : Out := s.muldiv (fun A B => wordOfInt (A.toInt * B.toInt / 2 ^ 64)) la d a b

/-- MULHN (R92, R93). -/
def execMulhn (la : BitVec 4) (d a b : Reg) (s : State) : Out := s.muldiv (fun A B => BitVec.ofNat 64 (A.toNat * B.toNat / 2 ^ 64)) la d a b

/-- DIV (R92, R93). -/
def execDiv (la : BitVec 4) (d a b : Reg) (s : State) : Out := s.muldiv (fun A B => if B = 0 then BitVec.allOnes 64 else wordOfInt (A.toInt.tdiv B.toInt)) la d a b

/-- DIVN (R92, R93). -/
def execDivn (la : BitVec 4) (d a b : Reg) (s : State) : Out := s.muldiv (fun A B => if B = 0 then BitVec.allOnes 64 else BitVec.ofNat 64 (A.toNat / B.toNat)) la d a b

/-- REM (R92, R93). -/
def execRem (la : BitVec 4) (d a b : Reg) (s : State) : Out := s.muldiv (fun A B => if B = 0 then A else wordOfInt (A.toInt.tmod B.toInt)) la d a b

/-- REMN (R92, R93). -/
def execRemn (la : BitVec 4) (d a b : Reg) (s : State) : Out := s.muldiv (fun A B => if B = 0 then A else BitVec.ofNat 64 (A.toNat % B.toNat)) la d a b

/-- CLMUL (R92, R93). -/
def execClmul (la : BitVec 4) (d a b : Reg) (s : State) : Out := s.muldiv (fun A B => BitVec.ofNat 64 (clmul A.toNat B.toNat 64)) la d a b

/-- CLMULH (R92, R93). -/
def execClmulh (la : BitVec 4) (d a b : Reg) (s : State) : Out := s.muldiv (fun A B => BitVec.ofNat 64 (clmul A.toNat B.toNat 64 / 2 ^ 64)) la d a b

/-- A WI instruction: I is the sign-extended immediate (R94). -/
def State.imm (s : State) (f : Word → Word → Word) (d a : Reg) (imm : BitVec 15) : Out := .next (s.scalar d (f (s.x a) (sext imm)) 4)

/-- ADDI (R94). -/
def execAddi (d a : Reg) (imm : BitVec 15) (s : State) : Out := s.imm (fun A I => A + I) d a imm

/-- ANDI (R94). -/
def execAndi (d a : Reg) (imm : BitVec 15) (s : State) : Out := s.imm (fun A I => A &&& I) d a imm

/-- ORI (R94). -/
def execOri (d a : Reg) (imm : BitVec 15) (s : State) : Out := s.imm (fun A I => A ||| I) d a imm

/-- XORI (R94). -/
def execXori (d a : Reg) (imm : BitVec 15) (s : State) : Out := s.imm (fun A I => A ^^^ I) d a imm

/-- SLTI (R94). -/
def execSlti (d a : Reg) (imm : BitVec 15) (s : State) : Out := s.imm (fun A I => flag (slt A I)) d a imm

/-- SLTNI (R94). -/
def execSltni (d a : Reg) (imm : BitVec 15) (s : State) : Out := s.imm (fun A I => flag (ult A I)) d a imm

/-- SEQI (R94). -/
def execSeqi (d a : Reg) (imm : BitVec 15) (s : State) : Out := s.imm (fun A I => flag (A == I)) d a imm

/-- SHLI (R95). -/
def execShli (d a : Reg) (amt : BitVec 6) (s : State) : Out := s.bits (fun A => A <<< amt.toNat) d a

/-- SHRI (R95). -/
def execShri (d a : Reg) (amt : BitVec 6) (s : State) : Out := s.bits (fun A => A >>> amt.toNat) d a

/-- SRAI (R95). -/
def execSrai (d a : Reg) (amt : BitVec 6) (s : State) : Out := s.bits (fun A => sar A amt.toNat) d a

/-- RORI (R95). -/
def execRori (d a : Reg) (amt : BitVec 6) (s : State) : Out := s.bits (fun A => rotr A amt.toNat) d a

/-- LIH (R96). -/
def execLih (d : Reg) (imm : BitVec 20) (s : State) : Out := .next (s.scalar d (sext imm <<< 14) 4)

/-- LOX (R97, R98). -/
def execLox (d : BitVec 3) (a : Reg) (s : State) : Out :=
  .next (s.gate 0 ⟨[], [], []⟩ (s.withCx (fun c => ({ c with ox := c.ox.set d.toNat (s.x a) d.isLt } : Ctx).retire 4)))

/-- SOX (R97). -/
def execSox (d : Reg) (a : BitVec 3) (s : State) : Out := .next (s.scalar d (s.cx.readOx a) 4)

end Sys2Proof.Machine
end

