-- ==== Sys2Proof/Machine/Flags.lean ====
section
/-!
DEFINITION. Rounding modes, the stochastic stream of the logical core, and the sticky flags (spec/01 R24 to R30; spec/05 R141 to
R144; spec/06 R157, R158).
-/

namespace Sys2Proof.Machine

/-- The rounding mode that an rm field selects; 3 takes sys.frm as it stands at issue (R29, R42). -/
def Ctx.roundMode (c : Ctx) (rm : BitVec 2) : Mode := modeOf (if rm = 3 then c.frm else rm)

/-- sys.seed, which the partition's configuration gave when the running reaction started (R24, R237). -/
def State.seed (s : State) : Word := s.cx.seed

/-- The stochastic stream of the running core (R26, R143). -/
def State.stream (s : State) : Stream := ⟨s.core.s0, s.core.s1, seedStart s.seed s.cx.lcore.toNat⟩

/-- What an instruction starts computing with. -/
def State.num (s : State) (mode : Mode) : Num := ⟨mode, s.stream, {}⟩

/-- Flags merged into sys.fflags (R27). -/
def Ctx.mergeFlags (c : Ctx) (f : Flags) : Ctx := { c with fflags := c.fflags ||| f.toBits }

/-- An instruction's draws and flags take effect (R26, R27). -/
def State.settleNum (s : State) (n : Num) : State :=
  (s.withCore (coreOf s.cx.key) (fun c => { c with s0 := n.stream.s0, s1 := n.stream.s1 })).withCx
    (fun c => c.mergeFlags n.flags)

/-- A draw taken in every mode (R181). -/
def Num.draw (n : Num) : Word × Num := let (w, st) := Machine.draw n.stream; (w, { n with stream := st })

end Sys2Proof.Machine
end

