-- ==== Sys2Proof/Machine/Actors.lean ====
section
/-!
DEFINITION. Actors, their homes and their events: hash homes (R196), the order of events (R200), and the arrival of an event (R202, R211, R528 to
R531).
-/

namespace Sys2Proof.Machine

/-- A context put among others, in the order of keys. -/
def insertCtx (c : Ctx) : List Ctx → List Ctx
  | [] => [c]
  | d :: r => if c.key < d.key then c :: d :: r else d :: insertCtx c r

/-- The turn passes to a context: the one that had it joins the others unless it is idle.  (DESIGN CHOICE, log entry 22.) -/
def State.focus (s : State) (key : Nat) : State :=
  if s.cx.key = key then s
  else
    let next := (s.others.find? (fun c => c.key == key)).getD (Ctx.idle key)
    let rest := s.others.filter (fun c => c.key != key)
    { s with cx := next, others := if s.cx.run = .idle then rest else insertCtx s.cx rest }

/-- Something done as if the context of a key had the turn. -/
def State.onCtx (s : State) (key : Nat) (f : State → State) : State := (f (s.focus key)).focus s.cx.key

/-- The order of tags (R9). -/
def tagLt (a b : Tag) : Bool := decide (a.time.toNat < b.time.toNat) || (a.time == b.time && decide (a.micro.toNat < b.micro.toNat))

/-- The order of sender keys (R200). -/
def senderLt (a b : SenderKey) : Bool :=
  decide (a.kind < b.kind) ||
    (a.kind == b.kind && (decide (a.source < b.source) || (a.source == b.source && decide (a.number < b.number))))

/-- The order of an actor's events (R200). -/
def orderLt (a b : Tag × SenderKey) : Bool := tagLt a.1 b.1 || (a.1 == b.1 && senderLt a.2 b.2)

/-- The place of an event in its actor's order. -/
def eventPlace (e : Event) : Tag × SenderKey := (e.tag, e.key)

/-- The hash home of an actor, as a physical core (R196). -/
def State.hashHome (s : State) (part : Nat) (actor : Word) : Nat :=
  let p := s.partition part
  (p.physicalCore (hashTo (actor.toNat / 64) (16 * p.clusters.length))).getD 0

/-- The current home of an actor (R197). -/
def State.homeCore (s : State) (part : Nat) (actor : Word) : Nat :=
  ((s.actorOf part actor).home).getD (s.hashHome part actor)

/-- The normal events of an actor that have arrived and not started. -/
def State.eventsOf (s : State) (part : Nat) (actor : Word) : List Queued :=
  s.events.filter (fun q => q.event.part == part && actorAddr q.event.target == actor && !q.late)

/-- The first event of an actor (R200, R210); of two that R200 does not order, with equal tags and equal sender keys, the one that arrived first
(DESIGN CHOICE, log entry 78). -/
def State.firstEvent (s : State) (part : Nat) (actor : Word) : Option Queued :=
  best (fun a b => orderLt (eventPlace a.event) (eventPlace b.event)) (s.eventsOf part actor)

/-- Its late events, in the order of arrival (R530). -/
def State.lateEvents (s : State) (part : Nat) (actor : Word) : List Queued :=
  s.events.filter (fun q => q.event.part == part && actorAddr q.event.target == actor && q.late)

/-- The late-tag record (R531). -/
def lateRecord (e : Event) (sub : Nat) (last : Tag) (excess : Nat) : Record :=
  BitVec.ofNat 512
    (17 + sub * 2 ^ 8 + 2 * 2 ^ 24 + e.tag.time.toNat * 2 ^ 64 + e.tag.micro.toNat * 2 ^ 128 + e.sender.toNat * 2 ^ 160 +
      (actorAddr e.target).toNat * 2 ^ 192 + e.handler.toNat * 2 ^ 256 + e.payload.toNat * 2 ^ 320 +
      last.time.toNat * 2 ^ 384 + last.micro.toNat * 2 ^ 448 + Nat.min excess (2 ^ 32 - 1) * 2 ^ 480)

/-- The context that a packet without a reaction is charged to when it completes (R246, R529). -/
def ghostOf (e : Event) (core : Nat) : Ctx :=
  { Ctx.idle (4 * core) with
    part := e.part, actor := actorAddr e.target, tag := e.tag, queue := e.queue, packet := e.packet, ctr := e.ctr }

/-- Free bytes of a partition's spill area (R202, R237).  (DESIGN CHOICE, log entry 33.) -/
def Partition.spillFree (p : Partition) : Nat := rfield p.config 24 8 - p.spillUsed

/-- 64 bytes of the spill area taken or given back.  (DESIGN CHOICE, log entry 33.) -/
def State.spill (s : State) (part : Nat) (more : Bool) : State :=
  s.withPart part (fun p => { p with spillUsed := if more then p.spillUsed + 64 else p.spillUsed - 64 })

/-- An event enters its home's queue (R202, R211, R528, R529); the status is 0 when it has arrived, 2 when the queue engine
refuses it, 5 when its partition is gone (R487). -/
def State.arrive (s : State) (e : Event) (core : Nat) : State × Nat :=
  let actor := actorAddr e.target
  let a := s.actorOf e.part actor
  let p := s.partition e.part
  let late := a.started.any (fun x => orderLt (eventPlace e) x)
  let excess := s.clock - (e.tag.time.toNat + s.inputBound e.part actor)
  if !p.exists_ ∨ p.gone then (s, 5)
  else if late && a.lateHandler == 0 then
    let last := (a.started.map (·.1)).getD ⟨0, 0⟩
    (((s.faultQueue e.part (lateRecord e 1 last excess)).packetDone (ghostOf e core)), 0)
  else
    let q : Queued := ⟨e, core, false, false, late, excess, if late then a.lateHandler else 0⟩
    let put := fun (s : State) => { s with events := s.events ++ [q] }.send (.eventSafe e.part actor)
    let here := fun (q : Queued) => q.core == core && !q.spilled
    if (s.events.filter here).length < 128 then (put s, 0)
    else if p.spillFree < 64 then (s, 2)
    else
      let s1 := { s with events := updateFirst here (fun q => { q with spilled := true }) s.events }
      (put (s1.spill e.part true), 0)

/-- The oldest events in a core's queue go to the spill area, so many of them (R202). -/
def State.spillOldest (s : State) (part core : Nat) : Nat → State
  | 0 => s
  | n + 1 =>
    ({ s with events := updateFirst (fun q => q.core == core && !q.spilled) (fun q => { q with spilled := true }) s.events }.spill part true).spillOldest
      part core n

/-- An actor moves to a core with its queued events, of which the queue there holds 128 and spills the oldest (R197, R202); none when the spill area
has no room for those (DEDUCED, log entry 45). -/
def State.moveActor (s : State) (part : Nat) (actor : Word) (core : Nat) : Option State :=
  let mine := fun (q : Queued) => q.event.part == part && actorAddr q.event.target == actor
  let s1 := { s.withActor part actor (fun a => { a with home := some core }) with
    events := s.events.map (fun q => if mine q then { q with core := core } else q) }
  let excess := (s1.events.filter (fun q => q.core == core && !q.spilled)).length - 128
  if 64 * excess ≤ (s.partition part).spillFree then some (s1.spillOldest part core excess) else none

/-- The context that waits for an event's arrival gets its status and goes on (R276), on another device by a record (R235, R503). -/
def State.postDone (s : State) (waiter : Word) (status : Nat) : State :=
  match s.taskOf waiter with
  | none =>
    if waiter.toNat / 2 ^ 48 = s.dev.toNat then s
    else s.emit (.mailbox (waiter.toNat / 2 ^ 48) 1 (bytesOf waiter.toNat 8 ++ bytesOf status 1))
  | some c =>
    match c.run with
    | .waiting (.posting d) => s.withTask waiter (fun c => (c.writeX d (BitVec.ofNat 64 status)).retire 4)
    | _ => s

/-- An event leaves the queue of its core; a spilled one gives its place in the spill area back (R202). -/
def State.takeEvent (s : State) (q : Queued) : State :=
  let s1 := { s with events := removeFirst (fun e => e == q) s.events }
  if q.spilled then s1.spill q.event.part false else s1

end Sys2Proof.Machine
end

