-- ==== Sys2Proof/Machine/Queues.lean ====
section
/-!
DEFINITION. Launch configuration and launch-queue records (spec/09 R237 to R244, R260), the fault queue's control and the job device
table, and the window of a virtual function (spec/19 R509).
-/

namespace Sys2Proof.Machine

/-- The launch queues by number. -/
def queueCount : Nat := 4096

/-- A queue is stopped (R239). -/
def Queue.stopped (q : Queue) : Bool := q.state == 0 || q.state == 2

/-- The record of a launch queue (R239). -/
def Queue.record (q : Queue) : Record :=
  BitVec.ofNat 512
    (q.ring.toNat + q.logslots % 256 * 2 ^ 64 + ((if q.enable then 1 else 0) + q.classmax.toNat * 4) * 2 ^ 72 +
      q.part % 65536 * 2 ^ 80 + q.dlrel.toNat * 2 ^ 96 + q.age.toNat * 2 ^ 128 + q.gbase.toNat * 2 ^ 160 +
      q.gcount.toNat * 2 ^ 192 + q.hshare.toNat * 2 ^ 208 + q.fshare.toNat * 2 ^ 216 + q.prod.toNat * 2 ^ 256 +
      q.cons.toNat * 2 ^ 320 + q.done.toNat * 2 ^ 384 + q.phase.toNat * 2 ^ 448 + q.state.toNat * 2 ^ 456 +
      q.err.toNat * 2 ^ 464 + q.ovr.toNat * 2 ^ 472)

/-- The sums of the reservations of the enabled queues (R260). -/
def State.shares (s : State) : Nat × Nat :=
  let on := (s.queues.filter (fun e => e.2.enable)).map (·.2)
  ((on.map (fun q => q.hshare.toNat)).sum, (on.map (fun q => q.fshare.toNat)).sum)

/-- ENABLE is set: refused when it would break a sum of reservations (R239, R260). -/
def State.queueEnable (s : State) (q : Nat) : State :=
  let r := s.queue q
  if r.enable then s
  else if 48 < s.shares.1 + r.hshare.toNat ∨ 48 < s.shares.2 + r.fshare.toNat then s
  else
    let s1 := s.withQueue q (fun r =>
      if r.state = 0 then { r with enable := true, state := 1, cons := r.prod, done := r.prod } else { r with enable := true })
    { s1 with sync := { s1.sync with launched := true } }.send (.packetIssue q)

/-- ENABLE is cleared: the queue becomes disabled once every issued packet has completed (R239). -/
def State.queueDisable (s : State) (q : Nat) : State :=
  s.withQueue q (fun r => { r with enable := false, state := if r.done = r.cons then 0 else r.state })

/-- CLEAR (R244): ignored unless the queue is stopped by an error. -/
def State.queueClear (s : State) (q : Nat) : State :=
  if (s.queue q).state = 2 then (s.withQueue q (fun r => { r with state := 1 })).send (.packetIssue q) else s

/-- QCTL is written (R239): ENABLE, CLASSMAX and CLEAR; its reserved bits are ignored (R6).  (DEDUCED, log entry 36.) -/
def State.queueControl (s : State) (q : Nat) (v : Nat) : State :=
  let s1 := s.withQueue q (fun r => { r with classmax := BitVec.ofNat 2 (v / 4) })
  let s2 := if v % 2 = 1 then s1.queueEnable q else if (s1.queue q).enable then s1.queueDisable q else s1
  if v / 16 % 2 = 1 then s2.queueClear q else s2

/-- PROD is written; an overrun stops a running queue with error 6 (R240). -/
def State.prodWrite (s : State) (q : Nat) (prod : Word) : State :=
  s.withQueue q (fun r =>
    let r1 := { r with prod := prod }
    if r.state = 1 ∧ 2 ^ r.logslots < (prod - r.cons).toNat then { r1 with state := 2, err := 6 } else r1)

/-- A field that only a stopped queue takes, within its limits (R239). -/
def State.queueField (s : State) (q : Nat) (f : QueueField) (v : Nat) : State :=
  if !(s.queue q).stopped then s
  else
    s.withQueue q (fun r =>
      match f with
      | .ring => if v % 64 = 0 then { r with ring := BitVec.ofNat 64 v } else r
      | .logslots => if 6 ≤ v ∧ v ≤ 16 then { r with logslots := v } else r
      | .classmax => r
      | .dlrel => { r with dlrel := BitVec.ofNat 32 v }
      | .age => { r with age := BitVec.ofNat 32 v }
      | .gbase => { r with gbase := BitVec.ofNat 32 v }
      | .gcount => if v ≤ 4608 then { r with gcount := BitVec.ofNat 16 v } else r
      | .phase => { r with phase := BitVec.ofNat 8 v })

/-- CLASSMAX, which is always writable, or another field (R239).  (DEDUCED, log entry 36.) -/
def State.queueFieldWrite (s : State) (q : Nat) (f : QueueField) (v : Nat) : State :=
  match f with
  | .classmax => if v < 4 then s.withQueue q (fun r => { r with classmax := BitVec.ofNat 2 v }) else s
  | f => s.queueField q f v

/-- A doubleword of a queue record is written by its partition: none when the write is ignored (R239, R509). -/
def State.queueWrite (s : State) (part q i : Nat) (v : Word) : Option State :=
  let r := s.queue q
  let b := fun (lo n : Nat) => field v (8 * lo) (8 * n)
  if r.part ≠ part then none
  else
    match i with
    | 0 => if r.stopped then some (s.queueField q .ring v.toNat) else none
    | 1 => some (((s.queueField q .logslots (b 0 1)).queueField q .dlrel (b 4 4)).queueControl q (b 1 1))
    | 2 => if r.stopped then some ((s.queueField q .age (b 0 4)).queueField q .gbase (b 4 4)) else none
    | 3 => if r.stopped then some (s.queueField q .gcount (b 0 2)) else none
    | 4 => some (s.prodWrite q v)
    | 7 => if r.stopped then some (s.queueField q .phase (b 0 1)) else none
    | _ => none

/-- Whether every launch queue of a partition is stopped or disabled (R237). -/
def State.quiet (s : State) (part : Nat) : Bool := s.queues.all (fun e => e.2.part != part || e.2.stopped)

/-- Whether a launch configuration is accepted (R238). -/
def configLegal (r : Record) : Bool :=
  rfield r 13 3 == 0 && rfield r 36 28 == 0 && decide (rfield r 12 1 < 2) && rfield r 16 8 % 64 == 0 && rfield r 24 8 % 64 == 0

/-- The launch configuration is written (R237, R238): none when it is refused. -/
def State.configure (s : State) (part : Nat) (r : Record) : Option State :=
  if !configLegal r ∨ !s.quiet part then none
  else some (s.markSafe.withPart part (fun p => { p with config := r }))

/-- Doubleword i of a record. -/
def recordDword (r : Record) (i : Nat) : Word := BitVec.ofNat 64 (rfield r (8 * i) 8)

/-- A record with doubleword i replaced. -/
def recordWith (r : Record) (i : Nat) (v : Word) : Record :=
  BitVec.ofNat 512 (r.toNat - (recordDword r i).toNat * 2 ^ (64 * i) + v.toNat * 2 ^ (64 * i))

/-- HEAD is advanced: the records before it are freed (R509). -/
def State.advanceHead (s : State) (part : Nat) (head : Word) : Option State :=
  let p := s.partition part
  let n := (head - p.fqHead).toNat
  if p.faultQueue.length < n then none
  else some (s.withPart part (fun p => { p with fqHead := head, faultQueue := p.faultQueue.drop n }))

/-- The job device table's count is written: the management block then configures the job, and sets this device's number
(R500, R509; log entry 14). -/
def State.setJobCount (s : State) (part n : Nat) : Option State :=
  if 1024 < n then none
  else some { s.withPart part (fun p => { p with jobCount := n }) with dev := Config.ownDevice }

/-- A doubleword of the window of a partition's virtual function as it reads (R509). -/
def State.windowRead (s : State) (part off : Nat) : Word :=
  let p := s.partition part
  if off < 64 then recordDword p.config (off / 8)
  else if off = 0x1000 then p.fqHead
  else if off = 0x1008 then p.fqTail
  else if off = 0x1010 then p.fqOvf
  else if off = 0x1018 then p.fqNotify
  else if 0x2000 ≤ off ∧ off < 0x6000 then recordDword (tget p.fqPlaces ((off - 0x2000) / 64) 0) (off % 64 / 8)
  else if 0x100000 ≤ off ∧ off < 0x140000 then
    let q := s.queue ((off - 0x100000) / 64)
    if q.part = part then recordDword q.record (off % 64 / 8) else 0
  else if off = 0x200000 then BitVec.ofNat 64 p.jobCount
  else if 0x200000 < off ∧ off < 0x200808 then
    let i := (off - 0x200008) / 2
    BitVec.ofNat 64 (ofLanes 16 ((List.range 4).map (fun k => tget p.jobTable (i + k) 0)))
  else 0

/-- A doubleword written into that window: none when the write is refused or ignored (R238, R239, R509). -/
def State.windowWrite (s : State) (part off : Nat) (v : Word) : Option State :=
  let p := s.partition part
  if off < 64 then s.configure part (recordWith p.config (off / 8) v)
  else if off = 0x1000 then s.advanceHead part v
  else if off = 0x1018 then some (s.withPart part (fun p => { p with fqNotify := v }))
  else if 0x100000 ≤ off ∧ off < 0x140000 then s.queueWrite part ((off - 0x100000) / 64) (off % 64 / 8) v
  else if off = 0x200000 then s.setJobCount part v.toNat
  else if 0x200000 < off ∧ off < 0x200808 then
    let i := (off - 0x200008) / 2
    let put := fun (t : List (Nat × Nat)) (k : Nat) => tset t (i + k) (lane v.toNat 16 k)
    some (s.withPart part (fun p => { p with jobTable := (List.range 4).foldl put p.jobTable }))
  else none

end Sys2Proof.Machine
end

