-- ==== Sys2Proof/Machine/SysRegs.lean ====
section
/-!
DEFINITION. The system registers by selector (spec/01 R16 to R30, spec/08 R203 to R217, spec/11 R291, spec/18 R461, spec/19 R500 to
R514, spec/20 R522 to R524), and the effects that writing some of them has beyond the register.
-/

namespace Sys2Proof.Machine

/-- sys.status (R20). -/
def Ctx.status (c : Ctx) : Word :=
  BitVec.ofNat 64 (c.pl.toNat + c.rae.toNat * 8 + c.lao.toNat * 16 + c.ss.toNat * 32 + c.xsf.toNat * 256 + c.xf64.toNat * 512)

/-- sys.cause (R462). -/
def Ctx.causeWord (c : Ctx) : Word :=
  BitVec.ofNat 64 (c.cause.code.toNat + c.cause.sub.toNat * 2 ^ 8 + c.cause.ppl.toNat * 2 ^ 60 + c.cause.rpl.toNat * 2 ^ 62 +
    c.cause.late.toNat * 2 ^ 63)

/-- sys.follow (R224). -/
def Ctx.followWord (c : Ctx) : Word :=
  BitVec.ofNat 64 (c.role.toNat + c.leader.toNat * 16 + c.members.toNat * 256)

/-- The clusters of a partition on each of its logical dies, in order (R541). -/
def Partition.dieCounts (p : Partition) : List Nat :=
  ((List.range 4).map (fun d => (p.clusters.filter (fun c => dieOf c == d)).length)).filter (· != 0)

/-- sys.dies (R541). -/
def Partition.dies (p : Partition) : Word := BitVec.ofNat 64 (ofLanes 8 p.dieCounts)

/-- The value of sys.rowmap i before it is written (R398). -/
def rowmapReset (i : Nat) : Word := BitVec.ofNat 64 (i / 8 * 2 ^ 16 + i / 8 * 0x400 + i % 8 * 0x10)

/-- sys.rowmap i of a cluster. -/
def Cluster.row (c : Cluster) (i : Nat) : Word := tget c.rowmap i (rowmapReset i)

/-- The key of the delay counter that sys.daccsel selects (R319). -/
def Ctx.daccKey (c : Ctx) : Nat := 4 * field c.daccsel 0 6 + field c.daccsel 6 2

/-- sys.csync (R522). -/
def State.csync (s : State) : Word :=
  BitVec.ofNat 64 (s.sync.err.toNat + s.sync.master.toNat * 2 ^ 32 + s.sync.bad.toNat * 2 ^ 62 + s.sync.sync.toNat * 2 ^ 63)

/-- sys.sdown (R505); GO reads zero. -/
def Partition.sdown (p : Partition) : Word :=
  BitVec.ofNat 64 (p.sdSize.toNat * 2 ^ 14 + p.sdFrame.toNat * 2 ^ 16 + p.sdErr.toNat * 2 ^ 62 + p.sdBusy.toNat * 2 ^ 63)

/-- The register that a selector names, as it reads (R111).  (DEDUCED, log entry 34.) -/
def State.readSys (s : State) (sel : BitVec 11) : Word :=
  let c := s.cx
  let p := s.part
  let n := sel.toNat
  match n with
  | 0x000 => c.status
  | 0x001 => zext c.lcore
  | 0x002 => BitVec.ofNat 64 (c.key % 4)
  | 0x003 => s.seed
  | 0x004 => s.core.s0
  | 0x005 => zext c.fflags
  | 0x006 => zext c.frm
  | 0x007 => s.core.s1
  | 0x008 => p.dies
  | 0x100 => c.tag.time
  | 0x101 => zext c.tag.micro
  | 0x102 => BitVec.ofNat 64 s.clock
  | 0x103 => c.dline
  | 0x104 => BitVec.ofNat 64 (c.cls.toNat + 4 * c.eff.toNat)
  | 0x105 => zext c.bound
  | 0x106 => zext c.domain
  | 0x107 => c.followWord
  | 0x200 => BitVec.ofNat 64 (Nat.min c.unack 256)
  | 0x201 => BitVec.ofNat 64 (c.pcnt.toNat + c.brk.toNat * 2 ^ 32)
  | 0x202 => BitVec.ofNat 64 (c.grp.toNat + c.haddr.toNat * 2 ^ 18)
  | 0x203 => if field c.daccsel 0 6 < 43 then tget c.dacc c.daccKey 0 else 0
  | 0x204 => zext c.daccsel
  | 0x300 => s.core.ctags
  | 0x400 => zext c.pidx
  | 0x401 => c.causeWord
  | 0x402 => BitVec.ofNat 64 (c.epc.toNat * 2)
  | 0x403 => zext c.eseq
  | 0x404 => BitVec.ofNat 64 (p.evec.toNat * 64)
  | 0x405 => c.tid
  | 0x406 => BitVec.ofNat 64 (c.nextSeq.toNat + c.ringOut * 2 ^ 32)
  | 0x407 => c.frec
  | 0x408 => c.bpa
  | 0x409 => c.wpa
  | 0x500 => zext p.dfab
  | 0x501 => zext p.eclk
  | 0x502 => zext s.dev
  | 0x503 => s.csync
  | 0x600 => BitVec.ofNat 64 (p.ptbase.toNat * 4096)
  | 0x601 => BitVec.ofNat 64 (p.sabase.toNat * 16384)
  | 0x602 => zext p.sanum
  | 0x603 => BitVec.ofNat 64 (p.frbase.toNat * 256)
  | 0x604 => p.sdown
  | 0x605 => BitVec.ofNat 64 (c.mcmdOff.toNat * 8 + c.mcmdErr.toNat * 2 ^ 63)
  | 0x606 => c.mdat
  | _ =>
    if 0x210 ≤ n ∧ n ≤ 0x21F then tget p.cwin (n - 0x210) 0
    else if 0x380 ≤ n ∧ n ≤ 0x3FF then (s.cluster (clusterOf c.key)).row (n - 0x380)
    else 0

/-- The running context's sys.bound is written; the actor's declaration changes when the reaction ends (R207). -/
def State.setBound (s : State) (v : Word) : State :=
  let b := v.setWidth 33
  (s.withCx (fun c => { c with bound := b })).withActor s.cx.part s.cx.actor (fun a => { a with nextBound := some b })

/-- The membership bits that the directories of the groups record: a group holds at most 64 members across the job (R370, R371); what another
device's directory records is a free value (DESIGN CHOICE, log entry 5). -/
def State.recordable (s : State) (part : Nat) (old want : BitVec 16) : BitVec 16 :=
  BitVec.ofNat 16 (((List.range 16).filter (fun g =>
    want.getLsbD g &&
      (if s.directoryOf part g = s.dev.toNat then old.getLsbD g || decide (s.groupSize part g < 64)
       else !(Config.farReply s.turn).getLsbD g))).map (fun g => 2 ^ g)).sum

/-- The directories of other devices that keep groups get a registration, in a kind-2 record whose layout the manual does not give (R371,
R503). -/
def State.tellGroups (s : State) (part : Nat) (groups : BitVec 16) (actor : Word) (haddr : BitVec 46) (grp : BitVec 16) : State :=
  let dirs := ((List.range 16).filter groups.getLsbD).map (s.directoryOf part)
  (dirs.filter (· != s.dev.toNat)).dedup.foldl (fun s d =>
    s.emit (.mailbox d 2 (bytesOf 4 1 ++ bytesOf actor.toNat 8 ++ bytesOf haddr.toNat 8 ++ bytesOf grp.toNat 2))) s

/-- sys.qgrp is written for the running actor (R370): every directory of a group whose bit it sets or clears has its registration (R371). -/
def State.setGroups (s : State) (v : Word) : State :=
  let h := BitVec.ofNat 46 (field v 18 46)
  let want := BitVec.ofNat 16 (field v 0 16)
  let old := (s.actorOf s.cx.part s.cx.actor).grp
  let grp := if h = 0 then 0 else s.recordable s.cx.part old want
  ((s.tellGroups s.cx.part (old ||| want) s.cx.actor h (if h = 0 then 0 else want)).withActor s.cx.part s.cx.actor
    (fun a => { a with haddr := h, grp := grp })).withCx (fun c => { c with haddr := h, grp := grp })

/-- sys.sdown is written (R505, R506): while BUSY is 1 nothing changes; GO asks every device of the job. -/
def State.setShootdown (s : State) (part : Nat) (v : Word) : State :=
  let p := s.partition part
  if p.sdBusy then s
  else
    let size := BitVec.ofNat 2 (if field v 14 2 = 3 then 0 else field v 14 2)
    let frame := BitVec.ofNat 42 (field v 16 42)
    let s1 := s.withPart part (fun p => { p with sdFrame := frame, sdSize := size })
    if v.getLsbD 0 then
      let ask := fun (s : State) (d : Nat) =>
        if d = s.dev.toNat then s.send (.shootdownRequest d frame.toNat size part)
        else
          let s2 := s.emit (.mailbox d 6 (bytesOf frame.toNat 8 ++ bytesOf size.toNat 1))
          if Config.farAnswers s.turn then s2.send (.shootdownAck part d) else s2
      let s2 := s1.withPart part (fun p => { p with sdBusy := true, sdSeen := [], sdAt := s.clock })
      ((s.dev.toNat :: p.jobDevices).dedup.foldl ask s2).send (.shootdownTimeout part)
    else s1

/-- The doubleword access of sys.mcmd (R511). -/
def State.windowAccess (s : State) (off op : Nat) : State :=
  let s1 := s.withCx (fun c => { c with mcmdOff := BitVec.ofNat 21 (off / 8) })
  if op = 1 then
    s1.withCx (fun c => { c with mdat := s.windowRead c.part (off / 8 * 8), mcmdErr := false })
  else if op = 2 then
    match s1.windowWrite s.cx.part (off / 8 * 8) s.cx.mdat with
    | some s2 => s2.withCx (fun c => { c with mcmdErr := false })
    | none => s1.withCx (fun c => { c with mcmdErr := true })
  else s1

/-- The number of the firmware core of a key. -/
def fwIndex (key : Nat) : Nat := (key - fwKey 0) / 4

/-- A wake request for a core of a firmware complex (R114, R514). -/
def State.fwWake (s : State) (complex : Nat) (core : BitVec 2) : State :=
  { s with firmware := { s.firmware with
      cores := s.firmware.cores.zipIdx.map (fun e => if e.2 = 4 * complex + core.toNat then { e.1 with wake := true } else e.1) } }

/-- A value clipped from below, as sys.dfab and sys.eclk store it (R524). -/
def atLeastOf (v : Word) (least : Nat) : BitVec 32 := BitVec.ofNat 32 (Nat.max (v.toNat % 2 ^ 32) least)

/-- A register is written at a level, field by field (R4, R17, R18, R111). -/
def State.writeSys (s : State) (sel : BitVec 11) (v : Word) (level : BitVec 2) : State :=
  let n := sel.toNat
  let core := coreOf s.cx.key
  let priv := fun (f : State → State) => if level = 0 then s else f s
  match n with
  | 0x000 => s.withCx (fun c =>
      { c with lao := v.getLsbD 4, rae := v.getLsbD 3, ss := if level = 0 then c.ss else v.getLsbD 5 })
  | 0x004 => s.withCore core (fun c => { c with s0 := v })
  | 0x005 => s.withCx (fun c => { c with fflags := v.setWidth 6 })
  | 0x006 => s.withCx (fun c => { c with frm := if field v 0 2 = 3 then 0 else v.setWidth 2 })
  | 0x007 => s.withCore core (fun c => { c with s1 := v })
  | 0x105 => s.setBound v
  | 0x106 => s.withCx (fun c => { c with domain := v.setWidth 2 })
  | 0x201 => s.withCx (fun c => { c with brk := BitVec.ofNat 16 (field v 32 16) })
  | 0x202 => s.setGroups v
  | 0x203 => s.withCx (fun c => if field c.daccsel 0 6 < 43 then { c with dacc := tset c.dacc c.daccKey v } else c)
  | 0x204 => s.withCx (fun c =>
      { c with daccsel := BitVec.ofNat 8 (field v 0 6 + (if field v 6 2 = 3 then 0 else field v 6 2) * 64) })
  | 0x300 => s.clearTags core v
  | 0x400 => priv (fun s => s.withCx (fun c => { c with pidx := v.setWidth 32 }))
  | 0x401 => priv (fun s => s.withCx (fun c =>
      { c with cause := { late := v.getLsbD 63, rpl := v.getLsbD 62,
                          ppl := BitVec.ofNat 2 (if 2 ≤ field v 60 2 then 1 else field v 60 2),
                          sub := BitVec.ofNat 16 (field v 8 16), code := BitVec.ofNat 8 (field v 0 8) } }))
  | 0x402 => priv (fun s => s.withCx (fun c => { c with epc := BitVec.ofNat 63 (field v 1 63) }))
  | 0x404 => priv (fun s => s.withPart s.cx.part (fun p => { p with evec := BitVec.ofNat 58 (field v 6 58) }))
  | 0x408 => priv (fun s => s.withCx (fun c => { c with bpa := v }))
  | 0x409 => priv (fun s => s.withCx (fun c => { c with wpa := v &&& ~~~4 }))
  | 0x500 => priv (fun s => s.markSafe.withPart s.cx.part (fun p => { p with dfab := atLeastOf v 2500 }))
  | 0x501 => priv (fun s => s.markSafe.withPart s.cx.part (fun p => { p with eclk := atLeastOf v 100 }))
  | 0x503 => priv (fun s => if v.getLsbD 62 then { s with sync := { s.sync with bad := false } } else s)
  | 0x600 => s.withPart s.cx.part (fun p => { p with ptbase := BitVec.ofNat 46 (field v 12 46) })
  | 0x601 => s.withPart s.cx.part (fun p => { p with sabase := BitVec.ofNat 50 (field v 14 50) })
  | 0x602 => s.withPart s.cx.part (fun p => { p with sanum := v.setWidth 20 })
  | 0x603 => s.withPart s.cx.part (fun p => { p with frbase := BitVec.ofNat 56 (field v 8 56) })
  | 0x604 => s.setShootdown s.cx.part v
  | 0x605 => s.windowAccess (field v 3 21 * 8) (field v 0 2)
  | 0x606 => s.withCx (fun c => { c with mdat := v })
  | 0x607 => s.fwWake (fwIndex s.cx.key / 4) (v.setWidth 2)
  | _ =>
    if 0x210 ≤ n ∧ n ≤ 0x21F then
      s.withPart s.cx.part (fun p => { p with cwin := tset p.cwin (n - 0x210) (v &&& 0x1FFFFFFFF) })
    else if 0x380 ≤ n ∧ n ≤ 0x3FF then
      s.withCluster (clusterOf s.cx.key) (fun c =>
        { c with rowmap := tset c.rowmap (n - 0x380) (v &&& 0xF7FFF) })
    else s

/-- The least level that may read or write a register (R16, R514). -/
def sysLevel (sel : BitVec 11) : Nat := if sel.toNat = 0x607 then 2 else if 0x600 ≤ sel.toNat then 1 else 0

/-- Whether an earlier instruction of the context has not completed (R28, R282): one that is pending, in the running code or in code
that a trap interrupted, or a memory-accessing vector instruction of the running code that has met a fault.  What waits for a replay
slot that interrupted code holds is not in progress.  (DESIGN CHOICE, log entry 67.) -/
def Ctx.earlierOpen (c : Ctx) : Bool :=
  c.pends.any (fun p => p.depth == c.depth || !(p.isVector && c.replay.isSome)) ||
    c.replay.any (fun m => c.faults.any (fun f => f.seq == m.seq && f.depth == c.depth))

/-- An instruction that waits for every earlier one to complete (R28, R282). -/
def State.afterEarlier (s : State) (effect : State) : State := if s.cx.earlierOpen then s.stallOnSlot else effect

/-- MFS (R111): at a lower level than R16 states, the privilege trap; sys.fflags waits for every earlier instruction (R28). -/
def execMfs (d : Reg) (sel : BitVec 11) (s : State) : Out :=
  .next (if s.cx.pl.toNat < sysLevel sel then s.precise 3 0
    else s.gate 0 ⟨[d], [], []⟩
      (let read := s.withCx (fun c => (c.writeX d (s.readSys sel)).retire 4)
       if sel = 5 then s.afterEarlier read else read))

/-- MTS (R111). -/
def execMts (sel : BitVec 11) (a : Reg) (s : State) : Out :=
  .next (if s.cx.pl.toNat < sysLevel sel then s.precise 3 0
    else
      let written := (s.writeSys sel (s.x a) s.cx.pl).withCx (fun c => c.retire 4)
      if sel = 5 then s.afterEarlier written else written)

end Sys2Proof.Machine
end

