-- ==== Sys2Proof/Machine/Image.lean ====
section
/-!
DEFINITION. The save area (spec/18_faults_and_preemption.md R477): what a switch-out writes and what a resumption reads back, and the
writes that keep the image of a switched-out task current (R479, R480).
-/

namespace Sys2Proof.Machine

/-- Bytes of a save area. -/
def areaBytes : Nat := 16384

/-- Values of n bytes each, laid one after another. -/
def packed (n : Nat) : List Nat → Nat
  | [] => 0
  | v :: r => v % 2 ^ (8 * n) + 2 ^ (8 * n) * packed n r

/-- A ring entry (R473). -/
def RingEntry.image (e : RingEntry) : Nat :=
  e.pc.toNat + e.word.toNat * 2 ^ 64 + e.pidx.toNat * 2 ^ 96 + e.seq.toNat * 2 ^ 128 + e.state % 256 * 2 ^ 160 +
    e.flags.toNat * 2 ^ 168 + e.addr.toNat * 2 ^ 192

/-- The dispatch ring: entry s lies at place s mod 64 (R471, R477). -/
def ringImage (ring : List RingEntry) : Nat :=
  packed 32 ((List.range 64).map (fun i =>
    match ring.find? (fun e => e.seq.toNat % 64 == i) with
    | some e => e.image
    | none => 0))

/-- The old value that the windows keep for scalar register i, zero when it is not pending. -/
def oldScalar (ws : List Window) (i : Nat) : Nat := ((oldOf (·.xs) i ws).map BitVec.toNat).getD 0

/-- The pending-load bits (R479). -/
def Ctx.pendingBits (c : Ctx) : Nat :=
  ((List.range 32).filter (fun i => i != 0 && c.pends.any (fun p => p.dest.toNat == i))).foldl (fun a i => a + 2 ^ i) 0

/-- The mailbox of a task: word, sender and endpoint, oldest first (R480). -/
def State.mailbox (s : State) (tid : Word) : List Nat :=
  (s.endpoints.filter (fun e => e.tid == tid)).flatMap (fun e =>
    e.mailbox.map (fun m => m.1.toNat + m.2.toNat * 2 ^ 64 + e.name.toNat * 2 ^ 96))

/-- The words of system state (R477) but for the last. -/
def Ctx.systemWords (c : Ctx) : List Nat :=
  [c.pc.toNat,
   c.status.toNat,
   c.fflags.toNat + c.frm.toNat * 2 ^ 8 + (c.cls.toNat + 4 * c.eff.toNat) * 2 ^ 16 + c.domain.toNat * 2 ^ 24 +
     c.daccsel.toNat * 2 ^ 32 + Nat.min c.unack 256 * 2 ^ 48,
   c.tag.time.toNat,
   c.tag.micro.toNat + c.pendingBits * 2 ^ 32,
   c.dline.toNat,
   c.bound.toNat,
   c.followWord.toNat,
   c.pcnt.toNat + c.brk.toNat * 2 ^ 32,
   c.nextSeq.toNat + c.ringOut * 2 ^ 32,
   c.tid.toNat,
   c.bpa.toNat,
   c.wpa.toNat,
   c.handles.toNat]

/-- What a context holds of the replay slot (R474): an instruction that has faulted, or a long form that a switch-out has stopped. -/
def Ctx.slotHeld (c : Ctx) : Option VMem :=
  c.replay.orElse (fun _ => c.pends.findSome? (fun p =>
    match p.kind with
    | .vector m => if c.ring.any (fun e => e.seq == m.seq && e.state == 6) then some m else none
    | _ => none))

/-- The fault records of a task that have not been delivered (R469, R477): those of its late faults, then record faults. -/
def Ctx.undelivered (c : Ctx) : List Record :=
  c.faults.filterMap (·.record) ++ (c.records.filter (fun h => h.code != 0)).map (·.record)

/-- The address of the scratchpad image of the core that a task left, 0 when there is none (R477, R482). -/
def State.padImage (s : State) (c : Ctx) : Nat := (((tget s.cores (coreOf c.key) Core.reset).image).map (·.1.toNat)).getD 0

/-- A save area as a number, byte i holding bits 8i+7:8i (R477).  (DEDUCED, log entry 27.) -/
def State.image (s : State) (c : Ctx) : Nat :=
  let at_ := fun (off v : Nat) => v * 2 ^ (8 * off)
  let r := c.slotHeld
  at_ 0 (packed 512 (c.v.toList.map BitVec.toNat)) +
  at_ 0x2000 (ringImage c.ring) +
  at_ 0x2800 (packed 512 [(r.map (·.idx.toNat)).getD 0, (r.map (·.data.toNat)).getD 0]) +
  at_ 0x2C00 (packed 512 (((c.windows.flatMap (·.vs)).take 2).map (·.2.toNat))) +
  at_ 0x3000 (packed 128 ((c.m.toList.drop 1).map BitVec.toNat)) +
  at_ 0x3380 (packed 128 (((c.windows.flatMap (·.ms)).take 2).map (·.2.toNat))) +
  at_ 0x3480 ((r.map (·.mask.toNat)).getD 0) +
  at_ 0x3500 (packed 8 ((c.x.toList.drop 1).map BitVec.toNat)) +
  at_ 0x35F8 (packed 8 ((List.range 31).map (fun i => oldScalar c.windows (i + 1)))) +
  at_ 0x36F0 (packed 56 (c.staging.toList.map BitVec.toNat)) +
  at_ 0x37D0 (packed 64 ((c.undelivered.take 4).map BitVec.toNat)) +
  at_ 0x38D0 (packed 16 ((s.mailbox c.tid).take 32)) +
  at_ 0x3AD0 (packed 8 ((List.range 129).map (fun i => (tget c.dacc (4 * (i / 3) + i % 3) 0).toNat))) +
  at_ 0x3ED8 (packed 8 (c.ox.toList.map BitVec.toNat)) +
  at_ 0x3F18 (packed 8 ((r.map (fun m => m.base.toNat :: m.step.toNat :: m.ox.map BitVec.toNat)).getD [])) +
  at_ 0x3F48 (if c.windows.isEmpty then 0 else (Config.windowDescriptor s.turn).toNat) +
  at_ 0x3F88 (packed 8 c.systemWords) +
  at_ 0x3FF8 (s.padImage c)

/-- n bytes of an image from an offset. -/
def imageField (img off n : Nat) : Nat := img / 2 ^ (8 * off) % 2 ^ (8 * n)

/-- A context with the registers that a save area holds (R478).  (DEDUCED, log entry 27.) -/
def Ctx.restore (c : Ctx) (img : Nat) : Ctx :=
  let w := fun (i : Nat) => imageField img (0x3F88 + 8 * i) 8
  { c with
    v := Vector.ofFn (fun i : Fin 16 => BitVec.ofNat 4096 (imageField img (512 * i.val) 512))
    m := Vector.ofFn (fun i : Fin 8 => if i.val = 0 then c.rawM 0 else BitVec.ofNat 1024 (imageField img (0x3000 + 128 * (i.val - 1)) 128))
    x := Vector.ofFn (fun i : Fin 32 => if i.val = 0 then c.rawX 0 else BitVec.ofNat 64 (imageField img (0x3500 + 8 * (i.val - 1)) 8))
    staging := Vector.ofFn (fun i : Fin 4 => BitVec.ofNat 512 (imageField img (0x36F0 + 56 * i.val) 56))
    dacc := ((List.range 129).map (fun i => (4 * (i / 3) + i % 3, BitVec.ofNat 64 (imageField img (0x3AD0 + 8 * i) 8)))).filter
      (fun e => e.2 != 0)
    ox := Vector.ofFn (fun i : Fin 8 => BitVec.ofNat 64 (imageField img (0x3ED8 + 8 * i.val) 8))
    pc := BitVec.ofNat 64 (w 0) &&& ~~~1
    lao := (w 1).testBit 4
    rae := (w 1).testBit 3
    ss := (w 1).testBit 5
    fflags := BitVec.ofNat 6 (w 2)
    frm := BitVec.ofNat 2 (w 2 / 2 ^ 8)
    domain := BitVec.ofNat 2 (w 2 / 2 ^ 24)
    daccsel := BitVec.ofNat 8 (w 2 / 2 ^ 32)
    dline := BitVec.ofNat 64 (w 5)
    bound := BitVec.ofNat 33 (w 6)
    pcnt := BitVec.ofNat 32 (w 8)
    brk := BitVec.ofNat 16 (w 8 / 2 ^ 32)
    bpa := BitVec.ofNat 64 (w 11)
    wpa := BitVec.ofNat 64 (w 12) }

/-- The virtual address of save area i of a partition (R464). -/
def Partition.area (p : Partition) (i : Nat) : Nat := (p.sabase.toNat * 16384 + 16384 * i) % 2 ^ 64

/-- A read that the device makes through a partition's translation, at level 1 (R464). -/
def State.deviceRead (s : State) (core part va n : Nat) : Option (List Byte) :=
  match s.leafAt core part va with
  | none => none
  | some l => some (s.peek (l.addr va) n)

/-- The bytes in which two images differ, by offset. -/
def imageDiff (a b : Nat) : List (Nat × Byte) :=
  (((bytesOf a areaBytes).zip (bytesOf b areaBytes)).zipIdx.filter (fun e => e.1.1 != e.1.2)).map (fun e => (e.2, e.1.2))

/-- Bytes of a save area written one by one. -/
def State.patch (s : State) (core part area : Nat) : List (Nat × Byte) → State
  | [] => s
  | (off, b) :: r => ((s.deviceWrite core part ((s.partition part).area area + off) [b]).getD s).patch core part area r

/-- What changed in a switched-out task goes into its image (R479, R480, R483). -/
def State.syncImages (after before : State) : State :=
  after.ready.foldl (fun s r =>
    match before.ready.find? (fun b => b.2.2.tid == r.2.2.tid) with
    | none => s
    | some b =>
      if b.2.2 = r.2.2 ∧ before.mailbox r.2.2.tid = after.mailbox r.2.2.tid ∧ before.padImage r.2.2 = after.padImage r.2.2 then s
      else s.patch r.1 r.2.2.part r.2.1 (imageDiff ({ before with turn := after.turn }.image b.2.2) (after.image r.2.2))) after

end Sys2Proof.Machine
end

