-- ==== Sys2Proof/Machine/Sched.lean ====
section
/-!
DEFINITION. The dispatcher: what an idle context takes next (spec/08 R216 to R221, spec/09 R249 to R259), the start of a reaction (R37,
R213, R529) and of a forked task (R265), switch-out and resumption (spec/18 R476 to R478), and stealing (R220).
-/

namespace Sys2Proof.Machine

/-- A pending long-latency instruction stops its context once its window has closed (R46), or once a trap has been taken
(R49); a memory-accessing vector instruction that waits for the replay slot stops only the code that issued it. -/
def Pend.blocks (p : Pend) (depth : Nat) (slotHeld : Bool) : Bool :=
  match p.kind with
  | .vector _ => (p.left == 0 && p.depth == depth) || (!slotHeld && decide (p.depth < depth))
  | _ => p.left == 0 || decide (p.depth < depth)

/-- Whether the context issues nothing until a long-latency instruction completes (R46, R50). -/
def Ctx.blocked (c : Ctx) : Bool := c.pends.any (fun p => p.blocks c.depth c.replay.isSome || (c.lao && p.depth == c.depth))

/-- The partition that holds a physical core. -/
def State.partOfCore (s : State) (core : Nat) : Option Nat :=
  (s.parts.find? (fun p => p.2.exists_ && p.2.clusters.contains (core / 16))).map (·.1)

/-- sys.lcore on a core (R22). -/
def State.lcoreOf (s : State) (part core : Nat) : BitVec 26 :=
  BitVec.ofNat 26 (s.dev.toNat * 65536 + (s.partition part).logicalCore core)

/-- Whether a core implements an extension (R61). -/
def coreHas (xf64 : Bool) (core : Nat) : Bool := decide ((if xf64 then 14 else 12) ≤ core % 16)

/-- A context as it stands when a task starts on it (R37, R265). -/
def State.freshCtx (s : State) (key part : Nat) : Ctx :=
  let core := coreOf key
  let base := { Ctx.idle key with
    part := part, run := .running, xf64 := coreHas true core, xsf := coreHas false core, lcore := s.lcoreOf part core,
    nextSeq := 1, domain := 1, startedAt := s.clock }
  (base.writeX 2 (Config.stackTop key &&& ~~~63)).writeX 3 (Config.localBase key)

/-- What the debug table arms for an actor or a task (R489). -/
def State.armed (s : State) (actor tid : Word) : Option DebugEntry :=
  (s.debugTable.find? (fun e => e.2.actor == some actor || e.2.tid == some tid)).map (·.2)

/-- The identifier of the next task (R488).  (DESIGN CHOICE, log entry 23.) -/
def State.newTid (s : State) : Word := BitVec.ofNat 64 ((s.nextTid + 1) % 2 ^ 48 + s.dev.toNat * 2 ^ 48)

/-- The tag after the last-started one, at which a late reaction runs (R211, R529). -/
def lateTag (last : Tag) : Tag :=
  if last.micro = BitVec.allOnes 32 then ⟨last.time + 1, 0⟩ else ⟨last.time, last.micro + 1⟩

/-- The tag at which the reaction of a queued event runs. -/
def State.tagFor (s : State) (q : Queued) : Tag :=
  if q.late then lateTag ((((s.actorOf q.event.part (actorAddr q.event.target)).started).map (·.1)).getD ⟨0, 0⟩)
  else q.event.tag

/-- The gangs issued and not placed whose region holds a core, with their ageing moment (R256, R257). -/
def State.gangsOver (s : State) (part core : Nat) : List (Nat × Gang × Nat) :=
  let l := (s.partition part).logicalCore core
  s.queues.filterMap (fun e =>
    match e.2.gang with
    | none => none
    | some g =>
      if e.2.part = part ∧ e.2.gbase.toNat ≤ l ∧ l < e.2.gbase.toNat + e.2.gcount.toNat then
        some (e.1, g, g.since + e.2.age.toNat)
      else none)

/-- The root task of the reaction of a queued event on a context (R37, R213, R529). -/
def State.rootCtx (s : State) (q : Queued) (key : Nat) : Ctx :=
  let e := q.event
  let actor := actorAddr e.target
  let a := s.actorOf e.part actor
  let c := s.freshCtx key e.part
  let slot0 := s.slotAddr c 0
  let arm := s.armed actor s.newTid
  let x11 := if q.late then slot0 else e.target
  let c1 := ((c.writeX 10 e.payload).writeX 11 x11).writeX 12 (zext e.sender)
  { c1 with
    pc := (if q.late then q.handler else e.handler) &&& ~~~1
    seed := (s.partition e.part).seed
    tag := s.tagFor q
    dline := e.deadline
    cls := e.cls
    eff := BitVec.ofNat 2 (Nat.max e.cls.toNat a.floor.toNat)
    bound := s.declared e.part actor
    haddr := a.haddr
    grp := a.grp
    tid := s.newTid
    ss := (arm.map (·.ss)).getD false
    bpa := (arm.map (·.bpa)).getD 0
    wpa := (arm.map (·.wpa)).getD 0
    slots := if q.late then 1 else 0
    root := true
    late := q.late
    actor := actor
    entryTarget := x11
    entrySender := e.sender
    queue := e.queue
    packet := e.packet
    ctr := e.ctr
    runMax := e.runMax
    backfill := e.packet.isSome && (s.gangsOver e.part (coreOf key)).any (fun g => g.1 != e.queue)
    gang := e.gang }

/-- A reaction starts on an idle context (R213): the event leaves its queue, the actor runs, an acquire at system scope is
made (R322); a late reaction finds its record in slot 0 (R529).  (DEDUCED, log entry 37.) -/
def State.startReaction (s : State) (q : Queued) (key : Nat) : State :=
  let e := q.event
  let actor := actorAddr e.target
  let last := (((s.actorOf e.part actor).started).map (·.1)).getD ⟨0, 0⟩
  let c := s.rootCtx q key
  let s1 := (s.takeEvent q).withActor e.part actor (fun a =>
    { a with running := true, reactionFloor := 0, seqs := [], nextBound := none, bound := some (s.declared e.part actor),
             started := if q.late then a.started else some (eventPlace e) })
  let s2 := { s1 with nextTid := s1.nextTid + 1, cx := if s1.cx.key = key then c else s1.cx,
                      others := if s1.cx.key = key then s1.others else insertCtx c (s1.others.filter (fun o => o.key != key)) }
  let s3 := s2.withQueue e.queue (fun r => { r with cores := (coreOf key :: r.cores).dedup })
  let s4 := (s3.withCore (coreOf key) (fun k => { k with hints := k.hints.filter (fun h => h.actor != actor || h.ctx != key) })).enterPhase
    key 3
  if q.late then
    let r := lateRecord e 0 last q.excess
    (s4.deviceWrite (coreOf key) e.part (s4.slotAddr c 0).toNat (recordBytes r)).getD (s4.kill c r)
  else s4

/-- A forked task as it starts on a context (R265, R266). -/
def State.childCtx (s : State) (t : Ctx) (key : Nat) : Ctx :=
  let core := coreOf key
  let base := { t with
    key := key, run := .running, xf64 := coreHas true core, xsf := coreHas false core, lcore := s.lcoreOf t.part core,
    bound := s.declared t.part t.actor, haddr := (s.actorOf t.part t.actor).haddr, grp := (s.actorOf t.part t.actor).grp,
    startedAt := s.clock }
  (base.writeX 2 (Config.stackTop key &&& ~~~63)).writeX 3 (Config.localBase key)

/-- A forked task starts on a context, with an acquire at the scope of its FORK (R265, R266). -/
def State.startChild (s : State) (t : Ctx) (key : Nat) : State :=
  let c := s.childCtx t key
  ({ s with cx := if s.cx.key = key then c else s.cx,
            others := if s.cx.key = key then s.others
                      else insertCtx c (s.others.filter (fun o => o.key != key)) }).enterPhase key t.forkScope

/-- Whether a forked task may start: what its FORK released has reached its homes, so that it sees that (R333); it carries its parent's releases
then. -/
def State.childReady (s : State) (e : DequeEntry) : Bool := !s.unreleased { e.task.before with tid := e.task.parent }

/-- The endpoints of a task stand at a context: the directory records it, and the context that it left keeps a stub for 1,400 ns (R231). -/
def State.moveEndpoints (s : State) (tid : Word) (key : Nat) : State :=
  let moves := fun (e : Endpoint) => e.tid == tid && e.ctx != key
  let gone := s.endpoints.filter moves
  let s1 := gone.foldl (fun s e => s.tellDirectory e.part 3 e.name tid (s.placeWord e.part key)) s
  { s1 with
    endpoints := s1.endpoints.map (fun e =>
      if moves e then
        { e with ctx := key, stubs := e.stubs.filter (fun k => k.at_ != e.ctx) ++ [⟨e.ctx, key, s.clock + 2 * Config.dDev⟩] }
      else e)
    inflight := s1.inflight ++ gone.map (fun e => Happening.stubExpiry e.name) }

/-- Whether a message that a directory has sent toward a task's location is still on its way, so that the task is not moved again (R233). -/
def State.directedTo (s : State) (tid : Word) : Bool :=
  let mine := fun (m : Message) => m.directed && s.endpoints.any (fun e => e.name == m.endpoint && e.part == m.part && e.tid == tid)
  s.inflight.any (fun i =>
    match i with
    | .messageArrival m => mine m
    | .messageForward m => mine m
    | _ => false)

/-- The mailbox entries of a task move into its receive queues while these have room (R480). -/
def State.drainMailbox (s : State) (tid : Word) : State :=
  { s with endpoints := s.endpoints.map (fun e =>
      if e.tid ≠ tid then e
      else
        let n := 32 - e.queue.length
        { e with queue := e.queue ++ e.mailbox.take n, mailbox := e.mailbox.drop n }) }

/-- The oldest message of an endpoint that a task holds, taken out of its receive queue (R284, R286). -/
def State.takeMessage (s : State) (name : BitVec 32) (tid : Word) : Option ((Word × BitVec 26) × State) :=
  let here := fun (e : Endpoint) => e.name == name && e.tid == tid
  match (s.endpoints.find? here).map (·.queue) with
  | some (m :: _) =>
    some (m, { s with endpoints := updateFirst here (fun e => { e with queue := e.queue.drop 1 }) s.endpoints }.drainMailbox tid)
  | _ => none

/-- The endpoint that a pending RECVW waits for, and its second destination. -/
def Pend.receives (p : Pend) : Option (BitVec 32 × Reg) :=
  match p.kind with
  | .recv name second => some (name, second)
  | _ => none

/-- The waits in RECVW of a task that holds its context complete, oldest first, while their queues hold messages (R286). -/
def State.serveRecv (s : State) (tid : Word) : List Pend → State
  | [] => s
  | p :: ps =>
    match p.receives with
    | none => s.serveRecv tid ps
    | some (name, second) =>
      match s.takeMessage name tid with
      | none => s.serveRecv tid ps
      | some (m, s1) =>
        (s1.withTask tid (fun c => (c.completePend (fun q => q == p) (some m.1)).putX second (zext m.2))).serveRecv tid ps

/-- What arriving on another core does to a task (R484): every line copy there is closed to it. -/
def State.closeLines (s : State) (key : Nat) : State :=
  s.withCore (coreOf key) (fun c =>
    { c with lines := c.lines.map (fun l => { l with closed := l.closed ||| BitVec.ofNat 4 (2 ^ (key % 4)) }) })

/-- A task that comes to another context brings its records that have not been delivered: they are written into slots there (R469, R477). -/
def Ctx.bringRecords (c : Ctx) : Ctx :=
  { c with
    records := c.records.map (fun h => if h.code = 0 then h else { h with slot := none, unack := h.unack && h.slot.isNone })
    slots := c.slots &&& BitVec.ofNat 4 (((List.range 4).filter (fun i =>
      !c.records.any (fun h => h.slot == some i && h.code != 0))).map (fun i => 2 ^ i)).sum }

/-- Room in a partition's spill area taken or given back (R202, R237). -/
def State.spillBytes (s : State) (part n : Nat) (more : Bool) : State :=
  s.withPart part (fun p => { p with spillUsed := if more then p.spillUsed + n else p.spillUsed - n })

/-- The scratchpad of a core that was retired is back in its banks, and its image gives its room up (R482). -/
def State.restoreBanks (s : State) (core part : Nat) : State :=
  match (tget s.cores core Core.reset).image with
  | none => s
  | some i => (s.withCore core (fun c => { c with image := none })).spillBytes part i.2 false

/-- A switched-out task resumes on a context (R478): its registers come back from the save area, its area returns to the
pool, its mailbox is drained; one that was switched out to migrate finds every line copy closed to it (R485). -/
def State.resumeTask (s : State) (r : Nat × Nat × Ctx) (key : Nat) : State :=
  let c := r.2.2
  let core := coreOf key
  let s0 := { s with ready := s.ready.filter (fun e => e.2.2.tid != c.tid) }.withPart c.part
    (fun p => { p with saUsed := p.saUsed.filter (· != r.2.1) })
  let lost := mkRecord 7 0 0 0 c.tag 0 (BitVec.ofNat 64 ((s.partition c.part).area r.2.1)) 0 c.pc 0 c.tid
  match s.deviceRead core c.part ((s.partition c.part).area r.2.1) areaBytes with
  | none => (s0.faultQueue c.part lost).finish { c with key := key } 0
  | some bytes =>
    let c1 := { (c.restore (ofBytes bytes)).bringRecords with
      key := key, lcore := s.lcoreOf c.part core, xf64 := coreHas true core, xsf := coreHas false core, target := none }
    let s1 := { s0 with
      cx := if s0.cx.key = key then c1 else s0.cx
      others := if s0.cx.key = key then s0.others else insertCtx c1 (s0.others.filter (fun o => o.key != key)) }
    let s2 := (((s1.restoreBanks core c.part).moveEndpoints c.tid key).drainMailbox c.tid).serveRecv c.tid c1.pends
    if c.target = none then s2 else s2.closeLines key

/-- Whether a context may be switched out (R476): a thread at level 0 with no access to complete first (R49), unless that access
stops it, and no event on its way. -/
def Ctx.removable (c : Ctx) : Bool :=
  c.pl == 0 && (c.blocked || !c.pends.any Pend.inProgress) &&
    match c.run with
    | .running => true
    | .waiting (.posting _) => false
    | .waiting _ => true
    | _ => false

/-- The first free save area of a partition's pool (R476). -/
def Partition.freeArea (p : Partition) : Option Nat :=
  (List.range (Nat.min p.sanum.toNat (p.saUsed.length + 1))).find? (fun i => !p.saUsed.contains i)

/-- A long form in progress stops for a switch-out: its ring entry takes state 6 and records the index, which sys.pidx holds too (R169,
R476). -/
def Ctx.stopLong (c : Ctx) : Ctx :=
  match c.replay, c.pends.find? Pend.isVector with
  | none, some p =>
    match p.kind with
    | .vector m =>
      if c.ring.any (fun e => e.seq == m.seq && e.state == 2) then
        { (c.ringSet m.seq (fun e => { e with state := 6, pidx := BitVec.ofNat 32 m.start })) with pidx := BitVec.ofNat 32 m.start }
      else c
    | _ => c
  | _, _ => c

/-- A task is switched out (R476): its holds end, its state goes into a free save area, and the context becomes idle.  None
when the pool has no free area, or the context may not be switched out.  resumeOn is the core it resumes on. -/
def State.switchOut (s : State) (key resumeOn : Nat) : Option State :=
  match s.ctxAt key with
  | none => none
  | some c0 =>
    let p := s.partition c0.part
    match p.freeArea with
    | none => none
    | some area =>
      if !c0.removable then none
      else
        let s1 := (s.leaveFollow c0).withCtx key Ctx.stopLong
        let s2 := (if s1.holdsAny key then s1.withCtx key Ctx.broken else s1).dropHolds key
        let c := (s2.ctxAt key).getD c0
        match s2.deviceWrite (coreOf key) c.part (p.area area) (bytesOf (s2.image c) areaBytes) with
        | none =>
          some (s2.kill c (mkRecord 8 1 0 0 c.tag 0 (BitVec.ofNat 64 (p.area area)) 0 c.pc 0 c.tid))
        | some s3 =>
          let s4 := { s3 with ready := s3.ready ++ [(resumeOn, area, c)] }.withPart c.part
            (fun p => { p with saUsed := p.saUsed ++ [area] })
          some (s4.freeContext key c.part)

/-- What an idle context may take. -/
inductive Work where
  | reaction (q : Queued)
  | resume (tid : Word)
deriving DecidableEq, Repr

/-- A candidate of the dispatcher with its keys (R249). -/
structure Cand where
  cls : Nat
  deadline : Nat
  tag : Tag
  actor : Nat
  work : Work
deriving DecidableEq, Repr

/-- The ranking of candidates (R249). -/
def Cand.before (a b : Cand) : Bool :=
  if a.cls ≠ b.cls then decide (b.cls < a.cls)
  else if a.deadline ≠ b.deadline then decide (a.deadline < b.deadline)
  else if a.tag ≠ b.tag then tagLt a.tag b.tag
  else decide (a.actor < b.actor)

/-- Whether a core may start the event of a launch packet past the blocked gangs of other queues (R257, R259). -/
def State.mayBackfill (s : State) (e : Event) (core : Nat) : Bool :=
  e.packet.isNone ||
    (s.gangsOver e.part core).all (fun g =>
      g.1 == e.queue || (!g.2.1.aged && e.runMax != 0 && decide (s.clock + e.runMax ≤ g.2.2)))

/-- The contexts that gangs have reserved (R259). -/
def State.gangReserved (s : State) : List Nat := s.queues.flatMap (fun e => (e.2.gang.map (·.reserved)).getD [])

/-- An actor's first event, when it is safe, belongs to no gang and may start on a core (R210, R257). -/
def State.eligibleFirst (s : State) (part : Nat) (actor : Word) (core : Nat) : Option Queued :=
  (s.firstEvent part actor).filter (fun q => s.isSafe q && q.event.gang.isNone && s.mayBackfill q.event core)

/-- The event that an eligible actor's next reaction runs (R210, R211, R257): its first late event, when it may start here, else its first event. -/
def State.eligible (s : State) (part : Nat) (actor : Word) (core : Nat) : Option Queued :=
  if (s.actorOf part actor).running then none
  else
    match (s.lateEvents part actor).head? with
    | some q => if s.mayBackfill q.event core then some q else s.eligibleFirst part actor core
    | none => s.eligibleFirst part actor core

/-- The actors with events on a core. -/
def State.actorsOn (s : State) (core : Nat) : List (Nat × Word) :=
  ((s.events.filter (fun q => q.core == core)).map (fun q => (q.event.part, actorAddr q.event.target))).dedup

/-- Whether what stops a context is a wait in RECVW for which its mailbox holds a message. -/
def State.hasMail (s : State) (c : Ctx) : Bool :=
  c.pends.any (fun p => p.receives.any (fun r => s.endpoints.any (fun e => e.tid == c.tid && e.name == r.1 && !e.mailbox.isEmpty)))

/-- Whether a pending instruction waits only for its task to be on a context: an entry that has been woken.  (DEDUCED, log entry 42.) -/
def Pend.wokenUp (p : Pend) : Bool := match p.kind with | .entry _ _ _ _ _ w => w.isSome | _ => false

/-- Whether a switched-out task could go on if it had a context.  (DEDUCED, log entry 42.) -/
def State.resumable (s : State) (c : Ctx) : Bool :=
  (!c.blocked || s.hasMail c || c.pends.any Pend.wokenUp) && !s.directedTo c.tid &&
    match c.run with
    | .waiting (.safew _ t) => decide (t ≤ s.clock)
    | .waiting (.join _) => c.children == 0
    | .waiting (.posting _) => false
    | _ => true

/-- The candidates of a core's dispatcher (R249). -/
def State.candidates (s : State) (core : Nat) : List Cand :=
  if s.retiring.contains (core / 16) then []
  else
    (s.actorsOn core).filterMap (fun a =>
      (s.eligible a.1 a.2 core).map (fun q =>
        ⟨q.event.cls.toNat, q.event.deadline.toNat, s.tagFor q, a.2.toNat, .reaction q⟩)) ++
    (s.ready.filter (fun r => r.1 == core && s.resumable r.2.2)).map (fun r =>
      ⟨r.2.2.eff.toNat, r.2.2.dline.toNat, r.2.2.tag, r.2.2.actor.toNat, .resume r.2.2.tid⟩)

/-- The dispatcher's choice for a context among the candidates that it may take, with the count k after it (R249).  An overdue candidate that this
context may not take is not passed by more than three picks either (R252). -/
def choose (clock k : Nat) (all allowed : List Cand) : Option (Cand × Nat) :=
  let overdue := fun (c : Cand) => decide (c.deadline < clock)
  let on := best Cand.before (allowed.filter (fun c => !overdue c))
  match best Cand.before (all.filter overdue) with
  | none => on.map (fun c => (c, 0))
  | some b =>
    let first := if allowed.contains b then some (b, 0) else none
    if k = 3 then first
    else
      match on with
      | some a => some (a, k + 1)
      | none => first.orElse (fun _ => (best Cand.before (allowed.filter overdue)).map (fun c => (c, k + 1)))

/-- The PHINT reservation of a context (R355). -/
def State.hintOf (s : State) (key : Nat) : Option Hint :=
  (tget s.cores (coreOf key) Core.reset).hints.find? (fun h => h.ctx == key)

/-- The candidates that a context may take: a reserved one starts nothing but a reaction of its actor, and one that a gang has
reserved starts nothing (R259, R355). -/
def State.candidatesFor (s : State) (key : Nat) : List Cand :=
  if s.gangReserved.contains key then []
  else
    match s.hintOf key with
    | none => s.candidates (coreOf key)
    | some h => (s.candidates (coreOf key)).filter (fun c =>
        match c.work with
        | .reaction q => actorAddr q.event.target == h.actor
        | .resume _ => false)

/-- A candidate starts, or resumes, on an idle context (R250). -/
def State.begin (s : State) (w : Work) (key : Nat) : State :=
  match w with
  | .reaction q => s.startReaction q key
  | .resume tid =>
    match s.ready.find? (fun r => r.2.2.tid == tid) with
    | none => s
    | some r => s.resumeTask r key

/-- Whether a context of a core lies within a steal domain of the core that a task was pushed on (R218). -/
def withinDomain (level : BitVec 2) (pushed core : Nat) : Bool :=
  match level.toNat with
  | 0 => pushed == core
  | 1 => pushed / 16 == core / 16
  | 2 => dieOf (pushed / 16) == dieOf (core / 16)
  | _ => true

/-- A deque entry leaves; a spilled one gives its place back (R216). -/
def State.takeEntry (s : State) (core : Nat) (e : DequeEntry) : State :=
  let s1 := s.withCore core (fun c =>
    { c with deque := ((takeLast (fun d => d == e) c.deque).map (·.2)).getD c.deque })
  if e.spilled then s1.spill e.task.part false else s1

/-- The oldest entry of a core's deque that a core may run (R218 to R220). -/
def State.tailFor (s : State) (core thief : Nat) : Option DequeEntry :=
  if s.retiring.contains (thief / 16) then none
  else (takeLast (fun e => withinDomain e.level e.core thief && s.childReady e) (tget s.cores core Core.reset).deque).map (·.1)

/-- The cores from which an idle context may steal (R218, R220). -/
def State.victims (s : State) (part core : Nat) : List Nat :=
  (s.cores.filter (fun c =>
    c.1 != core && s.partOfCore c.1 == some part && c.2.deque.any (fun e => withinDomain e.level e.core core && s.childReady e))).map (·.1)

/-- Whether a context's steal request is on its way. -/
def State.stealing (s : State) (key : Nat) : Bool :=
  s.inflight.any (fun i =>
    match i with
    | .stealRequest k => k == key
    | .stealAnswer q => q.thiefCtx == key
    | _ => false)

/-- The task at the tail of the own deque starts when its class is at least that of the dispatcher's choice, else that choice
starts (R221); none when there is neither.  (DEDUCED, log entry 35.) -/
def State.startPick (s : State) (key : Nat) (own : Option DequeEntry) (pick : Option (Cand × Nat)) : Option State :=
  let core := coreOf key
  match own, pick with
  | some e, some (c, k) =>
    some (if c.cls ≤ e.task.eff.toNat then (s.takeEntry core e).startChild e.task key
      else (s.withCore core (fun d => { d with pickCount := k })).begin c.work key)
  | some e, none => some ((s.takeEntry core e).startChild e.task key)
  | none, some (c, k) => some ((s.withCore core (fun d => { d with pickCount := k })).begin c.work key)
  | none, none => none

/-- An idle context takes its next work (R221): from its own deque's tail or the dispatcher; with neither, it asks other cores
(R220).  (DEDUCED, log entry 35.) -/
def State.takeWork (s : State) (key : Nat) : State :=
  let core := coreOf key
  match s.partOfCore core with
  | none => s
  | some part =>
    let free := !s.gangReserved.contains key && (s.hintOf key).isNone
    let own := if free then s.tailFor core core else none
    match s.startPick key own (choose s.clock (tget s.cores core Core.reset).pickCount (s.candidates core) (s.candidatesFor key)) with
    | some s1 => s1
    | none => if free && !(s.victims part core).isEmpty && !s.stealing key then s.send (.stealRequest key) else s

/-- Whether a context holds no thread. -/
def State.idleAt (s : State) (key : Nat) : Bool :=
  match s.ctxAt key with
  | none => true
  | some c => c.run == .idle

/-- STEAL_REQUEST (R220): an idle context asks one victim. -/
def execStealRequest (ctx : Nat) (s : State) : Out :=
  .next
    (match s.partOfCore (coreOf ctx) with
      | none => s
      | some part =>
        let v := s.victims part (coreOf ctx)
        if s.idleAt ctx && !v.isEmpty then
          s.send (.stealAnswer ⟨ctx, v.getD (Config.victim s.turn % v.length) 0⟩)
        else s)

/-- STEAL_ANSWER (R220): the victim gives up the oldest entry that the thief may run, or answers none. -/
def execStealAnswer (q : StealReq) (s : State) : Out :=
  .next
    (match s.tailFor q.victim (coreOf q.thiefCtx) with
      | none => s
      | some e =>
        if s.idleAt q.thiefCtx && !s.gangReserved.contains q.thiefCtx && (s.hintOf q.thiefCtx).isNone then
          (s.takeEntry q.victim e).startChild e.task q.thiefCtx
        else s)

/-- The contexts of a core that hold a thread. -/
def State.threadsOn (s : State) (core : Nat) : List Ctx :=
  (s.cx :: s.others).filter (fun c => coreOf c.key == core && c.run != .idle)

/-- Of two contexts, the one that is switched out first (R251). -/
def Ctx.goesFirst (a b : Ctx) : Bool :=
  if a.eff ≠ b.eff then decide (a.eff.toNat < b.eff.toNat)
  else if a.dline ≠ b.dline then decide (b.dline.toNat < a.dline.toNat)
  else decide (b.key < a.key)

/-- The context of a core that a candidate pushes out, when no context is idle (R251), as soon as it may be switched out (R476). -/
def State.pushedOut (s : State) (core : Nat) : Option Nat :=
  if (s.threadsOn core).length < 4 then none
  else
    match best Cand.before (s.candidates core), best Ctx.goesFirst (s.threadsOn core) with
    | some c, some v => if v.eff.toNat < c.cls ∧ v.removable then some v.key else none
    | _, _ => none

/-- Whether a task that waits in JOIN beneath a context's own could go on: its children have ended, while the task above it waits for something else
(R219, R236; DEDUCED, log entry 80). -/
def State.joinFreed (s : State) (key : Nat) : Bool :=
  s.beneath.any (fun b => b.key == key && b.children == 0) &&
    (s.ctxAt key).any (fun c => c.removable && (c.blocked || match c.run with | .waiting .retry => true | .waiting (.join _) => c.children != 0 | .waiting _ => true | _ => false))

/-- A context that a switch-out has given back to a task waiting in JOIN is made free for other work, which runs above that task (R219, R251). -/
def State.makeWay (s : State) (key : Nat) : State :=
  match s.ctxAt key with
  | none => s
  | some c => if c.run = .idle then s else { s with beneath := c :: s.beneath }

/-- SWITCH_OUT for a candidate of higher class (R251, R476), which then starts on the context; or for a task that waits in JOIN beneath (R236). -/
def execSwitchOut (ctx : Nat) (s : State) : Out :=
  .next
    (match best Cand.before (s.candidates (coreOf ctx)) with
      | none => if s.joinFreed ctx then (s.switchOut ctx (coreOf ctx)).getD s else s
      | some c =>
        if s.pushedOut (coreOf ctx) = some ctx then
          match s.switchOut ctx (coreOf ctx) with
          | none => s
          | some s1 => (s1.makeWay ctx).begin c.work ctx
        else if s.joinFreed ctx then (s.switchOut ctx (coreOf ctx)).getD s
        else s)

/-- The cores whose dispatcher has something to start. -/
def State.busyCores (s : State) : List Nat := (s.events.map (·.core) ++ s.ready.map (·.1)).dedup

/-- A switch-out of a context is on its way. -/
def State.askSwitch (s : State) (key : Nat) : State := if s.inflight.any (fun i => i == .switchOut key) then s else s.send (.switchOut key)

/-- A switch-out is sent for each core whose dispatcher holds a candidate that R251 lets push a context out, and for a context above a task whose
JOIN could complete (R236). -/
def State.preempt (s : State) : State :=
  s.busyCores.foldl (fun s core =>
    match s.pushedOut core with
    | none => s
    | some k => s.askSwitch k) (((s.beneath.map (·.key)).dedup.filter s.joinFreed).foldl State.askSwitch s)

end Sys2Proof.Machine
end

