-- ==== Sys2Proof/Machine/Operands.lean ====
section
/-!
DEFINITION. Vector operands: lanes under a mask, groups of registers, and the common course of a vector instruction (spec/06 R153 to
R159; spec/18 R471).
-/

namespace Sys2Proof.Machine

/-- Bits of an element of a type (R153). -/
def tyBits (ty : BitVec 3) : Nat := (elemTy ty).bits

/-- The lane count of a width (R153). -/
def lanesOf (bits : Nat) : Nat := 4096 / bits

/-- Lane i of a vector register at a width (R153). -/
def vlane (v : VWord) (bits i : Nat) : Nat := lane v.toNat bits i

/-- A register from the lanes of a width, the first lowest. -/
def ofVlanes (bits : Nat) (l : List Nat) : VWord := BitVec.ofNat 4096 (ofLanes bits l)

/-- The lanes of a register. -/
def vlanes (v : VWord) (bits : Nat) : List Nat := (List.range (lanesOf bits)).map (vlane v bits)

/-- The float format of a type code (R42). -/
def floatOf (ty : BitVec 3) : FloatFmt :=
  match ty.toNat with | 0 => .f32 | 1 => .bf16 | 2 => .f16 | 3 => .e4m3 | _ => .e5m2

/-- Lanes in ascending order (R154, R158): each takes its draw when draws is set, and is computed when its mask bit is 1;
a lane whose bit is 0 keeps its old value and sets no flag. -/
def goLanes (f : Nat → Nat → Nat × Flags) (old : Nat → Nat) (mask : Nat → Bool) (draws : Bool) :
    Nat → Nat → Num → List Nat × Num
  | 0, _, n => ([], n)
  | k + 1, i, n =>
    let (z, n1) := if draws then n.z else (0, n)
    let (c, n2) := if mask i then ((f i z).1, n1.raise (f i z).2) else (old i, n1)
    let (r, n3) := goLanes f old mask draws k (i + 1) n2
    (c :: r, n3)

/-- Lanes that draw nothing and set no flag (R154). -/
def mapLanes (bits : Nat) (m : MWord) (old : VWord) (f : Nat → Nat) : VWord :=
  ofVlanes bits ((List.range (lanesOf bits)).map (fun i => if m.getLsbD i then f i else vlane old bits i))

/-- A vector instruction that computes in registers: the checks, a ring entry that completes at once, its draws, flags and
destinations, and its window (R45, R157, R471). -/
def State.vec (s : State) (la : BitVec 4) (d : Dests) (word : BitVec 32) (n : Num) (write : Ctx → Ctx) : State :=
  s.ringGate la d
    ((s.settleNum n).withCx (fun c => ((write c).ringTake c.pc word 0 3 0 none).retireLong s.cx la d))

/-- A vector instruction with one vector destination. -/
def State.vecV (s : State) (la : BitVec 4) (vd : BitVec 4) (word : BitVec 32) (n : Num) (v : VWord) : State :=
  s.vec la ⟨[], [vd], []⟩ word n (fun c => c.writeV vd v)

/-- A lane operation that neither draws nor sets a flag. -/
def State.vecMap (s : State) (la : BitVec 4) (bits : Nat) (m : BitVec 3) (vd : BitVec 4) (word : BitVec 32) (f : Nat → Nat) :
    Out :=
  .next (s.vecV la vd word (s.num .rne) (mapLanes bits (s.cx.readM m) (s.cx.rawV vd) f))

/-- A lane operation with a rounding mode: one draw a destination lane when it is stochastic (R158). -/
def State.vecNum (s : State) (la : BitVec 4) (bits : Nat) (m : BitVec 3) (vd : BitVec 4) (word : BitVec 32) (mode : Mode)
    (f : Nat → Nat → Nat × Flags) : Out :=
  let old := s.cx.rawV vd
  let (l, n) := goLanes f (vlane old bits) (s.cx.readM m).getLsbD true (lanesOf bits) 0 (s.num mode)
  .next (s.vecV la vd word n (ofVlanes bits l))

/-- A scalar register named by a 4-bit field (R56). -/
def lowReg (r : BitVec 4) : Reg := r.zeroExtend 5

/-- The register group of k registers at a base (R155). -/
def groupRegs (base : BitVec 4) (k : Nat) : List (BitVec 4) := (List.range k).map (fun i => base + BitVec.ofNat 4 i)

/-- Element i of a group in the layout of R155. -/
def groupElem (c : Ctx) (base : BitVec 4) (k bits i : Nat) : Nat := vlane (c.readV (base + BitVec.ofNat 4 (i % k))) bits (i / k)

end Sys2Proof.Machine
end

