-- ==== Sys2Proof/Machine/Special.lean ====
section
/-!
DEFINITION. The special functions of R175 and R458, each the exact function value to be rounded once.  A value is
formed in fixed point with 1,024 fraction bits and a bound on its error (2^-824, and 2^-124 of the value for the
logarithm of Gamma); its leading 96 bits are then those of the exact value unless the bound straddles a boundary,
which a free value decides (log entry 8).
-/

namespace Sys2Proof.Machine

/-- Fraction bits of the working numbers. -/
def fxBits : Nat := 1024

/-- 1 in fixed point. -/
def fxOne : Int := 2 ^ fxBits

/-- The error bound, in units of the last place. -/
def fxErr : Int := 2 ^ 200

/-- Product of two fixed-point numbers. -/
def fxMul (a b : Int) : Int := a * b / fxOne

/-- Quotient of two fixed-point numbers. -/
def fxDiv (a b : Int) : Int := a * fxOne / b

/-- m times 2^e in fixed point. -/
def fxOf (neg : Bool) (m : Nat) (e : Int) : Int :=
  let s := e + fxBits
  let v : Int := if 0 ≤ s then m * 2 ^ s.toNat else ((m / 2 ^ (-s).toNat : Nat) : Int)
  if neg then -v else v

/-- Square root of a fixed-point number that is not negative. -/
def fxSqrt (a : Int) : Int :=
  let n := a.toNat * 2 ^ fxBits
  isqrt n (Nat.log2 n / 2 + 1) 0

/-- Sum of a power series: term k+1 is term k times x divided by the next divisor. -/
def fxSeries (x : Int) (next : Nat → Int → Int) : Nat → Nat → Int → Int → Int
  | 0, _, _, acc => acc
  | n + 1, k, t, acc => fxSeries x next n (k + 1) (next (k + 1) (fxMul t x)) (acc + t)

/-- Sum of t, t y, t y^2, ... each divided by 1, 3, 5, ...: the series of atanh and atan. -/
def fxOdd (y : Int) : Nat → Nat → Int → Int → Int
  | 0, _, _, acc => acc
  | n + 1, k, t, acc => fxOdd y n (k + 1) (fxMul t y) (acc + t / (2 * k + 1 : Nat))

/-- atanh t for a small t. -/
def fxAtanh (t : Int) : Int := fxOdd (fxMul t t) 420 0 t 0

/-- ln 2 = 2 atanh(1/3). -/
def fxLn2 : Int := 2 * fxAtanh (fxOne / 3)

/-- atan t for a small t. -/
def fxAtanSmall (t : Int) : Int := fxOdd (-(fxMul t t)) 260 0 t 0

/-- pi, by Machin's formula. -/
def fxPi : Int := 4 * (4 * fxAtanSmall (fxOne / 5) - fxAtanSmall (fxOne / 239))

/-- e^r for r between 0 and 1. -/
def fxExpSmall (r : Int) : Int := fxSeries r (fun k t => t / (k : Int)) 220 0 fxOne 0

/-- e^x as a fixed-point number and a power of two: x = k ln 2 + r. -/
def fxExp (x : Int) : Int × Int :=
  let k := x / fxLn2
  (fxExpSmall (x - k * fxLn2), k)

/-- e^x in fixed point, for an x that is not large. -/
def fxExpFull (x : Int) : Int :=
  let (v, k) := fxExp x
  if 0 ≤ k then v * 2 ^ k.toNat else v / 2 ^ (-k).toNat

/-- ln of m times 2^e, for m not 0. -/
def fxLn (m : Nat) (e : Int) : Int :=
  let l := Nat.log2 m
  -- y in [3/4, 3/2)
  let y0 := fxOf false m (-(l : Int))
  let (y, k) : Int × Int := if y0 ≥ 3 * fxOne / 2 then (y0 / 2, l + 1 + e) else (y0, l + e)
  2 * fxAtanh (fxDiv (y - fxOne) (y + fxOne)) + k * fxLn2

/-- ln of a positive fixed-point number. -/
def fxLnFx (a : Int) : Int := fxLn a.toNat (-(fxBits : Int))

/-- Halve the angle: t to t / (1 + sqrt (1 + t^2)). -/
def fxHalfTan (t : Int) : Int := fxDiv t (fxOne + fxSqrt (fxOne + fxMul t t))

/-- atan of t between 0 and 1. -/
def fxAtan (t : Int) : Int := 8 * fxAtanSmall (fxHalfTan (fxHalfTan (fxHalfTan t)))

/-- sin r and cos r for r between 0 and 2. -/
def fxSinSmall (r : Int) : Int :=
  fxSeries (-(fxMul r r)) (fun k t => t / ((2 * k) * (2 * k + 1) : Nat)) 130 0 r 0
/-- cos r. -/
def fxCosSmall (r : Int) : Int :=
  fxSeries (-(fxMul r r)) (fun k t => t / ((2 * k - 1) * (2 * k) : Nat)) 130 0 fxOne 0

/-- sin of (m 2^e) + quarter turns, by exact reduction modulo a quarter turn (R175). -/
def fxSin (m : Nat) (e : Int) (quarters : Int) : Int :=
  let x := fxOf false m e
  let h := fxPi / 2
  let q := x / h
  let r := x - q * h
  match ((q + quarters) % 4).toNat with
  | 0 => fxSinSmall r
  | 1 => fxCosSmall r
  | 2 => -(fxSinSmall r)
  | _ => -(fxCosSmall r)

/-- An approximate value with its error bound as an exact one: 96 leading bits, sticky (the functions are
irrational wherever this is used). -/
def fxExactErr (err : Int) (neg : Bool) (v : Int) (scale : Int) : Exact :=
  let lo := (v - err).toNat
  let hi := (v + err).toNat
  let sh := Nat.log2 hi - 95
  let a := lo / 2 ^ sh
  let b := hi / 2 ^ sh
  ⟨neg, if a = b ∨ Config.undecided v.toNat then a else b, scale + sh - fxBits, true⟩

/-- An approximate value within the common error bound. -/
def fxExact (neg : Bool) (v : Int) (scale : Int) : Exact := fxExactErr fxErr neg v scale

/-- A signed approximate value. -/
def fxResult (v : Int) (scale : Int) : Result :=
  .exact (fxExact (v < 0) v.natAbs scale) {}

/-- A signed approximate logarithm of Gamma, whose Stirling series is cut after 40 terms. -/
def fxGammaResult (err : Int) (v : Int) (scale : Int) : Result :=
  .exact (fxExactErr err (v < 0) v.natAbs scale) {}

/-- A value strictly below 1 and nearer to it than any rounding can tell. -/
def belowOne (neg : Bool) : Result := .exact ⟨neg, 2 ^ 128 - 1, -128, true⟩ {}

/-- A value strictly above 0 and nearer to it than any rounding can tell. -/
def aboveZero (neg : Bool) : Result := .exact ⟨neg, 0, -2000, true⟩ {}

/-- A value past every format. -/
def beyond (neg : Bool) : Result := .exact ⟨neg, 1, 4000, true⟩ {}

/-- One. -/
def oneResult (neg : Bool) : Result := .exact ⟨neg, 1, 0, false⟩ {}

/-- Zero with a sign. -/
def zeroResult (neg : Bool) : Result := .exact ⟨neg, 0, 0, false⟩ {}

/-- The canonical NaN with NV. -/
def invalid : Result := .value (.nan false) { nv := true }

/-- m times 2^e as an integer, when it is one. -/
def asNat (m : Nat) (e : Int) : Option Nat :=
  if 0 ≤ e then some (m * 2 ^ e.toNat)
  else if m % 2 ^ (-e).toNat = 0 then some (m / 2 ^ (-e).toNat) else none

/-- Whether a magnitude is at least n. -/
def atLeast (m : Nat) (e : Int) (n : Nat) : Bool := (exactOf false m e).cmp n 0 ≠ .lt

/-- 2^a for a finite a (R175). -/
def exp2Fin (neg : Bool) (m : Nat) (e : Int) : Result :=
  if m = 0 then oneResult false
  else if atLeast m e 2048 then (if neg then aboveZero false else beyond false)
  else
    match asNat m e with
    | some n => .exact ⟨false, 1, if neg then -(n : Int) else n, false⟩ {}
    | none =>
      let x := fxOf neg m e
      let k := x / fxOne
      .exact (fxExact false (fxExpSmall (fxMul (x - k * fxOne) fxLn2)) k) {}

/-- VEXP2 (R175). -/
def exp2Val : Val → Result
  | .nan s => .value (.nan false) { nv := s }
  | .inf s => if s then zeroResult false else .value (.inf false) {}
  | .fin n m e => exp2Fin n m e

/-- Remove factors of two: m 2^e with m odd. -/
def oddPart (m : Nat) (e : Int) : Nat × Int :=
  let k := ctz m (Nat.log2 m + 1) 0
  (m / 2 ^ k, e + k)

/-- VLOG2 (R175). -/
def log2Val : Val → Result
  | .nan s => .value (.nan false) { nv := s }
  | .inf s => if s then invalid else .value (.inf false) {}
  | .fin n m e =>
    if m = 0 then .value (.inf true) { dz := true }
    else if n then invalid
    else
      let (o, k) := oddPart m e
      if o = 1 then .exact ⟨k < 0, k.natAbs, 0, false⟩ {}
      else fxResult (fxDiv (fxLn m e) fxLn2) 0

/-- VTANH (R175). -/
def tanhVal : Val → Result
  | .nan s => .value (.nan false) { nv := s }
  | .inf s => oneResult s
  | .fin n m e =>
    if m = 0 then zeroResult n
    else if atLeast m e 64 then belowOne n
    else
      let x := fxOf false m e
      let t := fxExpFull (2 * x)
      .exact (fxExact n (fxOne - fxDiv (2 * fxOne) (t + fxOne)) 0) {}

/-- VSIG (R175). -/
def sigVal : Val → Result
  | .nan s => .value (.nan false) { nv := s }
  | .inf s => if s then zeroResult false else oneResult false
  | .fin n m e =>
    if m = 0 then .exact ⟨false, 1, -1, false⟩ {}
    else if atLeast m e 256 then (if n then aboveZero false else belowOne false)
    else
      let t := fxExpFull (fxOf (!n) m e)
      .exact (fxExact false (fxDiv fxOne (fxOne + t)) 0) {}

/-- VSIN (R175). -/
def sinVal : Val → Result
  | .nan s => .value (.nan false) { nv := s }
  | .inf _ => invalid
  | .fin n m e =>
    if m = 0 then zeroResult n
    else fxResult (let v := fxSin m e 0; if n then -v else v) 0

/-- VCOS (R175). -/
def cosVal : Val → Result
  | .nan s => .value (.nan false) { nv := s }
  | .inf _ => invalid
  | .fin _ m e => if m = 0 then oneResult false else fxResult (fxSin m e 1) 0

/-- VRCP (R175). -/
def rcpVal : Val → Result
  | .nan s => .value (.nan false) { nv := s }
  | .inf s => zeroResult s
  | .fin n m e =>
    if m = 0 then .value (.inf n) { dz := true } else .exact (divExact false 1 0 n m e) {}

/-- VERF (R458): erf x = 2 / sqrt pi e^(-x^2) times the sum of 2^n x^(2n+1) / (2n+1)!!. -/
def erfVal : Val → Result
  | .nan s => .value (.nan false) { nv := s }
  | .inf s => oneResult s
  | .fin n m e =>
    if m = 0 then zeroResult n
    else if atLeast m e 16 then belowOne n
    else
      let x := fxOf false m e
      let y := fxMul x x
      let s := fxSeries (2 * y) (fun k t => t / (2 * k + 1 : Nat)) 2600 0 x 0
      .exact (fxExact n (fxDiv (fxMul (2 * s) (fxExpFull (-y))) (fxSqrt fxPi)) 0) {}

/-- The Bernoulli numbers B_2, B_4, ..., B_80 over their Stirling divisors 2k (2k - 1), in fixed point, by the
recurrence on tangent numbers. -/
def tangentNumbers : Nat → List Nat → List Nat
  | 0, l => l
  | n + 1, l =>
    -- one pass of the Brent and Harvey table: entry j becomes (j - k) t(j-1) + (j - k + 2) t(j), done from a copy
    let k := l.length - n - 1
    let step := (List.range l.length).foldl (fun (acc : List Nat × Nat) j =>
      let cur := l.getD j 0
      if j < k then (acc.1 ++ [cur], cur)
      else
        let v := (j - k) * acc.2 + (j - k + 2) * cur
        (acc.1 ++ [v], v)) ([], 0)
    tangentNumbers n step.1

/-- The first 40 tangent numbers T_1, T_2, ... -/
def tangents : List Nat :=
  let init := (List.range 40).foldl (fun (l : List Nat) k => l ++ [if k = 0 then 1 else k * l.getD (k - 1) 1]) []
  tangentNumbers 39 init

/-- Sum over k of B_2k / (2k (2k - 1) z^(2k-1)) for a fixed-point z, by the tangent numbers:
B_2k = (-1)^(k-1) 2k T_k / (4^k (4^k - 1)). -/
def stirlingTail (z : Int) : Int :=
  let zi := fxDiv fxOne z
  let z2 := fxMul zi zi
  (tangents.foldl (fun (acc : Int × Int × Nat) t =>
    let k := acc.2.2
    let c : Int := acc.2.1 * (t : Int) / ((2 * k - 1 : Nat) * (4 ^ k * (4 ^ k - 1)) : Nat)
    (acc.1 + (if k % 2 = 1 then c else -c), fxMul acc.2.1 z2, k + 1)) (0, zi, 1)).1

/-- ln Gamma of a positive fixed-point x: Stirling at x + 128 less the logarithm of the product. -/
def fxLnGamma (x : Int) : Int :=
  let z := x + 128 * fxOne
  let lz := fxLnFx z
  let st := fxMul (z - fxOne / 2) lz - z + fxLnFx (2 * fxPi) / 2 + stirlingTail z
  st - (List.range 128).foldl (fun acc j => acc + fxLnFx (x + (j : Int) * fxOne)) 0

/-- VLGAM (R458): ln |Gamma(a)|. -/
def lgamVal : Val → Result
  | .nan s => .value (.nan false) { nv := s }
  | .inf _ => .value (.inf false) {}
  | .fin n m e =>
    if m = 0 then .value (.inf false) { dz := true }
    else
      match asNat m e, n with
      | some _, true => .value (.inf false) { dz := true }
      | some 1, false => zeroResult false
      | some 2, false => zeroResult false
      | _, false =>
        if atLeast m e (2 ^ 64) then
          -- (x - 1/2) ln x - x + ln(2 pi) / 2, whose first Stirling term is below every rounding
          let l := fxLn m e
          fxGammaResult (2 ^ 893) (((m : Int) * 2 ^ e.toNat) * (l - fxOne) / 2 ^ 64 - l / 2 ^ 65 + fxLnFx (2 * fxPi) / 2 ^ 65) 64
        else if atLeast m e 1 ∨ e + Nat.log2 m ≥ -200 then fxGammaResult (2 ^ 660) (fxLnGamma (fxOf false m e)) 0
        else fxGammaResult (2 ^ 900) (-(fxLn m e)) 0
      | none, true =>
        -- ln pi - ln |x sin (pi x)| - ln Gamma (|x|)
        let x := fxOf false m e
        let fr := x % fxOne
        let s := fxSinSmall (fxMul fxPi (if fr > fxOne / 2 then fxOne - fr else fr))
        fxGammaResult (2 ^ 660) (fxLnFx fxPi - fxLn m e - fxLnFx s - fxLnGamma x) 0

/-- Repeated exact square roots of an odd number, or none. -/
def exactRoot (o : Nat) : Nat → Option Nat
  | 0 => some o
  | j + 1 =>
    match exactRoot o j with
    | none => none
    | some r => let s := isqrt r (Nat.log2 r / 2 + 1) 0; if s * s = r then some s else none

/-- |a|^b for a finite, not zero a and a finite, not zero b: exact where the power is a dyadic number that a
rounding could tell from its neighbours (R458). -/
def powFin (neg : Bool) (m1 : Nat) (e1 : Int) (n2 : Bool) (m2 : Nat) (e2 : Int) : Result :=
  let (o, k) := oddPart m1 e1
  let (b, eb) := oddPart m2 e2
  let j := (-eb).toNat
  -- the exponent of two, k b, when it is an integer
  let kb : Int := if n2 then -(k * b) else k * b
  let kInt : Option Int := if 0 ≤ eb then some (kb * 2 ^ (min eb 40).toNat) else if kb % 2 ^ j = 0 then some (kb / 2 ^ j) else none
  let root := if o = 1 then some 1 else if n2 then none else if j ≤ 8 then exactRoot o j else none
  let approx : Result :=
    let lg := fxDiv (fxLn m1 e1) fxLn2
    if lg = 0 then .exact ⟨neg, 2 ^ 128, -128, true⟩ {}
    else
      let big := (Nat.log2 lg.natAbs : Int) - fxBits + Nat.log2 m2 + e2
      let up := (lg > 0) != n2
      if big ≥ 12 then (if up then beyond neg else aboveZero neg)
      else
        let p := (if n2 then -lg else lg) * m2
        let p := if 0 ≤ e2 then p * 2 ^ e2.toNat else p / 2 ^ (-e2).toNat
        let i := p / fxOne
        .exact (fxExact neg (fxExpSmall (fxMul (p - i * fxOne) fxLn2)) i) {}
  match root, kInt with
  | some r, some t =>
    if r = 1 then
      .exact ⟨neg, 1, max (-4000) (min 4000 t), t < -4000⟩ {}
    else
      let n := b * 2 ^ (min eb.toNat 8)
      if 0 ≤ eb ∧ eb > 8 ∨ n * (Nat.log2 r) > 160 then approx
      else .exact ⟨neg, r ^ n, t, false⟩ {}
  | _, _ => approx

/-- VPOW (R458): the special cases of the IEEE 754 pow operation. -/
def powVal (a b : Val) : Result :=
  let odd : Bool := match b with
    | .fin _ m e => (match asNat m e with | some n => n % 2 = 1 | none => false)
    | _ => false
  let whole : Bool := match b with
    | .fin _ m e => (asNat m e).isSome
    | _ => true
  let nv := sigNan a || sigNan b
  match a, b with
  | a, .fin s2 m2 e2 =>
    if m2 = 0 then (if nv then .value (.nan false) { nv := true } else oneResult false)
    else
      match a with
      | .nan _ => .value (.nan false) { nv := nv }
      | .inf s => if s2 then zeroResult (s && odd) else .value (.inf (s && odd)) {}
      | .fin s m e =>
        if m = 0 then (if s2 then .value (.inf (s && odd)) { dz := true } else zeroResult (s && odd))
        else if s && !whole then invalid
        else powFin (s && odd) m e s2 m2 e2
  | .fin s m e, b =>
    if !s ∧ (exactOf s m e).cmp 1 0 = .eq ∧ !nv then oneResult false
    else
      match b with
      | .inf s2 =>
        match (exactOf s m e).cmp 1 0 with
        | .eq => oneResult false
        | .gt => if s2 then zeroResult false else .value (.inf false) {}
        | .lt => if s2 then .value (.inf false) {} else zeroResult false
      | _ => .value (.nan false) { nv := nv }
  | .inf _, .inf s2 => if s2 then zeroResult false else .value (.inf false) {}
  | _, _ => .value (.nan false) { nv := nv }

/-- VATN2 (R458): atan2(a, b), the special cases of the IEEE 754 atan2 operation. -/
def atan2Val (a b : Val) : Result :=
  let nv := sigNan a || sigNan b
  let frac := fun (s : Bool) (num den : Nat) => fxResult (let v := fxPi * num / den; if s then -v else v) 0
  match a, b with
  | .nan _, _ => .value (.nan false) { nv := nv }
  | _, .nan _ => .value (.nan false) { nv := nv }
  | .inf s, .inf t => if t then frac s 3 4 else frac s 1 4
  | .inf s, .fin _ _ _ => frac s 1 2
  | .fin s _ _, .inf t => if t then frac s 1 1 else zeroResult s
  | .fin s m1 e1, .fin t m2 e2 =>
    if m1 = 0 then (if t then frac s 1 1 else zeroResult s)
    else if m2 = 0 then frac s 1 2
    else
      -- atan of the ratio, between 0 and pi/2
      let d := e1 - e2
      let num : Nat := if 0 ≤ d then m1 * 2 ^ d.toNat else m1
      let den : Nat := if 0 ≤ d then m2 else m2 * 2 ^ (-d).toNat
      let at_ : Int := if num ≤ den then fxAtan (fxDiv num den) else fxPi / 2 - fxAtan (fxDiv den num)
      let v := if t then fxPi - at_ else at_
      fxResult (if s then -v else v) 0

end Sys2Proof.Machine
end

