-- ==== Sys2Proof/Machine/VecArith.lean ====
section
/-!
DEFINITION. Floating-point vector arithmetic and special functions (spec/06 R170, R171, R175), and extensions XF64 and XSF (spec/16
R456 to R458).
-/

namespace Sys2Proof.Machine

/-- A floating-point lane instruction: F of the values of va, vb and the old vd, rounded once under sys.frm (R157, R170). -/
def State.floatLanes (s : State) (la : BitVec 4) (f : FloatFmt) (m : BitVec 3) (vb va vd : BitVec 4) (word : BitVec 32)
    (F : Val → Val → Val → Result) : Out :=
  let mode := s.cx.roundMode 3
  let bits := f.bits
  let at_ := fun (v : BitVec 4) (i : Nat) => decodeFloat f (vlane (s.cx.readV v) bits i)
  s.vecNum la bits m vd word mode (fun i z => roundResult f mode z (F (at_ va i) (at_ vb i) (at_ vd i)))

/-- VMIN, VMAX and DMIN: the lane's code is one of the two operands' (R171). -/
def State.minMaxLanes (s : State) (la : BitVec 4) (f : FloatFmt) (m : BitVec 3) (vb va vd : BitVec 4) (word : BitVec 32)
    (greater : Bool) : Out :=
  let bits := f.bits
  let at_ := fun (v : BitVec 4) (i : Nat) => vlane (s.cx.readV v) bits i
  s.vecNum la bits m vd word .rne (fun i _ =>
    let (c, nv) := minMax f greater (at_ va i) (at_ vb i)
    (c, { nv := nv }))

/-- Whether the core has an extension, as sys.status reads (R20). -/
def Ctx.hasExtension (c : Ctx) (xf64 : Bool) : Bool := if xf64 then c.xf64 else c.xsf

/-- VADD (R170). -/
def execVadd (la : BitVec 4) (ty m : BitVec 3) (vb va vd : BitVec 4) (s : State) : Out :=
  s.floatLanes la (floatOf ty) m vb va vd (recordWord (wvWord 0x1c vd.toNat va.toNat vb.toNat m.toNat ty.toNat 0 la.toNat)) (fun a b _ => addVal a b)

/-- VSUB (R170). -/
def execVsub (la : BitVec 4) (ty m : BitVec 3) (vb va vd : BitVec 4) (s : State) : Out :=
  s.floatLanes la (floatOf ty) m vb va vd (recordWord (wvWord 0x1c vd.toNat va.toNat vb.toNat m.toNat ty.toNat 1 la.toNat)) (fun a b _ => addVal a (negVal b))

/-- VMUL (R170). -/
def execVmul (la : BitVec 4) (ty m : BitVec 3) (vb va vd : BitVec 4) (s : State) : Out :=
  s.floatLanes la (floatOf ty) m vb va vd (recordWord (wvWord 0x1c vd.toNat va.toNat vb.toNat m.toNat ty.toNat 2 la.toNat)) (fun a b _ => mulVal a b)

/-- VDIV (R170). -/
def execVdiv (la : BitVec 4) (ty m : BitVec 3) (vb va vd : BitVec 4) (s : State) : Out :=
  s.floatLanes la (floatOf ty) m vb va vd (recordWord (wvWord 0x1c vd.toNat va.toNat vb.toNat m.toNat ty.toNat 5 la.toNat)) (fun a b _ => divVal a b)

/-- VFMA (R170). -/
def execVfma (la : BitVec 4) (ty m : BitVec 3) (vb va vd : BitVec 4) (s : State) : Out :=
  s.floatLanes la (floatOf ty) m vb va vd (recordWord (wvWord 0x1d vd.toNat va.toNat vb.toNat m.toNat ty.toNat 0 la.toNat)) (fun a b c => fmaVal a b c)

/-- VFMS (R170). -/
def execVfms (la : BitVec 4) (ty m : BitVec 3) (vb va vd : BitVec 4) (s : State) : Out :=
  s.floatLanes la (floatOf ty) m vb va vd (recordWord (wvWord 0x1d vd.toNat va.toNat vb.toNat m.toNat ty.toNat 1 la.toNat)) (fun a b c => fmaVal a b (negVal c))

/-- VFNMA (R170). -/
def execVfnma (la : BitVec 4) (ty m : BitVec 3) (vb va vd : BitVec 4) (s : State) : Out :=
  s.floatLanes la (floatOf ty) m vb va vd (recordWord (wvWord 0x1d vd.toNat va.toNat vb.toNat m.toNat ty.toNat 2 la.toNat)) (fun a b c => fmaVal (negVal a) b c)

/-- VSQRT (R170). -/
def execVsqrt (la : BitVec 4) (ty m : BitVec 3) (va vd : BitVec 4) (s : State) : Out :=
  s.floatLanes la (floatOf ty) m 0 va vd (recordWord (wvWord 0x1d vd.toNat va.toNat 0 m.toNat ty.toNat 3 la.toNat)) (fun a _ _ => sqrtVal a)

/-- VEXP2 (R175). -/
def execVexp2 (la : BitVec 4) (ty m : BitVec 3) (va vd : BitVec 4) (s : State) : Out :=
  s.floatLanes la (floatOf ty) m 0 va vd (recordWord (wvWord 0x21 vd.toNat va.toNat 0 m.toNat ty.toNat 0 la.toNat)) (fun a _ _ => exp2Val a)

/-- VLOG2 (R175). -/
def execVlog2 (la : BitVec 4) (ty m : BitVec 3) (va vd : BitVec 4) (s : State) : Out :=
  s.floatLanes la (floatOf ty) m 0 va vd (recordWord (wvWord 0x21 vd.toNat va.toNat 0 m.toNat ty.toNat 1 la.toNat)) (fun a _ _ => log2Val a)

/-- VRCP (R175). -/
def execVrcp (la : BitVec 4) (ty m : BitVec 3) (va vd : BitVec 4) (s : State) : Out :=
  s.floatLanes la (floatOf ty) m 0 va vd (recordWord (wvWord 0x21 vd.toNat va.toNat 0 m.toNat ty.toNat 2 la.toNat)) (fun a _ _ => rcpVal a)

/-- VRSQ (R175). -/
def execVrsq (la : BitVec 4) (ty m : BitVec 3) (va vd : BitVec 4) (s : State) : Out :=
  s.floatLanes la (floatOf ty) m 0 va vd (recordWord (wvWord 0x21 vd.toNat va.toNat 0 m.toNat ty.toNat 3 la.toNat)) (fun a _ _ => rsqVal a)

/-- VTANH (R175). -/
def execVtanh (la : BitVec 4) (ty m : BitVec 3) (va vd : BitVec 4) (s : State) : Out :=
  s.floatLanes la (floatOf ty) m 0 va vd (recordWord (wvWord 0x21 vd.toNat va.toNat 0 m.toNat ty.toNat 4 la.toNat)) (fun a _ _ => tanhVal a)

/-- VSIG (R175). -/
def execVsig (la : BitVec 4) (ty m : BitVec 3) (va vd : BitVec 4) (s : State) : Out :=
  s.floatLanes la (floatOf ty) m 0 va vd (recordWord (wvWord 0x21 vd.toNat va.toNat 0 m.toNat ty.toNat 5 la.toNat)) (fun a _ _ => sigVal a)

/-- VSIN (R175). -/
def execVsin (la : BitVec 4) (ty m : BitVec 3) (va vd : BitVec 4) (s : State) : Out :=
  s.floatLanes la (floatOf ty) m 0 va vd (recordWord (wvWord 0x21 vd.toNat va.toNat 0 m.toNat ty.toNat 6 la.toNat)) (fun a _ _ => sinVal a)

/-- VCOS (R175). -/
def execVcos (la : BitVec 4) (ty m : BitVec 3) (va vd : BitVec 4) (s : State) : Out :=
  s.floatLanes la (floatOf ty) m 0 va vd (recordWord (wvWord 0x21 vd.toNat va.toNat 0 m.toNat ty.toNat 7 la.toNat)) (fun a _ _ => cosVal a)

/-- VMIN (R170). -/
def execVmin (la : BitVec 4) (ty m : BitVec 3) (vb va vd : BitVec 4) (s : State) : Out :=
  s.minMaxLanes la (floatOf ty) m vb va vd (recordWord (wvWord 0x1c vd.toNat va.toNat vb.toNat m.toNat ty.toNat 3 la.toNat)) false

/-- VMAX (R170). -/
def execVmax (la : BitVec 4) (ty m : BitVec 3) (vb va vd : BitVec 4) (s : State) : Out :=
  s.minMaxLanes la (floatOf ty) m vb va vd (recordWord (wvWord 0x1c vd.toNat va.toNat vb.toNat m.toNat ty.toNat 4 la.toNat)) true

/-- VABS (R170). -/
def execVabs (la : BitVec 4) (ty m : BitVec 3) (va vd : BitVec 4) (s : State) : Out :=
  let bits := tyBits ty
  s.vecMap la bits m vd (recordWord (wvWord 0x1c vd.toNat va.toNat 0 m.toNat ty.toNat 6 la.toNat)) (fun i => vlane (s.cx.readV va) bits i % 2 ^ (bits - 1))

/-- VNEG (R170). -/
def execVneg (la : BitVec 4) (ty m : BitVec 3) (va vd : BitVec 4) (s : State) : Out :=
  let bits := tyBits ty
  s.vecMap la bits m vd (recordWord (wvWord 0x1c vd.toNat va.toNat 0 m.toNat ty.toNat 7 la.toNat)) (fun i => Nat.xor (vlane (s.cx.readV va) bits i) (2 ^ (bits - 1)))

/-- VCPS (R170). -/
def execVcps (la : BitVec 4) (ty m : BitVec 3) (vb va vd : BitVec 4) (s : State) : Out :=
  let bits := tyBits ty
  s.vecMap la bits m vd (recordWord (wvWord 0x1d vd.toNat va.toNat vb.toNat m.toNat ty.toNat 4 la.toNat)) (fun i =>
    vlane (s.cx.readV va) bits i % 2 ^ (bits - 1) + vlane (s.cx.readV vb) bits i / 2 ^ (bits - 1) * 2 ^ (bits - 1))


end Sys2Proof.Machine
end

