-- ==== Sys2Proof/Machine/Blocks.lean ====
section
/-!
DEFINITION. Self-describing blocks (spec/05_number_formats.md R126 to R131).
-/

namespace Sys2Proof.Machine

/-- FMT (R126). -/
def blockFmt (b : Record) : Nat := rfield b 0 1

/-- KIND (R127). -/
def blockKind (b : Record) : Nat := rfield b 1 1 / 64

/-- EXP (R127). -/
def blockExp (b : Record) : Nat := rfield b 1 1 % 64

/-- The element width in bits of a format code; 0 for the zero block and for a code that is no format (R128). -/
def blockWidth (fmt : Nat) : Nat :=
  match fmt with
  | 0x04 => 4 | 0x08 => 8 | 0x09 => 8 | 0x10 => 16 | 0x11 => 16
  | _ => 0

/-- Elements of a block by width (R126, R128). -/
def blockElems (width : Nat) : Nat :=
  match width with
  | 4 => 124 | 8 => 62 | 16 => 31
  | _ => 0

/-- Whether a block passes the check of a format-aware read (R128, R131). -/
def blockOk (b : Record) : Bool :=
  blockFmt b == 0 || blockFmt b == 4 || (blockWidth (blockFmt b) != 0 && blockKind b == 0)

/-- The code of element i (R129). -/
def blockCode (b : Record) (width i : Nat) : Nat := lane (b.toNat / 2 ^ 16) width i

/-- The value of element i, scale included (R130); every element of a zero block is +0 (R128). -/
def blockVal (b : Record) (i : Nat) : Val :=
  let fmt := blockFmt b
  let code := blockCode b (blockWidth fmt) i
  let v : Val :=
    match fmt with
    | 0x04 => decode4 (blockKind b) code
    | 0x08 => decodeFloat .e4m3 code
    | 0x09 => decodeFloat .e5m2 code
    | 0x10 => decodeFloat .bf16 code
    | 0x11 => decodeFloat .f16 code
    | _ => .fin false 0 0
  match v with
  | .fin n m e => .fin n m (e + (blockExp b - 32 : Int))
  | v => v

end Sys2Proof.Machine
end

