-- ==== Sys2Proof/Machine/VecMem.lean ====
section
/-!
DEFINITION. Vector loads and stores, gathers and scatters, block-aware loads (spec/06 R161 to R169), their late faults, the replay slot
and the instructions that wait for it (spec/18 R467, R474).
-/

namespace Sys2Proof.Machine

/-- A run of a memory-accessing vector instruction: the state so far, the destination register, the fault met (cause,
sub-cause, virtual and physical address), the units completed, whether a bank that is being switched holds it (R306),
whether it touched the watched granule (R490), the flags of its units (R28), and whether units remain (R169). -/
structure VRun where
  s : State
  value : VWord
  fault : Option (Nat × Nat × Word × Nat)
  units : Nat
  held : Bool
  watched : Bool
  flags : Flags
  more : Bool
deriving DecidableEq, Repr

/-- A run that has done nothing yet. -/
def VRun.start (s : State) (value : VWord) (units : Nat) : VRun := ⟨s, value, none, units, false, false, {}, false⟩

/-- The unit before which a long form of so many units stops, when it may complete so many of them now (R169). -/
def VMem.stopAt (m : VMem) (limit : Option Nat) (total : Nat) : Nat := limit.elim total (fun n => Nat.min total (m.start + n))

/-- A run of a long form from its start to a stop (R169). -/
def VMem.begin (m : VMem) (s : State) (value : VWord) (stop total : Nat) : VRun :=
  { VRun.start s value stop with flags := m.flags, more := decide (stop < total) }

/-- Whether a run goes on. -/
def VRun.ok (r : VRun) : Bool := r.fault.isNone && !r.held

/-- A run stops at a unit with a fault. -/
def VRun.fail (r : VRun) (code sub : Nat) (va : Word) (pa unit : Nat) : VRun :=
  { r with fault := some (code, sub, va, pa), units := unit }

/-- Element size in bytes. -/
def VMem.size (m : VMem) : Nat := tyBits m.ty / 8

/-- Lanes of the type. -/
def VMem.lanes (m : VMem) : Nat := lanesOf (tyBits m.ty)

/-- The address of lane i (R163, R165). -/
def VMem.addr (m : VMem) (i : Nat) : Word :=
  let s := m.size
  match m.kind with
  | .vlds | .vsts => m.base + m.step * BitVec.ofNat 64 i
  | .vgather | .vscatter => m.base + wordOfInt (signed (8 * s) (vlane m.idx (8 * s) i) * s)
  | _ => m.base + m.step + BitVec.ofNat 64 (i * s)

/-- The lanes from a start on whose mask bit is 1. -/
def VMem.trueLanes (m : VMem) (start : Nat) : List Nat :=
  (List.range m.lanes).filter (fun i => decide (start ≤ i) && m.mask.getLsbD i)

/-- One lane of a register replaced. -/
def setLane (v : VWord) (bits i x : Nat) : VWord :=
  BitVec.ofNat 4096 (v.toNat - vlane v bits i * 2 ^ (bits * i) + x % 2 ^ bits * 2 ^ (bits * i))

/-- The bytes of lane i of the stored register. -/
def VMem.bytes (m : VMem) (i : Nat) : List Byte := bytesOf (vlane m.data (tyBits m.ty) i) m.size

/-- Alignment, translation and permission of an access of n bytes (R101): the cause and the physical address; cause 0 when
it passes. -/
def State.laneCheck (s : State) (va n : Nat) (level : BitVec 2) (store : Bool) : Nat × Nat :=
  if va % n ≠ 0 then (6, 0)
  else
    match s.translate (coreOf s.cx.key) s.cx.part level va store with
    | .fault code pa => (code, pa)
    | .ok _ pa => (0, pa)

/-- One access of a load, in order. -/
def VRun.load (r : VRun) (va : Word) (n unit : Nat) (level : BitVec 2) (put : VWord → Nat → VWord) : VRun :=
  if !r.ok then r
  else if va.toNat % n ≠ 0 then r.fail 6 0 va 0 unit
  else
    match r.s.dataRead va.toNat n level with
    | .held => { r with held := true }
    | .fault code pa => r.fail code 0 va pa unit
    | .value bytes s1 =>
      { r with s := s1, value := put r.value (ofBytes bytes), watched := r.watched || r.s.cx.watches va.toNat n false }

/-- The cause with which a vector store is turned away once its address is translated (R304, R315, R316, R384); 0 for none.
Only a whole 64-byte write reaches a command port. -/
def State.storeRefused (s : State) (leaf : Leaf) (pa n : Nat) : Nat :=
  let part := s.cx.part
  let core := coreOf s.cx.key
  let allowed : Bool :=
    match s.placeOf pa with
    | .hbm dev off =>
      if dev ≠ s.dev.toNat then s.grantsFabric part 0 rightWrite pa
      else !s.leavesCore leaf pa || s.grantsHbm ((s.partition part).homeOf off) part 0 rightWrite pa
    | .scratchpad g _ => s.grantsWindow (g / 32) part 0 rightWrite
    | .port c off => n == 64 && off % 64 == 0 && c == core && s.grantsWindow (core / 16) part 0 rightCommand
    | .farWindow _ => s.grantsFabric part 0 rightWrite pa
    | _ => false
  if allowed then 0 else 9

/-- One store of a vector instruction, in order (R161, R162). -/
def VRun.store (r : VRun) (va : Word) (bytes : List Byte) (unit : Nat) (level : BitVec 2) (word : BitVec 32) : VRun :=
  let n := bytes.length
  if !r.ok then r
  else if va.toNat % n ≠ 0 then r.fail 6 1 va 0 unit
  else
    match r.s.translate (coreOf r.s.cx.key) r.s.cx.part level va.toNat true with
    | .fault code pa => r.fail code 1 va pa unit
    | .ok leaf pa =>
      if r.s.ownBusy pa then { r with held := true }
      else if !r.s.placeBusy pa && r.s.storeRefused leaf pa n != 0 then r.fail 9 1 va pa unit
      else
        let s1 := if r.s.leavesCore leaf pa then r.s.ackRoom r.s.cx.tid 1 else r.s
        { r with
          s := (s1.tlbFill (coreOf s1.cx.key) s1.cx.part va.toNat leaf).putData leaf pa bytes va word
          watched := r.watched || r.s.cx.watches va.toNat n true }

/-- Stores that cover a whole 64-byte-aligned span become one write (R132, R161).  (DEDUCED, log entry 32.) -/
def spans (n : Nat) : Nat → List (Word × List Byte) → List (Word × List Byte)
  | 0, _ => []
  | _, [] => []
  | k + 1, (a, b) :: r =>
    let t := ((a, b) :: r).take (64 / n)
    if a.toNat % 64 = 0 ∧ t.length = 64 / n ∧ t.zipIdx.all (fun e => e.1.1 == a + BitVec.ofNat 64 (n * e.2)) then
      (a, t.flatMap (·.2)) :: spans n k (((a, b) :: r).drop (64 / n))
    else (a, b) :: spans n k r

/-- What the store finds wrong before any lane takes effect (R164): the first unit that fails.  (DEDUCED, log entry 32.) -/
def State.firstBad (s : State) (level : BitVec 2) (store : Bool) (access : Nat → Nat → Nat) :
    List (Word × Nat) → Option (Nat × Nat × Word × Nat)
  | [] => none
  | (va, n) :: r =>
    let (code, pa) := s.laneCheck va.toNat n level store
    if code ≠ 0 then some (code, if store then 1 else 0, va, pa)
    else if access va.toNat n ≠ 0 then some (access va.toNat n, 1, va, pa)
    else s.firstBad level store access r

/-- The refusal of a translated store (R317). -/
def State.accessBad (s : State) (level : BitVec 2) (va n : Nat) : Nat :=
  match s.translate (coreOf s.cx.key) s.cx.part level va true with
  | .ok leaf pa => s.storeRefused leaf pa n
  | .fault _ _ => 0

/-- VLD and VLDS (R163, R164): every true lane is checked before any takes effect. -/
def State.runLoad (s : State) (m : VMem) (old : VWord) : VRun :=
  let z := VRun.start s old 0
  match s.firstBad m.level false (fun _ _ => 0) ((m.trueLanes 0).map (fun i => (m.addr i, m.size))) with
  | some f => { z with fault := some f }
  | none =>
    let r := (m.trueLanes 0).foldl (fun r i =>
      r.load (m.addr i) m.size 0 m.level (fun v x => setLane v (tyBits m.ty) i x)) z
    if r.ok then r else { r with s := s, value := old }

/-- VST and VSTS (R163, R164). -/
def State.runStore (s : State) (m : VMem) : VRun :=
  let z := VRun.start s 0 0
  let l := m.trueLanes 0
  let units := spans m.size l.length (l.map (fun i => (m.addr i, m.bytes i)))
  let plain := l.map (fun i => (m.addr i, m.size))
  match (s.firstBad m.level true (fun _ _ => 0) plain).orElse (fun _ =>
      s.firstBad m.level true (s.accessBad m.level) (units.map (fun u => (u.1, u.2.length)))) with
  | some f => { z with fault := some f }
  | none =>
    let r := units.foldl (fun r u => r.store u.1 u.2 0 m.level m.word) z
    if r.ok then r else { r with s := s }

/-- The true lanes from a long form's start to a stop (R169). -/
def VMem.span (m : VMem) (stop : Nat) : List Nat := (m.trueLanes m.start).filter (fun i => decide (i < stop))

/-- VGATHER from a lane on (R165, R169). -/
def State.runGather (s : State) (m : VMem) (old : VWord) (limit : Option Nat) : VRun :=
  let stop := m.stopAt limit m.lanes
  (m.span stop).foldl (fun r i =>
    r.load (m.addr i) m.size i m.level (fun v x => setLane v (tyBits m.ty) i x)) (m.begin s old stop m.lanes)

/-- VSCATTER from a lane on (R165, R169). -/
def State.runScatter (s : State) (m : VMem) (limit : Option Nat) : VRun :=
  let stop := m.stopAt limit m.lanes
  (m.span stop).foldl (fun r i => r.store (m.addr i) (m.bytes i) i m.level m.word) (m.begin s 0 stop m.lanes)

/-- A format-aware read of a block (R131, R167): a format fault when its page is not block-formatted, when it fails R128, or
when its format is not accepted. -/
def VRun.block (r : VRun) (va : Word) (unit : Nat) (level : BitVec 2) (accept : Nat → Bool) (put : VRun → Record → VRun) :
    VRun :=
  if !r.ok then r
  else if va.toNat % 64 ≠ 0 then r.fail 6 0 va 0 unit
  else
    match r.s.translate (coreOf r.s.cx.key) r.s.cx.part level va.toNat false with
    | .fault code pa => r.fail code 0 va pa unit
    | .ok leaf pa =>
      if !leaf.blk then r.fail 10 0 va pa unit
      else
        let low := ({ r with s := r.s.alignBlock r.s.cx.key pa } : VRun).load va 32 unit level (fun _ x => BitVec.ofNat 4096 x)
        let both := low.load (va + 32) 32 unit level (fun v x => BitVec.ofNat 4096 (v.toNat + x * 2 ^ 256))
        if !both.ok then { both with value := r.value }
        else
          let b : Record := BitVec.ofNat 512 both.value.toNat
          if blockOk b && accept (blockFmt b) then put { both with value := r.value } b
          else { r with fault := some (10, 0, va, pa), units := unit }

/-- Blocks that VLDB reads, by ty (R166). -/
def vldbBlocks (ty : BitVec 3) : Nat := match ty.toNat with | 0 => 1 | 1 => 2 | _ => 4

/-- Formats that VLDB accepts, by ty (R166). -/
def vldbAccepts (ty : BitVec 3) (fmt : Nat) : Bool :=
  fmt == 0 ||
    match ty.toNat with
    | 0 => fmt == 0x04
    | 1 => fmt == 0x08 || fmt == 0x09
    | _ => fmt == 0x10 || fmt == 0x11

/-- The elements of block j delivered as FP32 (R166). -/
def VRun.deliverBlock (r : VRun) (m : VMem) (per j : Nat) (b : Record) : VRun :=
  (List.range per).foldl (fun r k =>
    let i := j * per + k
    if m.mask.getLsbD i then
      let (c, f) := roundValFloat .f32 .rne 0 (blockVal b k)
      { r with value := setLane r.value 32 i c, flags := r.flags.or f }
    else r) r

/-- VLDB from a block on (R166, R169). -/
def State.runBlocks (s : State) (m : VMem) (old : VWord) (limit : Option Nat) : VRun :=
  let b := vldbBlocks m.ty
  let stop := m.stopAt limit b
  let per := 124 / b
  let touched := fun (j : Nat) => (List.range per).any (fun k => m.mask.getLsbD (j * per + k))
  let r := ((List.range stop).filter (fun j => decide (m.start ≤ j) && touched j)).foldl (fun r j =>
    r.block (m.base + m.step + BitVec.ofNat 64 (64 * j)) j m.level (vldbAccepts m.ty) (fun r blk => r.deliverBlock m per j blk))
    (m.begin s old stop b)
  let tail := (List.range 4).filter (fun k => m.mask.getLsbD (124 + k))
  if r.ok && !r.more then { r with value := tail.foldl (fun v k => setLane v 32 (124 + k) 0) r.value } else r

/-- VLDBC (R168): no byte is written unless every true block passes. -/
def State.runRawBlocks (s : State) (m : VMem) (old : VWord) : VRun :=
  let r := ((List.range 8).filter m.mask.getLsbD).foldl (fun r j =>
    r.block (m.base + m.step + BitVec.ofNat 64 (64 * j)) 0 m.level (fun _ => true)
      (fun r blk => { r with value := setLane r.value 512 j blk.toNat })) (VRun.start s old 0)
  if r.ok then r else { r with s := s, value := old }

/-- The registers that a memory-accessing vector instruction fills. -/
def VMem.dest (m : VMem) : List (BitVec 4) :=
  match m.kind with
  | .vld | .vlds | .vgather | .vldb | .vldbc => [BitVec.ofNat 4 m.vreg]
  | _ => []

/-- A vector register written by a completion: windows keep the old value they hold for it (R46). -/
def Ctx.putV (c : Ctx) (r : BitVec 4) (v : VWord) : Ctx := { c with v := c.v.set r.toNat v r.isLt }

/-- The instruction as a run leaves it: it goes on from the units done, with their flags. -/
def VMem.after (m : VMem) (r : VRun) : VMem := { m with start := r.units, flags := r.flags }

/-- What a run leaves in the context besides memory (R28, R467, R471, R474): its ring entry completed and its flags merged, or
nothing more while units remain, or the entry faulted with its progress index, the replay slot kept and the late fault due after so
many more instructions of the code that issued it. -/
def Ctx.settleRun (c : Ctx) (m : VMem) (r : VRun) (left depth : Nat) : Ctx :=
  let watch : List LateFault :=
    if r.watched && !c.faults.any (fun f => f.seq == m.seq && f.code == 15) then [⟨m.seq, left, depth, 15, 2, false, 0, none⟩] else []
  match r.fault with
  | none =>
    if r.more then { c with faults := c.faults ++ watch }
    else { ((c.ringSet m.seq (fun e => { e with state := 3 })).mergeFlags r.flags) with faults := c.faults ++ watch }
  | some (code, sub, va, pa) =>
    let pidx := BitVec.ofNat 32 r.units
    let rec_ := mkRecord code sub 1 pidx c.tag m.seq va (BitVec.ofNat 64 pa) m.pc m.word c.tid
    let late : LateFault :=
      if code = 2 then ⟨m.seq, left, depth, 2, 0, false, 0, none⟩ else ⟨m.seq, left, depth, code, sub, true, pidx, some rec_⟩
    { (c.ringSet m.seq (fun e => { e with state := 4, pidx := pidx })) with
      faults := c.faults ++ [late] ++ watch
      replay := some (m.after r) }

end Sys2Proof.Machine
end

