-- ==== Sys2Proof/Machine/VecChain.lean ====
section
/-!
DEFINITION. The memory-to-memory chain (spec/06 R188 to R190), and the issue, the start and the replay of every memory-accessing
vector instruction (spec/18 R468, R474).
-/

namespace Sys2Proof.Machine

/-- The operation codes of ox0, up to the first zero byte (R189). -/
def chainCodes (ox0 : Word) : List Nat := ((List.range 8).map (fun i => lane ox0.toNat 8 i)).takeWhile (· != 0)

/-- The checks of R189 on the ox registers. -/
def chainLegal (ox0 ox1 : Word) : Bool :=
  decide (ox1.toNat < 2 ^ 32) && (chainCodes ox0).all (fun c => decide (c ≤ 13)) &&
    decide (ox0.toNat < 2 ^ (8 * (chainCodes ox0).length))

/-- Whether the list uses the second stream (R189). -/
def chainSecond (codes : List Nat) : Bool := codes.any (fun c => c == 1 || c == 2 || c == 13)

/-- max and min of the chain under the rules of VMAX and VMIN (R171, R189). -/
def chainMinMax (greater : Bool) (a b : Val) : Val × Flags :=
  let f : Flags := { nv := sigNan a || sigNan b }
  if isNan a && isNan b then (.nan false, f)
  else if isNan a then (b, f)
  else if isNan b then (a, f)
  else
    match cmpVal true a b with
    | .lt => (if greater then b else a, f)
    | .gt => (if greater then a else b, f)
    | .eq => (a, f)

/-- One step of the chain on t, rounded into FP32 (R189, R190). -/
def chainStep (t c s : Val) (code : Nat) : Val × Flags :=
  let round := fun (r : Result) => let (x, f) := roundResult .f32 .rne 0 r; (decodeFloat .f32 x, f)
  match code with
  | 1 => round (addVal t s)
  | 2 => round (mulVal t s)
  | 3 => round (addVal t c)
  | 4 => round (mulVal t c)
  | 5 => chainMinMax true t c
  | 6 => chainMinMax false t c
  | 7 => (negVal t, {})
  | 8 => ((match t with | .fin _ m e => .fin false m e | .inf _ => .inf false | v => v), {})
  | 9 => round (exp2Val t)
  | 10 => round (sigVal t)
  | 11 => round (tanhVal t)
  | 12 => round (rcpVal t)
  | _ => round (fmaVal t c s)

/-- The whole list on t. -/
def chainSteps (c s : Val) : List Nat → Val → Flags → Val × Flags
  | [], t, f => (t, f)
  | k :: ks, t, f =>
    let (t', g) := chainStep t c s k
    chainSteps c s ks t' (f.or g)

/-- The running sum of VCHAINR, carried beside the run. -/
structure ChainRun where
  run : VRun
  sum : Nat
deriving DecidableEq, Repr

/-- Element j of a chain: loaded, worked on, and stored or summed (R190). -/
def ChainRun.element (q : ChainRun) (m : VMem) (j : Nat) : ChainRun :=
  let n := m.size
  let off := BitVec.ofNat 64 (j * n)
  let codes := chainCodes (m.ox[0]?.getD 0)
  let raw := fun (r : VRun) (a : Word) => r.load a n j m.level (fun _ x => BitVec.ofNat 4096 x)
  let r1 := raw q.run (m.base + off)
  let r2 := if chainSecond codes then raw { r1 with value := 0 } ((m.ox[2]?.getD 0) + off) else r1
  if !r2.ok then { q with run := { r2 with value := 0 } }
  else
    let f := floatOf m.ty
    let c := decodeFloat .f32 ((m.ox[3]?.getD 0).toNat % 2 ^ 32)
    let (t, flags) := chainSteps c (decodeFloat f (r2.value.toNat)) codes (decodeFloat f r1.value.toNat) {}
    if m.kind = .vchainr then
      let (sum, g) := roundResult .f32 .rne 0 (addVal (decodeFloat .f32 q.sum) t)
      ⟨{ r2 with flags := r2.flags.or (flags.or g), value := 0 }, sum⟩
    else
      let (code, g) := roundValFloat f .rne 0 t
      let r3 := r2.store (m.step + off) (bytesOf code n) j m.level m.word
      { q with run := { r3 with flags := if r3.ok then r3.flags.or (flags.or g) else r3.flags, value := 0 } }

/-- Elements in ascending order. -/
def chainElements (m : VMem) (q : ChainRun) : Nat → Nat → ChainRun
  | _, 0 => q
  | j, k + 1 => if q.run.ok then chainElements m (q.element m j) (j + 1) k else q

/-- The first fault of the accesses that VCHAINR makes at its first element, in the order of R190: the element, the second
stream's, the sum read, and the sum written.  The check of the write is made here, before any element is summed.  (DEDUCED, log entry 62.) -/
def State.sumCheck (s : State) (m : VMem) (j : Nat) : Option (Nat × Nat × Word × Nat) :=
  let off := BitVec.ofNat 64 (j * m.size)
  let second := chainSecond (chainCodes (m.ox[0]?.getD 0))
  let accesses : List (Word × Nat × Bool) :=
    [(m.base + off, m.size, false)] ++ (if second then [((m.ox[2]?.getD 0) + off, m.size, false)] else []) ++
      [(m.step, 4, false), (m.step, 4, true)]
  accesses.findSome? (fun a =>
    let (code, pa) := s.laneCheck a.1.toNat a.2.1 m.level a.2.2
    if code = 0 then none else some (code, if a.2.2 then 1 else 0, a.1, pa))

/-- VCHAIN and VCHAINR from an element on (R189, R190): the checks on the ox registers come first, and a count of 0 accesses
nothing.  VCHAINR reads its sum at the first element and stores it after the last and at a stop. -/
def State.runChain (s : State) (m : VMem) (limit : Option Nat) : VRun :=
  let start := m.start
  let total := (m.ox[1]?.getD 0).toNat
  let count := m.stopAt limit total
  let z := m.begin s 0 count total
  if !chainLegal (m.ox[0]?.getD 0) (m.ox[1]?.getD 0) then z.fail 2 0 0 0 0
  else if count ≤ start then z
  else if m.kind = .vchainr then
    match s.sumCheck m start with
    | some (code, sub, va, pa) => z.fail code sub va pa start
    | none =>
      let r := z.load m.step 4 start m.level (fun _ x => BitVec.ofNat 4096 x)
      if !r.ok then r
      else
        let q := chainElements m ⟨{ r with value := 0 }, r.value.toNat⟩ start (count - start)
        if q.run.held then q.run
        else
          let again : VRun := { q.run with fault := none, units := count }
          let stored := again.store m.step (bytesOf q.sum 4) q.run.units m.level m.word
          if q.run.ok then stored
          else { stored with fault := q.run.fault, units := q.run.units }
  else
    (chainElements m ⟨z, 0⟩ start (count - start)).run

/-- A memory-accessing vector instruction runs from its start; old is what its destination holds (R154); limit is how many units a
long form may complete now (R169). -/
def State.runMem (s : State) (m : VMem) (old : VWord) (limit : Option Nat) : VRun :=
  match m.kind with
  | .vld | .vlds => s.runLoad m old
  | .vst | .vsts => s.runStore m
  | .vgather => s.runGather m old limit
  | .vscatter => s.runScatter m limit
  | .vldb => s.runBlocks m old limit
  | .vldbc => s.runRawBlocks m old
  | .vchain | .vchainr => s.runChain m limit

/-- What the destination of an instruction holds. -/
def Ctx.destValue (c : Ctx) (m : VMem) : VWord := c.rawV (BitVec.ofNat 4 m.vreg)

/-- A waiting, stopped or replayed instruction runs on (R169, R468, R474); the pc stands at the instruction while it runs, for
the records of its stores.  Held at a bank that is being switched, it answers none; with units that remain, it answers how it goes
on. -/
def State.rerun (s : State) (m : VMem) (left depth : Nat) : Option (State × Option VMem) :=
  let pc := s.cx.pc
  let r := (s.withCx (fun c => { c with pc := m.pc })).runMem m (s.cx.destValue m) s.cx.limit
  if r.held then none
  else
    some
      (r.s.withCx (fun c =>
        ({ m.dest.foldl (fun (c : Ctx) d => c.putV d r.value) c with pc := pc }).settleRun m r left depth),
       if r.fault.isNone && r.more then some (m.after r) else none)

/-- The waiting memory-accessing vector instructions start in order while the replay slot is free, and a long form in progress goes
on (R169, R474).  (DESIGN CHOICE, log entry 31.) -/
def State.startWaiting (s : State) : Nat → State
  | 0 => s
  | n + 1 =>
    if s.cx.replay.isSome then s
    else
      match s.cx.pends.find? Pend.isVector with
      | none => s
      | some p =>
        match p.kind with
        | .vector m =>
          match s.rerun m p.left p.depth with
          | none => s
          | some (s1, none) =>
            (s1.withCx (fun c => { c with pends := removeFirst (fun q => q == p) c.pends })).startWaiting n
          | some (s1, some m') =>
            s1.withCx (fun c =>
              { (c.ringSet m.seq (fun e => { e with state := 2 })) with
                pends := updateFirst (fun q => q == p) (fun q => { q with kind := .vector m' }) c.pends })
        | _ => s

/-- A memory-accessing vector instruction issues (R45, R163, R471, R474): update is the address register that o writes at
once.  While the replay slot is held, or an older one waits for it or is in progress, it waits; a long form with units that remain
stays in progress. -/
def State.issueMem (s : State) (la : BitVec 4) (m : VMem) (update : Option (Reg × Word)) : Out :=
  let d : Dests := ⟨[], m.dest, []⟩
  let waits := s.cx.replay.isSome || s.cx.pends.any Pend.isVector
  let upd : Ctx → Ctx := fun c => update.elim c (fun u => c.writeX u.1 u.2)
  .next (s.ringGate la { d with xs := update.toList.map (·.1) }
    (if waits then
      s.withCx (fun c => ((upd c).ringTake c.pc m.word 0 1 0 none).retirePend s.cx la d (.vector m) 0 m.word 0)
     else
      let r := (s.withCx upd).runMem m (s.cx.destValue m) s.cx.limit
      if r.held then s.stall
      else
        r.s.withCx (fun c =>
          let c1 := (m.dest.foldl (fun (c : Ctx) d => c.writeV d r.value) c).ringTake c.pc m.word 0 2 0 none
          (if r.fault.isNone && r.more then c1.retirePend s.cx la d (.vector (m.after r)) 0 m.word 0
           else c1.retireLong s.cx la d).settleRun m r la.toNat c.depth)))

/-- An instruction of format WVM as it issues (R163, R166, R168). -/
def State.issueWvm (s : State) (kind : VKind) (maj : Nat) (la : BitVec 4) (o : BitVec 1) (ty m : BitVec 3) (xb xa : Reg)
    (v : BitVec 4) (update : Word) : Out :=
  s.issueMem la
    { kind := kind, ty := ty, vreg := v.toNat, base := s.x xa, step := s.x xb, idx := 0, data := s.cx.readV v,
      mask := s.cx.readM m, ox := [], seq := s.cx.nextSeq, pc := s.cx.pc,
      word := recordWord (wvmWord maj v.toNat xa.toNat xb.toNat m.toNat ty.toNat o.toNat la.toNat), level := s.cx.pl, start := 0, flags := {} }
    (if o = 1 then some (xa, update) else none)

/-- An instruction of format WVG as it issues (R165). -/
def State.issueWvg (s : State) (kind : VKind) (maj : Nat) (la : BitVec 4) (ty m : BitVec 3) (xa : Reg) (vi v : BitVec 4) :
    Out :=
  s.issueMem la
    { kind := kind, ty := ty, vreg := v.toNat, base := s.x xa, step := 0, idx := s.cx.readV vi, data := s.cx.readV v,
      mask := s.cx.readM m, ox := [], seq := s.cx.nextSeq, pc := s.cx.pc,
      word := recordWord (wvgWord maj v.toNat vi.toNat xa.toNat m.toNat ty.toNat la.toNat), level := s.cx.pl, start := 0, flags := {} } none

/-- VCHAIN and VCHAINR as they issue (R188). -/
def State.issueChain (s : State) (kind : VKind) (fn : Nat) (la : BitVec 4) (ty : BitVec 3) (va vd : BitVec 4) : Out :=
  s.issueMem la
    { kind := kind, ty := ty, vreg := 0, base := s.x (lowReg va), step := s.x (lowReg vd), idx := 0, data := 0,
      mask := BitVec.allOnes 1024, ox := [s.cx.readOx 0, s.cx.readOx 1, s.cx.readOx 2, s.cx.readOx 3], seq := s.cx.nextSeq,
      pc := s.cx.pc, word := recordWord (wvWord 0x27 vd.toNat va.toNat 0 0 ty.toNat fn la.toNat), level := s.cx.pl, start := 0, flags := {} } none

/-- X[xa] after an update of VLD or VST (R163). -/
def State.afterSpan (s : State) (xb xa : Reg) (bytes : Nat) : Word := s.x xa + s.x xb + BitVec.ofNat 64 bytes

/-- X[xa] after an update of VLDS or VSTS (R163). -/
def State.afterStride (s : State) (ty : BitVec 3) (xb xa : Reg) : Word :=
  s.x xa + s.x xb * BitVec.ofNat 64 (lanesOf (tyBits ty))

/-- VLD (R163). -/
def execVld (la : BitVec 4) (o : BitVec 1) (ty m : BitVec 3) (xb xa : Reg) (v : BitVec 4) (s : State) : Out :=
  s.issueWvm .vld 0x14 la o ty m xb xa v (s.afterSpan xb xa 512)

/-- VLDS (R163). -/
def execVlds (la : BitVec 4) (o : BitVec 1) (ty m : BitVec 3) (xb xa : Reg) (v : BitVec 4) (s : State) : Out :=
  s.issueWvm .vlds 0x15 la o ty m xb xa v (s.afterStride ty xb xa)

/-- VGATHER (R165). -/
def execVgather (la : BitVec 4) (ty m : BitVec 3) (xa : Reg) (vi v : BitVec 4) (s : State) : Out :=
  s.issueWvg .vgather 0x16 la ty m xa vi v

/-- VLDB (R166). -/
def execVldb (la : BitVec 4) (o : BitVec 1) (ty m : BitVec 3) (xb xa : Reg) (v : BitVec 4) (s : State) : Out :=
  s.issueWvm .vldb 0x17 la o ty m xb xa v (s.afterSpan xb xa (64 * vldbBlocks ty))

/-- VST (R163). -/
def execVst (la : BitVec 4) (o : BitVec 1) (ty m : BitVec 3) (xb xa : Reg) (v : BitVec 4) (s : State) : Out :=
  s.issueWvm .vst 0x18 la o ty m xb xa v (s.afterSpan xb xa 512)

/-- VSTS (R163). -/
def execVsts (la : BitVec 4) (o : BitVec 1) (ty m : BitVec 3) (xb xa : Reg) (v : BitVec 4) (s : State) : Out :=
  s.issueWvm .vsts 0x19 la o ty m xb xa v (s.afterStride ty xb xa)

/-- VSCATTER (R165). -/
def execVscatter (la : BitVec 4) (ty m : BitVec 3) (xa : Reg) (vi v : BitVec 4) (s : State) : Out :=
  s.issueWvg .vscatter 0x1a la ty m xa vi v

/-- VLDBC (R168). -/
def execVldbc (la : BitVec 4) (o : BitVec 1) (m : BitVec 3) (xb xa : Reg) (v : BitVec 4) (s : State) : Out :=
  s.issueWvm .vldbc 0x1b la o 0 m xb xa v (s.afterSpan xb xa 512)

/-- VCHAIN (R188). -/
def execVchain (la : BitVec 4) (ty : BitVec 3) (va vd : BitVec 4) (s : State) : Out := s.issueChain .vchain 0 la ty va vd

/-- VCHAINR (R188). -/
def execVchainr (la : BitVec 4) (ty : BitVec 3) (va vd : BitVec 4) (s : State) : Out := s.issueChain .vchainr 1 la ty va vd

end Sys2Proof.Machine
end

