-- ==== Sys2Proof/Machine/System.lean ====
section
/-!
DEFINITION. The system instructions besides MFS and MTS (spec/04 R109 to R118, spec/18 R466, R468).
-/

namespace Sys2Proof.Machine

/-- Whether a long-latency instruction of the running code has not completed. -/
def Ctx.open_ (c : Ctx) : Bool := c.pends.any (fun p => p.depth == c.depth)

/-- An instruction of R51: it waits until every open long-latency instruction has completed, closes the windows, and takes its
effect. -/
def State.closing (s : State) (effect : State → State) : State :=
  if s.cx.open_ then s.stall else effect (s.withCx Ctx.closeWindows)

/-- An instruction that requires a level: the privilege trap below it (R109). -/
def State.atLevel (s : State) (level : Nat) (effect : State) : State :=
  if s.cx.pl.toNat < level then s.precise 3 0 else effect

/-- TRAP (R112): ERET resumes after it. -/
def execTrap (sel : BitVec 11) (s : State) : Out :=
  .next (s.closing (fun s => s.trap 13 sel.toNat false false (s.cx.pc + 4) 0 0 none))

/-- BRK (R112): sys.epc holds its own address. -/
def execBrk (sel : BitVec 11) (s : State) : Out :=
  .next (s.closing (fun s => s.trap 14 sel.toNat false false s.cx.pc 0 0 none))

/-- What ERET does with the faulted instruction that sys.eseq names (R468), after the return: replayed from sys.pidx at the level
before the trap, or aborted; the instructions that waited for the replay slot then start.  Held at a bank that is being switched,
the replay answers none; a replay that stops again goes on before them. -/
def State.resolveReplay (s : State) (rpl : Bool) (eseq pidx : BitVec 32) (level : BitVec 2) : Option State :=
  match s.cx.replay with
  | none => some s
  | some m =>
    if m.seq ≠ eseq then some s
    else
      let free := s.withCx (fun c => { c with replay := none })
      let done :=
        if rpl then free.rerun { m with level := level, start := pidx.toNat } 0 s.cx.depth
        else some (free.withCx (fun c => c.ringSet eseq (fun e => { e with state := 5 })), none)
      done.map (fun r =>
        match r.2 with
        | some m' => r.1.withCx (fun c =>
            { (c.ringSet eseq (fun e => { e with state := 2 })) with
              pends := ⟨.vector m', 0, 0, c.depth, 0, m.pc, m.word, 0⟩ :: c.pends })
        | none => r.1.startWaiting r.1.cx.pends.length)

/-- ERET (R113, R468). -/
def execEret (s : State) : Out :=
  .next (s.atLevel 1 (s.closing (fun s1 =>
    let c := s1.cx
    (s1.returnFromTrap.resolveReplay c.cause.rpl c.eseq c.pidx c.cause.ppl).getD s.stall)))

/-- Whether an asynchronous trap is due for the context (R114, R467, R470). -/
def Ctx.asyncDue (c : Ctx) : Bool :=
  c.faults.any (fun f => f.depth == c.depth) || (c.pl == 0 && c.records.any (fun h => h.slot.isSome && h.code != 0))

/-- A held wake request is cleared (R114). -/
def State.takeWake (s : State) (k : Nat) : State :=
  { s with firmware := { s.firmware with
      cores := s.firmware.cores.zipIdx.map (fun e => if e.2 = k then { e.1 with wake := false } else e.1) } }

/-- Whether a wake request is held for the running core of a firmware complex (R114, R514). -/
def State.wakeHeld (s : State) : Bool := s.cx.pl == 2 && (s.firmware.cores[fwIndex s.cx.key]?).any (·.wake)

/-- The wake conditions of WAITI, in their order: the reason, none when the wait goes on (R114). -/
def State.waitiReason (s : State) (limit : Word) : Option Nat :=
  if s.cx.asyncDue then some 1
  else if s.wakeHeld then some 2
  else if limit ≠ 0 ∧ limit.toNat ≤ s.clock then some 0
  else none

/-- WAITI ends with a reason; the wake request that it reports is cleared (R114). -/
def State.waitiEnd (s : State) (d : Reg) (reason : Nat) : State :=
  let s1 := if reason = 2 then s.takeWake (fwIndex s.cx.key) else s
  s1.withCx (fun c => (c.writeX d (BitVec.ofNat 64 reason)).retire 4)

/-- A context in WAITI tests its wake conditions, at its turn or at a happening. -/
def State.testWaiti (s : State) : State :=
  match s.cx.run with
  | .waiting (.waiti d limit) =>
    match s.waitiReason limit with
    | some r => s.waitiEnd d r
    | none => s
  | _ => s

/-- WAITI (R114). -/
def execWaiti (d a : Reg) (s : State) : Out :=
  .next (s.atLevel 1 (s.closing (fun s =>
    (s.withCx (fun c => { c with run := .waiting (.waiti d (c.readX a)) })).testWaiti)))

/-- WAITI_WAKE (R114): a wake condition holds for a context in WAITI. -/
def execWaitiWake (ctx : Nat) (s : State) : Out := .next (s.onCtx ctx State.testWaiti)

/-- WAITI_TIMEOUT (R114): the clock reaches the limit of a context in WAITI. -/
def execWaitiTimeout (ctx : Nat) (s : State) : Out := .next (s.onCtx ctx State.testWaiti)

/-- SYNCI (R115): the instruction cache of the core is invalidated. -/
def execSynci (s : State) : Out :=
  .next ((s.withCore (coreOf s.cx.key) (fun c => { c with icache := [] })).withCx (fun c => c.retire 4))

/-- TLBI (R116). -/
def execTlbi (a : Reg) (s : State) : Out :=
  let va := (s.x a).toNat
  let gone := fun (e : TlbEntry) => e.part == s.cx.part && (va == 0 || e.va / e.leaf.size == va / e.leaf.size)
  .next (s.atLevel 1
    ((s.withCore (coreOf s.cx.key) (fun c => { c with tlb := c.tlb.filter (fun e => !gone e) })).withCx (fun c => c.retire 4)))

/-- What TLBA writes for a leaf that may be read (R117). -/
def tlbaWord (l : Leaf) (va : Nat) (level : BitVec 2) : Word :=
  BitVec.ofNat 64
    (l.addr va % 2 ^ 58 + (if l.check level true = 0 then 2 ^ 58 else 0) + l.wsc.toNat * 2 ^ 59 + l.blk.toNat * 2 ^ 61 +
      l.ros.toNat * 2 ^ 62)

/-- TLBA (R117). -/
def execTlba (d a : Reg) (s : State) : Out :=
  let va := (s.x a).toNat
  let core := coreOf s.cx.key
  .next (s.atLevel 1 (s.gate 0 ⟨[d], [], []⟩
    (match s.leafAt core s.cx.part va with
      | none => s.withCx (fun c => (c.writeX d 0x8000000000000000).retire 4)
      | some l =>
        let v := if l.check s.cx.pl false = 0 then tlbaWord l va s.cx.pl else 0x8000000000000000
        (s.tlbFill core s.cx.part va l).withCx (fun c => (c.writeX d v).retire 4))))

/-- HALT (R118): below level 2 the privilege trap.  (DEDUCED, log entry 61.) -/
def execHalt (s : State) : Out :=
  .next (s.atLevel 2 (s.closing (fun s => s.withCx (fun c => { c with pc := c.pc + 4, run := .halted }))))

end Sys2Proof.Machine
end

