-- ==== Sys2Proof/Machine/Tasks.lean ====
section
/-!
DEFINITION. FORK, JOIN, EXIT, YIELD, DOMAIN, SPAWNQ and REND (spec/10_parallel_instructions.md R264 to R271, R278).
-/

namespace Sys2Proof.Machine

/-- The scope of a domain level (R266): core, cluster, device. -/
def domainScope (level : BitVec 2) : BitVec 2 := if level = 3 then 2 else level

/-- The release with which the running task ends, once its own stores are acknowledged (R268, R278): what it writes back reaches its homes
before the end, so that whoever acquires from it sees that (R333). -/
def State.lastRelease (s : State) (scope : BitVec 2) : State :=
  let s1 := s.boundary (some scope) none
  s1.drainFirst (fun e => s1.heldBack s1.cx.before (.homeRequest e))

/-- The child of a FORK, as it waits in a deque (R265), with its parent's releases up to then; the context that runs it adds what is its own. -/
def State.forked (s : State) (entry arg : Word) : Ctx :=
  let p := s.cx
  let c := (((Ctx.idle p.key).writeX 10 arg).writeX 11 p.entryTarget).writeX 12 (zext p.entrySender)
  { c with
    part := p.part, pc := entry &&& ~~~1, frm := p.frm, seed := p.seed, tag := p.tag, cls := p.cls
    eff := BitVec.ofNat 2 (Nat.max p.cls.toNat (s.floorOf p).toNat)
    dline := p.dline, domain := p.domain, ss := p.ss, bpa := p.bpa, wpa := p.wpa, tid := s.newTid, nextSeq := 1
    actor := p.actor, parent := p.tid, forkScope := domainScope p.domain, entryTarget := p.entryTarget
    entrySender := p.entrySender, queue := p.queue, epoch := p.epoch, sysEpoch := p.sysEpoch }

/-- Whether a core's deque has room for one more entry, spilled entries included (R216). -/
def State.dequeRoom (s : State) (core part : Nat) : Bool :=
  decide (((tget s.cores core Core.reset).deque.filter (fun e => !e.spilled)).length < 32) ||
    decide (64 ≤ (s.partition part).spillFree)

/-- A task pushed onto the head of a core's deque; a full deque spills its oldest entry (R216). -/
def State.pushTask (s : State) (core : Nat) (e : DequeEntry) : State :=
  let d := (tget s.cores core Core.reset).deque
  if (d.filter (fun e => !e.spilled)).length < 32 then s.withCore core (fun c => { c with deque := e :: c.deque })
  else
    (s.spill e.task.part true).withCore core (fun c =>
      { c with deque := e :: (updateFirst (fun e => !e.spilled) (fun e => { e with spilled := true }) c.deque.reverse).reverse })

/-- FORK (R264). -/
def execFork (d a b : Reg) (s : State) : Out :=
  let core := coreOf s.cx.key
  .next (s.gate 0 ⟨[d], [], []⟩
    (if !s.dequeRoom core s.cx.part then s.withCx (fun c => (c.writeX d 1).retire 4)
     else
      let s1 := s.boundary (some (domainScope s.cx.domain)) none
      let s2 := s1.pushTask core ⟨s1.forked (s.x a) (s.x b), s.cx.domain, core, false⟩
      { s2 with nextTid := s2.nextTid + 1 }.withCx (fun c =>
        ({ c with children := c.children + 1 }.writeX d 0).retire 4)))

/-- The widest of the scopes of the EXITs joined. -/
def widest (l : List (BitVec 2)) : Option (BitVec 2) :=
  if l.isEmpty then none else some (BitVec.ofNat 2 (l.foldl (fun m s => Nat.max m s.toNat) 0))

/-- The completion of a join: a boundary that acquires at the scope of every EXIT joined (R266, R322). -/
def State.joined (s : State) : State :=
  (s.boundary none (widest s.cx.joinable)).withCx (fun c => { c with joinable := [] })

/-- The engine programs of the sets of some handles of the running task (R445, R446). -/
def State.programsOf (s : State) (handles : BitVec 4) : List Program :=
  s.programs.filter (fun p => p.tid == s.cx.tid && handles.getLsbD (p.handle - 1))

/-- The join of engine programs: an acquire at the scope of each one's commands, and their handles are free (R322, R446). -/
def State.joinPrograms (s : State) (handles : BitVec 4) : State :=
  let ps := s.programsOf handles
  let s1 := s.boundary none (widest (ps.map (·.scope)))
  { s1 with programs := s1.programs.filter (fun p => !ps.any (fun q => q.num == p.num)) }.withCx (fun c =>
    { c with handles := c.handles &&& ~~~handles })

/-- A context in JOIN tests it (R219, R267): done when every child has ended, else the newest task of its own core's deque runs on
it. -/
def State.testJoin (s : State) : State :=
  match s.cx.run with
  | .waiting (.join dest) =>
    if s.cx.children = 0 then
      match dest with
      | some d =>
        s.joined.withCx (fun c => (c.writeX d (BitVec.ofNat 64 s.cx.joinable.length)).retire 4)
      | none => s.withCx (fun c => { c with run := .running })
    else
      match s.core.deque with
      | [] => s
      | e :: _ =>
        if !s.childReady e then s
        else { s.takeEntry (coreOf s.cx.key) e with beneath := s.cx :: s.beneath }.startChild e.task s.cx.key
  | _ => s

/-- The context waits for its task's children. -/
def State.waitJoin (s : State) (dest : Option Reg) : State :=
  (s.withCx (fun c => { c with run := .waiting (.join dest) })).testJoin

/-- JOIN (R267). -/
def execJoin (d : Reg) (s : State) : Out := .next (s.closing (fun s => s.waitJoin (some d)))

/-- JOIN_COMPLETE (R267): a context in JOIN tests whether its children have ended. -/
def execJoinComplete (ctx : Nat) (s : State) : Out := .next (s.onCtx ctx State.testJoin)

/-- The end of the running task with a release at a scope (R266, R278, R361): its owed arrivals are made after the release.  (DEDUCED, log entry 39.) -/
def State.endTask (s : State) (scope : BitVec 2) : State :=
  let s1 := (s.leaveGroup s.cx).lastRelease scope
  let s2 := s1.depart s1.cx (s1.registrations.filter (fun r => r.tid == s1.cx.tid))
  s2.finish s2.cx scope

/-- REND and EXIT, once windows are closed (R214, R268, R278): the join of all children and of
every engine program (R392), the wait for acknowledgements, the end.  (DEDUCED, log entry 39.) -/
def State.ending (s : State) (scope : BitVec 2) : State :=
  if s.cx.children ≠ 0 then s.waitJoin none
  else if s.cx.unack ≠ 0 ∨ (s.programsOf s.cx.handles).any (fun p => !p.ended) then s.stall
  else
    let s1 := if s.cx.handles = 0 then s else s.joinPrograms s.cx.handles
    (if s1.cx.joinable.isEmpty then s1 else s1.joined).endTask scope

/-- EXIT (R268): in the root, the illegal-operand trap (R215). -/
def execExit (s : State) : Out :=
  .next (if s.cx.root then s.illegalOperand else s.closing (fun s => s.ending (domainScope s.cx.domain)))

/-- REND (R278): in any task but the root, the illegal-operand trap (R215). -/
def execRend (s : State) : Out :=
  .next (if !s.cx.root then s.illegalOperand else s.closing (fun s => s.ending 2))

/-- What YIELD may give the context to (R269): the tail of the deque, or a candidate, of at least the task's class. -/
def State.yieldTo (s : State) : Option DequeEntry × Option (Cand × Nat) :=
  let core := coreOf s.cx.key
  let least := s.cx.eff.toNat
  ((s.tailFor core core).filter (fun e => decide (least ≤ e.task.eff.toNat)),
    choose s.clock s.core.pickCount (s.candidates core) ((s.candidates core).filter (fun c => decide (least ≤ c.cls))))

/-- YIELD (R269); without a free save area it writes 0, and so at level 1, where its task may not be switched out (R476; DESIGN CHOICE, log entry
81). -/
def execYield (d : Reg) (s : State) : Out :=
  .next (s.closing (fun s =>
    let key := s.cx.key
    let stay := s.withCx (fun c => (c.writeX d 0).retire 4)
    match s.yieldTo with
    | (none, none) => stay
    | (own, pick) =>
      match (s.withCx (fun c => (c.writeX d 1).retire 4)).switchOut key (coreOf key) with
      | none => stay
      | some s1 => ((s1.makeWay key).startPick key own pick).getD s1))

/-- DOMAIN (R270). -/
def execDomain (d a : Reg) (s : State) : Out :=
  .next (s.gate 0 ⟨[d], [], []⟩
    (if 4 ≤ (s.x a).toNat then s.illegalOperand
     else s.withCx (fun c => ({ c with domain := (s.x a).setWidth 2 }.writeX d (zext c.domain)).retire 4)))

/-- SPAWNQ (R271). -/
def execSpawnq (d : Reg) (s : State) : Out := .next (s.scalar d (BitVec.ofNat 64 s.core.deque.length) 4)

end Sys2Proof.Machine
end

