-- ==== Sys2Proof/Machine/Events.lean ====
section
/-!
DEFINITION. POST, POSTD, SAFEW, DLN, TAGR, CLKR, LATEQ, PRIO and PRIOQ (spec/10_parallel_instructions.md R276 to R283, R289), and what
happens to events and actors between instructions (spec/08 R197, R202, R209, R253).
-/

namespace Sys2Proof.Machine

/-- The physical address of an actor's page, when the address translates for the running partition, lies within it, or within its job, and is not
refused (R276, R317): what is asked is the class-0 read right, of which the manual says nothing (DESIGN CHOICE, log entry 77). -/
def State.actorPage (s : State) (va : Word) : Option Nat :=
  match s.leafAt (coreOf s.cx.key) s.cx.part va.toNat with
  | none => none
  | some l =>
    let pa := l.addr va.toNat
    let far := fun (dev : Nat) => s.part.jobDevices.contains dev && s.grantsFabric s.cx.part 0 rightRead pa
    match s.placeOf pa with
    | .hbm dev off =>
      if (if dev = s.dev.toNat then s.grantsHbm (s.part.homeOf off) s.cx.part 0 rightRead pa else far dev) then some pa else none
    | .scratchpad g _ => if s.grantsWindow (g / 32) s.cx.part 0 rightRead then some pa else none
    | .farWindow dev => if far dev then some pa else none
    | _ => none

/-- The tag of a POST (R201, R276); none on overflow. -/
def Ctx.postTag (c : Ctx) : Option Tag :=
  let d := c.readOx 5
  if d = 0 then (if c.tag.micro = BitVec.allOnes 32 then none else some ⟨c.tag.time, c.tag.micro + 1⟩)
  else if 2 ^ 64 ≤ c.tag.time.toNat + d.toNat then none
  else some ⟨c.tag.time + d, 0⟩

/-- The tag of a POSTD (R276); none when it is earlier than (T, M + 1). -/
def Ctx.postdTag (c : Ctx) : Option Tag :=
  let t : Tag := ⟨c.readOx 5, (c.readOx 6).setWidth 32⟩
  if t.time.toNat < c.tag.time.toNat ∨ (t.time = c.tag.time ∧ t.micro.toNat < c.tag.micro.toNat + 1) then none else some t

/-- The deadline of a new event (R276). -/
def Ctx.postDeadline (c : Ctx) (t : Tag) : Word :=
  if c.readOx 7 ≠ 0 then c.readOx 7
  else BitVec.ofNat 64 (Nat.min (2 ^ 64 - 1) (t.time.toNat + (c.dline.toNat - c.tag.time.toNat)))

/-- The running reaction's next sequence number for a target (R200). -/
def State.nextNumber (s : State) (target : Word) : Nat := tget (s.actorOf s.cx.part s.cx.actor).seqs target.toNat 0

/-- That number is used. -/
def State.numberUsed (s : State) (target : Word) : State :=
  s.withActor s.cx.part s.cx.actor (fun a => { a with seqs := tset a.seqs target.toNat (tget a.seqs target.toNat 0 + 1) })

/-- An event that the running task creates (R199, R200, R260). -/
def State.eventFrom (s : State) (t : Tag) (target handler payload deadline : Word) (waiter : Word) : Event where
  part := s.cx.part
  tag := t
  target := target
  handler := handler
  payload := payload
  deadline := deadline
  cls := s.cx.cls
  key := ⟨1, s.cx.actor.toNat, s.nextNumber (actorAddr target)⟩
  sender := zext s.cx.lcore |>.setWidth 32
  queue := s.cx.queue
  packet := none
  ctr := 0
  runMax := 0
  gang := none
  waiter := waiter
  claim := none

/-- The status that another device answers to an event: accepted, full or gone (log entry 5). -/
def farStatus (w : Word) : Word := if w.toNat % 3 = 0 then 0 else if w.toNat % 3 = 1 then 2 else 5

/-- POST and POSTD from their tag on (R276): the context then waits for the event's arrival. -/
def State.post (s : State) (bad : Word) (tag : Option Tag) (d a b : Reg) : State :=
  let answer := fun (s : State) (v : Word) => s.withCx (fun c => (c.writeX d v).retire 4)
  match tag, s.actorPage (s.x a) with
  | none, _ => answer s bad
  | some _, none => answer s 3
  | some t, some pa =>
    let e := s.eventFrom t (s.x a) (s.cx.readOx 4) (s.x b) (s.cx.postDeadline t) s.cx.tid
    if deviceOf pa ≠ s.dev.toNat then
      let s0 := s.release s.cx.key 3
      let s1 := s0.drainSent s0.cx pa
      if s1.unreleased s1.cx.before then s.stall
      else answer ((s1.numberUsed (actorAddr e.target)).emit (.event (deviceOf pa) e)) (farStatus (Config.farReply s.turn))
    else
      (((s.release s.cx.key 2).numberUsed (actorAddr e.target)).send (.eventArrival e)).withCx
        (fun c => { c with run := .waiting (.posting d) })

/-- POST (R276). -/
def execPost (d a b : Reg) (s : State) : Out := .next (s.gate 0 ⟨[d], [], []⟩ (s.post 1 s.cx.postTag d a b))

/-- POSTD (R276); ox6 bits 63:32 must be zero (R53). -/
def execPostd (d a b : Reg) (s : State) : Out :=
  .next (s.gate 0 ⟨[d], [], []⟩
    (if 2 ^ 32 ≤ (s.cx.readOx 6).toNat then s.illegalOperand else s.post 4 s.cx.postdTag d a b))

/-- A member actor's core keeps what an arriving announcement says of its claim (R374). -/
def State.noteClaim (s : State) (e : Event) : State :=
  match e.claim with
  | none => s
  | some (ta, w) =>
    let actor := actorAddr e.target
    let p := s.partition e.part
    let claimer := e.sender.setWidth 26
    let until_ := ta + w + p.dfab.toNat + 2 * p.eclk.toNat
    (s.withActor e.part actor (fun a => { a with claims := a.claims ++ [⟨e.payload, claimer, ta, w, until_⟩] })).send
      (.claimRecordExpiry e.part actor e.payload claimer)

/-- An event is at its actor's current home (R202): whoever waits for it gets its status.  An announcement, for which nobody waits, is sent again when
the queue engine refuses it, so that it arrives (R235; DEDUCED, log entry 44). -/
def State.atHome (s : State) (e : Event) : State :=
  let r := (s.noteClaim e).arrive e (s.homeCore e.part (actorAddr e.target))
  if e.waiter ≠ 0 then r.1.postDone e.waiter r.2
  else if r.2 = 2 ∧ e.claim.isSome then s.send (.eventArrival e)
  else r.1

/-- EVENT_ARRIVAL (R202, R528): at the hash home, which forwards it when the actor has moved (R197). -/
def execEventArrival (e : Event) (s : State) : Out :=
  .next
    (if s.homeCore e.part (actorAddr e.target) = s.hashHome e.part (actorAddr e.target) then s.atHome e
     else s.send (.eventForward e))

/-- EVENT_FORWARD (R197, R202): at the current home. -/
def execEventForward (e : Event) (s : State) : Out := .next (s.atHome e)

/-- EVENT_SAFE (R209): an actor's first event becomes safe when the clock has passed its bound; else it is tested again. -/
def execEventSafe (part : Nat) (actor : Word) (s : State) : Out :=
  .next
    (match s.firstEvent part actor with
      | none => s
      | some q =>
        if s.isSafe q then { s with events := updateFirst (fun e => e == q) (fun e => { e with safe := true }) s.events }
        else s.send (.eventSafe part actor))

/-- Whether a member of the gang that an actor is, or was last, a member of is placed (R197). -/
def State.gangPlaced (s : State) (a : Actor) : Bool :=
  a.gang.any (fun g => s.allTasks.any (fun c => c.root && c.queue == g.1 && c.gang.any (fun m => m.pos == g.2)))

/-- ACTOR_MOVE (R197): the device moves an actor that runs no reaction and of whose gang no member is placed to a core of its partition. -/
def execActorMove (part : Nat) (actor : Word) (core : Nat) (s : State) : Out :=
  let a := s.actorOf part actor
  .next (if a.running ∨ s.gangPlaced a ∨ s.partOfCore core ≠ some part then s else (s.moveActor part actor core).getD s)

/-- A context in SAFEW tests the clock (R279). -/
def State.testSafew (s : State) : State :=
  match s.cx.run with
  | .waiting (.safew d target) =>
    if target ≤ s.clock then s.withCx (fun c => (c.writeX d (BitVec.ofNat 64 s.clock)).retire 4) else s
  | _ => s

/-- SAFEW (R279). -/
def execSafew (d a : Reg) (s : State) : Out :=
  let target := Nat.min (2 ^ 64 - 1) ((s.x a).toNat + s.inputBound s.cx.part s.cx.actor)
  .next (s.gate 0 ⟨[d], [], []⟩ ((s.withCx (fun c => { c with run := .waiting (.safew d target) })).testSafew))

/-- SAFEW_COMPLETE (R279): a context in SAFEW tests the clock. -/
def execSafewComplete (ctx : Nat) (s : State) : Out := .next (s.onCtx ctx State.testSafew)

/-- DLN (R280). -/
def execDln (d a : Reg) (s : State) : Out :=
  .next (s.gate 0 ⟨[d], [], []⟩ (s.withCx (fun c => ({ c with dline := s.x a }.writeX d c.dline).retire 4)))

/-- The arrived, unstarted events of an actor (R281).  (DEDUCED, log entry 38.) -/
def State.unstarted (s : State) (part : Nat) (actor : Word) : List Queued :=
  s.events.filter (fun q => q.event.part == part && actorAddr q.event.target == actor)

/-- What TAGR reads (R281).  (DEDUCED, log entry 38.) -/
def State.tagr (s : State) (sel : Nat) : Word :=
  let events := s.unstarted s.cx.part s.cx.actor
  let first := best (fun a b => orderLt (eventPlace a.event) (eventPlace b.event)) events
  let last := ((s.actorOf s.cx.part s.cx.actor).started).map (·.1)
  match sel with
  | 0 => first.elim (BitVec.allOnes 64) (·.event.tag.time)
  | 1 => first.elim 0xFFFFFFFF (fun q => zext q.event.tag.micro)
  | 2 => BitVec.ofNat 64 events.length
  | 3 => last.elim 0 (·.time)
  | _ => last.elim 0 (fun t => zext t.micro)

/-- TAGR (R281). -/
def execTagr (d a : Reg) (s : State) : Out :=
  .next (if 4 < (s.x a).toNat then s.gate 0 ⟨[d], [], []⟩ s.illegalOperand else s.scalar d (s.tagr (s.x a).toNat) 4)

/-- CLKR (R282): after every earlier instruction of the code it belongs to. -/
def execClkr (d : Reg) (s : State) : Out :=
  .next (s.gate 0 ⟨[d], [], []⟩
    (s.afterEarlier (s.withCx (fun c => (c.writeX d (BitVec.ofNat 64 s.clock)).retire 4))))

/-- LATEQ (R283). -/
def execLateq (d a : Reg) (s : State) : Out :=
  let old := (s.actorOf s.cx.part s.cx.actor).lateHandler
  .next (s.gate 0 ⟨[d], [], []⟩
    ((s.withActor s.cx.part s.cx.actor (fun k => { k with lateHandler := s.x a &&& ~~~1 })).withCx
      (fun c => (c.writeX d old).retire 4)))

/-- CLASSMAX of the queue from which the running reaction descends clamps a floor (R260, R289). -/
def State.clampFloor (s : State) (v : Word) : BitVec 2 :=
  BitVec.ofNat 2 (Nat.min v.toNat (s.queue s.cx.queue).classmax.toNat)

/-- EFF of every task of a reaction from its floors (R289). -/
def State.refloor (s : State) (part : Nat) (actor : Word) : State :=
  let fix : Ctx → Ctx := fun c => if c.part = part ∧ c.actor = actor then c.withRaise (s.floorOf c) c.raised else c
  { s with
    cx := fix s.cx
    others := s.others.map fix
    ready := s.ready.map (fun r => (r.1, r.2.1, fix r.2.2))
    beneath := s.beneath.map fix
    cores := s.cores.map (fun k => (k.1, { k.2 with deque := k.2.deque.map (fun e => { e with task := fix e.task }) })) }

/-- The tasks of a reaction that wait in CWAIT pass a higher class on, once floors have changed (R253, R289). -/
def State.passAll (s before : State) : State :=
  (s.allTasks.filter (fun c => (before.taskOf c.tid).any (fun b => decide (b.eff.toNat < c.eff.toNat)))).foldl State.passOn s

/-- PRIO and PRIOQ from what they set on (R289). -/
def State.setFloor (s : State) (d a : Reg) (f : Actor → Actor) : State :=
  s.gate 0 ⟨[d], [], []⟩
    (if 4 ≤ (s.x a).toNat then s.illegalOperand
     else
      (((s.withActor s.cx.part s.cx.actor f).refloor s.cx.part s.cx.actor).passAll s).withCx
        (fun c => (c.writeX d (zext c.eff)).retire 4))

/-- PRIO (R289). -/
def execPrio (d a : Reg) (s : State) : Out :=
  .next (s.setFloor d a (fun k => { k with reactionFloor := s.clampFloor (s.x a) }))

/-- PRIOQ (R289). -/
def execPrioq (d a : Reg) (s : State) : Out :=
  .next (s.setFloor d a (fun k => { k with floor := s.clampFloor (s.x a) }))

/-- A task's effective class follows the raises in force for it, and it passes a higher one on (R253). -/
def State.reraise (s : State) (tid : Word) : State :=
  match s.taskOf tid with
  | none => s
  | some c =>
    let s1 := s.withTask tid (fun d => d.withRaise (s.floorOf c) (s.raiseOf tid))
    match s1.taskOf tid with
    | none => s1
    | some d => if c.eff.toNat < d.eff.toNat then s1.passOn d else s1

/-- What another device says of a raise (R253): of a task of this one, 0 when it has ended; or of a waiter there on a counter here. -/
def State.raiseFar (s : State) (tid : Word) (cls : BitVec 2) : State :=
  if s.farWaits.any (fun w => w.tid == tid) then
    let s1 := { s with farWaits := s.farWaits.map (fun (w : FarWait) => if w.tid = tid then { w with cls := cls } else w) }
    (s1.farWaits.filter (fun w => w.tid == tid)).foldl (fun s w => (s.registered w.key).foldl (fun s t => s.raiseTask cls t) s) s1
  else { s with farRaises := s.farRaises.filter (fun (r : Word × BitVec 2) => r.1 != tid) ++ (if cls = 0 then [] else [(tid, cls)]) }.reraise tid

/-- PRIORITY_RAISE (R253): a registered task is raised while a wait of that class lasts, and passes its class on when it waits in
CWAIT itself. -/
def execPriorityRaise (tid : Word) (raise : Raise) (s : State) : Out :=
  .next (if raise.far then s.raiseFar tid raise.cls else if (s.raiseOf tid).toNat < raise.cls.toNat then s else s.reraise tid)

end Sys2Proof.Machine
end

