-- ==== Sys2Proof/Machine/Fifos.lean ====
section
/-!
DEFINITION. FIFO banks (spec/11 R304 to R306, R320), and the requests that reach their homes (R307, R315), those of other devices over the
fabric among them (R290, R499, R502, R504).
-/

namespace Sys2Proof.Machine

/-- A pending request to another device fails (R102, R504): its register keeps its old value, and the fault comes when its window
closes. -/
def State.failPend (s : State) (tid : Word) (p : Pend) (code pa : Nat) : State :=
  s.withTask tid (fun c =>
    let r := mkRecord code 0 1 0 c.tag 0 p.va (BitVec.ofNat 64 pa) p.pc p.word c.tid
    { c with
      pends := removeFirst (fun q => q == p) c.pends
      faults := c.faults ++ [⟨0, p.left, p.depth, code, 0, false, 0, some r⟩] })

/-- A FIFO bank's contents (R304). -/
def State.fifo (s : State) (g : Nat) : Fifo := tget (s.cluster (g / 32)).fifos (g % 32) Fifo.empty

/-- A FIFO bank changed. -/
def State.withFifo (s : State) (g : Nat) (f : Fifo → Fifo) : State :=
  s.withCluster (g / 32) (fun c => { c with fifos := tset c.fifos (g % 32) (f (tget c.fifos (g % 32) Fifo.empty)) })

/-- A FIFO bank accepts a push, and acknowledges it; a held pop, if any, is served next (R304, R305). -/
def State.acceptPush (s : State) (o : Origin) (g : Nat) (value : Word) : State :=
  let s0 := s.withFifo g (fun f => { f with entries := f.entries ++ [value] })
  let s1 := if o.cls = 6 then s0.emit (.response o.index []) else s0.send (.storeAck o.tid o.part none (bankLevel (coreOf o.ctx) g))
  if (s.fifo g).pops.isEmpty then s1 else s1.send (.fifoHeldPopDone g)

/-- A push reaches a FIFO bank (R304, R305): held while the FIFO is full, or behind an older one that is held. -/
def State.pushFifo (s : State) (o : Origin) (g : Nat) (value : Word) : State :=
  let f := s.fifo g
  if 8192 ≤ f.entries.length ∨ !f.pushes.isEmpty then s.withFifo g (fun f => { f with pushes := f.pushes ++ [(o, value)] })
  else s.acceptPush o g value

/-- A FIFO without its oldest entry. -/
def Fifo.popped (f : Fifo) : Fifo :=
  { f with entries := f.entries.drop 1, bad := f.bad.filterMap (fun e => if e.1 = 0 then none else some (e.1 - 1, e.2)) }

/-- Whether the oldest entry of a FIFO holds an error, and whether that is uncorrectable (R320). -/
def Fifo.headBad (f : Fifo) : Option Bool := (f.bad.find? (fun e => e.1 == 0)).map (·.2)

/-- The pop or count of a FIFO that a task waits for. -/
def Pend.fifoWait (g : Nat) (dest : Reg) (p : Pend) : Bool := p.kind == .fifo g && p.dest == dest

/-- A task's access of a FIFO is answered: its delay is counted (R318), and its destination takes the value. -/
def State.answerFifo (s : State) (tid : Word) (g : Nat) (dest : Reg) (v : Word) : State :=
  s.withTask tid (fun c =>
    (c.addDelay (bankLevel (coreOf c.key) g) (Config.hops s.turn) (Config.queueCycles s.turn)).completePend (Pend.fifoWait g dest) (some v))

/-- The oldest entry of a FIFO goes to who pops it (R304): an error that can be corrected is, and counted; one that cannot fails the pop
(R320, R321).  A push held at the bank may then be accepted. -/
def State.deliverPop (s : State) (g : Nat) (p : Popper) : State :=
  let f := s.fifo g
  match f.entries with
  | [] => s
  | v :: _ =>
    let s1 := s.withFifo g Fifo.popped
    let s2 := if f.headBad = some false then s1.countErrors (g % 32) 1 else s1
    let s3 :=
      match p with
      | .task tid dest =>
        if f.headBad = some true then
          match (s2.taskOf tid).bind (fun c => c.pends.find? (Pend.fifoWait g dest)) with
          | none => s2
          | some q => s2.failPend tid q 11 0
        else s2.answerFifo tid g dest v
      | .device n => s2.emit (if f.headBad = some true then .error n else .response n (bytesOf v.toNat 8))
    if f.pushes.isEmpty then s3 else s3.send (.fifoHeldPushDone g)

/-- A pop reaches a FIFO bank: held while there is no entry, or behind an older one that is held (R304, R305). -/
def State.popFifo (s : State) (g : Nat) (p : Popper) : State :=
  let f := s.fifo g
  if f.entries.isEmpty || !f.pops.isEmpty then s.withFifo g (fun f => { f with pops := f.pops ++ [p] }) else s.deliverPop g p

/-- The address of the mailbox window, without the device: WIN = 1, DIE = 0, CLU = 127 (R503). -/
def mailboxWindow : Nat := 2 ^ 47 + 127 * 2 ^ 38

/-- A read or a write of memory, through its home slice, or of a scratchpad bank for another device (R290, R504), once granted. -/
def State.fabricMemory (s : State) (device : Nat) (home : Option Nat) (pa : Nat) (q : HomeReq) : State :=
  let n := q.cells.length
  if !q.read then ((home.elim s (fun h => s.writeSlice h pa q.cells)).accept q.cells).emit (.response device [])
  else if home.elim (s.uncorrectable pa n) (fun h => s.sliceBad h pa n) then s.emit (.error device)
  else (home.elim (s.scrub pa n) (fun h => s.readSlice h pa n false)).emit (.response device (s.peek pa n))

/-- A FIFO bank accessed for another device (R304); a pop of an empty FIFO is held at the bank (R305). -/
def State.fabricFifo (s : State) (device g off : Nat) (q : HomeReq) : State :=
  if q.cells.length ≠ 8 then s.emit (.error device)
  else if !q.read then
    (if off = 0 then s.sendFirst (.fifoPush q.origin g (BitVec.ofNat 64 (ofBytes (cellBytes q.cells)))) else s.emit (.error device))
  else if off = 16 then s.emit (.response device (bytesOf (s.fifo g).entries.length 8))
  else if off ≠ 8 then s.emit (.error device)
  else s.popFifo g (.device device)

/-- Whether a station supports a request (R499): it reads or writes within 8 to 256 bytes, naturally aligned; a read takes them all.  (DESIGN
CHOICE, log entry 82.) -/
def fabricShape (q : HomeReq) : Bool :=
  let n := q.cells.length
  if q.read then (List.range 6).any (fun i => n == 8 * 2 ^ i && q.addr % n == 0)
  else q.cells.all (fun c => c.1 / 256 == q.addr / 256)

/-- A request of another device served where it arrives: the receiving station's table gives the partition whose entries of class
6 check it (R313, R315, R502); a read of the mailbox window gives the clock (R521). -/
def State.serveFabric (s : State) (q : HomeReq) : State :=
  let device := q.origin.index
  let refused := s.emit (.error device)
  match q.cells with
  | [] => refused
  | (a, _) :: _ =>
    let pa := s.dev.toNat * 2 ^ 48 + a % 2 ^ 48
    let part := (s.stationOf (stationIndex pa)).bind (fun st => (s.stations.find? (fun e => e.1 == (st, device))).map (·.2))
    let right := if q.read then rightRead else rightWrite
    if !fabricShape q then refused
    else if a % 2 ^ 48 = mailboxWindow ∧ q.read ∧ q.cells.length = 8 then s.emit (.response device (bytesOf s.clock 8))
    else
      match part with
      | none => refused
      | some p =>
        let here : HomeReq := { q with origin := { q.origin with part := p }, cells := cellsOf pa (cellBytes q.cells) }
        if s.placeBusy pa then s.sendFirst (.homeRequest q)
        else
          match s.placeOf pa with
          | .hbm _ off =>
            let home := (s.partition p).homeOf off
            if s.grantsHbm home p 6 right pa then s.fabricMemory device home pa here else refused
          | .scratchpad g _ => if s.grantsWindow (g / 32) p 6 right then s.fabricMemory device none pa here else refused
          | .fifo g off => if s.grantsWindow (g / 32) p 6 right then s.fabricFifo device g off here else refused
          | _ => refused

/-- HOME_REQUEST (R307, R315): a request is checked and served at its home: a remote store of this device, or a read or a write
that a station has received from another. -/
def execHomeRequest (q : HomeReq) (s : State) : Out := .next (if q.origin.cls = 6 then s.serveFabric q else s.serve q)

/-- FIFO_PUSH (R304); held while the bank is being switched (R306). -/
def execFifoPush (o : Origin) (bank : Nat) (value : Word) (s : State) : Out :=
  .next (if bankBusy (s.bank bank) then s.sendFirst (.fifoPush o bank value) else s.pushFifo o bank value)

/-- FIFO_POP (R304); held while the bank is being switched (R306). -/
def execFifoPop (tid : Word) (bank : Nat) (dest : Reg) (s : State) : Out :=
  .next (if bankBusy (s.bank bank) then s.sendFirst (.fifoPop tid bank dest) else s.popFifo bank (.task tid dest))

/-- FIFO_COUNT (R304); held while the bank is being switched (R306). -/
def execFifoCount (tid : Word) (bank : Nat) (dest : Reg) (s : State) : Out :=
  .next (if bankBusy (s.bank bank) then s.sendFirst (.fifoCount tid bank dest)
    else s.answerFifo tid bank dest (BitVec.ofNat 64 (s.fifo bank).entries.length))

/-- FIFO_HELD_PUSH_DONE (R304): the push held longest is accepted once an entry has been popped. -/
def execFifoHeldPushDone (bank : Nat) (s : State) : Out :=
  let f := s.fifo bank
  .next
    (match f.pushes with
      | [] => s
      | (o, v) :: r =>
        if 8192 ≤ f.entries.length then s
        else
          let s1 := (s.withFifo bank (fun f => { f with pushes := r })).acceptPush o bank v
          if r.isEmpty ∨ 8191 ≤ f.entries.length then s1 else s1.send (.fifoHeldPushDone bank))

/-- FIFO_HELD_POP_DONE (R305): the pop held longest takes the oldest entry. -/
def execFifoHeldPopDone (bank : Nat) (s : State) : Out :=
  let f := s.fifo bank
  .next
    (match f.pops with
      | [] => s
      | p :: ps =>
        if f.entries.isEmpty then s
        else
          let s1 := (s.withFifo bank (fun f => { f with pops := ps })).deliverPop bank p
          if f.entries.length ≤ 1 ∨ ps.isEmpty then s1 else s1.send (.fifoHeldPopDone bank))

end Sys2Proof.Machine
end

