-- ==== Sys2Proof/Machine/Atomics.lean ====
section
/-!
DEFINITION. Counters (R356 to R362), waits on an address (R337, R363) and reductions at memory (R364) of
spec/13_memory_instructions.md, and what happens to waits between instructions.
-/

namespace Sys2Proof.Machine

/-- Where an operation of R349 acts: in place on this device or another, held at a bank that is being switched, a precise fault, or refused. -/
inductive Site where
  | at_ (pa : Nat)
  | held
  | fault (code pa : Nat)
  | refused (code pa : Nat)
deriving DecidableEq, Repr

/-- The location of an operation at a scope (R315, R349); a bad word refuses with its own cause (R321).  counter: a counter operation or a
reduction, which on a read-only-shared page raises the write-protection fault (R311), since faults of translation come before the checks of the
location (R316).  (DEDUCED, log entry 41.) -/
def State.site (s : State) (sc : BitVec 2) (ea : Word) (size : Nat) (counter : Bool) : Site :=
  let core := coreOf s.cx.key
  if ea.toNat % size ≠ 0 then .fault 6 0
  else
    match s.translate core s.cx.part s.cx.pl ea.toNat false with
    | .fault code pa => .fault code pa
    | .ok leaf pa =>
      if leaf.ros && counter then .fault 8 pa
      else if s.placeBusy pa then .held
      else
        let r := s.agentRefuses core s.cx.part 0 sc leaf pa size
        if r ≠ 0 then .refused r pa else .at_ pa

/-- Whether a location lies in a scratchpad bank of the running core (R350). -/
def State.ownBank (s : State) (pa : Nat) : Bool :=
  match s.placeOf pa with
  | .scratchpad g _ => g / 32 == coreOf s.cx.key / 16 && bankOwner (s.bank g) == coreOf s.cx.key % 16
  | _ => false

/-- An operation of this chapter that has acted, at a level (R318, R350): outside the core's own scratchpad it counts as a remote store until
its acknowledgement arrives; from there its answer alone returns. -/
def State.counted (s : State) (pa level : Nat) : State :=
  if s.ownBank pa then s.send (.loadReply s.cx.tid 0 0 level (Config.hops s.turn) (Config.queueCycles s.turn))
  else (s.owe s.cx.tid).send (.storeAck s.cx.tid s.cx.part none level)

/-- A refused operation (R317, R349): with a destination it takes the fate of LD, without one that of ST. -/
def State.refuseAtomic (s : State) (la : BitVec 4) (d : Reg) (code : Nat) (ea : Word) (pa : Nat) (word : BitVec 32)
    (before : State → State) : State :=
  if d ≠ 0 then s.refuseLoad la d code 0 ea pa word
  else
    let s1 := before s
    ((s1.owe s1.cx.tid).send (.storeAck s1.cx.tid s1.cx.part (some (originRecord (s1.originOf s.cx ea word) code 1 1 pa))
      (s1.levelAt (coreOf s.cx.key) s.cx.part pa))).withCx (fun c => c.retireLong s.cx la ⟨[d], [], []⟩)

/-- The common course of the instructions of majors 0x2F to 0x31 (R348 to R350): checks, then, where the location is accepted, what the core has
sent there and what its task's releases hold before it come first, and the operation acts.  before is what the instruction does whatever becomes
of its request: the release of CADD. -/
def State.atSite (s : State) (la : BitVec 4) (sc : BitVec 2) (d a : Reg) (size : Nat) (word : BitVec 32) (before : State → State)
    (counter : Bool) (act : State → Nat → State) : State :=
  let ea := s.x a
  s.gate la ⟨[d], [], []⟩
    (if 256 ≤ s.owed then s.stall
     else
      match s.site sc ea size counter with
      | .held => s.stall
      | .fault code pa => s.preciseData code (if d = 0 then 1 else 0) ea pa word
      | .refused code pa => s.refuseAtomic la d code ea pa word before
      | .at_ pa =>
        let s1 := before s
        let s2 := s1.drainSent s1.cx pa
        if s2.unreleased s2.cx.before then s.stall else act s2 pa)

/-- An operation that completes at once: its window opens on the values before it. -/
def State.completes (s : State) (la : BitVec 4) (d : Reg) (v : Word) (before : Ctx) : State :=
  s.withCx (fun c => (c.writeX d v).retireLong before la ⟨[d], [], []⟩)

/-- An operation on another device that no response answers in time: refused as LD or as ST is (R504). -/
def State.unanswered (s : State) (la : BitVec 4) (d : Reg) (pa : Nat) (word : BitVec 32) (ea : Word) (before : Ctx) : State :=
  ((s.owe before.tid).send (.fabricRequestTimeout (.store (s.originOf before ea word) [(pa, 0)]))).withCx (fun c =>
    if d = 0 then c.retireLong before la ⟨[], [], []⟩ else c.retirePend before la ⟨[d], [], []⟩ (.reply false) d word ea)

/-- Whether the location lies on another device, whose answer comes later (R349, R503). -/
def State.isFar (s : State) (pa : Nat) : Bool := deviceOf pa != s.dev.toNat

/-- An operation that has acted answers: at once from this device, and from another by a reply on its way (R318, R350, R503). -/
def State.answers (s : State) (la : BitVec 4) (d : Reg) (v : Word) (clamp : Bool) (pa level : Nat) (word : BitVec 32) (ea : Word) (before : Ctx) : State :=
  let s1 := s.counted pa level
  if s.isFar pa ∧ d ≠ 0 then
    (s1.send (.loadReply before.tid d v 43 0 0)).withCx (fun c => c.retirePend before la ⟨[d], [], []⟩ (.reply clamp) d word ea)
  else (if clamp ∧ d ≠ 0 then s1.withCx (fun c => c.mergeFlags { sat := true }) else s1).completes la d v before

/-- CADD, CREAD and the reductions (R356, R358, R364). -/
def State.atomic (s : State) (op : AtomicOp) (la : BitVec 4) (sc : BitVec 2) (d a : Reg) (x : Word) (word : BitVec 32)
    (before : State → State) : State :=
  s.atSite la sc d a (atomicSize op) word before true
    (fun s1 pa =>
      if s1.isFar pa ∧ !Config.farAnswers s.turn then s1.unanswered la d pa word (s.x a) s.cx
      else
        let level := s1.levelAt (coreOf s.cx.key) s.cx.part pa
        let (v, clamp, s2) := s1.atomicAt s.cx.part op pa x s.cx.tid
        s2.answers la d v clamp pa level word (s.x a) s.cx)

/-- The word of an instruction of these majors. -/
def atomicWord (maj fn : Nat) (la : BitVec 4) (sc : BitVec 2) (d a b : Reg) : BitVec 32 :=
  recordWord (wcWord maj d.toNat a.toNat b.toNat sc.toNat fn la.toNat)

/-- CADD (R356): a boundary, with its release before the add. -/
def execCadd (la : BitVec 4) (sc : BitVec 2) (d a b : Reg) (s : State) : Out :=
  .next (s.atomic .cadd la sc d a (s.x b) (atomicWord 0x2f 0 la sc d a b) (fun s => s.boundary (some sc) none))

/-- CREAD (R358). -/
def execCread (la : BitVec 4) (sc : BitVec 2) (d a : Reg) (s : State) : Out :=
  .next (s.atomic .cread la sc d a 0 (atomicWord 0x2f 2 la sc d a 0) id)

/-- A wait on an address (R337, R357, R363): done at once when the location's value satisfies it, with the acquire of its scope;
else, and on another device, its entry is made.  limit is WAITAT's. -/
def State.waitOn (s : State) (la : BitVec 4) (sc : BitVec 2) (d a : Reg) (atLeast : Bool) (expected : Word) (limit : Option Nat)
    (word : BitVec 32) : State :=
  s.atSite la sc d a 8 word id atLeast
    (fun s1 pa =>
      let key := s1.locationKey pa
      let level := s1.levelAt (coreOf s.cx.key) s.cx.part pa
      let v := s1.keyValue key
      let far := s1.isFar pa
      let s2 := ((if far then s1.emit (.atomic (deviceOf pa) (if atLeast then .cwait s.cx.eff else .waita) pa expected s.cx.tid)
                  else s1.touchHome s.cx.part pa 8).counted pa level)
      if !far && entrySatisfied atLeast expected v then (s2.boundary none (some sc)).completes la d v s.cx
      else if !far && limit.any (fun l => decide (l ≤ s.clock)) then s2.completes la d expected s.cx
      else
        let s3 := s2.withCx (fun c => c.retirePend s.cx la ⟨[d], [], []⟩ (.entry key atLeast expected sc limit none) d word (s.x a))
        let s4 := if limit.isSome then s3.send (.waitatTimeout s.cx.tid key) else s3
        let s5 := if atLeast && !far then s4.raiseAll key s.cx.tid s.cx.eff else if atLeast then (s4.registered key).foldl (fun s t => s.raiseTask s4.cx.eff t) s4 else s4
        if entrySatisfied atLeast expected v then s5.wakeTask key v (fun p => p.hit key v) s5.cx else s5)

/-- CWAIT (R357). -/
def execCwait (la : BitVec 4) (sc : BitVec 2) (d a b : Reg) (s : State) : Out :=
  .next (s.waitOn la sc d a true (s.x b) none (atomicWord 0x2f 1 la sc d a b))

/-- WAITA (R363). -/
def execWaita (la : BitVec 4) (sc : BitVec 2) (d a b : Reg) (s : State) : Out :=
  .next (s.waitOn la sc d a false (s.x b) none (atomicWord 0x30 0 la sc d a b))

/-- WAITAT (R363): its time limit is in ox7. -/
def execWaitat (la : BitVec 4) (sc : BitVec 2) (d a b : Reg) (s : State) : Out :=
  .next (s.waitOn la sc d a false (s.x b) (some (s.clock + (s.cx.readOx 7).toNat)) (atomicWord 0x30 1 la sc d a b))

/-- A task is registered on a counter, or a status says why not (R359); one registered again keeps the scope of its first CREG (DESIGN CHOICE,
log entry 73), and 1 goes before 2 (DESIGN CHOICE, log entry 74). -/
def State.register (s : State) (key : Nat) (va : Word) (sc : BitVec 2) (owed : Nat) : Word × State :=
  let tid := s.cx.tid
  let here := fun (r : Registration) => r.pa == key && r.tid == tid
  if s.registrations.any here then
    (1, { s with registrations := updateFirst here (fun r => { r with owed := owed }) s.registrations })
  else if 4 ≤ (s.registrations.filter (fun r => r.tid == tid)).length then (2, s)
  else
    (0, (s.waiters key).foldl (fun s c => s.send (.priorityRaise tid c.eff false))
      { s with registrations := s.registrations ++ [⟨key, va, tid, s.cx.key, sc, owed⟩] })

/-- CREG (R359). -/
def execCreg (la : BitVec 4) (sc : BitVec 2) (d a b : Reg) (s : State) : Out :=
  let owed := (s.x b).toNat
  .next
    (if owed = 0 ∨ 2 ^ 32 ≤ owed then s.gate la ⟨[d], [], []⟩ s.illegalOperand
     else
      s.atSite la sc d a 8 (atomicWord 0x2f 3 la sc d a b) id true
        (fun s1 pa =>
          let level := s1.levelAt (coreOf s.cx.key) s.cx.part pa
          let r := s1.register (s1.locationKey pa) (s.x a) sc owed
          if s1.isFar pa ∧ !Config.farAnswers s.turn then s1.unanswered la d pa (atomicWord 0x2f 3 la sc d a b) (s.x a) s.cx
          else
            (if s1.isFar pa ∧ r.1 ≠ 2 then r.2.emit (.atomic (deviceOf pa) .creg pa (s.x b) s.cx.tid) else r.2).answers la d r.1 false pa level
              (atomicWord 0x2f 3 la sc d a b) (s.x a) s.cx))

/-- The running task's registration on the counter at an address (R360). -/
def State.registrationAt (s : State) (va : Word) : Option Registration :=
  match s.leafAt (coreOf s.cx.key) s.cx.part va.toNat with
  | none => none
  | some l => s.registrations.find? (fun r => r.tid == s.cx.tid && r.pa == s.locationKey (l.addr va.toNat))

/-- CUNREG (R360). -/
def execCunreg (la : BitVec 4) (d a : Reg) (s : State) : Out :=
  let ea := s.x a
  let word := atomicWord 0x2f 4 la 0 d a 0
  .next (s.gate la ⟨[d], [], []⟩
    (if ea.toNat % 8 ≠ 0 then s.preciseData 6 (if d = 0 then 1 else 0) ea 0 word
     else
      match s.registrationAt ea with
      | none => s.completes la d (BitVec.allOnes 64) s.cx
      | some r =>
        let pa := s.keyAddr r.pa
        let s1 := s.drainSent s.cx pa
        if 256 ≤ s.owed ∨ s1.unreleased s1.cx.before then s.stall
        else
          let s2 := if s1.isFar pa then s1.emit (.atomic (deviceOf pa) .cunreg pa 0 s.cx.tid) else s1
          (s2.endRegistration r.pa s.cx.tid).answers la d (BitVec.ofNat 64 r.owed) false pa (s1.levelAt (coreOf s.cx.key) s.cx.part pa) word ea
            s.cx))

/-- RDADD (R364). -/
def execRdadd (la : BitVec 4) (sc : BitVec 2) (d a b : Reg) (s : State) : Out :=
  .next (s.atomic .rdadd la sc d a (s.x b) (atomicWord 0x31 0 la sc d a b) id)

/-- RDADDF (R364). -/
def execRdaddf (la : BitVec 4) (sc : BitVec 2) (d a b : Reg) (s : State) : Out :=
  .next (s.atomic .rdaddf la sc d a (s.x b) (atomicWord 0x31 1 la sc d a b) id)

/-- RDADDA (R364). -/
def execRdadda (la : BitVec 4) (sc : BitVec 2) (d a b : Reg) (s : State) : Out :=
  .next (s.atomic .rdadda la sc d a (s.x b) (atomicWord 0x31 2 la sc d a b) id)

/-- RDMAX (R364). -/
def execRdmax (la : BitVec 4) (sc : BitVec 2) (d a b : Reg) (s : State) : Out :=
  .next (s.atomic .rdmax la sc d a (s.x b) (atomicWord 0x31 3 la sc d a b) id)

/-- RDMIN (R364). -/
def execRdmin (la : BitVec 4) (sc : BitVec 2) (d a b : Reg) (s : State) : Out :=
  .next (s.atomic .rdmin la sc d a (s.x b) (atomicWord 0x31 4 la sc d a b) id)

/-- RDAND (R364). -/
def execRdand (la : BitVec 4) (sc : BitVec 2) (d a b : Reg) (s : State) : Out :=
  .next (s.atomic .rdand la sc d a (s.x b) (atomicWord 0x31 5 la sc d a b) id)

/-- RDIOR (R364). -/
def execRdior (la : BitVec 4) (sc : BitVec 2) (d a b : Reg) (s : State) : Out :=
  .next (s.atomic .rdior la sc d a (s.x b) (atomicWord 0x31 6 la sc d a b) id)

/-- RDXOR (R364). -/
def execRdxor (la : BitVec 4) (sc : BitVec 2) (d a b : Reg) (s : State) : Out :=
  .next (s.atomic .rdxor la sc d a (s.x b) (atomicWord 0x31 7 la sc d a b) id)

/-- Whether a pending instruction is the entry that a wake is for: one that has been woken with its value (R337). -/
def Pend.wakes (p : Pend) (pa : Nat) (value : Word) : Bool :=
  match p.kind with
  | .entry a _ _ _ _ (some v) => a / 8 == pa / 8 && v == value
  | _ => false

/-- A wait of the running task completes with a value (R337, R357, R363): a satisfied one is a boundary, a starved one is not. -/
def State.wakeUp (s : State) (p : Pend) (value : Word) : State :=
  match p.kind with
  | .entry _ l _ sc _ _ =>
    let s1 := if l ∧ value = BitVec.allOnes 64 then s else s.boundary none (some sc)
    s1.withCx (fun c => c.completePend (fun q => q == p) (some value))
  | _ => s

/-- WAIT_ENTRY_WAKE (R337): once its task is on a context, the wait completes, and the raises that rested on it end (R253). -/
def execWaitEntryWake (tid : Word) (pa : Nat) (value : Word) (s : State) : Out :=
  .next
    (match s.taskOf tid with
      | none => s
      | some c =>
        match c.pends.find? (fun p => p.wakes pa value) with
        | none => s
        | some p =>
          if (s.ctxAt c.key).any (fun k => k.tid == tid) then (s.onCtx c.key (fun s => s.wakeUp p value)).lowerAll
          else s.send (.waitEntryWake tid pa value))

/-- Whether a pending instruction is a WAITAT, not woken, on a location; its limit. -/
def Pend.timed (p : Pend) (pa : Nat) : Option (Nat × Word) :=
  match p.kind with
  | .entry a false e _ (some l) none => if a = pa then some (l, e) else none
  | _ => none

/-- WAITAT_TIMEOUT (R363): the entry is removed and the expected value returned, without an acquire; before the limit it is
tested again. -/
def execWaitatTimeout (tid : Word) (pa : Nat) (s : State) : Out :=
  let past := fun (p : Pend) => (p.timed pa).any (fun t => decide (t.1 ≤ s.clock))
  .next
    (match s.taskOf tid with
      | none => s
      | some c =>
        match c.pends.find? past with
        | some p => s.withTask tid (fun c => c.completePend (fun q => q == p) ((p.timed pa).map (·.2)))
        | none => if c.pends.any (fun p => (p.timed pa).isSome) then s.send (.waitatTimeout tid pa) else s)

/-- Whether a pending instruction waits for a reply that fills a destination. -/
def Pend.repliesTo (dest : Reg) (p : Pend) : Bool :=
  dest != 0 && p.dest == dest && match p.kind with | .reply _ => true | _ => false

/-- LOAD_REPLY (R318, R479): the delay counters of its level rise; a pending destination takes its value. -/
def execLoadReply (tid : Word) (dest : Reg) (value : Word) (level hops queue : Nat) (s : State) : Out :=
  .next (s.withTask tid (fun c =>
    let c1 := c.addDelay level hops queue
    match c1.pends.find? (Pend.repliesTo dest) with
    | none => c1
    | some p => (if p.kind = .reply true then c1.mergeFlags { sat := true } else c1).completePend (Pend.repliesTo dest) (some value)))

/-- STORE_ACK (R301). -/
def execStoreAck (tid : Word) (part : Nat) (refusal : Option Record) (level : Nat) (s : State) : Out :=
  .next (s.acked tid part refusal level)

/-- FABRIC_REQUEST_TIMEOUT (R504): a request to another device is refused with cause 9: a read as LD is, a store with a record. -/
def execFabricRequestTimeout (q : HomeReq) (s : State) : Out :=
  let pa := (q.cells.head?.map (·.1)).getD 0
  .next
    (match s.taskOf q.origin.tid with
      | none => s.refuse q pa
      | some c =>
        match c.pends.find? (fun p => p.repliesTo p.dest && p.pc == q.origin.pc) with
        | some p => (s.paid c.tid).failPend c.tid p 9 pa
        | none => s.refuse q pa)

/-- An agent of this device acts for a task of another (R349, R357, R359, R360, R363): what it answers, none while a wait holds. -/
def State.actFor (s : State) (part device : Nat) (op : AgentOp) (pa : Nat) (x : Word) (tid : Word) : Option Word × State :=
  let key := s.locationKey pa
  let wait := fun (atLeast : Bool) (cls : BitVec 2) =>
    let v := s.keyValue key
    if entrySatisfied atLeast x v then (some v, s.touchHome part pa 8)
    else
      let s1 := { s with farWaits := s.farWaits ++ [⟨device, tid, key, atLeast, x, cls⟩] }
      (none, if atLeast then (s1.registered key).foldl (fun s t => s.raiseTask cls t) s1 else s1)
  let here := fun (r : Registration) => r.pa == key && r.tid == tid
  match op with
  | .act op => let r := s.atomicAt part op pa x tid; (some r.1, r.2.2)
  | .cwait cls => wait true cls
  | .waita => wait false 0
  | .creg =>
    if s.registrations.any here then
      (some 1, { s with registrations := updateFirst here (fun r => { r with owed := x.toNat }) s.registrations })
    else (some 0, { s with registrations := s.registrations ++ [⟨key, 0, tid, 0, 3, x.toNat⟩] })
  | .cunreg =>
    match s.registrations.find? here with
    | none => (some (BitVec.allOnes 64), s)
    | some r => (some (BitVec.ofNat 64 r.owed), s.endRegistration key tid)

/-- SYSTEM_ATOMIC_REQUEST (R349, R503): a fabric station acts for another device on a location of this one. -/
def execSystemAtomicRequest (who : Asker) (op : AgentOp) (pa : Nat) (operand : Word) (reply : Bool) (s : State) : Out :=
  let full := s.dev.toNat * 2 ^ 48 + pa % 2 ^ 48
  let size := match op with | .act op => atomicSize op | _ => 8
  .next
    (match (s.stationPart who.device).filter (fun p => s.atomicAccepts 0 p 3 full && s.atomicGrants p 6 full && !s.spoiledFor p full size) with
      | none => s.emit (.error who.device)
      | some p =>
        let r := s.actFor p who.device op full operand who.tid
        match r.1 with
        | some v => if reply then r.2.emit (.mailbox who.device 4 (bytesOf v.toNat 8)) else r.2
        | none => r.2)

end Sys2Proof.Machine
end

