-- ==== Sys2Proof/Machine/Branch.lean ====
section
/-!
DEFINITION. Branches and jumps (spec/04_scalar_instructions.md R106 to R108).
-/

namespace Sys2Proof.Machine

/-- A branch: to pc plus the offset in halfwords when its condition holds, else to the next word (R106). -/
def State.branch (s : State) (cond : Bool) (offset : Word) (len : Nat) : State :=
  s.withCx (fun c => c.stepTo (if cond then c.pc + offset * 2 else c.pc + BitVec.ofNat 64 len))

/-- A jump that writes the return address (R107). -/
def State.jump (s : State) (d : Reg) (target : Word) (len : Nat) : State :=
  s.gate 0 ⟨[d], [], []⟩ (s.withCx (fun c => (c.writeX d (c.pc + BitVec.ofNat 64 len)).stepTo target))

/-- BEQ (R106). -/
def execBeq (a b : Reg) (off : BitVec 12) (s : State) : Out := .next (s.branch ((s.x a) == (s.x b)) (sext off) 4)

/-- BNE (R106). -/
def execBne (a b : Reg) (off : BitVec 12) (s : State) : Out := .next (s.branch ((s.x a) != (s.x b)) (sext off) 4)

/-- BLT (R106). -/
def execBlt (a b : Reg) (off : BitVec 12) (s : State) : Out := .next (s.branch (slt (s.x a) (s.x b)) (sext off) 4)

/-- BGE (R106). -/
def execBge (a b : Reg) (off : BitVec 12) (s : State) : Out := .next (s.branch (!slt (s.x a) (s.x b)) (sext off) 4)

/-- BLTN (R106). -/
def execBltn (a b : Reg) (off : BitVec 12) (s : State) : Out := .next (s.branch (ult (s.x a) (s.x b)) (sext off) 4)

/-- BGEN (R106). -/
def execBgen (a b : Reg) (off : BitVec 12) (s : State) : Out := .next (s.branch (!ult (s.x a) (s.x b)) (sext off) 4)

/-- JAL (R107). -/
def execJal (d : Reg) (off : BitVec 20) (s : State) : Out := .next (s.jump d (s.cx.pc + sext off * 2) 4)

/-- JALR (R107): the target is read before the return address is written (R86). -/
def execJalr (d a : Reg) (s : State) : Out := .next (s.jump d (s.x a) 4)

end Sys2Proof.Machine
end

