-- ==== Sys2Proof/Machine/Fetch.lean ====
section
/-!
DEFINITION. Instruction fetch: its checks (spec/01 R13, R32, R33; spec/11 R297), and the instruction cache (spec/04 R115).
-/

namespace Sys2Proof.Machine

/-- Translation and permission check of a fetch at a level (R297). -/
def State.fetchXlat (s : State) (core part : Nat) (level : BitVec 2) (va : Nat) : Xlat :=
  match s.leafAt core part va with
  | none => .fault 7 0
  | some l => if !l.x || (level = 0 && !l.u) then .fault 7 (l.addr va) else .ok l (l.addr va)

/-- The bytes of a line as a fetch of a core finds them when its instruction cache does not hold it: what has reached the home, with
the stores that the core has made (R115). -/
def State.fetchSource (s : State) (core num : Nat) : BitVec 256 := BitVec.ofNat 256 (ofBytes (s.peekFrom core (32 * num) 32))

/-- The instruction-cache line of a core, unless it has been evicted. -/
def State.icLine (s : State) (core num : Nat) : Option (BitVec 256) :=
  match (tget s.cores core Core.reset).icache.find? (fun e => e.1 == num) with
  | none => none
  | some e => if Config.icacheEvicted s.turn num then none else some e.2

/-- A line put into a core's instruction cache of 1,024 lines (R115). -/
def State.icFill (s : State) (core num : Nat) (data : BitVec 256) : State :=
  s.withCore core (fun c => { c with icache := ((num, data) :: c.icache.filter (fun e => e.1 != num)).take 1024 })

/-- What a fetch answers: the line of 32 bytes that holds the address. -/
inductive Fetched where
  | line (d : BitVec 256) (s : State)
  | fault (code pa : Nat)
deriving Repr

/-- What stops a fetch that misses the instruction cache, 0 for nothing (R315, R317, R321): the halfword that it consumes is read from a line
copy of the core, where it has one, else through the slice. -/
def State.fetchRefused (s : State) (part : Nat) (leaf : Leaf) (core pa : Nat) : Nat :=
  match s.placeOf pa with
  | .hbm _ _ =>
    if !s.lineGranted core part leaf pa then 9
    else
      match (tget s.cores core Core.reset).lines.find? (fun l => l.num == pa / 32) with
      | some l => if l.spoiled (pa % 32) 2 then 11 else 0
      | none => if (s.sliceFor core part leaf pa).any (fun h => (s.fillBad core h (pa / 32)).getLsbD (pa % 32 / 8 + 4)) then 11 else 0
  | _ => 9

/-- Whether a line, as a fetch finds it, has a word with an uncorrectable error: the instruction cache then does not keep it (R321). -/
def State.fetchSpoiled (s : State) (part : Nat) (leaf : Leaf) (core pa : Nat) : Bool :=
  match (tget s.cores core Core.reset).lines.find? (fun l => l.num == pa / 32) with
  | some l => l.spoiled 0 32
  | none => (s.sliceFor core part leaf pa).any (fun h => s.fillBad core h (pa / 32) != 0)

/-- The halfword at an address in its line (R39). -/
def halfAt (d : BitVec 256) (va : Nat) : Nat := d.toNat / 2 ^ (8 * (va % 32)) % 65536

/-- The line of an address is fetched (R13, R32, R115); a reply that a task's execution consumes adds to its delay counters (R318). -/
def State.fetchLineAt (s : State) (core part : Nat) (level : BitVec 2) (va : Nat) (task : Option Word) : Fetched :=
  match s.fetchXlat core part level va with
  | .fault code pa => .fault code pa
  | .ok leaf pa =>
    let s1 := s.tlbFill core part va leaf
    match s.icLine core (pa / 32) with
    | some d => .line d s1
    | none =>
      if s.fetchRefused part leaf core pa ≠ 0 then .fault (s.fetchRefused part leaf core pa) pa
      else
        let d := s.fetchSource core (pa / 32)
        let s2 := ((s.sliceFor core part leaf pa).elim s1 (fun h => s1.readSlice h (pa / 32 * 32) 32 leaf.ros)).mendLine core (pa / 32) 0 32
        let s3 := task.elim s2 (fun t =>
          s2.send (.loadReply t 0 0 (s.levelOf core (s.sliceFor core part leaf pa) pa) (Config.hops s.turn) (Config.queueCycles s.turn)))
        .line d (if s.fetchSpoiled part leaf core pa then s3 else s3.icFill core (pa / 32) d)

/-- A range of lines brought into a core's instruction cache, where nothing refuses it (R355). -/
def State.icPrefetch (s : State) (core part : Nat) (va : Nat) : Nat → State
  | 0 => s
  | n + 1 =>
    (match s.fetchLineAt core part 1 (va / 2 * 2) none with
      | .line _ s1 => s1
      | .fault _ _ => s).icPrefetch core part (va + 32) n

/-- A fetch fault: precise, at the first halfword, with its record (R13, R465). -/
def State.fetchFault (s : State) (code : Nat) (va : Word) (pa : Nat) : State := s.preciseData code 2 va pa 0

end Sys2Proof.Machine
end

