-- ==== Sys2Proof/Machine/Sync.lean ====
section
/-!
DEFINITION. Phases, fences and early successors: major 0x2E of spec/13_memory_instructions.md (R351 to R355).
-/

namespace Sys2Proof.Machine

/-- PHASE (R351). -/
def execPhase (sc : BitVec 2) (s : State) : Out := .next ((s.boundary (some sc) (some sc)).withCx (fun c => c.retire 4))

/-- REL (R352): a release, and no boundary. -/
def execRel (sc : BitVec 2) (s : State) : Out := .next ((s.release s.cx.key sc).withCx (fun c => c.retire 4))

/-- ACQ (R352): an acquire that keeps the thread's holds, and no boundary. -/
def execAcq (sc : BitVec 2) (s : State) : Out := .next ((s.acquire s.cx.key sc).withCx (fun c => c.retire 4))

/-- Whether a load of the running code has not returned. -/
def Ctx.loading (c : Ctx) : Bool :=
  c.pends.any (fun p => p.depth == c.depth && (p.isVector || p.inProgress))

/-- FENCE (R352): REL and ACQ, and later accesses wait until earlier loads have returned. -/
def execFence (sc : BitVec 2) (s : State) : Out :=
  .next (if s.cx.loading then s.stall
    else ((s.release s.cx.key sc).acquire s.cx.key sc).withCx (fun c => c.retire 4))

/-- FENCER (R353). -/
def execFencer (s : State) : Out := .next (if s.cx.unack ≠ 0 then s.stall else s.withCx (fun c => c.retire 4))

/-- PWAIT (R354): tried again at each turn until the actor has ended a reaction late enough. -/
def execPwait (sc : BitVec 2) (d a b : Reg) (s : State) : Out :=
  let p := actorAddr (s.x a)
  .next (s.gate 0 ⟨[d], [], []⟩
    (if p = s.cx.actor then s.illegalOperand
     else if (s.actorPage (s.x a)).all (fun pa => deviceOf pa != s.dev.toNat) then
       s.withCx (fun c => (c.writeX d (BitVec.allOnes 64)).retire 4)
     else
      match (s.actorOf s.cx.part p).ended with
      | some t =>
        if (s.x b).toNat ≤ t.toNat then (s.boundary none (some sc)).withCx (fun c => (c.writeX d t).retire 4) else s.stallKeeping
      | none => s.stallKeeping))

/-- An idle context of a core that holds no reservation (R355). -/
def State.unreserved (s : State) (core : Nat) : Option Nat :=
  ((List.range 4).map (4 * core + ·)).find? (fun k => s.idleAt k && (s.hintOf k).isNone && !s.gangReserved.contains k)

/-- The instruction cache of a core takes the first 256 bytes at the handler of an actor's first arrived event (R355). -/
def State.warm (s : State) (core : Nat) (actor : Word) : State :=
  match s.firstEvent s.cx.part actor with
  | none => s
  | some q => 
    let a := q.event.handler.toNat / 2 * 2
    s.icPrefetch core s.cx.part (a / 32 * 32) ((a % 32 + 256 + 31) / 32)

/-- PHINT (R355). -/
def execPhint (d a b : Reg) (s : State) : Out :=
  let actor := actorAddr (s.x a)
  let time := (s.x b).toNat
  let answer := fun (s : State) (v : Word) => s.withCx (fun c => (c.writeX d v).retire 4)
  .next (s.gate 0 ⟨[d], [], []⟩
    (if 1000000 < time then s.illegalOperand
     else if (s.actorPage (s.x a)).all (fun pa => deviceOf pa != s.dev.toNat) then answer s 2
     else
      let core := s.homeCore s.cx.part actor
      let s1 := s.warm core actor
      match s1.unreserved core with
      | none => answer s1 1
      | some k =>
        let until_ := s.clock + if time = 0 then 10000 else time
        answer ((s1.withCore core (fun c => { c with hints := c.hints ++ [⟨actor, k, until_⟩] })).send (.phintExpiry core actor)) 0))

/-- PHINT_EXPIRY (R355): reservations whose time has passed end; else they are tested again. -/
def execPhintExpiry (core : Nat) (actor : Word) (s : State) : Out :=
  let past := fun (h : Hint) => h.actor == actor && decide (h.until_ ≤ s.clock)
  let s1 := s.withCore core (fun c => { c with hints := c.hints.filter (fun h => !past h) })
  .next (if (tget s1.cores core Core.reset).hints.any (fun h => h.actor == actor) then s1.send (.phintExpiry core actor) else s1)

end Sys2Proof.Machine
end

