-- ==== Sys2Proof/Machine/Subs.lean ====
section
/-!
DEFINITION. Subscriptions: major 0x32 of spec/13_memory_instructions.md (R365 to R368), and their updates (spec/12 R340 to R342,
spec/18 R481).
-/

namespace Sys2Proof.Machine

/-- The number of a subscription that its core sees, 0 to 31 (R365); the model numbers them 32 n plus that. -/
def Sub.slot (b : Sub) : Nat := b.num % 32

/-- The starts of the 64 KB granules of a region. -/
def granules (va n : Nat) : List Nat :=
  va :: ((List.range (n / 65536 + 1)).map (fun i => (va / 65536 + 1 + i) * 65536)).filter (fun g => decide (g < va + n))

/-- The physical address of a region whose pages lie one after another. -/
def State.regionAt (s : State) (va n : Nat) : Option Nat :=
  let at_ := fun (v : Nat) => (s.leafAt (coreOf s.cx.key) s.cx.part v).map (·.addr v)
  match at_ va with
  | none => none
  | some pa => if (granules va n).all (fun g => at_ g == some (pa + (g - va))) then some pa else none

/-- The physical core of a window address (R292). -/
def windowCore (pa : Nat) : Nat := 16 * (pa / 2 ^ 45 % 4 * Config.dieClusters + pa / 2 ^ 38 % 128) + pa / 2 ^ 34 % 16

/-- The bank of a window address, 32 times the cluster plus the bank number (R293). -/
def windowBank (pa : Nat) : Nat := 32 * (windowCore pa / 16) + pa / 65536 % 32

/-- Whether every granule of a physical region is scratchpad (R293). -/
def State.scratchRegion (s : State) (pa n : Nat) : Bool :=
  (granules pa n).all (fun g => match s.placeOf g with | .scratchpad _ _ => true | _ => false) &&
    pa / 2 ^ 34 == (pa + n - 1) / 2 ^ 34

/-- Whether two regions share a byte. -/
def overlaps (a n b m : Nat) : Bool := decide (a < b + m) && decide (b < a + n)

/-- The least subscription number that neither the core nor the running task uses. -/
def State.freeSub (s : State) (core : Nat) : Option Nat :=
  (List.range 32).find? (fun k =>
    !s.subs.any (fun b => b.slot == k && b.end_ != 1 && (b.core == core || b.tid == s.cx.tid)))

/-- The subscription that the running task knows by a number: the latest one. -/
def State.subNamed (s : State) (k : Nat) : Option Sub :=
  (s.subs.filter (fun b => b.tid == s.cx.tid && b.slot == k)).getLast?

/-- What SUBS answers (R365): where several codes apply, 2 before 3 before 4 before 1 (DESIGN CHOICE, log entry 74). -/
def State.subscribe (s : State) (va n ox : Nat) : Word × State :=
  let core := coreOf s.cx.key
  let refuse := fun (c : Nat) => (BitVec.ofNat 64 (2 ^ 63 + c), s)
  if va % 32 ≠ 0 ∨ ox % 32 ≠ 0 ∨ n % 32 ≠ 0 ∨ n < 32 ∨ 32 * 65536 < n then refuse 2
  else
    match s.regionAt va n with
    | none => refuse 2
    | some a =>
      if !s.scratchRegion a n ∨ windowCore a ≠ core then refuse 2
      else
        match s.regionAt ox n with
        | none => refuse 3
        | some b =>
          let pub := windowCore b
          if !s.scratchRegion b n ∨ !s.grantsWindow (pub / 16) s.cx.part 0 rightRead then refuse 3
          else
            let live := s.subs.filter (fun k => k.end_ == 0)
            if overlaps a n b n ∨ live.any (fun k => k.core == core && overlaps (a % 2 ^ 48) n k.dest k.size) then refuse 4
            else if 32 ≤ (live.filter (fun k => k.pubCore == pub)).length then refuse 1
            else
              match s.freeSub core with
              | none => refuse 1
              | some k =>
                (BitVec.ofNat 64 k,
                  { s with
                    serial := s.serial + 1
                    subs := s.subs.filter (fun b => !(b.slot == k && b.end_ == 1 && b.received.isEmpty && b.tid == s.cx.tid)) ++
                      [⟨32 * s.serial + k, s.cx.tid, core, a % 2 ^ 48, b % 2 ^ 48, n, pub, 0, [], [], 0⟩] })

/-- SUBS (R365): the publisher's region is named by ox3. -/
def execSubs (d a b : Reg) (s : State) : Out :=
  .next (s.gate 0 ⟨[d], [], []⟩
    (let r := s.subscribe (s.x a).toNat (s.x b).toNat (s.cx.readOx 3).toNat
     r.2.withCx (fun c => (c.writeX d r.1).retire 4)))

/-- A subscription that UNSUB ends keeps what is due at that moment; one that a bank switch ended is forgotten (R366, R369). -/
def State.unsubscribe (s : State) (b : Sub) : State :=
  if b.end_ = 2 then { s with subs := s.subs.filter (fun k => k.num != b.num) }
  else { s with subs := updateFirst (fun k => k.num == b.num) (fun k => { k with end_ := 1, batch := [], received := k.received.filter s.isDue }) s.subs }

/-- UNSUB (R366). -/
def execUnsub (d a : Reg) (s : State) : Out :=
  .next (s.gate 0 ⟨[d], [], []⟩
    (if 31 < (s.x a).toNat then s.illegalOperand
     else
      match (s.subNamed (s.x a).toNat).filter (fun b => b.end_ != 1) with
      | none => s.withCx (fun c => (c.writeX d 1).retire 4)
      | some b => (s.unsubscribe b).withCx (fun c => (c.writeX d 0).retire 4)))

/-- SUBSCRIPTION_UPDATE (R340, R341). -/
def execSubscriptionUpdate (sub : Nat) (cells : List Cell) (sent : Before) (release : Option Before) (s : State) : Out :=
  .next (s.updateArrives sub ⟨cells, sent, release⟩)

/-- What becomes due for a task that is switched out is applied at once (R481). -/
def State.applyAway (s : State) : State :=
  ((s.subs.filter (fun b => b.received.any s.isDue && s.ready.any (fun r => r.2.2.tid == b.tid))).map (·.tid)).dedup.foldl
    State.applyDue s

/-- Updates sent and acknowledged one after another, each a remote store of its task until then (R340). -/
def State.flushAll (s : State) : List (Nat × Update) → State
  | [] => s
  | (n, u) :: r => (((s.ackRoom u.sent.tid 1).oweMany u.sent.tid 1).updateArrives n u).flushAll r

/-- The releases of a task so far; of one that has ended none is known. -/
def State.beforeOf (s : State) (tid : Word) : Before := ((s.taskOf tid).map Ctx.before).getD ⟨tid, 0, 0⟩

/-- The active subscriptions that a core publishes to. -/
def State.published (s : State) (core : Nat) : List Sub := s.subs.filter (fun b => b.pubCore == core && b.end_ == 0)

/-- Whether SFLUSH has to wait: updates that a core has sent before are on their way (R340), or a release holds those that it batches (R331). -/
def State.flushHeld (s : State) (core : Nat) : Bool :=
  s.inflight.any (fun i => match i with | .subscriptionUpdate _ _ => s.sentBy core i | _ => false) ||
    (s.published core).any (fun b => b.batch.any (fun l => s.unreleased (s.beforeOf l.1)))

/-- The updates that a core holds batched are sent, and acknowledged; none becomes due by it (R367).  (DESIGN CHOICE, log entry 43.) -/
def State.flushSubs (s : State) (core : Nat) : State :=
  let sends := (s.published core).flatMap (fun b => b.batch.map (fun l =>
    (b.num, (⟨l.2, s.beforeOf l.1, none⟩ : Update))))
  { s with subs := s.subs.map (fun (b : Sub) => if b.pubCore = core ∧ b.end_ = 0 then { b with batch := [] } else b) }.flushAll sends

/-- The updates that a core holds batched. -/
def State.batched (s : State) (core : Nat) : Nat :=
  ((s.published core).map (fun b => b.batch.length)).sum

/-- SFLUSH (R367). -/
def execSflush (d : Reg) (s : State) : Out :=
  let core := coreOf s.cx.key
  .next (s.gate 0 ⟨[d], [], []⟩
    (if s.flushHeld core then s.stall
     else (s.flushSubs core).withCx (fun c => (c.writeX d (BitVec.ofNat 64 (s.batched core))).retire 4)))

/-- The state of a subscription (R368). -/
def Sub.stat (b : Sub) : Word :=
  BitVec.ofNat 64
    ((if b.end_ = 0 then 2 ^ 63 else 0) + b.end_ % 4 * 2 ^ 60 + Nat.min 65535 b.received.length * 2 ^ 16 +
      Nat.min 65535 b.applied)

/-- SSTAT (R368). -/
def execSstat (d a : Reg) (s : State) : Out :=
  .next (s.gate 0 ⟨[d], [], []⟩
    (if 31 < (s.x a).toNat then s.illegalOperand
     else s.withCx (fun c => (c.writeX d ((s.subNamed (s.x a).toNat).elim 0 Sub.stat)).retire 4)))

end Sys2Proof.Machine
end

