-- ==== Sys2Proof/Machine/Claims.lean ====
section
/-!
DEFINITION. Claims: major 0x33 of spec/13_memory_instructions.md (R370 to R376), their windows and decisions (spec/12 R343 to R346) and
late objections (spec/20 R532 to R534).
-/

namespace Sys2Proof.Machine

/-- The physical address that a claim may take: HBM of the job that the running thread may write and no access table refuses (R296, R315, R374). -/
def State.claimable (s : State) (va : Nat) : Option Nat :=
  match s.translate (coreOf s.cx.key) s.cx.part s.cx.pl va true with
  | .fault _ _ => none
  | .ok l pa =>
    match s.placeOf pa with
    | .hbm dev _ =>
      if l.w && !l.ros && (dev == s.dev.toNat || s.part.jobDevices.contains dev) && s.atomicGrants s.cx.part 0 pa then some pa else none
    | _ => none

/-- A member of a claim group as the list that CLAIM reads gives it (R371): its device, actor and claim handler. -/
structure Listed where
  device : Nat
  actor : Word
  haddr : Word
deriving DecidableEq, Repr

/-- The members of a claim group besides the running actor, as its directory lists them (R370, R371, R374): the actors of this device that are
recorded there, and those of other devices, which for another device's directory are a free value. -/
def State.membersOfGroup (s : State) (g : Nat) : List Listed :=
  let own := s.actors.filter (fun a => a.part == s.cx.part && a.grp.getLsbD g && a.addr != s.cx.actor)
  let far :=
    if s.directoryOf s.cx.part g = s.dev.toNat then
      (s.farMembers.filter (fun m => m.part == s.cx.part && m.group == g)).map (fun m =>
        (⟨m.device, m.actor, BitVec.ofNat 64 (m.haddr.toNat * 4)⟩ : Listed))
    else
      ((Config.farGroup s.turn).filter (fun m => m.1 != s.dev.toNat && s.part.jobDevices.contains m.1)).map (fun m => ⟨m.1, m.2.1, m.2.2⟩)
  own.map (fun a => ⟨s.dev.toNat, a.addr, BitVec.ofNat 64 (a.haddr.toNat * 4)⟩) ++ far

/-- The announcement of a claim to each member, here or on another device (R371, R374). -/
def State.announce (s : State) (addr : Word) (ta w : Nat) (t : Tag) : List Listed → State
  | [] => s
  | a :: r =>
    let deadline := BitVec.ofNat 64 (Nat.min (2 ^ 64 - 1) (ta + w))
    let e := { s.eventFrom t a.actor a.haddr addr deadline 0 with claim := some (ta, w) }
    let s1 := s.numberUsed (actorAddr a.actor)
    (if a.device = s.dev.toNat then s1.send (.eventArrival e) else s1.emit (.event a.device e)).announce addr ta w t r

/-- A claim fails with a cause, unless it has failed already (R344, R345). -/
def Claim.fail (c : Claim) (cause : Nat) : Claim := { c with failed := some (c.failed.getD cause) }

/-- Which of two claims on one address wins their conflict (R345).  (DEDUCED, log entry 44.) -/
def Claim.beats (a b : Claim) : Bool :=
  decide (a.ta < b.ta) || (a.ta == b.ta && decide (a.claimer.toNat < b.claimer.toNat))

/-- Two undecided claims conflict (R345).  (DEDUCED, log entry 44.) -/
def Claim.conflicts (a b : Claim) : Bool := a.pa == b.pa && !a.decided && !b.decided && decide (b.ta ≤ a.decideAt)

/-- A claim reaches the home of its address, which decides its conflicts (R345). -/
def State.enterClaim (s : State) (c : Claim) : State :=
  let lost := s.claims.any (fun k => k.conflicts c && k.beats c)
  { s with claims :=
      (s.claims.filter (fun k => !(k.decided && k.claimer == c.claimer && k.addr == c.addr))).map (fun k =>
        if k.conflicts c && c.beats k then k.fail 256 else k) ++ [if lost then c.fail 256 else c] }

/-- The device of a logical core as sys.lcore names it (R22). -/
def deviceOfCore (l : BitVec 26) : Nat := field l 16 10

/-- The home of a claim on another device learns of it, to decide its conflicts, in a kind-3 record (R345, R503). -/
def State.enterFar (s : State) (c : Claim) : State :=
  s.emit (.mailbox (deviceOf c.pa) 3 (bytesOf c.pa 8 ++ bytesOf c.value.toNat 8 ++ bytesOf c.claimer.toNat 4 ++ bytesOf c.ta 8 ++
    bytesOf c.window 4 ++ bytesOf c.decideAt 8))

/-- The effect of CLAIM once its operands and its address have passed, its release has been made, and what that holds before the claim has reached
its homes (R331, R343, R374). -/
def State.makeClaim (s : State) (g pa : Nat) (t : Tag) (addr value : Word) (cw : Word) : State :=
  let w := field cw 0 32
  let ta := s.clock
  let (d, e) := if cw.getLsbD 32 then (s.part.dfab.toNat, s.part.eclk.toNat) else (Config.dDev, 0)
  let s1 := s.announce addr ta w t (s.membersOfGroup g)
  let c : Claim :=
    { num := s.serial, part := s.cx.part, group := g, addr := addr, pa := pa, value := value, claimer := s.cx.lcore, tid := s.cx.tid,
      ctx := s.cx.key, ta := ta, window := w, decideAt := ta + w + d + e, failed := none, decided := false, actor := s.cx.actor }
  let s2 := { s1 with serial := s.serial + 1 }.enterClaim c
  (if deviceOf pa = s.dev.toNat then s2 else s2.enterFar c).send (.claimDecision (.decide s.serial))

/-- CLAIM (R374): the group is in ox6, whose other bits must be zero (R53). -/
def execClaim (d a b : Reg) (s : State) : Out :=
  let g := field (s.cx.readOx 6) 0 4
  let cw := tget s.part.cwin g 0
  let answer := fun (s : State) (v : Word) => s.withCx (fun c => (c.writeX d v).retire 4)
  .next (s.gate 0 ⟨[d], [], []⟩
    (if 16 ≤ (s.cx.readOx 6).toNat then s.illegalOperand
     else if (s.x a).toNat % 8 ≠ 0 then s.preciseData 6 1 (s.x a) 0 (recordWord (wcWord 0x33 d.toNat a.toNat b.toNat 0 0 0))
     else if field cw 0 32 = 0 then answer s 1
     else if s.cx.tag.micro = BitVec.allOnes 32 then answer s 4
     else
      match s.claimable (s.x a).toNat with
      | none => answer s 3
      | some pa =>
        if s.claims.any (fun c => !c.decided && c.pa == pa && c.claimer == s.cx.lcore) then answer s 2
        else
          let s1 := (s.release s.cx.key (if cw.getLsbD 32 then 3 else 2))
          let s2 := s1.drainSent s1.cx pa
          if s2.unreleased s2.cx.before then s.stall
          else answer (s2.makeClaim g pa ⟨s.cx.tag.time, s.cx.tag.micro + 1⟩ (s.x a) (s.x b) cw) 0))

/-- A claim of this device is decided (R344, R346): a won one stores at the home of its address, on this device or another, whose own conflicts
the other device decides (log entry 5); its task may read the outcome. -/
def State.decideOwn (s : State) (c : Claim) : State :=
  let far := deviceOf c.pa ≠ s.dev.toNat
  let c1 := if far ∧ (Config.farReply s.turn).getLsbD 63 then c.fail 256 else c
  let cells := cellsOf c.pa (bytesOf c.value.toNat 8)
  let s1 :=
    if c1.failed.isSome then s
    else if far then (s.emit (.mailbox (deviceOf c.pa) 3 (bytesOf c.pa 8 ++ bytesOf c.value.toNat 8))).farAccept cells
    else s.acceptHome c.part c.pa cells
  let s2 := s1.withTask c.tid (fun k => { k with decisions := k.decisions ++ [(c.addr, c1.failed.getD 0)] })
  { s2 with claims := updateFirst (fun k => k.num == c.num) (fun _ => { c1 with decided := true }) s2.claims }

/-- The home has decided the conflicts of another device's claim, whose device learns of it in a kind-3 record (R345, R503). -/
def State.decideFar (s : State) (c : Claim) : State :=
  { s.emit (.mailbox (deviceOfCore c.claimer) 3 (bytesOf c.pa 8 ++ bytesOf (c.failed.getD 0) 2)) with
    claims := updateFirst (fun k => k.num == c.num) (fun _ => { c with decided := true }) s.claims }

/-- Whether another device may claim an address of this one (R315, R502), and the partition that its station gives it. -/
def State.farClaimer (s : State) (device pa : Nat) : Option Nat :=
  (s.stationPart device).filter (fun p =>
    match s.placeOf pa with
    | .hbm dev _ => dev == s.dev.toNat && s.atomicGrants p 6 pa
    | _ => false)

/-- CLAIM_DECISION (R344 to R346): a claim at its decision point, before which it is tested again; a claim of another device that enters the
conflicts of its address's home here, and the store of one that is won. -/
def execClaimDecision (news : ClaimNews) (s : State) : Out :=
  .next
    (match news with
      | .decide n =>
        match s.claims.find? (fun c => c.num == n && !c.decided) with
        | none => s
        | some c =>
          if s.clock < c.decideAt then s.send (.claimDecision (.decide n))
          else if deviceOfCore c.claimer = s.dev.toNat then s.decideOwn c
          else s.decideFar c
      | .enter device pa value claimer ta window decideAt =>
        match s.farClaimer device pa with
        | none => s.emit (.error device)
        | some p =>
          ({ s with serial := s.serial + 1 }.enterClaim
            { num := s.serial, part := p, group := 0, addr := 0, pa := pa, value := value, claimer := claimer, tid := 0, ctx := 0, ta := ta,
              window := window, decideAt := decideAt, failed := none, decided := false, actor := 0 }).send (.claimDecision (.decide s.serial))
      | .won device pa value =>
        match s.farClaimer device pa with
        | none => s.emit (.error device)
        | some p => s.acceptHome p pa (cellsOf pa (bytesOf value.toNat 8)))

/-- OBJECT (R375). -/
def execObject (d a b : Reg) (s : State) : Out :=
  let v := s.x b
  let cause := field v 56 8
  let claimer : BitVec 26 := v.setWidth 26
  let answer := fun (s : State) (v : Word) => s.withCx (fun c => (c.writeX d v).retire 4)
  .next (s.gate 0 ⟨[d], [], []⟩
    (if field v 26 30 ≠ 0 ∨ cause = 0 then s.illegalOperand
     else
      match (((s.actorOf s.cx.part s.cx.actor).claims).filter (fun r => r.addr == s.x a && r.claimer == claimer)).getLast? with
      | none => answer s 2
      | some r =>
        if r.ta + r.window ≤ s.clock then answer s 1
        else if deviceOfCore claimer ≠ s.dev.toNat then
          answer (s.emit (.mailbox (deviceOfCore claimer) 3 (bytesOf (s.x a).toNat 8 ++ bytesOf v.toNat 8 ++ bytesOf s.cx.tid.toNat 8))) 0
        else answer (s.send (.objectionArrival (s.x a) claimer (BitVec.ofNat 8 cause) s.cx.key s.cx.tid s.cx.tag none)) 0))

/-- The late-objection record (R534). -/
def lateObjection (addr : Word) (claimer : BitVec 26) (cause : Byte) (ta arrive : Nat) (tag : Tag) (tid : Word) : Record :=
  mkRecord 16 0 1 0 tag 0 addr (BitVec.ofNat 64 (claimer.toNat + cause.toNat * 2 ^ 32)) (BitVec.ofNat 64 ta) 0 tid |||
    BitVec.ofNat 512 (arrive % 2 ^ 64 * 2 ^ 384)

/-- An objection came too late: its member gets the record, here or, by a kind-3 record, on another device (R344, R503, R534). -/
def State.tooLate (s : State) (addr : Word) (claimer : BitVec 26) (cause : Byte) (objector : Nat) (objectorTid : Word) (tag : Tag)
    (ta arrived : Nat) : State :=
  let device := objectorTid.toNat / 2 ^ 48
  if device ≠ s.dev.toNat then
    s.emit (.mailbox device 3 (bytesOf addr.toNat 8 ++ bytesOf (claimer.toNat + cause.toNat * 2 ^ 56) 8 ++ bytesOf objectorTid.toNat 8 ++
      bytesOf ta 8 ++ bytesOf arrived 8))
  else
    s.deliver objectorTid ((s.partOfCore (coreOf objector)).getD 0) 16 0 (lateObjection addr claimer cause ta arrived tag objectorTid) false

/-- OBJECTION_ARRIVAL (R344): the claim fails; after its decision point the objector gets a record instead. -/
def execObjectionArrival (addr : Word) (claimer : BitVec 26) (cause : Byte) (objector : Objector) (tag : Tag)
    (late : Option (Nat × Nat)) (s : State) : Out :=
  .next
    (match late with
      | some (ta, arrived) => s.tooLate addr claimer cause objector.ctx objector.tid tag ta arrived
      | none =>
        match (s.claims.filter (fun c => c.addr == addr && c.claimer == claimer)).getLast? with
        | none => s
        | some c =>
          if !c.decided ∧ s.clock < c.decideAt then
            { s with claims := updateFirst (fun k => k.num == c.num) (fun k => k.fail cause.toNat) s.claims }
          else s.tooLate addr claimer cause objector.ctx objector.tid tag c.ta s.clock)

/-- CLAIM_RECORD_EXPIRY (R374): a member's records whose time has passed go; else they are tested again. -/
def execClaimRecordExpiry (part : Nat) (actor : Word) (addr : Word) (claimer : BitVec 26) (s : State) : Out :=
  let mine := fun (r : ClaimRecord) => r.addr == addr && r.claimer == claimer
  let s1 := s.withActor part actor (fun a => { a with claims := a.claims.filter (fun r => !(mine r && decide (r.until_ ≤ s.clock))) })
  .next (if ((s1.actorOf part actor).claims).any mine then s1.send (.claimRecordExpiry part actor addr claimer) else s1)

/-- CLAIMW (R376): every decision that it returns is an acquire at device scope. -/
def execClaimw (d a : Reg) (s : State) : Out :=
  let addr := s.x a
  .next (s.gate 0 ⟨[d], [], []⟩
    (match s.cx.decisions.find? (fun e => e.1 == addr) with
      | some e =>
        (s.boundary none (some 2)).withCx (fun c =>
          ({ c with decisions := removeFirst (fun e => e.1 == addr) c.decisions }.writeX d (BitVec.ofNat 64 e.2)).retire 4)
      | none =>
        if s.claims.any (fun c => !c.decided && c.addr == addr && c.tid == s.cx.tid) then s.stallKeeping
        else s.withCx (fun c => (c.writeX d 257).retire 4)))

/-- CWIN (R373). -/
def execCwin (d a b : Reg) (s : State) : Out :=
  let g := (s.x a).toNat
  .next (s.gate 0 ⟨[d], [], []⟩
    (if 15 < g ∨ 2 ^ 33 ≤ (s.x b).toNat then s.illegalOperand
     else
      (s.withPart s.cx.part (fun p => { p with cwin := tset p.cwin g (s.x b) })).withCx
        (fun c => (c.writeX d (tget s.part.cwin g 0)).retire 4)))

end Sys2Proof.Machine
end

