-- ==== Sys2Proof/Machine/CacheOps.lean ====
section
/-!
DEFINITION. Caches, banks and multicast stores: majors 0x34 and 0x35 of spec/13_memory_instructions.md (R377 to R380), and bank switches
(spec/11 R306, spec/13 R369).
-/

namespace Sys2Proof.Machine

/-- The leaves below a table, each with the address it maps (R295). -/
def State.leavesFrom (s : State) : Nat → Nat → Nat → List (Nat × Leaf)
  | 0, table, va =>
    if !s.tableAt table 32 then []
    else (List.range 32).filterMap (fun i =>
      let e := s.tableEntry (table + 8 * i)
      if entryType e = 2 then (leafOfEntry e (2 ^ 16)).map (fun l => (va + i * 2 ^ 16, l)) else none)
  | n + 1, table, va =>
    if !s.tableAt table 512 then []
    else (List.range 512).flatMap (fun i =>
      let e := s.tableEntry (table + 8 * i)
      let v := va + i * 2 ^ (21 + 9 * n)
      if entryType e = 1 then s.leavesFrom n (entryAddr e) v
      else if entryType e = 2 ∧ n < 2 then ((leafOfEntry e (pageSize (n + 1))).map (fun l => (v, l))).toList
      else [])

/-- The pages of a partition as a core translates them (R295, R298). -/
def State.pages (s : State) (core part : Nat) : List (Nat × Leaf) :=
  let kept := ((tget s.cores core Core.reset).tlb.filter (fun e => e.part == part && !Config.tlbEvicted s.turn e.va)).map
    (fun e => (e.va, e.leaf))
  kept ++ (s.leavesFrom 3 ((s.partition part).ptbase.toNat * 4096) 0).filter (fun e =>
    !kept.any (fun k => k.1 == e.1) && e.1 / 2 ^ 16 != 0)

/-- Whether a line holds a byte of a range of addresses, through one page. -/
def lineInPage (num a n : Nat) (p : Nat × Leaf) : Bool :=
  let lo := Nat.max a p.1
  let hi := Nat.min (a + n) (p.1 + p.2.size)
  decide (lo < hi) && decide (32 * num < p.2.pa + (hi - p.1)) && decide (p.2.pa + (lo - p.1) < 32 * num + 32)

/-- Whether a line holds a byte of a range of the running thread's addresses; unmapped pages are skipped (R377). -/
def lineInRange (pages : List (Nat × Leaf)) (a n : Nat) (l : Line) : Bool :=
  pages.any (lineInPage l.num a n)

/-- The lines of the running core that record scope 0 and hold a byte of a range. -/
def State.dirtyIn (s : State) (pages : List (Nat × Leaf)) (a n : Nat) : List Nat :=
  ((s.core.lines.filter (fun l => l.dirty && lineInRange pages a n l)).map (·.num)).dedup

/-- CFLUSH and CINV up to what CINV adds (R377): X[d] counts the lines written back, the other half of a 64-byte write among them (R132). -/
def State.flushRange (s : State) (d a b : Reg) (after : State → List (Nat × Leaf) → State) : State :=
  let va := (s.x a).toNat
  let n := (s.x b).toNat
  s.gate 0 ⟨[d], [], []⟩
    (if 2 ^ 64 < va + n then s.illegalOperand
     else
      let core := coreOf s.cx.key
      let pages := s.pages core s.cx.part
      let s1 := s.writeBackAll core [] [] (s.dirtyIn pages va n)
      (after s1 pages).withCx (fun c =>
        (c.writeX d (BitVec.ofNat 64 ((s.dirtyLines core).length - (s1.dirtyLines core).length))).retire 4))

/-- CFLUSH (R377). -/
def execCflush (d a b : Reg) (s : State) : Out := .next (s.flushRange d a b (fun s _ => s))

/-- CINV (R377): the lines of the range are then treated as ACQ treats them. -/
def execCinv (d a b : Reg) (s : State) : Out :=
  .next (s.flushRange d a b (fun s1 pages =>
    s1.withCore (coreOf s.cx.key) (fun c =>
      { c with lines := c.lines.flatMap (fun l =>
          if lineInRange pages (s.x a).toNat (s.x b).toNat l then acquireLines (s.cx.key % 4) [l] else [l]) })))

/-- The answer of BMODE and BQRY for a bank that the partition does not have. -/
def bankRefused : Word := 0x8000000000000000

/-- The bank that X[a] names, 32 times the physical cluster plus the bank number, when its cluster is the partition's (R378). -/
def State.bankNamed (s : State) (v : Word) : Option Nat := (s.part.clusters[field v 8 9]?).map (fun c => 32 * c + field v 0 5)

/-- Whether bits of X[a] that BMODE and BQRY do not use are set (R378). -/
def bankOperandBad (v : Word) : Bool := v &&& ~~~0x1FF1F != 0

/-- Whether a descriptor may be given to a bank (R302, R378); BUSY is read-only. -/
def descriptorBad (v : Word) : Bool :=
  field v 0 2 == 3 || (field v 0 2 == 0 && field v 4 4 != 0) || v &&& ~~~0x1FF != 0 || field v 2 2 != 0

/-- Whether a region of window bytes touches a bank. -/
def regionTouches (g a n : Nat) : Bool :=
  (granules a n).any (fun p => p / 2 ^ 47 % 2 == 1 && decide (p % 2 ^ 34 < 32 * 65536) && windowBank p == g)

/-- Subscriptions with a region in a bank end (R369). -/
def State.endSubs (s : State) (g : Nat) : State :=
  { s with subs := s.subs.map (fun b =>
      if b.end_ = 0 ∧ (regionTouches g b.dest b.size || regionTouches g b.source b.size) then
        { b with end_ := 2, batch := [], received := [] }
      else b) }

/-- A pop or count that a switch refuses takes the fate of LD (R306, R317). -/
def State.refusePop (s : State) (g : Nat) (tid : Word) (dest : Reg) : State :=
  match s.taskOf tid with
  | none => s
  | some c =>
    match c.pends.find? (fun p => p.kind == .fifo g && p.dest == dest) with
    | none => s
    | some p => s.failPend tid p 9 0

/-- A held pop refused: a task's, or another device's, which gets an error (R306, R499). -/
def State.refusePopper (s : State) (g : Nat) (p : Popper) : State :=
  match p with
  | .task tid dest => s.refusePop g tid dest
  | .device n => s.emit (.error n)

/-- A push that a switch refuses takes the fate of ST (R306, R317). -/
def State.refusePush (s : State) (g : Nat) (o : Origin) : State :=
  if o.cls = 6 then s.emit (.error o.index)
  else s.send (.storeAck o.tid o.part (some (originRecord o 9 1 1 0)) (bankLevel (coreOf o.ctx) g))

/-- The held accesses of a FIFO bank are refused and its entries are discarded (R306). -/
def State.dropFifo (s : State) (g : Nat) : State :=
  let f := s.fifo g
  let s1 := s.withCluster (g / 32) (fun c => { c with fifos := c.fifos.filter (fun e => e.1 != g % 32) })
  f.pops.foldl (fun s p => s.refusePopper g p) (f.pushes.foldl (fun s p => s.refusePush g p.1) s1)

/-- The lines of a bank's way leave the home slice (R306). -/
def State.dropBank (s : State) (g : Nat) : State :=
  ((s.cluster (g / 32)).slice.filter (fun w => w.bank == g % 32)).foldl (fun s w => s.dropWay (g / 32) w) s

/-- A bank switch starts (R306). -/
def State.startSwitch (s : State) (g : Nat) (d : BitVec 9) : State :=
  ((((s.endSubs g).dropFifo g).dropBank g).withCluster (g / 32) (fun c => { c with switching := c.switching ++ [(g % 32, d)] })).send
    (.bankSwitchDone g)

/-- BMODE (R378): below level 1 the privilege trap; a bank that is already being switched is waited for. -/
def execBmode (d a b : Reg) (s : State) : Out :=
  let answer := fun (s : State) (v : Word) => s.withCx (fun c => (c.writeX d v).retire 4)
  .next (s.atLevel 1 (s.gate 0 ⟨[d], [], []⟩
    (if bankOperandBad (s.x a) then s.illegalOperand
     else
      match s.bankNamed (s.x a) with
      | none => answer s bankRefused
      | some g =>
        let old := s.bank g
        let new : BitVec 9 := (s.x b).setWidth 9 &&& 0xFF
        if descriptorBad (s.x b) then answer s bankRefused
        else if bankBusy old then s.stall
        else if new = old then answer s (zext old)
        else (s.startSwitch g new).withCx (fun c => { c with run := .waiting (.bank g (zext old) d) }))))

/-- BQRY (R378). -/
def execBqry (d a : Reg) (s : State) : Out :=
  .next (s.gate 0 ⟨[d], [], []⟩
    (if bankOperandBad (s.x a) then s.illegalOperand
     else s.withCx (fun c => (c.writeX d ((s.bankNamed (s.x a)).elim bankRefused (fun g => zext (s.bank g)))).retire 4)))

/-- Accesses to a FIFO bank that are on their way. -/
def fifoAccess (g : Nat) (i : Happening) : Bool :=
  match i with
  | .fifoPush _ b _ | .fifoPop _ b _ | .fifoCount _ b _ | .fifoHeldPushDone b | .fifoHeldPopDone b => b == g
  | _ => false

/-- Accesses to a FIFO bank refused, in order. -/
def State.refuseFifo (s : State) (g : Nat) : List Happening → State
  | [] => s
  | .fifoPush o _ _ :: r => (s.refusePush g o).refuseFifo g r
  | .fifoPop t _ d :: r => (s.refusePop g t d).refuseFifo g r
  | .fifoCount t _ d :: r => (s.refusePop g t d).refuseFifo g r
  | _ :: r => s.refuseFifo g r

/-- The bytes of a bank as a core's scratchpad are zeroed (R306). -/
def State.wipeBank (s : State) (g owner : Nat) : State :=
  let pa := windowAddr (16 * (g / 32) + owner) (g % 32 * 65536)
  { s.wipe pa 65536 with badWords := s.badWords.filter (fun w => !(decide (pa ≤ 8 * w.1) && decide (8 * w.1 < pa + 65536))) }

/-- The BMODE that waits for a bank's switch completes (R378). -/
def bankDone (g : Nat) (c : Ctx) : Ctx :=
  match c.run with
  | .waiting (.bank b old d) => if b = g then (c.writeX d old).retire 4 else c
  | _ => c

/-- BANK_SWITCH_DONE (R306): the new descriptor holds, and the bank is empty or zeroed; FIFO accesses still on their way are
refused, since the view they named is gone. -/
def execBankSwitchDone (bank : Nat) (s : State) : Out :=
  let b := bank % 32
  .next
    (match (s.cluster (bank / 32)).switching.find? (fun e => e.1 == b) with
      | none => s
      | some e =>
        let late := s.inflight.filter (fifoAccess bank)
        let s1 := { s with inflight := s.inflight.filter (fun i => !fifoAccess bank i) }.refuseFifo bank late
        let s2 := (s1.wipeBank bank (bankOwner (s.bank bank))).wipeBank bank (bankOwner e.2)
        let s3 := s2.withCluster (bank / 32) (fun c =>
          { c with banks := tset c.banks b e.2, switching := c.switching.filter (fun k => k.1 != b) })
        { s3 with cx := bankDone bank s3.cx, others := s3.others.map (bankDone bank) })

/-- The line at an address is brought into a context's level-1 cache without a hold, where it is cacheable, nothing refuses it, and no held
copy has to leave for it (R379, R486). -/
def State.prefetch (s : State) (key part : Nat) (level : BitVec 2) (va : Nat) : State :=
  let core := tget s.cores (coreOf key) Core.reset
  match s.translate (coreOf key) part level va false with
  | .fault _ _ => s
  | .ok leaf pa =>
    match s.placeOf pa with
    | .hbm dev _ =>
      if (leaf.ros ∨ dev = s.dev.toNat) ∧ (s.lineFor key (pa / 32)).isNone ∧ core.roomFor (pa / 32 % 256) ∧
          core.roomFor (Nat.xor (pa / 32) 1 % 256) then
        (s.fetchLine key part leaf pa).getD s
      else s
    | _ => s

/-- PREF (R379). -/
def execPref (a : Reg) (s : State) : Out :=
  .next ((s.prefetch s.cx.key s.cx.part s.cx.pl (s.x a).toNat).withCx (fun c => c.retire 4))

/-- The scratchpad word that X[a] of MCST names: the logical cluster, the core of a cluster, and the window offset (R380). -/
def State.multicastWord (s : State) (pa : Nat) : Option (Nat × Nat × Nat) :=
  let core := windowCore pa
  if deviceOf pa = s.dev.toNat ∧ pa / 2 ^ 47 % 2 = 1 ∧ pa / 2 ^ 38 % 128 < Config.dieClusters ∧ pa % 2 ^ 34 < 32 * 65536 then
    (s.part.logical (core / 16)).map (fun l => (l, core % 16, pa % 2 ^ 34))
  else none

/-- The copies of a multicast store, in ascending order of cluster (R380). -/
def State.multicast (s : State) (o : Origin) (core woff : Nat) (value : Word) : List Nat → State
  | [] => s
  | c :: r =>
    (s.remoteStore o (cellsOf (s.dev.toNat * 2 ^ 48 + windowAddr (16 * c + core) woff) (bytesOf value.toNat 8))).multicast o core woff
      value r

/-- MCST (R380). -/
def execMcst (sc : BitVec 2) (d a b : Reg) (s : State) : Out :=
  let ea := s.x a
  let word := recordWord (wcWord 0x35 d.toNat a.toNat b.toNat sc.toNat 0 0)
  let mask := s.cx.readOx 5
  let js := (List.range 64).filter mask.getLsbD
  .next (s.gate 0 ⟨[d], [], []⟩
    (if ea.toNat % 8 ≠ 0 then s.preciseData 6 1 ea 0 word
     else
      match s.translate (coreOf s.cx.key) s.cx.part s.cx.pl ea.toNat true with
      | .fault code pa => s.preciseData code 1 ea pa word
      | .ok _ pa =>
        match s.multicastWord pa with
        | none => s.preciseData 9 1 ea pa word
        | some (l, core, woff) =>
          if mask = 0 then s.withCx (fun c => (c.writeX d 0).retire 4)
          else if js.any (fun j => decide (s.part.clusters.length ≤ l + j)) then s.preciseData 9 1 ea pa word
          else if 256 < s.owed + js.length then s.stall
          else
            let s1 := s.release s.cx.key sc
            (s1.multicast (s1.originOf s1.cx ea word) core woff (s.x b) (js.filterMap (fun j => s.part.clusters[l + j]?))).withCx
              (fun c => (c.writeX d (BitVec.ofNat 64 js.length)).retire 4)))

end Sys2Proof.Machine
end

