-- ==== Sys2Proof/Machine/Engines.lean ====
section
/-!
DEFINITION. What the four engines share (spec/15_asynchronous_engines.md R382 to R394, R417, R418; spec/16 R420 to R424): commands and their
checks, streams and ports, the accesses of an engine, completion, faults and aborts.
-/

namespace Sys2Proof.Machine

/-- Byte i of a command. -/
def Cmd.byte (k : Cmd) (i : Nat) : Nat := rfield k.record i 1

/-- n bytes of a command from byte i. -/
def Cmd.num_ (k : Cmd) (i n : Nat) : Nat := rfield k.record i n

/-- Byte 0 of a command (R421). -/
def Cmd.code (k : Cmd) : Nat := k.byte 0

/-- ORD, CTRF and TAGF (R420). -/
def Cmd.ord (k : Cmd) : Bool := (k.byte 1).testBit 6
/-- See ord. -/
def Cmd.counts (k : Cmd) : Bool := (k.byte 1).testBit 5
/-- See ord. -/
def Cmd.tagged (k : Cmd) : Bool := (k.byte 1).testBit 4

/-- The scope of a command, core acting as cluster (R389). -/
def Cmd.scope (k : Cmd) : BitVec 2 := BitVec.ofNat 2 (Nat.max 1 (k.byte 1 / 4 % 4))

/-- The master class of an engine (R313). -/
def engineClass (e : Nat) : Nat := match e with | 0 => 2 | 1 => 3 | 2 => 1 | _ => 4

/-- The master class of a command's engine. -/
def Cmd.cls (k : Cmd) : Nat := engineClass k.engine

/-- The commands of each engine, by the values of byte 0 (R421). -/
def knownCode (c : Nat) : Bool := c < 6 || (0x40 ≤ c && c < 0x44) || (0x80 ≤ c && c < 0x86) || (0xC0 ≤ c && c < 0xC5)

/-- The check of the common header (R386). -/
def Cmd.headerOk (k : Cmd) : Bool :=
  k.byte 3 == 0 && !(k.byte 1).testBit 7 && k.code / 64 == k.engine && knownCode k.code &&
    (if k.tagged then decide (k.byte 2 < 64) else k.byte 2 == 0) &&
    (if k.counts then k.num_ 8 8 % 8 == 0 else k.num_ 8 8 == 0)

/-- Whether every byte from 16 on that no listed field covers is zero (R422). -/
def Cmd.onlyBytes (k : Cmd) (fields : List (Nat × Nat)) : Bool :=
  (List.range 48).all (fun i => k.byte (16 + i) == 0 || fields.any (fun e => e.1 ≤ 16 + i && 16 + i < e.1 + e.2))

/-- Output formats of MX.OUT (R428). -/
def outFormat (f : Nat) : Bool := decide (f ≤ 5) || f == 8

/-- A row count and first row of at most 128 rows. -/
def rowsOk (row0 rows : Nat) : Bool := decide (1 ≤ rows) && decide (row0 + rows ≤ 128)

/-- A column or panel offset (R428, R432). -/
def offsetOk (n : Nat) : Bool := n % 64 == 0 && decide (n < 2 ^ 20)

/-- The limits of a matrix command's fields (R425 to R432). -/
def Cmd.matrixOk (k : Cmd) : Bool :=
  match k.code with
  | 0 =>
    k.onlyBytes [(16, 8), (24, 3), (28, 4)] && k.num_ 16 8 % 64 == 0 && decide (k.byte 24 < 64) && rowsOk (k.byte 25) (k.byte 26) &&
      k.num_ 28 4 % 64 == 0
  | 1 =>
    k.onlyBytes [(16, 5)] && decide (k.byte 18 < 2) && decide (k.byte 19 ≤ 62) && decide (1 ≤ k.byte 20) &&
      decide (k.byte 16 + k.byte 20 ≤ 64) && decide (k.byte 17 + k.byte 20 ≤ 64)
  | 2 =>
    k.onlyBytes [(16, 6), (24, 16)] && decide (1 ≤ k.byte 18) && decide (k.byte 18 ≤ 16) && decide (k.byte 16 + k.byte 18 ≤ 64) &&
      decide (k.byte 17 + 2 * k.byte 18 ≤ 64) && decide (k.byte 19 ≤ 62) && outFormat (k.byte 20) && decide (k.byte 21 ≤ 2) &&
      offsetOk (k.num_ 32 4) && offsetOk (k.num_ 36 4)
  | 3 =>
    k.onlyBytes [(16, 6), (24, 8)] && decide (k.byte 16 ≤ 2) && outFormat (k.byte 17) && decide (k.byte 18 ≤ 2) &&
      decide (k.byte 19 ≤ 62) && rowsOk (k.byte 20) (k.byte 21) && offsetOk (k.num_ 24 4)
  | 4 => k.onlyBytes [(16, 1)] && decide (1 ≤ k.byte 16) && decide (k.byte 16 ≤ 3)
  | _ =>
    k.onlyBytes [(16, 3), (24, 12), (40, 8)] && decide (k.byte 16 < 2) && rowsOk (k.byte 17) (k.byte 18) && k.num_ 24 8 % 64 == 0 &&
      k.num_ 32 4 % 64 == 0 && (decide (k.byte 18 ≤ 1) || decide (1024 ≤ k.num_ 32 4)) && k.num_ 40 8 % 8 == 0

/-- The limits of a scan command's fields (R434, R437). -/
def Cmd.scanOk (k : Cmd) : Bool :=
  let chain := decide (k.byte 17 < 16) || k.byte 17 == 255
  let tile := chain && decide (k.byte 18 ≤ 62) && decide (1 ≤ k.num_ 20 4) && decide (k.num_ 20 4 ≤ 4096) && k.num_ 24 8 % 64 == 0 &&
    k.num_ 40 8 % 64 == 0 && (if k.byte 16 < 5 then k.num_ 32 8 == 0 else k.num_ 32 8 % 64 == 0)
  match k.code with
  | 0x40 => k.onlyBytes [(16, 3), (20, 28)] && tile && (k.byte 16 == 5 || k.byte 16 == 6)
  | 0x41 => k.onlyBytes [(16, 3), (20, 28)] && tile && decide (k.byte 16 ≤ 4)
  | 0x42 => k.onlyBytes [(17, 1), (24, 8)] && chain && k.num_ 24 8 % 64 == 0
  | _ => k.onlyBytes [(16, 3), (20, 36)] && tile && decide (k.byte 16 ≤ 6)

/-- The limits of a copy command's fields (R438 to R440). -/
def Cmd.copyOk (k : Cmd) : Bool :=
  let el := Nat.min (2 ^ k.byte 44) 64
  match k.code with
  | 0x80 => k.onlyBytes [(16, 24)] && decide (k.num_ 32 8 ≤ 2 ^ 40)
  | 0x83 => k.onlyBytes [(16, 24)] && decide (k.num_ 32 8 ≤ 2 ^ 40) && k.num_ 24 8 % 8 == 0 && k.num_ 32 8 % 8 == 0
  | 0x84 | 0x85 => k.onlyBytes [(16, 16)] && k.num_ 16 8 % 8 == 0
  | _ =>
    k.onlyBytes [(16, 30)] && decide (k.byte 44 ≤ 8) && (k.byte 45 == 2 || k.byte 45 == 3) && k.num_ 16 8 % el == 0 &&
      k.num_ 24 8 % 2 ^ k.byte 45 == 0 && k.num_ 32 8 % el == 0

/-- The limits of a collective command's fields that do not depend on R (R441, R443, R444). -/
def Cmd.collectiveOk (k : Cmd) : Bool :=
  let common := k.num_ 16 8 % 64 == 0 && k.num_ 24 8 % 256 == 0 && k.num_ 32 4 % 256 == 0 && decide (256 ≤ k.num_ 32 4) &&
    decide (k.num_ 32 4 ≤ 2 ^ 20) && decide (k.byte 36 ≤ 1)
  match k.code with
  | 0xC0 => k.onlyBytes [(16, 21), (38, 2), (48, 8)] && common && k.num_ 48 8 % 256 == 0
  | 0xC1 => k.onlyBytes [(16, 21), (38, 2)] && common
  | 0xC2 => k.onlyBytes [(16, 21), (38, 10)] && common && decide (k.num_ 44 2 < k.num_ 46 2)
  | 0xC3 => k.onlyBytes [(16, 21), (38, 18)] && common && decide (k.num_ 44 2 < k.num_ 46 2) && k.num_ 48 8 % 256 == 0
  | _ => k.onlyBytes [(16, 1)] && decide (k.byte 16 ≤ 64)

/-- The limits of a command's own fields (R422). -/
def Cmd.fieldsOk (k : Cmd) : Bool :=
  match k.engine with
  | 0 => k.matrixOk
  | 1 => k.scanOk
  | 2 => k.copyOk
  | _ => k.collectiveOk

/-- What an engine has done so far for a command: the state, the fault met (cause, sub-cause, virtual and physical address), whether a
bank that is being switched holds it (R306), and the flags raised (R424). -/
structure Job where
  s : State
  fault : Option (Nat × Nat × Nat × Nat)
  held : Bool
  flags : Flags
deriving DecidableEq, Repr

/-- A job that has done nothing. -/
def Job.start (s : State) : Job := ⟨s, none, false, {}⟩

/-- Whether a job goes on. -/
def Job.ok (j : Job) : Bool := j.fault.isNone && !j.held

/-- A job meets a fault. -/
def Job.fail (j : Job) (code sub va pa : Nat) : Job := { j with fault := some (code, sub, va, pa) }

/-- Flags raised by a job. -/
def Job.raise (j : Job) (f : Flags) : Job := { j with flags := j.flags.or f }

/-- Units in ascending order until one does not finish; that one takes no effect, so that a resumed command starts it again (R390,
R418).  (DESIGN CHOICE, log entry 25.) -/
def runUnits (f : Nat → Job → Job) : Nat → Nat → Job → Job × Nat
  | 0, i, j => (j, i)
  | n + 1, i, j =>
    let r := f i j
    if r.ok then runUnits f n (i + 1) r else ({ r with s := j.s, flags := j.flags }, i)

/-- A range of addresses cut at 256-byte granules (R307). -/
def pieces (va n : Nat) : List (Nat × Nat) :=
  (List.range ((va % 256 + n + 255) / 256)).map (fun i =>
    let lo := Nat.max va (va / 256 * 256 + 256 * i)
    (lo, Nat.min (va + n) (va / 256 * 256 + 256 * (i + 1)) - lo))

/-- Translation and permission check of an engine's access (R423). -/
def State.engineLeaf (s : State) (k : Cmd) (va : Nat) (store : Bool) : Xlat :=
  match s.walk k.part va with
  | none => .fault 7 0
  | some l => if l.check k.level store = 0 then .ok l (l.addr va) else .fault (l.check k.level store) (l.addr va)

/-- The slice through which an engine reaches an HBM address (R307, R310, R410). -/
def State.engineSlice (s : State) (k : Cmd) (ros : Bool) (pa : Nat) : Option Nat :=
  if ros then some (s.replicaOf (s.partition k.part) k.cluster) else (s.partition k.part).homeOf (pa % 2 ^ 47)

/-- What an engine reads at a physical address within one granule: a cause, 0 for none, and the bytes (R310, R315, R321, R410). -/
def State.engineSource (s : State) (k : Cmd) (leaf : Leaf) (pa n : Nat) : Nat × List Byte :=
  let far := if s.grantsFabric k.part k.cls rightRead pa && Config.farAnswers s.turn then (0, s.farPeek pa n) else (9, [])
  match s.placeOf pa with
  | .hbm dev _ =>
    let slice := s.engineSlice k leaf.ros pa
    if dev ≠ s.dev.toNat ∧ !leaf.ros then far
    else if !s.grantsHbm slice k.part k.cls rightRead pa then (9, [])
    else if dev ≠ s.dev.toNat ∧ !slice.any (fun h => (s.wayOf h pa).isSome) ∧ !Config.farAnswers s.turn then (9, [])
    else if slice.any (fun h => s.sliceBad h pa n) then (11, [])
    else (0, s.bytesAt pa n)
  | .scratchpad g _ =>
    if !s.grantsWindow (g / 32) k.part k.cls rightRead then (9, [])
    else if s.uncorrectable pa n then (11, [])
    else (0, s.peek pa n)
  | .tags c =>
    if c / 16 = k.cluster ∧ s.grantsWindow k.cluster k.part k.cls rightRead then
      (0, ((bytesOf (tget s.cores c Core.reset).ctags.toNat 8).drop (pa % 8)).take n)
    else (9, [])
  | .farWindow _ => far
  | _ => (9, [])

/-- What an engine's read leaves at the level that served it (R308, R320). -/
def State.engineTouch (s : State) (k : Cmd) (leaf : Leaf) (pa n : Nat) : State :=
  match s.placeOf pa with
  | .hbm dev _ =>
    if dev ≠ s.dev.toNat ∧ !leaf.ros then s.emit (.read dev pa n) else (s.engineSlice k leaf.ros pa).elim s (fun h => s.readSlice h pa n leaf.ros)
  | .scratchpad _ _ => s.scrub pa n
  | .farWindow dev => s.emit (.read dev pa n)
  | _ => s

/-- The physical address that a command's address has, 0 when it has none. -/
def State.commandPa (s : State) (k : Cmd) (va : Nat) : Nat := (s.walk k.part va).elim 0 (fun l => l.addr va)

/-- One piece of a read; blk: a format-aware one (R131, R167). -/
def Job.readPiece (j : Job) (k : Cmd) (va n : Nat) (blk : Bool) : List Byte × Job :=
  if !j.ok then ([], j)
  else
    match j.s.engineLeaf k va false with
    | .fault code pa => ([], j.fail code 0 va pa)
    | .ok leaf pa =>
      if blk && !leaf.blk then ([], j.fail 10 0 va pa)
      else if j.s.placeBusy pa then ([], { j with held := true })
      else
        let r := j.s.engineSource k leaf pa n
        if r.1 = 0 then (r.2, { j with s := j.s.engineTouch k leaf pa n }) else ([], j.fail r.1 0 va pa)

/-- An engine reads bytes. -/
def Job.read (j : Job) (k : Cmd) (va n : Nat) (blk : Bool := false) : List Byte × Job :=
  (pieces va n).foldl (fun (acc : List Byte × Job) p =>
    let r := acc.2.readPiece k p.1 p.2 blk
    (acc.1 ++ r.1, r.2)) ([], j)

/-- One piece of a write. -/
def Job.writePiece (j : Job) (k : Cmd) (va : Nat) (bytes : List Byte) : Job :=
  if !j.ok then j
  else
    match j.s.engineLeaf k va true with
    | .fault code pa => j.fail code 1 va pa
    | .ok _ pa =>
      let s := j.s
      let cells := cellsOf pa bytes
      let refused := j.fail 9 1 va pa
      let far := fun (dev : Nat) =>
        if s.grantsFabric k.part k.cls rightWrite pa && Config.farAnswers s.turn then { j with s := (s.emit (.write dev cells)).farAccept cells }
        else refused
      if s.placeBusy pa then { j with held := true }
      else
        match s.placeOf pa with
        | .hbm dev off =>
          if dev ≠ s.dev.toNat then far dev
          else if s.grantsHbm ((s.partition k.part).homeOf off) k.part k.cls rightWrite pa then { j with s := s.acceptHome k.part pa cells }
          else refused
        | .scratchpad g _ =>
          if s.grantsWindow (g / 32) k.part k.cls rightWrite then { j with s := s.accept cells } else refused
        | .tags c =>
          if c / 16 = k.cluster ∧ bytes.length = 8 ∧ s.grantsWindow k.cluster k.part k.cls rightWrite then
            { j with s := s.clearTags c (BitVec.ofNat 64 (ofBytes bytes)) }
          else refused
        | .farWindow dev => far dev
        | _ => refused

/-- An engine writes bytes. -/
def Job.write (j : Job) (k : Cmd) (va : Nat) (bytes : List Byte) : Job :=
  (pieces va bytes.length).foldl (fun (j : Job) p => j.writePiece k p.1 ((bytes.drop (p.1 - va)).take p.2)) j

/-- A command changed, and its ring entry with it (R387, R473). -/
def State.putCmd (s : State) (k : Cmd) : State :=
  { s with cmds := updateFirst (fun c => c.num == k.num) (fun _ => k) s.cmds }.withTask k.tid (fun c =>
    c.ringSet k.seq (fun e => { e with state := k.state, flags := k.flags.toCmd, pidx := BitVec.ofNat 32 k.pidx }))

/-- A command leaves, with the state that its ring entry keeps. -/
def State.dropCmd (s : State) (k : Cmd) : State :=
  let s1 := s.putCmd k
  { s1.withCluster k.cluster (fun c => { c with arrived := c.arrived.filter (fun e => e.1 != k.num) }) with
    cmds := s1.cmds.filter (fun c => c.num != k.num), inflight := s1.inflight.filter (fun i =>
      match i with | .collectivePartial p => p.device != s.dev.toNat || p.cmd != k.num || k.state == 3 | _ => true) }

/-- An engine program changed. -/
def State.withProgram (s : State) (n : Nat) (f : Program → Program) : State :=
  { s with programs := updateFirst (fun p => p.num == n) f s.programs }

/-- A program ends when all its commands have completed, or when one was aborted and none is left (R391, R449). -/
def State.testProgram (s : State) (n : Nat) : State :=
  s.withProgram n (fun p =>
    if p.completed = p.count ∨ (p.aborted ≠ 0 ∧ !s.cmds.any (fun k => k.program == n && k.outstanding)) then { p with ended := true }
    else p)

/-- The record of a command's fault (R469). -/
def Cmd.faultRecord (k : Cmd) (code sub va pa : Nat) : Record :=
  mkRecord code sub 1 (BitVec.ofNat 32 k.pidx) k.tag k.seq (BitVec.ofNat 64 va) (BitVec.ofNat 64 pa) k.pc k.word k.tid

/-- The progress index of a program's command is written into its record in memory (R390). -/
def State.writeIndex (s : State) (k : Cmd) : State :=
  if k.program = 0 then s
  else
    let j := (Job.start s).write { k with level := 1 } (k.addr.toNat + 4) (bytesOf k.pidx 4)
    if j.ok then j.s else s

/-- A command faults (R390): delivered late to the context that supplied it; one whose task has ended leaves its record in the fault
queue and is aborted. -/
def State.commandFault (s : State) (k : Cmd) (code sub va pa : Nat) : State :=
  let r := k.faultRecord code sub va pa
  match s.taskOf k.tid with
  | none => (((s.dropCmd { k with state := 5 }).faultQueue k.part r).testProgram k.program).returnUnits k.cluster
  | some _ =>
    ((s.putCmd { k with state := 4, waiting := false }).writeIndex k).withTask k.tid (fun c =>
      { c with faults := c.faults ++ [⟨k.seq, 0, 0, code, sub, false, BitVec.ofNat 32 k.pidx, some r⟩] })

/-- A copy tag of a core is set, with the scope of the completion that set it (R393, R394). -/
def State.setTag (s : State) (core t : Nat) (scope : BitVec 2) : State :=
  s.withCore core (fun c =>
    { c with
      ctags := c.ctags ||| BitVec.ofNat 64 (2 ^ t)
      tagScope := if c.ctags.getLsbD t then c.tagScope else tset c.tagScope t scope })

/-- The location of a counter operation of an engine: its physical address, or the cause that stops it (R349, R389, R440, R504). -/
def State.engineCounter (s : State) (k : Cmd) (va : Nat) : Nat × Nat :=
  match s.walk k.part va with
  | none => (7, 0)
  | some l =>
    let pa := l.addr va
    if k.level = 0 ∧ !l.u then (7, pa)
    else
      let c := s.agentRefuses k.core k.part k.cls k.scope l pa 8
      (if c = 0 ∧ deviceOf pa ≠ s.dev.toNat ∧ !Config.farAnswers s.turn then 9 else c, pa)

/-- The completion CADD of a command (R389): where no add can be made, a record goes to the supplying context. -/
def State.completionCount (s : State) (k : Cmd) : State :=
  let va := k.num_ 8 8
  let c := s.engineCounter k va
  if c.1 = 0 then (s.atomicAt k.part .cadd c.2 1 0).2.2
  else s.deliver k.tid k.part c.1 1 (k.faultRecord c.1 1 va c.2) false

/-- A command completes (R389, R400): MX.OUT and MX.JOINT have set their tags already. -/
def State.completeCmd (s : State) (k : Cmd) : State :=
  let s1 := s.dropCmd { k with state := 3 }
  let s2 := if k.tagged ∧ k.code ≠ 2 ∧ k.code ≠ 3 then s1.setTag k.core (k.byte 2) k.scope else s1
  let s3 := if k.counts then s2.completionCount k else s2
  let s4 := if k.program = 0 then s3
    else (s3.withProgram k.program (fun p => { p with completed := p.completed + 1 })).testProgram k.program
  s4.returnUnits k.cluster

/-- Whether a command is a scan, which forms prefixes (R434, R436). -/
def Cmd.isScan (k : Cmd) : Bool := k.engine == 1 && k.code != 0x42

/-- A command's record with its progress index cleared. -/
def Cmd.plain (k : Cmd) : Record := k.record &&& ~~~BitVec.ofNat 512 ((2 ^ 32 - 1) * 2 ^ 32)

/-- What the scan engine keeps of a command that stops is saved with its task (R437). -/
def State.saveScan (s : State) (k : Cmd) : State :=
  if k.isScan ∧ !k.kept.isEmpty ∧ (s.taskOf k.tid).isSome then { s with savedScans := ⟨k.tid, k.plain, k.kept, k.carryIn⟩ :: s.savedScans } else s

/-- A scan that is accepted with its progress index has what was saved of it (R418, R437). -/
def State.restoreScan (s : State) (k : Cmd) : State × Cmd :=
  let mine := fun (v : SavedScan) => v.tid == k.tid && v.record == k.plain
  match s.savedScans.find? mine with
  | some v =>
    if k.isScan ∧ k.pidx ≠ 0 then
      ({ s with savedScans := removeFirst mine s.savedScans }, { k with kept := v.kept, carryIn := v.carryIn })
    else (s, k)
  | none => (s, k)

/-- A command is aborted: it signals nothing (R449). -/
def State.abortCmd (s : State) (k : Cmd) : State :=
  let s1 := ((s.dropCmd { k with state := 5, pidx := if k.state = 1 then 0 else k.pidx }).writeIndex k).saveScan k
  let s2 := if k.program = 0 then s1
    else (s1.withProgram k.program (fun p => { p with aborted := p.aborted + 1 })).testProgram k.program
  s2.returnUnits k.cluster

/-- The commands of a command's stream that were accepted before it and have not completed (R383). -/
def State.before (s : State) (k : Cmd) : List Cmd :=
  (s.cmds.takeWhile (fun c => c.num != k.num)).filter (fun c =>
    c.core == k.core && c.engine == k.engine && c.program == k.program && c.outstanding)

/-- Whether a command has written all that it writes. -/
def Cmd.written (k : Cmd) : Bool := k.state == 2 && !k.waiting

/-- The row-to-core map of a cluster as it stands (R398). -/
def Cluster.wholeMap (c : Cluster) : List (Nat × Word) := (List.range 128).map (fun i => (i, c.row i))

/-- The core that a map sends a row to. -/
def mapCore (m : List (Nat × Word)) (r : Nat) : Nat := field (tget m r 0) 16 4

/-- The cores of its cluster that an MX.OUT sends rows to (R398, R428). -/
def State.outCores (s : State) (k : Cmd) : List Nat :=
  if k.engine = 0 ∧ k.code = 3 then
    (List.range (k.byte 21)).map (fun i => mapCore (k.map.getD (s.cluster k.cluster).wholeMap) (k.byte 20 + i))
  else []

/-- Whether the matrix array has an earlier command that names a slot or tile in common (R388), or an earlier MX.OUT that sends rows to
one of the same cores (R400). -/
def State.matrixBusy (s : State) (k : Cmd) : Bool :=
  k.engine == 0 && (s.cmds.takeWhile (fun c => c.num != k.num)).any (fun c =>
    c.cluster == k.cluster && c.engine == 0 && (c.state == 1 || (c.state == 2 && c.waiting)) &&
      ((List.range 66).any (fun n => commandNames c n && commandNames k n) ||
        (s.outCores c).any (s.outCores k).contains))

/-- Whether a command holds back every later one of its stream: CP.WAIT, SC.SEED and CL.SEND (R437, R440, R443). -/
def Cmd.holdsStream (k : Cmd) : Bool :=
  k.code == 0x85 || (k.waiting && (k.code == 0x42 || k.code == 0xC2))

/-- Whether a queued command may start (R388, R390, R440). -/
def State.canStart (s : State) (k : Cmd) : Bool :=
  let l := s.before k
  !l.any (fun c => c.state == 1) && !l.any Cmd.holdsStream && !s.matrixBusy k &&
    (!k.ord || (!l.any (fun c => c.state == 4 || c.state == 6) &&
      !s.cmds.any (fun c => some c.num == k.prev && c.outstanding && !c.written))) &&
    (k.code != 0x84 || l.isEmpty)

/-- The happening that runs a command. -/
def Cmd.happening (k : Cmd) : Happening :=
  match k.code with
  | 0x00 => .mxFill k.num | 0x01 => .mxMma k.num | 0x02 => .mxJoint k.num | 0x03 => .mxOut k.num | 0x04 => .mxZero k.num
  | 0x05 => .mxRdacc k.num | 0x40 => .scLin k.num | 0x41 => .scPfx k.num | 0x42 => .scSeed k.num | 0x43 => .scSeg k.num
  | 0x80 => .cpCopy k.num | 0x81 => .cpGather k.num | 0x82 => .cpScatter k.num | 0x83 => .cpFill k.num | 0x84 => .cpCadd k.num
  | 0x85 => .cpWait k.num | 0xC0 => .clRss k.num | 0xC1 => .clAgs k.num | 0xC2 => .clSend k.num | 0xC3 => .clRecva k.num
  | _ => .clRate k.num

/-- A command that has run to its end, met a fault, or is held, after so many units (R390, R418). -/
def State.settleCmd (k : Cmd) (r : Job × Nat) : State :=
  let k1 := { k with pidx := r.2, flags := k.flags.or r.1.flags, state := 2, waiting := false }
  if r.1.held then (r.1.s.putCmd { k1 with waiting := true }).send k.happening
  else
    match r.1.fault with
    | some (code, sub, va, pa) => r.1.s.commandFault k1 code sub va pa
    | none => (r.1.s.putCmd k1).send (.commandComplete k.num)

/-- A command that must wait for something stays running, and is tried again (R407, R440, R443). -/
def State.waitCmd (s : State) (k : Cmd) : State :=
  (s.putCmd { k with state := 2, waiting := true }).send k.happening

/-- The happening of a command: it runs when it may start or already waits; before that it is tried again.  (DESIGN CHOICE, log entry 25.) -/
def State.runCmd (s : State) (num : Nat) (run : State → Cmd → State) : State :=
  match s.cmds.find? (fun k => k.num == num) with
  | none => s
  | some k =>
    if k.state = 2 ∧ k.waiting then run s k
    else if k.state ≠ 1 then s
    else if s.canStart k then run s k
    else s.send k.happening

/-- What reading a group table answers. -/
inductive GroupRead where
  | ok (g : Group)
  | bad
  | fault (code sub va pa : Nat)
  | held
deriving DecidableEq, Repr

/-- The group table of a collective command (R441). -/
def State.group (s : State) (k : Cmd) : GroupRead :=
  let grp := k.num_ 16 8
  let done := fun (j : Job) (g : GroupRead) =>
    if j.held then .held else match j.fault with | some (c, sub, va, pa) => .fault c sub va pa | none => g
  let head := (Job.start s).read k grp 4
  let n := ofBytes head.1
  if !head.2.ok then done head.2 .bad
  else if n = 0 ∨ 1024 < n then .bad
  else
    let body := head.2.read k (grp + 8) (4 * n)
    let entries := (List.range n).map (fun r => ofBytes ((body.1.drop (4 * r)).take 4))
    let places := entries.map (fun e => (e / 2 ^ 16 % 2 ^ 10, e % 2 ^ 9))
    let own := (s.dev.toNat, ((s.partition k.part).logical k.cluster).getD 512)
    let mine := (List.range n).filter (fun r => places[r]? == some own)
    if !body.2.ok then done body.2 .bad
    else if entries.any (fun e => e / 2 ^ 9 % 2 ^ 7 != 0 || e / 2 ^ 26 != 0) then .bad
    else match mine with
      | [r] => .ok ⟨n, r, places⟩
      | _ => .bad

/-- Whether a command must read its group table when it is accepted, and a bank that is being switched holds that read (R306, R441). -/
def State.tableHeld (s : State) (k : Cmd) : Bool :=
  k.engine == 3 && k.code != 0xC4 && k.headerOk && k.fieldsOk && s.group k == .held

/-- The limits that depend on R (R443). -/
def Cmd.groupOk (k : Cmd) (g : Group) : Bool :=
  let n := k.num_ 38 2
  match k.code with
  | 0xC0 | 0xC1 => decide (n + 2 ≤ g.ranks)
  | 0xC2 => decide (n < g.ranks) && decide (k.num_ 46 2 ≤ g.ranks)
  | _ => (decide (n < g.ranks) || n == 0xFFFF) && decide (k.num_ 46 2 ≤ g.ranks)

/-- The count of MX.JOINTs of the member that a task is of its cluster's quad (R450); none when it is not bound. -/
def State.jointCount (s : State) (k : Cmd) : Option Nat :=
  ((s.cluster k.cluster).quad.find? (fun q => q.tid == k.tid && !q.members.isEmpty)).map (·.jseq)

/-- The acceptance check (R386, R395, R422, R441), with what reading its group table answered: the fault of a command that fails
it. -/
def State.acceptance (s : State) (k : Cmd) (g : GroupRead) : Option (Nat × Nat × Nat × Nat) :=
  let bad := some (12, 0, 0, 0)
  let c := s.cluster k.cluster
  if !k.headerOk || !k.fieldsOk then bad
  else if k.engine = 0 then
    if (List.range 66).any (fun n => commandNames k n && (c.ownerOf n != k.tid || c.leaving.contains n)) then bad
    else if k.code = 2 ∧ s.jointCount k ≠ some (k.num_ 24 4) then bad
    else none
  else if k.engine = 3 ∧ k.code ≠ 0xC4 then
    match g with
    | .ok g => if k.groupOk g then none else bad
    | .bad => some (12, 3, 0, 0)
    | .fault code sub va pa => some (code, sub, va, pa)
    | .held => some (9, 0, k.num_ 16 8, 0)
  else none

/-- A command that stands in its stream is checked (R386). -/
def State.check (s : State) (k : Cmd) : State :=
  let group := if k.engine = 3 ∧ k.code ≠ 0xC4 ∧ k.headerOk ∧ k.fieldsOk then s.group k else .bad
  let read := match group with | .ok g => some g | _ => none
  let k1 := { k with state := 1, unread := 0, group := read }
  match s.acceptance k1 group with
  | some (code, sub, va, pa) => s.commandFault { k1 with unread := 1 } code sub va pa
  | none =>
    let s2 := s.putCmd k1
    let s3 := if k.engine = 0 ∧ k.code = 2 then
        s2.withCluster k.cluster (fun c =>
          { c with quad := c.quad.map (fun q => if q.tid = k.tid then { q with jseq := q.jseq + 1 } else q) })
      else s2
    s3.send k.happening

/-- A command enters its stream, or fails its check (R386, R387). -/
def State.admitted (s : State) (k : Cmd) : State :=
  let rest := s.cmds.filter (fun c => c.num != k.num)
  let stream := rest.filter (fun c => c.core == k.core && c.engine == k.engine && c.program == k.program && c.state != 0)
  let r := s.restoreScan { k with state := 1, pidx := k.num_ 4 4, prev := (stream.getLast?).map (·.num) }
  { r.1 with cmds := rest ++ [r.2] }.check r.2

/-- The commands queued at a port (R385). -/
def State.queuedAt (s : State) (core engine : Nat) : Nat :=
  (s.cmds.filter (fun c => c.core == core && c.engine == engine && c.program == 0 && c.state == 1)).length

/-- A pushed command before it is accepted: the one that an EPUSH made, or a new one (R387, R448). -/
def State.pushed (s : State) (o : Origin) (engine : Nat) (record : Record) : Option Cmd :=
  s.cmds.find? (fun c => c.state == 0 && c.tid == o.tid && c.engine == engine && c.pc == o.pc && c.word == o.word && c.record == record)

/-- The context of a pushed command. -/
def cmdOf (num engine program : Nat) (record : Record) (o : Origin) (seq : BitVec 32) (level : BitVec 2) (state : Nat) : Cmd where
  num := num
  cluster := clusterOf o.ctx
  core := coreOf o.ctx
  engine := engine
  program := program
  record := record
  tid := o.tid
  ctx := o.ctx
  part := o.part
  seq := seq
  pc := o.pc
  word := o.word
  tag := o.tag
  level := level
  state := state
  flags := {}
  pidx := 0
  addr := 0
  waiting := false
  prev := none
  broken := false
  unread := 0
  kept := []
  carryIn := none
  map := none
  group := none
  sent := false
  entry := none

/-- A push is accepted into its port's queue, and acknowledged (R385); its accesses have the level that its context holds now (R423). -/
def State.acceptPushed (s : State) (o : Origin) (engine : Nat) (record : Record) : State :=
  let s1 := s.send (.storeAck o.tid o.part none 43)
  let level := (s.taskOf o.tid).elim 0 (·.pl)
  match s.pushed o engine record with
  | some k => s1.admitted { k with level := level }
  | none =>
    let seq := (s.taskOf o.tid).elim 0 (·.nextSeq)
    let k := cmdOf s.serial engine 0 record o seq level 1
    let s2 := { s1 with serial := s.serial + 1 }.withTask o.tid (fun c =>
      c.ringTake o.pc o.word (BitVec.ofNat 32 (rfield record 4 4)) 1 0 (some k.num))
    s2.admitted k

/-- Whether a push finds room: a place in the queue, and a ring entry unless its EPUSH has one (R385, R471); and whether its group table, if it
has one, can be read (R441). -/
def State.pushRoom (s : State) (o : Origin) (engine : Nat) (record : Record) : Bool :=
  decide (s.queuedAt (coreOf o.ctx) engine < 8) &&
    ((s.pushed o engine record).isSome || (s.taskOf o.tid).all (fun c => !c.ringFull)) &&
    !s.tableHeld (cmdOf 0 engine 0 record o 0 ((s.taskOf o.tid).elim 0 (·.pl)) 1)

/-- A push that its port refuses (R317, R448): an EPUSH's command faults, a store leaves a record. -/
def State.refusePort (s : State) (o : Origin) (engine : Nat) (record : Record) : State :=
  let pa := s.dev.toNat * 2 ^ 48 + windowAddr (coreOf o.ctx) (2 ^ 33 + 64 * engine)
  match s.pushed o engine record with
  | some k =>
    let s1 := s.send (.storeAck o.tid o.part none 43)
    let k1 := { k with unread := 2 }
    let s2 := { s1 with cmds := s1.cmds.filter (fun (c : Cmd) => c.num != k.num) ++ [k1] }
    s2.commandFault k1 9 1 o.va.toNat pa
  | none => s.send (.storeAck o.tid o.part (some (originRecord o 9 1 1 pa)) 43)

/-- COMMAND_PORT_WRITE (R384, R385): the command is accepted, held at a full port, or refused. -/
def execCommandPortWrite (o : Origin) (engine : Nat) (cmd : Record) (s : State) : Out :=
  let core := coreOf o.ctx
  .next
    (if !s.grantsWindow (core / 16) o.part o.cls rightCommand then s.refusePort o engine cmd
     else if (tget s.cores core Core.reset).heldPushes.any (fun h => h.1 == engine) ∨ !s.pushRoom o engine cmd then
       (s.withCore core (fun c => { c with heldPushes := c.heldPushes ++ [(engine, o, cmd)] })).send (.pushHeldAccept core engine)
     else s.acceptPushed o engine cmd)

/-- PUSH_HELD_ACCEPT (R385): the oldest push held at a port is accepted once there is room; before that it is tried again. -/
def execPushHeldAccept (core engine : Nat) (s : State) : Out :=
  .next
    (match (tget s.cores core Core.reset).heldPushes.find? (fun h => h.1 == engine) with
      | none => s
      | some (_, o, cmd) =>
        if s.pushRoom o engine cmd then
          (s.withCore core (fun c => { c with heldPushes := removeFirst (fun h => h.1 == engine) c.heldPushes })).acceptPushed o engine
            cmd
        else s.send (.pushHeldAccept core engine))

/-- A staging slot of a task changed (R384). -/
def Ctx.stage (c : Ctx) (engine off : Nat) (bytes : List Byte) : Ctx :=
  if h : engine < 4 then
    let old := c.staging[engine]
    let low := old.toNat % 2 ^ (8 * off)
    let high := old.toNat / 2 ^ (8 * (off + bytes.length)) * 2 ^ (8 * (off + bytes.length))
    { c with staging := c.staging.set engine (BitVec.ofNat 512 (low + ofBytes bytes * 2 ^ (8 * off) + high)) h }
  else c

/-- STAGING_STORE (R384). -/
def execStagingStore (o : Origin) (engine : Nat) (offset : Nat) (bytes : List Byte) (s : State) : Out :=
  .next ((s.withTask o.tid (fun c => c.stage engine offset bytes)).send (.storeAck o.tid o.part none 43))

/-- STAGING_COMMIT (R384): the slot with its last eight bytes is the command, and the slot is cleared. -/
def execStagingCommit (o : Origin) (engine : Nat) (value : Word) (s : State) : Out :=
  let full := (s.taskOf o.tid).map (fun c => c.stage engine 56 (bytesOf value.toNat 8))
  let record : Record := full.elim 0 (fun c => if h : engine < 4 then c.staging[engine] else 0)
  .next ((s.withTask o.tid (fun c => c.stage engine 0 (List.replicate 64 0))).sendFirst (.commandPortWrite o engine record))

/-- COMMAND_COMPLETE (R389). -/
def execCommandComplete (cmd : Nat) (s : State) : Out :=
  .next
    (match s.cmds.find? (fun k => k.num == cmd) with
      | none => s
      | some k =>
        if !k.written then s
        else if k.counts ∧ s.placeBusy (s.commandPa k (k.num_ 8 8)) then s.send (.commandComplete cmd)
        else s.completeCmd k)

/-- The engine programs running on a cluster's engine that were started before one (R445). -/
def State.programsBefore (s : State) (p : Program) : Nat :=
  (s.programs.filter (fun q => q.cluster == p.cluster && q.engine == p.engine && !q.ended && decide (q.num < p.num))).length

/-- The task of a program as the origin of its commands (R387). -/
def State.programOrigin (s : State) (p : Program) (c : Ctx) : Origin :=
  { s.originOf c p.addr 0 with ctx := p.ctx, pc := 0 }

/-- An engine reads the next record of a program (R391): a new command with a ring entry, faulted when its record cannot be read. -/
def State.readRecord (s : State) (p : Program) (pc : Word) (word : BitVec 32) : State :=
  match s.taskOf p.tid with
  | none => s.withProgram p.num (fun p => { p with ended := true })
  | some c =>
    let addr := p.addr + BitVec.ofNat 64 (64 * p.next)
    let o := { s.programOrigin p c with pc := pc, word := word }
    let k0 := { cmdOf s.serial p.engine p.num 0 o c.nextSeq c.pl 1 with addr := addr }
    let r := (Job.start s).read k0 addr.toNat 64
    let record : Record := BitVec.ofNat 512 (ofBytes r.1)
    let k := { k0 with record := record }
    if r.2.held ∨ (r.2.fault.isNone ∧ s.tableHeld k) then s.send (.programRecordRead p.num)
    else
      let s1 := ({ s with serial := s.serial + 1 }.withTask p.tid (fun c =>
        c.ringTake pc word (BitVec.ofNat 32 (rfield record 4 4)) 1 addr (some k.num))).withProgram p.num (fun p =>
          { p with next := p.next + 1, scope := if k.scope.toNat ≤ p.scope.toNat then p.scope else k.scope })
      let more := fun (s : State) => if p.next + 1 < p.count then s.send (.programRecordRead p.num) else s
      match r.2.fault with
      | some (code, sub, va, pa) =>
        let k1 := { k with unread := 2 }
        let s2 := { s1 with cmds := s1.cmds ++ [k1] }
        more (s2.commandFault k1 code sub va pa)
      | none => more (s1.admitted k)

/-- PROGRAM_RECORD_READ (R391): none is read past a command that has faulted, nor while the ring is full (R471) or 16 older programs
run (R445); then it is tried again. -/
def execProgramRecordRead (program : Nat) (s : State) : Out :=
  .next
    (match s.programs.find? (fun p => p.num == program) with
      | none => s
      | some p =>
        if p.ended ∨ p.aborted ≠ 0 ∨ p.count ≤ p.next then s
        else if s.cmds.any (fun k => k.program == program && k.state == 4) ∨
            (s.taskOf p.tid).any Ctx.ringFull ∨ 16 ≤ s.programsBefore p then
          s.send (.programRecordRead program)
        else s.readRecord p p.pc p.word)

end Sys2Proof.Machine
end

