-- ==== Sys2Proof/Machine/Collective.lean ====
section
/-!
DEFINITION. The collective engine (spec/15 R413 to R416; spec/16 R441 to R444; spec/22 R538).
-/

namespace Sys2Proof.Machine

/-- A partial held: its rank interval and its data (R442). -/
structure Part where
  lo : Nat
  hi : Nat
  bytes : List Byte
deriving DecidableEq, Repr

/-- Where a node of more than one rank splits (R414). -/
def splitAt (lo hi : Nat) : Nat := lo + 2 ^ Nat.log2 (hi - lo - 1)

/-- Whether [lo, hi) is a node below the node [l, h), looking so many levels down (R414). -/
def isNode (lo hi : Nat) : Nat → Nat → Nat → Bool
  | 0, _, _ => false
  | n + 1, l, h =>
    if l = lo ∧ h = hi then true
    else if h ≤ l + 1 then false
    else
      let m := splitAt l h
      if hi ≤ m then isNode lo hi n l m else if m ≤ lo then isNode lo hi n m h else false

/-- Whether two partials are sibling nodes of the tree over R ranks, left then right (R414). -/
def siblings (ranks : Nat) (a b : Part) : Bool := a.hi == b.lo && isNode a.lo b.hi 12 0 ranks && splitAt a.lo b.hi == a.hi

/-- Two elements combined (R414, R415). -/
def combineOne (f32 : Bool) (x y : Nat) : Nat × Flags :=
  if f32 then f32Add x y
  else
    let r := clampA64 ((BitVec.ofNat 64 x).toInt + (BitVec.ofNat 64 y).toInt)
    ((wordOfInt r.1).toNat, { sat := r.2 })

/-- Elements of a chunk combined in ascending order (R442): size is an element's bytes. -/
def combineBytes (f32 : Bool) (size : Nat) : Nat → List Byte → List Byte → List Byte × Flags
  | 0, _, _ => ([], {})
  | n + 1, a, b =>
    let c := combineOne f32 (ofBytes (a.take size)) (ofBytes (b.take size))
    let r := combineBytes f32 size n (a.drop size) (b.drop size)
    (bytesOf c.1 size ++ r.1, c.2.or r.2)

/-- Two sibling partials merged (R442). -/
def mergeTwo (f32 : Bool) (a b : Part) : Part × Flags :=
  let size := if f32 then 4 else 8
  let r := combineBytes f32 size (a.bytes.length / size) a.bytes b.bytes
  (⟨a.lo, b.hi, r.1⟩, r.2)

/-- The first two neighbours that are siblings merged; none when there are none. -/
def mergeOnce (f32 : Bool) (ranks : Nat) : List Part → Option (List Part × Flags)
  | a :: b :: r =>
    if siblings ranks a b then
      let m := mergeTwo f32 a b
      some (m.1 :: r, m.2)
    else (mergeOnce f32 ranks (b :: r)).map (fun p => (a :: p.1, p.2))
  | _ => none

/-- Siblings merged until no two are siblings (R442). -/
def mergeAll (f32 : Bool) (ranks : Nat) : Nat → List Part → Flags → List Part × Flags
  | 0, ps, f => (ps, f)
  | n + 1, ps, f =>
    match mergeOnce f32 ranks ps with
    | none => (ps, f)
    | some (ps', g) => mergeAll f32 ranks n ps' (f.or g)

/-- A partial put in its place, in ascending order of ranks. -/
def insertPart (p : Part) : List Part → List Part
  | [] => [p]
  | a :: r => if p.lo ≤ a.lo then p :: a :: r else a :: insertPart p r

/-- A set of partials merged (R414, R442). -/
def mergeSet (f32 : Bool) (ranks : Nat) (ps : List Part) : List Part × Flags :=
  mergeAll f32 ranks ps.length (ps.foldl (fun l p => insertPart p l) []) {}

/-- The fields of a collective command (R443). -/
def Cmd.len (k : Cmd) : Nat := k.num_ 32 4
/-- See len. -/
def Cmd.buf (k : Cmd) : Nat := k.num_ 24 8
/-- See len: mode f32. -/
def Cmd.isF32 (k : Cmd) : Bool := k.byte 36 == 1
/-- See len: step, or peer. -/
def Cmd.ringStep (k : Cmd) : Nat := k.num_ 38 2

/-- The group of a command (R441). -/
def Cmd.grp (k : Cmd) : Group := k.group.getD ⟨1, 0, []⟩

/-- Chunk c of a command's buffer. -/
def Cmd.chunkAt (k : Cmd) (c : Nat) : Nat := (k.buf + c * k.len) % 2 ^ 64

/-- The chunks that a ring step sends and receives (R443). -/
def Cmd.ringChunks (k : Cmd) : Nat × Nat :=
  let g := k.grp
  if k.code = 0xC0 then ((g.rank + g.ranks - k.ringStep) % g.ranks, (g.rank + g.ranks - k.ringStep - 1) % g.ranks)
  else ((g.rank + 1 + g.ranks - k.ringStep) % g.ranks, (g.rank + g.ranks - k.ringStep) % g.ranks)

/-- A partial leaves for a rank of the group (R443): an engine of this device, or another device. -/
def State.sendPart (s : State) (k : Cmd) (rank : Nat) (chunk : Nat) (p : Part) : State :=
  let place := (k.grp.places[rank]?).getD (1024, 512)
  let to_ := ((s.partition k.part).clusters[place.2]?).getD 1024
  let q : Partial :=
    { device := s.dev.toNat, cmd := k.num, code := k.code, grp := BitVec.ofNat 64 (k.num_ 16 8), step := if k.code = 0xC2 then 0 else k.ringStep,
      key := BitVec.ofNat 32 (k.num_ 40 4), chunk := chunk, lo := p.lo, hi := p.hi, rank := k.grp.rank, ranks := k.grp.ranks,
      toCluster := to_, bytes := p.bytes }
  if place.1 = s.dev.toNat then s.send (.collectivePartial q) else s.emit (.collective place.1 q)

/-- Whether every partial that a command sent has been accepted: another device answers when it does (R443, R538). -/
def State.partsTaken (s : State) (k : Cmd) (rank : Nat) : Bool :=
  let place := (k.grp.places[rank]?).getD (1024, 512)
  if place.1 = s.dev.toNat then
    !s.inflight.any (fun i => match i with | .collectivePartial p => p.device == s.dev.toNat && p.cmd == k.num | _ => false)
  else Config.farAnswers s.turn

/-- Whether an engine of another device that a command's chunk has reached has a different R (R441). -/
def State.ranksDiffer (s : State) (k : Cmd) (rank : Nat) : Bool :=
  ((k.grp.places[rank]?).getD (1024, 512)).1 != s.dev.toNat && Config.farDiffers s.turn

/-- The partials that a command has accepted. -/
def State.got (s : State) (k : Cmd) : List Partial := ((s.cluster k.cluster).arrived.filter (fun e => e.1 == k.num)).map (·.2)

/-- The partials held for a hold area, with the step and the chunk that they were left for (R443). -/
def State.heldParts (s : State) (k : Cmd) : List Partial := tget (s.cluster k.cluster).partials (k.num_ 48 8) []

/-- The set that a ring step sends, read from memory; none when the step before has left no set for its chunk (R443). -/
def Job.ringSet (j : Job) (k : Cmd) : Option (List Part × Job) :=
  let g := k.grp
  let out := k.ringChunks.1
  if k.code = 0xC1 ∨ k.ringStep = 0 then
    let r := j.read k (k.chunkAt out) k.len
    some ([if k.code = 0xC1 then ⟨0, g.ranks, r.1⟩ else ⟨g.rank, g.rank + 1, r.1⟩], r.2)
  else
    let held := j.s.heldParts k
    if held.isEmpty ∨ held.any (fun p => p.step + 1 != k.ringStep || p.chunk != out || p.grp.toNat != k.num_ 16 8) then none
    else
      some (held.zipIdx.foldl (fun (acc : List Part × Job) p =>
        let r := acc.2.read k ((k.num_ 48 8 + p.2 * k.len) % 2 ^ 64) k.len
        (acc.1 ++ [⟨p.1.lo, p.1.hi, r.1⟩], r.2)) ([], j))

/-- A set is left in the hold area, for the next step (R443). -/
def Job.leaveSet (j : Job) (k : Cmd) (chunk : Nat) (ps : List Part) : Job :=
  let j1 := ps.zipIdx.foldl (fun (j : Job) p => j.write k ((k.num_ 48 8 + p.2 * k.len) % 2 ^ 64) p.1.bytes) j
  let marks := ps.map (fun p =>
    ({ device := j.s.dev.toNat, cmd := k.num, code := k.code, grp := BitVec.ofNat 64 (k.num_ 16 8), step := k.ringStep, key := 0, chunk := chunk, lo := p.lo,
       hi := p.hi, rank := k.grp.rank, ranks := k.grp.ranks, toCluster := k.cluster, bytes := [] } : Partial))
  { j1 with s := j1.s.withCluster k.cluster (fun c => { c with partials := tset c.partials (k.num_ 48 8) marks }) }

/-- What a ring step does once its set has come (R443): merged and kept, or written. -/
def Job.ringTake (j : Job) (k : Cmd) : Job :=
  let g := k.grp
  let in_ := k.ringChunks.2
  let got := (j.s.got k).map (fun p => (⟨p.lo, p.hi, p.bytes⟩ : Part))
  if k.code = 0xC1 then (got.headD ⟨0, 0, []⟩ |> fun p => j.write k (k.chunkAt in_) p.bytes)
  else
    let own := j.read k (k.chunkAt in_) k.len
    if !own.2.ok then own.2
    else
      let m := mergeSet k.isF32 g.ranks (⟨g.rank, g.rank + 1, own.1⟩ :: got)
      let j1 := own.2.raise m.2
      if k.ringStep + 2 = g.ranks then
        match m.1 with
        | [p] => if p.lo = 0 ∧ p.hi = g.ranks then j1.write k (k.chunkAt in_) p.bytes else j1.fail 12 4 0 0
        | _ => j1.fail 12 4 0 0
      else j1.leaveSet k in_ m.1

/-- CL.RSS and CL.AGS (R416, R443, R538): a step sends its set, then waits until that is accepted and its own has come. -/
def State.ring (s : State) (k0 : Cmd) : State :=
  let g := k0.grp
  let next := (g.rank + 1) % g.ranks
  if 1 ≤ k0.pidx then State.settleCmd k0 (Job.start s, k0.pidx)
  else
    let go := fun (s : State) (k : Cmd) =>
      let size := ((s.got k).map (fun p => p.hi - p.lo)).sum
      if s.ranksDiffer k next then s.commandFault { k with sent := false } 12 3 0 0
      else if size < (if k.code = 0xC1 then g.ranks else k.ringStep + 1) ∨ !s.partsTaken k next then s.waitCmd k
      else State.settleCmd k (runUnits (fun _ j => j.ringTake k) 1 0 (Job.start s))
    if k0.sent then go s k0
    else if (s.cluster k0.cluster).share = 0 then s.waitCmd k0
    else
      match (Job.start s).ringSet k0 with
      | none => s.commandFault k0 12 4 0 0
      | some (ps, j) =>
        if !j.ok then State.settleCmd k0 ({ j with s := s }, 0)
        else
          let k := { k0 with sent := true }
          go ((ps.foldl (fun (s : State) p => s.sendPart k next k.ringChunks.1 p) s).putCmd k) k

/-- CL_RSS (R443). -/
def execClRss (cmd : Nat) (s : State) : Out := .next (s.runCmd cmd State.ring)

/-- CL_AGS (R443). -/
def execClAgs (cmd : Nat) (s : State) : Out := .next (s.runCmd cmd State.ring)

/-- CL_SEND (R443): it holds its stream until its partial has been accepted. -/
def execClSend (cmd : Nat) (s : State) : Out :=
  .next (s.runCmd cmd (fun s k0 =>
    let go := fun (s : State) (k : Cmd) =>
      if s.ranksDiffer k k.ringStep then s.commandFault { k with sent := false } 12 3 0 0
      else if s.partsTaken k k.ringStep then State.settleCmd k (Job.start s, 1) else s.waitCmd k
    if 1 ≤ k0.pidx then State.settleCmd k0 (Job.start s, k0.pidx)
    else if k0.sent then go s k0
    else if (s.cluster k0.cluster).share = 0 then s.waitCmd k0
    else
      let r := (Job.start s).read k0 k0.buf k0.len
      if !r.2.ok then State.settleCmd k0 ({ r.2 with s := s }, 0)
      else
        let k := { k0 with sent := true }
        go ((s.sendPart k k.ringStep 0 ⟨k.num_ 44 2, k.num_ 46 2, r.1⟩).putCmd k) k))

/-- The interval of a CL.RECVA's own partial, when it lies in what it wants (R443). -/
def Cmd.ownPart (k : Cmd) : Bool := decide (k.num_ 44 2 ≤ k.grp.rank) && decide (k.grp.rank < k.num_ 46 2)

/-- CL_RECVA (R443): it completes when the partials accepted and its own merge to the node it wants. -/
def execClRecva (cmd : Nat) (s : State) : Out :=
  .next (s.runCmd cmd (fun s k =>
    if 1 ≤ k.pidx then State.settleCmd k (Job.start s, k.pidx)
    else
      let own := if k.ownPart then (Job.start s).read k k.buf k.len else ([], Job.start s)
      if !own.2.ok then State.settleCmd k ({ own.2 with s := s }, 0)
      else
        let got := (s.got k).map (fun p => (⟨p.lo, p.hi, p.bytes⟩ : Part))
        let m := mergeSet k.isF32 k.grp.ranks ((if k.ownPart then [⟨k.grp.rank, k.grp.rank + 1, own.1⟩] else []) ++ got)
        match m.1 with
        | [p] =>
          if p.lo = k.num_ 44 2 ∧ p.hi = k.num_ 46 2 then
            State.settleCmd k (runUnits (fun _ j => (j.raise m.2).write k k.buf p.bytes) 1 0 (Job.start s))
          else s.waitCmd k
        | _ => s.waitCmd k))

/-- CL_RATE (R416, R444). -/
def execClRate (cmd : Nat) (s : State) : Out :=
  .next (s.runCmd cmd (fun s k =>
    State.settleCmd k (runUnits (fun _ j => { j with s := j.s.withCluster k.cluster (fun c => { c with share := k.byte 16 }) })
      (1 - k.pidx) k.pidx (Job.start s))))

/-- Whether a command may take a partial (R443, R538).  (DEDUCED, log entry 47.) -/
def State.takes (s : State) (p : Partial) (m : Cmd) : Bool :=
  m.cluster == p.toCluster && m.engine == 3 && (m.state == 1 || (m.state == 2 && m.waiting)) &&
    (if p.code = 0xC2 then
      m.code == 0xC3 && m.num_ 40 4 == p.key.toNat && (m.ringStep == 0xFFFF || m.ringStep == p.rank)
    else
      m.code == p.code && m.num_ 16 8 == p.grp.toNat && m.ringStep == p.step &&
        (s.got m).all (fun q => q.device == p.device && q.cmd == p.cmd && q.rank == p.rank) &&
        decide (((s.got m).map (fun q => q.hi - q.lo)).sum < (if p.code = 0xC1 then p.ranks else p.step + 1)))

/-- Whether a partial does not fit a CL.RECVA (R443): outside what it wants, or over one held.  (DEDUCED, log entry 47.) -/
def State.misfits (s : State) (p : Partial) (m : Cmd) : Bool :=
  decide (p.lo < m.num_ 44 2) || decide (m.num_ 46 2 < p.hi) ||
    (m.ownPart && decide (p.lo ≤ m.grp.rank) && decide (m.grp.rank < p.hi)) ||
    (s.got m).any (fun q => decide (p.lo < q.hi) && decide (q.lo < p.hi))

/-- The sender of a partial that has reached an engine with a different R: its command faults with "bad group" (R441); one of another device gets an
error response. -/
def State.refusePart (s : State) (p : Partial) : State :=
  if p.device ≠ s.dev.toNat then s.emit (.error p.device)
  else
    match s.cmds.find? (fun k => k.num == p.cmd && k.state == 2) with
    | some k =>
      { s with inflight := s.inflight.filter (fun (i : Happening) =>
          match i with | .collectivePartial q => q.device != p.device || q.cmd != k.num | _ => true) }.commandFault
        { k with sent := false } 12 3 0 0
    | none => s

/-- COLLECTIVE_PARTIAL (R441 to R443, R538): a partial is delivered to the first command accepted that may take it; its sender holds
it until there is one, and while an earlier partial of the same kind is on its way. -/
def execCollectivePartial (p : Partial) (s : State) : Out :=
  .next
    (let earlier := s.inflight.any (fun i =>
      match i with
      | .collectivePartial q =>
        q.code == p.code && q.grp == p.grp && q.step == p.step && q.key == p.key && q.rank == p.rank && q.toCluster == p.toCluster &&
          q.device == p.device && decide (q.cmd < p.cmd)
      | _ => false)
    if earlier then s.send (.collectivePartial p)
    else
      match s.cmds.find? (s.takes p) with
      | none => s.send (.collectivePartial p)
      | some m =>
        if m.grp.ranks ≠ p.ranks then s.refusePart p
        else if p.code = 0xC2 ∧ s.misfits p m then (s.send (.collectivePartial p)).commandFault m 12 4 0 0
        else
          (if p.device = s.dev.toNat then s else s.emit (.response p.device [])).withCluster m.cluster (fun c =>
            { c with arrived := c.arrived ++ [(m.num, p)] }))

end Sys2Proof.Machine
end

