-- ==== Sys2Proof/Machine/LoadStore.lean ====
section
/-!
DEFINITION. Loads and stores (spec/04_scalar_instructions.md R99 to R105; FIFO views: spec/11_memory_levels.md R304).
-/

namespace Sys2Proof.Machine

/-- The access size of a load (R42). -/
def loadSize (w : BitVec 3) : Nat := match w.toNat with | 0 => 1 | 1 => 1 | 2 => 2 | 3 => 2 | 4 => 4 | 5 => 4 | _ => 8

/-- The access size of a store (R42). -/
def storeSize (w : BitVec 3) : Nat := match w.toNat with | 0 => 1 | 1 => 2 | 2 => 4 | _ => 8

/-- What a load delivers from the bytes read (R99). -/
def loadValue (w : BitVec 3) (bytes : List Byte) : Word :=
  let v := ofBytes bytes
  match w.toNat with
  | 0 => wordOfInt (signed 8 v) | 2 => wordOfInt (signed 16 v) | 4 => wordOfInt (signed 32 v)
  | _ => BitVec.ofNat 64 v

/-- The effective address of a load or store (R99, R100). -/
def effAddr (base : Word) (off : BitVec 8) (size : Nat) : Word := base + wordOfInt (off.toInt * size)

/-- The FIFO that an address of the running thread names, with its offset and physical address (R293, R304). -/
def State.fifoAt (s : State) (ea : Nat) : Option (Nat × Nat × Nat) :=
  match s.translate (coreOf s.cx.key) s.cx.part s.cx.pl ea false with
  | .fault _ _ => none
  | .ok _ pa =>
    if s.placeBusy pa then none
    else match s.placeOf pa with
      | .fifo g off => some (g, off, pa)
      | _ => none

/-- A load from a FIFO view (R304): a pop or a count, answered when the bank serves it. -/
def State.loadFifo (s : State) (la : BitVec 4) (d : Reg) (ea : Word) (size : Nat) (word : BitVec 32) (len g off pa : Nat) :
    State :=
  if size ≠ 8 ∨ (off ≠ 8 ∧ off ≠ 16) ∨ !s.grantsWindow (g / 32) s.cx.part 0 rightRead then
    s.refuseLoad la d 9 0 ea pa word
  else
    let s1 := s.send (if off = 8 then .fifoPop s.cx.tid g d else .fifoCount s.cx.tid g d)
    (s1.watch ea.toNat size false).withCx (fun c =>
      let r := c.retirePend c la ⟨[d], [], []⟩ (.fifo g) d word ea
      { r with pc := (c.pc + BitVec.ofNat 64 len) &&& ~~~1 })

/-- LD from an effective address (R99, R101, R102). -/
def State.load (s : State) (la : BitVec 4) (d : Reg) (ea : Word) (w : BitVec 3) (word : BitVec 32) (len : Nat) : State :=
  let size := loadSize w
  s.gate la ⟨[d], [], []⟩
    (if ea.toNat % size ≠ 0 then s.preciseData 6 0 ea 0 word
     else
      match s.fifoAt ea.toNat with
      | some (g, off, pa) => s.loadFifo la d ea size word len g off pa
      | none =>
        match s.dataRead ea.toNat size s.cx.pl with
        | .held => s.stall
        | .fault code pa =>
          if code = 9 ∨ code = 11 then s.refuseLoad la d code 0 ea pa word else s.preciseData code 0 ea pa word
        | .value bytes s1 =>
          (s1.watch ea.toNat size false).withCx (fun c =>
            let r := (c.writeX d (loadValue w bytes)).retire len
            { r with windows := r.windows ++ s.cx.capture la ⟨[d], [], []⟩ }))

/-- ST to an effective address (R100, R101, R104). -/
def State.store (s : State) (data : Reg) (ea : Word) (size : Nat) (word : BitVec 32) (len : Nat) : State :=
  if ea.toNat % size ≠ 0 then s.preciseData 6 1 ea 0 word
  else
    match s.dataWrite ea.toNat (bytesOf (s.x data).toNat size) s.cx.pl word with
    | .held => s.stall
    | .fault code pa => s.preciseData code 1 ea pa word
    | .done s1 => (s1.watch ea.toNat size true).withCx (fun c => c.retire len)

/-- LD (R99). -/
def execLd (la : BitVec 4) (d a : Reg) (off : BitVec 8) (w : BitVec 3) (s : State) : Out :=
  .next (s.load la d (effAddr (s.x a) off (loadSize w)) w
    (recordWord (wmWord 0x0e d.toNat a.toNat w.toNat off.toNat la.toNat)) 4)

/-- ST (R100). -/
def execSt (d a : Reg) (off : BitVec 8) (w : BitVec 3) (s : State) : Out :=
  .next (s.store d (effAddr (s.x a) off (storeSize w)) (storeSize w)
    (recordWord (wmWord 0x0f d.toNat a.toNat w.toNat off.toNat 0)) 4)

end Sys2Proof.Machine
end

