-- ==== Sys2Proof/Machine/Compressed.lean ====
section
/-!
DEFINITION. The 16-bit forms (spec/02_instruction_words.md R57, R58): the effect of their 32-bit equivalents, two bytes long.
-/

namespace Sys2Proof.Machine

/-- A two-byte instruction that writes one register. -/
def State.short (s : State) (d : Reg) (v : Word) : Out := .next (s.scalar d v 2)

/-- C_ADD (R57). -/
def execCAdd (d b : Reg) (s : State) : Out := s.short d (s.x d + s.x b)

/-- C_SUB (R57). -/
def execCSub (d b : Reg) (s : State) : Out := s.short d (s.x d - s.x b)

/-- C_MOV (R57). -/
def execCMov (d b : Reg) (s : State) : Out := s.short d (s.x 0 + s.x b)

/-- C_ADDI (R57). -/
def execCAddi (d : Reg) (imm : BitVec 5) (s : State) : Out := s.short d (s.x d + sext imm)

/-- C_LI (R57). -/
def execCLi (d : Reg) (imm : BitVec 5) (s : State) : Out := s.short d (s.x 0 + sext imm)

/-- C_AND (R57). -/
def execCAnd (d b : Reg) (s : State) : Out := s.short d (s.x d &&& s.x b)

/-- C_OR (R57). -/
def execCOr (d b : Reg) (s : State) : Out := s.short d (s.x d ||| s.x b)

/-- C_XOR (R57). -/
def execCXor (d b : Reg) (s : State) : Out := s.short d (s.x d ^^^ s.x b)

/-- C_SHLI (R57). -/
def execCShli (d : Reg) (imm : BitVec 5) (s : State) : Out := s.short d (s.x d <<< imm.toNat)

/-- C_SHRI (R57). -/
def execCShri (d : Reg) (imm : BitVec 5) (s : State) : Out := s.short d (s.x d >>> imm.toNat)

/-- C_SRAI (R57). -/
def execCSrai (d : Reg) (imm : BitVec 5) (s : State) : Out := s.short d (sar (s.x d) imm.toNat)

/-- C_LDSP (R57). -/
def execCLdsp (d : Reg) (imm : BitVec 5) (s : State) : Out :=
  .next (s.load 0 d (s.x 2 + zext imm * 8) 6 (recordWord (hsWord 12 d.toNat imm.toNat)) 2)

/-- C_STSP (R57). -/
def execCStsp (d : Reg) (imm : BitVec 5) (s : State) : Out :=
  .next (s.store d (s.x 2 + zext imm * 8) 8 (recordWord (hsWord 13 d.toNat imm.toNat)) 2)

/-- C_BEQZ (R57). -/
def execCBeqz (d : Reg) (imm : BitVec 5) (s : State) : Out := .next (s.branch (s.x d == s.x 0) (sext imm) 2)

/-- C_BNEZ (R57). -/
def execCBnez (d : Reg) (imm : BitVec 5) (s : State) : Out := .next (s.branch (s.x d != s.x 0) (sext imm) 2)

/-- C_J (R57). -/
def execCJ (off : BitVec 10) (s : State) : Out := .next (s.jump 0 (s.cx.pc + sext off * 2) 2)

/-- C_JR (R57). -/
def execCJr (d : Reg) (s : State) : Out := .next (s.jump 0 (s.x d) 2)

/-- C_RET (R57). -/
def execCRet (s : State) : Out := .next (s.jump 0 (s.x 1) 2)

/-- C_NOP (R57). -/
def execCNop (s : State) : Out := s.short 0 (s.x 0 + s.x 0)

end Sys2Proof.Machine
end

