-- ==== Sys2Proof/Machine/Copy.lean ====
section
/-!
DEFINITION. The copy engine (spec/15 R410 to R412; spec/16 R438 to R440).
-/

namespace Sys2Proof.Machine

/-- One 4 KB unit of CP.COPY or CP.FILL: its beats of 256 bytes in ascending order, each read whole before it is written (R410,
R438). -/
def Job.copyUnit (j : Job) (k : Cmd) (fill : Bool) (u : Nat) : Job :=
  let len := k.num_ 32 8
  (List.range 16).foldl (fun (j : Job) b =>
    let off := 4096 * u + 256 * b
    let n := Nat.min 256 (len - off)
    if n = 0 ∨ !j.ok then j
    else
      let r := if fill then ((List.replicate (n / 8) (bytesOf (k.num_ 16 8) 8)).flatten, j) else j.read k ((k.num_ 16 8 + off) % 2 ^ 64) n
      r.2.write k ((k.num_ 24 8 + off) % 2 ^ 64) r.1) j

/-- CP.COPY and CP.FILL (R438). -/
def State.copy (fill : Bool) (s : State) (k : Cmd) : State :=
  State.settleCmd k (runUnits (fun u j => j.copyUnit k fill u) ((k.num_ 32 8 + 4095) / 4096 - k.pidx) k.pidx (Job.start s))

/-- One element of CP.GATHER or CP.SCATTER (R411, R439): a misaligned address faults at its index. -/
def Job.moveElement (j : Job) (k : Cmd) (gather : Bool) (n : Nat) : Job :=
  let size : Nat := 2 ^ k.byte 44
  let isz : Nat := 2 ^ k.byte 45
  let r := j.read k ((k.num_ 24 8 + n * isz) % 2 ^ 64) isz
  let i := (signed (8 * isz) (ofBytes r.1))
  let at_ := fun (base : Nat) (i : Int) => (BitVec.ofInt 64 (base + i * size)).toNat
  let src := if gather then at_ (k.num_ 16 8) i else at_ (k.num_ 16 8) n
  let dst := if gather then at_ (k.num_ 32 8) n else at_ (k.num_ 32 8) i
  let el := Nat.min size 64
  if !r.2.ok then r.2
  else if src % el ≠ 0 then r.2.fail 6 0 src 0
  else if dst % el ≠ 0 then r.2.fail 6 1 dst 0
  else
    let d := r.2.read k src size
    if !d.2.ok then d.2 else d.2.write k dst d.1

/-- CP.GATHER and CP.SCATTER (R439). -/
def State.moveElements (gather : Bool) (s : State) (k : Cmd) : State :=
  State.settleCmd k (runUnits (fun n j => j.moveElement k gather n) (k.num_ 40 4 - k.pidx) k.pidx (Job.start s))

/-- CP_COPY (R438). -/
def execCpCopy (cmd : Nat) (s : State) : Out := .next (s.runCmd cmd (State.copy false))

/-- CP_FILL (R438). -/
def execCpFill (cmd : Nat) (s : State) : Out := .next (s.runCmd cmd (State.copy true))

/-- CP_GATHER (R439). -/
def execCpGather (cmd : Nat) (s : State) : Out := .next (s.runCmd cmd (State.moveElements true))

/-- CP_SCATTER (R439). -/
def execCpScatter (cmd : Nat) (s : State) : Out := .next (s.runCmd cmd (State.moveElements false))

/-- CP.CADD and CP.WAIT on the counter they name (R440): a location that is not accepted, or is refused, faults. -/
def State.onCounter (s : State) (k : Cmd) (f : Nat → Job → Job) : State :=
  let va := k.num_ 16 8
  let c := s.engineCounter k va
  State.settleCmd k (runUnits (fun _ j =>
    if s.placeBusy c.2 then { j with held := true }
    else if c.1 ≠ 0 then j.fail c.1 1 va c.2
    else f c.2 j) (1 - k.pidx) k.pidx (Job.start s))

/-- CP_CADD (R412, R440). -/
def execCpCadd (cmd : Nat) (s : State) : Out :=
  .next (s.runCmd cmd (fun s k =>
    s.onCounter k (fun pa j => { j with s := (j.s.atomicAt k.part .cadd pa (BitVec.ofNat 64 (k.num_ 24 8)) 0).2.2 })))

/-- CP.WAIT with no entry yet: done when its counter has reached its value; else its entry is made at the location's serving level (R337, R440). -/
def State.placeWait (s : State) (k : Cmd) : State :=
  let c := s.engineCounter k (k.num_ 16 8)
  let key := s.locationKey c.2
  if c.1 ≠ 0 ∨ s.placeBusy c.2 ∨ k.num_ 24 8 ≤ (s.keyValue key).toNat ∨ 1 ≤ k.pidx then
    s.onCounter k (fun pa j => { j with s := j.s.touchHome k.part pa 8 })
  else
    let s1 := if deviceOf c.2 = s.dev.toNat then s.touchHome k.part c.2 8
      else s.emit (.atomic (deviceOf c.2) (.cwait 0) c.2 (BitVec.ofNat 64 (k.num_ 24 8)) k.tid)
    s1.waitCmd { k with entry := some (key, false) }

/-- CP_WAIT (R412, R440): it waits, by an entry of the wait-on-address table, until the counter has reached its value. -/
def execCpWait (cmd : Nat) (s : State) : Out :=
  .next (s.runCmd cmd (fun s k =>
    match k.entry with
    | some (_, true) => State.settleCmd k (Job.start s, 1)
    | some (_, false) => s.waitCmd k
    | none => s.placeWait k))

end Sys2Proof.Machine
end

