-- ==== Sys2Proof/Machine/Matrix.lean ====
section
/-!
DEFINITION. The matrix array (spec/15 R395 to R403; spec/16 R425 to R432).
-/

namespace Sys2Proof.Machine

/-- Row r of a slot (R396). -/
def Cluster.slotRow (c : Cluster) (slot r : Nat) : BitVec 1024 := tget c.slots (128 * slot + r) 0

/-- Block h of an operand row (R396). -/
def rowBlock (row : BitVec 1024) (h : Nat) : Record := BitVec.ofNat 512 (row.toNat / 2 ^ (512 * h))

/-- Value (i, j) of a tile. -/
def Cluster.tileVal (c : Cluster) (t i j : Nat) : Int := (tget c.tiles (16384 * t + 128 * i + j) 0).toInt

/-- A tile's status: bit 0 SAT, bit 1 NF (R427). -/
def Cluster.status (c : Cluster) (t : Nat) : BitVec 2 := tget c.tileStatus t 0

/-- Tiles zeroed, with their status (R429). -/
def Cluster.zeroTile (c : Cluster) (t : Nat) : Cluster :=
  { c with tiles := c.tiles.filter (fun e => e.1 / 16384 != t), tileStatus := c.tileStatus.filter (fun e => e.1 != t) }

/-- Whether two blocks may be paired (R396). -/
def pairOk (a b : Record) : Bool :=
  let wa := blockWidth (blockFmt a)
  let wb := blockWidth (blockFmt b)
  wa == 0 || wb == 0 || wa == wb

/-- Whether a value is an infinity or a NaN. -/
def Val.special (v : Val) : Bool := match v with | .fin _ _ _ => false | _ => true

/-- Whether a block holds an infinite or NaN element (R427). -/
def blockSpecial (b : Record) : Bool :=
  (List.range (blockElems (blockWidth (blockFmt b)))).any (fun e => (blockVal b e).special)

/-- The products of two paired blocks enter an accumulator, elements ascending (R148, R397); a pair with an infinity or a NaN
contributes 0 (R427). -/
def addPair (f : Nat) (a b : Record) (q : Int × Bool) : Int × Bool :=
  let n := Nat.min (blockElems (blockWidth (blockFmt a))) (blockElems (blockWidth (blockFmt b)))
  (List.range n).foldl (fun acc e =>
    match blockVal a e, blockVal b e with
    | .fin n1 m1 e1, .fin n2 m2 e2 =>
      let r := accumulate acc.1 (n1 != n2) (m1 * m2) (e1 + e2) f
      (r.1, acc.2 || r.2)
    | _, _ => acc) q

/-- One native operation of slots a and b into tile t (R396, R397): none when a block fails its check or two paired blocks have
different widths; otherwise the cluster and whether a special element was read. -/
def Cluster.native (c : Cluster) (f a b t : Nat) : Option (Cluster × Bool) :=
  let blk := fun (slot i h : Nat) => rowBlock (c.slotRow slot i) h
  let cells := (List.range 128).flatMap (fun i => [(i, 0), (i, 1)])
  let ok := cells.all (fun p => blockOk (blk a p.1 p.2) && blockOk (blk b p.1 p.2)) &&
    cells.all (fun p => (List.range 128).all (fun j => pairOk (blk a p.1 p.2) (blk b j p.2)))
  if !ok then none
  else
    let nf := cells.any (fun p => blockSpecial (blk a p.1 p.2) || blockSpecial (blk b p.1 p.2))
    let vals := (List.range 16384).map (fun n =>
      let i := n / 128
      let j := n % 128
      addPair f (blk a i 1) (blk b j 1) (addPair f (blk a i 0) (blk b j 0) (c.tileVal t i j, false)))
    let sat := vals.any (·.2)
    let new := vals.zipIdx.filterMap (fun v => if v.1.1 = 0 then none else some (16384 * t + v.2, wordOfInt v.1.1))
    some ({ c with
      tiles := c.tiles.filter (fun e => e.1 / 16384 != t) ++ new
      tileStatus := tset c.tileStatus t (c.status t ||| BitVec.ofNat 2 (sat.toNat + 2 * nf.toNat)) }, nf)

/-- A native operation of a command: the format fault where it cannot be made (R426). -/
def Job.native (j : Job) (k : Cmd) (f a b t : Nat) : Job :=
  if !j.ok then j
  else
    match (j.s.cluster k.cluster).native f a b t with
    | none => j.fail 10 0 0 0
    | some (c, nf) => { j with s := j.s.withCluster k.cluster (fun _ => c) }.raise { nv := nf }

/-- One 64-byte block read format-aware (R131, R425). -/
def Job.readBlock (j : Job) (k : Cmd) (va : Nat) : Record × Job :=
  let r := j.read k va 64 true
  let b : Record := BitVec.ofNat 512 (ofBytes r.1)
  if r.2.ok && !blockOk b then (b, r.2.fail 10 0 va (r.2.s.commandPa k va)) else (b, r.2)

/-- MX_FILL (R425). -/
def execMxFill (cmd : Nat) (s : State) : Out :=
  .next (s.runCmd cmd (fun s k =>
    let unit_ := fun (i : Nat) (j : Job) =>
      let va := (k.num_ 16 8 + i * k.num_ 28 4) % 2 ^ 64
      let b0 := j.readBlock k va
      let b1 := b0.2.readBlock k (va + 64)
      let row := 128 * k.byte 24 + k.byte 25 + i
      { b1.2 with s := b1.2.s.withCluster k.cluster (fun c =>
          { c with slots := tset c.slots row (BitVec.ofNat 1024 (b0.1.toNat + b1.1.toNat * 2 ^ 512)) }) }
    State.settleCmd k (runUnits unit_ (k.byte 26 - k.pidx) k.pidx (Job.start s))))

/-- MX_MMA (R426). -/
def execMxMma (cmd : Nat) (s : State) : Out :=
  .next (s.runCmd cmd (fun s k =>
    let unit_ := fun (i : Nat) (j : Job) => j.native k (k.byte 19) (k.byte 16 + i) (k.byte 17 + i) (k.byte 18)
    State.settleCmd k (runUnits unit_ (k.byte 20 - k.pidx) k.pidx (Job.start s))))

/-- MX_ZERO (R429). -/
def execMxZero (cmd : Nat) (s : State) : Out :=
  .next (s.runCmd cmd (fun s k =>
    let unit_ := fun (_ : Nat) (j : Job) =>
      { j with s := j.s.withCluster k.cluster (fun c =>
          [0, 1].foldl (fun c t => if (k.byte 16).testBit t then c.zeroTile t else c) c) }
    State.settleCmd k (runUnits unit_ (1 - k.pidx) k.pidx (Job.start s))))

/-- MX_RDACC (R430). -/
def execMxRdacc (cmd : Nat) (s : State) : Out :=
  .next (s.runCmd cmd (fun s k =>
    let rows := k.byte 18
    let t := k.byte 16
    let unit_ := fun (i : Nat) (j : Job) =>
      let c := j.s.cluster k.cluster
      let bytes := (List.range 128).flatMap (fun col => bytesOf (tget c.tiles (16384 * t + 128 * (k.byte 17 + i) + col) 0).toNat 8)
      let j1 := j.write k ((k.num_ 24 8 + i * k.num_ 32 4) % 2 ^ 64) bytes
      if i + 1 = rows ∧ k.num_ 40 8 ≠ 0 then j1.write k (k.num_ 40 8) (bytesOf (c.status t).toNat 8) else j1
    State.settleCmd k (runUnits unit_ (rows - k.pidx) k.pidx (Job.start s))))

/-- The stream that a unit of a matrix command draws from (R431). -/
def matrixStream (seed : Word) (skey unit_ : Nat) : Stream :=
  let start := seed ^^^ (BitVec.ofNat 64 (skey * 2 ^ 16 + unit_) * golden)
  let a := sm start
  ⟨a.1, (sm a.2).1, start⟩

/-- How an output command converts (R428): format, mode, window exponent and stream key. -/
structure OutForm where
  fmt : Nat
  mode : Mode
  frac : Nat
  skey : Nat
deriving DecidableEq, Repr

/-- Accumulator values converted in ascending order (R152, R428): their bytes, and what the conversions raised. -/
def OutForm.convert (o : OutForm) : List Int → Num → List Byte × Num
  | [], n => ([], n)
  | q :: qs, n =>
    if o.fmt = 8 then
      let r := o.convert qs n
      (bytesOf (wordOfInt q).toNat 8 ++ r.1, r.2)
    else
      let t := elemTy (BitVec.ofNat 3 o.fmt)
      let z := n.z
      let c := roundVal t o.mode z.1 (a64Val q o.frac)
      let r := o.convert qs (z.2.raise c.2)
      (bytesOf c.1 (t.bits / 8) ++ r.1, r.2)

/-- One output row is written to its core's window (R399, R428); unit_ numbers its draws (R431). -/
def Job.outRow (j : Job) (k : Cmd) (o : OutForm) (tiles : List Nat) (map : List (Nat × Word)) (roff r unit_ : Nat) : Job :=
  if !j.ok then j
  else
    let s := j.s
    let vals := tiles.flatMap (fun t => (List.range 128).map ((s.cluster k.cluster).tileVal t r))
    let out := o.convert vals ⟨o.mode, matrixStream (BitVec.ofNat 64 (rfield (s.partition k.part).config 0 8)) o.skey unit_, {}⟩
    let woff := field (tget map r 0) 0 15 * 64 + roff
    let pa := s.dev.toNat * 2 ^ 48 + windowAddr (16 * k.cluster + mapCore map r) woff
    if s.placeBusy pa then { j with held := true }
    else
      match s.placeOf pa with
      | .scratchpad g off =>
        if off + out.1.length ≤ 65536 ∧ s.grantsWindow (g / 32) k.part 2 rightWrite then
          { j with s := s.accept (cellsOf pa out.1) }.raise out.2.flags
        else j.fail 9 1 0 pa
      | _ => j.fail 9 1 0 pa

/-- A copy tag of a command is set on a core of its cluster (R400). -/
def State.tagCore (s : State) (k : Cmd) (core : Nat) : State :=
  if k.tagged then s.setTag (16 * k.cluster + core) (k.byte 2) k.scope else s

/-- MX_OUT (R398 to R400, R428): a core's tag is set when the last of its rows has been written. -/
def execMxOut (cmd : Nat) (s : State) : Out :=
  .next (s.runCmd cmd (fun s k =>
    let map := k.map.getD (s.cluster k.cluster).wholeMap
    let o : OutForm := ⟨k.byte 17, modeOf (BitVec.ofNat 2 (k.byte 18)), k.byte 19, k.num_ 28 4⟩
    let tiles := if k.byte 16 = 2 then [0, 1] else [k.byte 16]
    let rows := k.byte 21
    let unit_ := fun (i : Nat) (j : Job) =>
      let r := k.byte 20 + i
      let j1 := j.outRow k o tiles map (k.num_ 24 4) r r
      let more := (List.range rows).any (fun n => decide (i < n) && mapCore map (k.byte 20 + n) == mapCore map r)
      if j1.ok && !more then { j1 with s := j1.s.tagCore k (mapCore map r) } else j1
    State.settleCmd { k with map := some map } (runUnits unit_ (rows - k.pidx) k.pidx (Job.start s))))

/-- A run of a joint operation: its members' commands in rank order, and what stopped it: the member, and its fault or none when a
bank that is being switched holds it. -/
structure JointRun where
  s : State
  members : List Cmd
  stop : Option (Nat × Option (Nat × Nat × Nat × Nat))
deriving DecidableEq, Repr

/-- One unit at one member (R402, R432): K row u mod n of the member's panel u / n, the panel from zero at its first row and written
out with its last. -/
def Job.jointUnit (j : Job) (k : Cmd) (rank u : Nat) : Job :=
  let n := k.byte 18
  let row := u % n
  let panel := (rank + u / n) % 4
  let j0 := if row = 0 then
      { j with s := j.s.withCluster k.cluster (fun c => (c.zeroTile 0).zeroTile 1) } else j
  let j1 := (j0.native k (k.byte 19) (k.byte 16 + row) (k.byte 17 + 2 * row) 0).native k (k.byte 19) (k.byte 16 + row)
    (k.byte 17 + 2 * row + 1) 1
  if row + 1 = n then
    let o : OutForm := ⟨k.byte 20, modeOf (BitVec.ofNat 2 (k.byte 21)), k.byte 19, k.num_ 28 4⟩
    (List.range 128).foldl (fun (j : Job) i =>
      j.outRow k o [0, 1] (k.map.getD []) (k.num_ 36 4 + panel * k.num_ 32 4) i (128 * panel + i)) j1
  else j1

/-- One unit at the members that have not done it, in rank order, until one stops (R432). -/
def JointRun.round (u : Nat) (r : JointRun) : JointRun :=
  (List.range 4).foldl (fun (r : JointRun) m =>
    match r.members[m]? with
    | none => r
    | some k =>
      if r.stop.isSome ∨ u < k.pidx then r
      else
        let j := (Job.start r.s).jointUnit k m u
        if j.ok then
          { r with s := j.s, members := r.members.set m { k with pidx := u + 1, flags := k.flags.or j.flags } }
        else { r with stop := some (m, j.fault) }) r

/-- Every member passes the B panel it holds to the member of rank one lower (R402). -/
def JointRun.rotate (r : JointRun) : JointRun :=
  let slots := fun (k : Cmd) => List.range (256 * k.byte 18)
  let panel := fun (k : Cmd) => (slots k).map (fun i => tget (r.s.cluster k.cluster).slots (128 * k.byte 17 + i) 0)
  let panels := r.members.map panel
  { r with s := (List.range 4).foldl (fun (s : State) m =>
      match r.members[m]? with
      | none => s
      | some k =>
        s.withCluster k.cluster (fun c =>
          { c with slots := ((panels[(m + 1) % 4]?).getD []).zipIdx.foldl (fun t p => tset t (128 * k.byte 17 + p.2) p.1) c.slots })) r.s }

/-- Units from u on until one stops; after the last unit of each of the first three panels the B panels move on.  (DESIGN CHOICE, log entry 48.) -/
def JointRun.run (n : Nat) : Nat → Nat → JointRun → JointRun
  | 0, _, r => r
  | m + 1, u, r =>
    let r1 := r.round u
    if r1.stop.isSome then r1
    else JointRun.run n m (u + 1) (if (u + 1) % n = 0 ∧ u + 1 < 4 * n then r1.rotate else r1)

/-- The members' commands of a joint operation (R403): those that wait with its sequence number.  (DESIGN CHOICE, log entry 48.) -/
def State.jointMembers (s : State) (k : Cmd) (clusters : List Nat) : List (Option Cmd) :=
  clusters.map (fun c => s.cmds.find? (fun m =>
    m.cluster == c && m.engine == 0 && m.code == 2 && m.num_ 24 4 == k.num_ 24 4 && m.outstanding &&
      (s.cluster c).quad.any (fun q => q.tid == m.tid)))

/-- Whether a member's MX.JOINT has failed its check for its sequence number (R403, R450). -/
def State.jointWrong (s : State) (cluster : Nat) : Bool :=
  (s.cluster cluster).quad.any (fun q => s.cmds.any (fun m =>
    m.cluster == cluster && m.engine == 0 && m.code == 2 && m.tid == q.tid && m.state == 4 && m.unread == 1 && m.num_ 24 4 != q.jseq))

/-- Whether a member cannot take part: its command of the sequence number is gone, since it has counted past it (R432), or it has pushed
one of another number in its place (R403). -/
def State.jointGone (s : State) (k : Cmd) (clusters : List Nat) : Bool :=
  (clusters.zip (s.jointMembers k clusters)).any (fun p =>
    p.2.isNone && (s.jointWrong p.1 || (s.cluster p.1).quad.any (fun q => decide (k.num_ 24 4 < q.jseq))))

/-- Every member's command faults with "joint broken", but one that has a fault of its own (R403, R432). -/
def State.breakJoint (s : State) (members : List Cmd) (own : Option (Nat × Nat × Nat × Nat × Nat)) : State :=
  members.zipIdx.foldl (fun (s : State) p =>
    match own with
    | some (m, code, sub, va, pa) => if m = p.2 then s.commandFault p.1 code sub va pa else s.commandFault p.1 12 2 0 0
    | none => s.commandFault p.1 12 2 0 0) s

/-- MX_JOINT (R401 to R403, R432): it runs at all four members together, once all four wait with its sequence number. -/
def execMxJoint (cmd : Nat) (s : State) : Out :=
  .next (s.runCmd cmd (fun s k0 =>
    let k := { k0 with map := some (k0.map.getD (s.cluster k0.cluster).wholeMap), state := 2, waiting := true }
    let s1 := s.putCmd k
    match (s1.cluster k.cluster).quad.find? (fun q => q.tid == k.tid && !q.members.isEmpty) with
    | none => s1.commandFault k 12 2 0 0
    | some q =>
      if k.broken ∨ s1.jointGone k q.members then s1.commandFault k 12 2 0 0
      else
        let found := (s1.jointMembers k q.members).filterMap (fun m => m)
        if found.length ≠ 4 ∨ found.any (fun m => !(m.state == 2 && m.waiting)) then s1.waitCmd k
        else if found.any (fun m => m.byte 18 != k.byte 18 || m.byte 20 != k.byte 20) then s1.breakJoint found none
        else
          let n := k.byte 18
          let from_ := found.foldl (fun (a : Nat) m => Nat.min a m.pidx) (4 * n)
          let r := JointRun.run n (4 * n - from_) from_ ⟨s1, found, none⟩
          match r.stop with
          | some (_, none) => (r.members.foldl State.putCmd r.s).waitCmd ((r.members.find? (fun m => m.num == k.num)).getD k)
          | some (m, some (code, sub, va, pa)) => r.s.breakJoint r.members (some (m, code, sub, va, pa))
          | none =>
            r.members.foldl (fun (s : State) m =>
              let s2 := ((List.range 128).map (mapCore (m.map.getD []))).dedup.foldl (fun (s : State) c => s.tagCore m c) s
              (s2.putCmd { m with waiting := false }).send (.commandComplete m.num)) r.s))

end Sys2Proof.Machine
end

