-- ==== Sys2Proof/Machine/Scan.lean ====
section
/-!
DEFINITION. The scan engine and the splice network (spec/15 R404 to R409; spec/16 R433 to R437).
-/

namespace Sys2Proof.Machine

/-- A prefix: the vector or coefficient, the offset of an affine operator, and whether a segment has started by it (R404, R436). -/
abbrev Prefix := VWord × VWord × Bool

/-- Bits of a channel of an operator (R433). -/
def scanBits (op : Nat) : Nat := if op = 1 ∨ op = 4 ∨ op = 6 then 64 else 32

/-- Channels computed one by one, with the flags of them all. -/
def scanLanes (bits : Nat) (f : Nat → Nat × Flags) : VWord × Flags :=
  let r := (List.range (4096 / bits)).map f
  (BitVec.ofNat 4096 (ofLanes bits (r.map (·.1))), r.foldl (fun (a : Flags) x => a.or x.2) {})

/-- One channel of a combination x ∘ y of an operator other than affine (R404). -/
def scanOp (op x y : Nat) : Nat × Flags :=
  match op with
  | 0 => f32Add x y
  | 1 =>
    let r := clampA64 ((BitVec.ofNat 64 x).toInt + (BitVec.ofNat 64 y).toInt)
    ((wordOfInt r.1).toNat, { sat := r.2 })
  | 2 => let r := minMax .f32 true x y; (r.1, { nv := r.2 })
  | 3 => let r := minMax .f32 false x y; (r.1, { nv := r.2 })
  | _ => (Nat.xor x y, {})

/-- a·h + b on one channel of an affine operator, rounded once (R404, R405). -/
def affineState (op frac a h b : Nat) : Nat × Flags :=
  if op = 5 then roundResult .f32 .rne 0 (fmaVal (decodeFloat .f32 a) (decodeFloat .f32 h) (decodeFloat .f32 b))
  else
    let v := fun (n : Nat) => (BitVec.ofNat 64 n).toInt
    let sum := v a * v h + v b * 2 ^ frac
    let r := toA64 .rne 0 frac (a64Val sum (2 * frac))
    ((wordOfInt r.1).toNat, r.2)

/-- a1·a2 on one channel of an affine operator, rounded once (R404). -/
def affineScale (op frac a1 a2 : Nat) : Nat × Flags :=
  if op = 5 then roundResult .f32 .rne 0 (mulVal (decodeFloat .f32 a1) (decodeFloat .f32 a2)) else affineState op frac a1 a2 0

/-- The combination of a prefix and a step (R404). -/
def scanCombine (op frac : Nat) (p q : VWord × VWord) : (VWord × VWord) × Flags :=
  let bits := scanBits op
  let at_ := fun (v : VWord) (i : Nat) => lane v.toNat bits i
  if op < 5 then
    let r := scanLanes bits (fun i => scanOp op (at_ p.1 i) (at_ q.1 i))
    ((r.1, 0), r.2)
  else
    let a := scanLanes bits (fun i => affineScale op frac (at_ p.1 i) (at_ q.1 i))
    let b := scanLanes bits (fun i => affineState op frac (at_ q.1 i) (at_ p.2 i) (at_ q.2 i))
    ((a.1, b.1), a.2.or b.2)

/-- The output of a step from the carry-in and its prefix (R405, R436). -/
def scanOutput (op frac : Nat) (cin : VWord) (p : Prefix) : VWord × Flags :=
  let bits := scanBits op
  let at_ := fun (v : VWord) (i : Nat) => lane v.toNat bits i
  if p.2.2 then (if op < 5 then p.1 else p.2.1, {})
  else if op < 5 then scanLanes bits (fun i => scanOp op (at_ cin i) (at_ p.1 i))
  else scanLanes bits (fun i => affineState op frac (at_ p.1 i) (at_ cin i) (at_ p.2.1 i))

/-- The carry that stands for none: the identity, or the state 0 of an affine operator (R404, R435). -/
def scanIdentity (op : Nat) : VWord :=
  let bits := scanBits op
  let c := match op with | 2 => 0xFF800000 | 3 => 0x7F800000 | _ => 0
  BitVec.ofNat 4096 (ofLanes bits (List.replicate (4096 / bits) c))

/-- 512 bytes that a command reads. -/
def Job.readV (j : Job) (k : Cmd) (va : Nat) : VWord × Job :=
  let r := j.read k (va % 2 ^ 64) 512
  (BitVec.ofNat 4096 (ofBytes r.1), r.2)

/-- Steps of the local pass from step t on, until one does not finish (R405, R436). -/
def Cmd.localPass (k : Cmd) : Nat → Nat → Job → List Prefix → Job × List Prefix × Nat
  | 0, t, j, ps => (j, ps, t)
  | n + 1, t, j, ps =>
    let op := k.byte 16
    let x := j.readV k (k.num_ 24 8 + 512 * t)
    let b := if op < 5 then (0, x.2) else x.2.readV k (k.num_ 32 8 + 512 * t)
    let f := if k.code = 0x43 then b.2.read k ((k.num_ 48 8 + t) % 2 ^ 64) 1 else ([], b.2)
    if !f.2.ok then (f.2, ps, t)
    else
      let start := f.1.any (fun c => c != 0)
      let r : Prefix × Flags :=
        match ps.getLast? with
        | some p =>
          if start then ((x.1, b.1, true), {})
          else
            let c := scanCombine op (k.byte 18) (p.1, p.2.1) (x.1, b.1)
            ((c.1.1, c.1.2, p.2.2), c.2)
        | none => ((x.1, b.1, start), {})
      k.localPass n (t + 1) (f.2.raise r.2) (ps ++ [r.1])

/-- The prefixes that a command holds for its first n steps; a command accepted with an index of which the engine has saved no prefixes
has free ones. -/
def Cmd.keptFor (k : Cmd) (n : Nat) : List Prefix :=
  k.kept.take n ++ (List.range (n - k.kept.length)).map (fun i =>
    (Config.lostPrefix k.num (2 * (k.kept.length + i)), Config.lostPrefix k.num (2 * (k.kept.length + i) + 1), false))

/-- A chain changed. -/
def State.withChain (s : State) (key : Nat) (f : Chain → Chain) : State :=
  { s with chains := s.chains.map (fun e => if e.1 = key then (e.1, f e.2) else e) }

/-- A chain. -/
def State.chain (s : State) (key : Nat) : Option Chain := (s.chains.find? (fun e => e.1 == key)).map (·.2)

/-- Whether a position of a chain is held (R408). -/
def Chain.heldAt (c : Chain) (p : Nat) : Bool := c.taken.any (fun t => t.1 == p)

/-- What the chain gives a command for its carry. -/
inductive Carry where
  | take (v : Option VWord) (s : State)
  | wait
  | broken
deriving DecidableEq, Repr

/-- The carry-in of a command, in order of precedence (R407, R408, R435); none stands for the identity.  (DEDUCED, log entry 49.) -/
def State.carryIn (s : State) (k : Cmd) : Carry :=
  match commandChain k with
  | none =>
    let c := tget s.cores k.core Core.reset
    if c.seeded then .take (some c.carry) (s.withCore k.core (fun c => { c with seeded := false })) else .take none s
  | some key =>
    match s.chain key, s.positionOn key k.tid with
    | some c, some 0 => .take c.seed (s.withChain key (fun c => { c with seed := none }))
    | some c, some p =>
      match c.carries.find? (fun e => e.1 == p) with
      | some e =>
        if e.2.1 then .take (some e.2.2) (s.withChain key (fun c => { c with carries := c.carries.filter (fun e => e.1 != p) }))
        else .wait
      | none => if c.heldAt (p - 1) then .wait else .broken
    | _, _ => .broken

/-- The carry-out of a command goes to the next position, the tail slot or the core's carry register (R407, R408, R435).  (DEDUCED, log entry 49.) -/
def State.carryOut (s : State) (k : Cmd) (v : VWord) : Carry :=
  match commandChain k with
  | none => .take none (s.withCore k.core (fun c => { c with carry := v, seeded := false }))
  | some key =>
    match s.chain key, s.positionOn key k.tid with
    | some c, some p =>
      if p + 1 = c.n then .take none (s.withChain key (fun c => { c with tail := some v }))
      else if !c.heldAt (p + 1) then .broken
      else if c.carries.any (fun e => e.1 == p + 1) then .wait
      else .take none ((s.withChain key (fun c => { c with carries := c.carries ++ [(p + 1, false, v)] })).send
        (.carryDelivery key (p + 1)))
    | _, _ => .broken

/-- The output of step t of a command is written. -/
def Job.scanStore (j : Job) (k : Cmd) (cin : VWord) (t : Nat) : Job :=
  let r := scanOutput (k.byte 16) (k.byte 18) cin ((k.kept[t]?).getD (0, 0, false))
  (j.write k ((k.num_ 40 8 + 512 * t) % 2 ^ 64) (bytesOf r.1.toNat 512)).raise r.2

/-- The carry pass once the carry-in is taken (R405, R417): the output of the last step first, with the carry-out, then the others in
ascending order. -/
def State.carryPass (s : State) (k : Cmd) (cin : VWord) : State :=
  let n := k.num_ 20 4
  let last := (scanOutput (k.byte 16) (k.byte 18) cin ((k.kept[n - 1]?).getD (0, 0, false))).1
  let rest := fun (j : Job) (from_ : Nat) =>
    State.settleCmd k (runUnits (fun u j => j.scanStore k cin (u - n - 1)) (2 * n - from_) from_ j)
  if n < k.pidx then rest (Job.start s) k.pidx
  else
    let j := (Job.start s).scanStore k cin (n - 1)
    if !j.ok then State.settleCmd k ({ j with s := s }, n)
    else
      match j.s.carryOut k last with
      | .wait => s.waitCmd k
      | .broken => s.commandFault k 12 1 0 0
      | .take _ s2 => rest { j with s := s2 } (n + 1)

/-- SC.LIN, SC.PFX and SC.SEG (R405, R434 to R437). -/
def State.scan (s : State) (k0 : Cmd) : State :=
  let n := k0.num_ 20 4
  if k0.broken ∨ (commandChain k0).any (fun key => (s.positionOn key k0.tid).isNone) then s.commandFault k0 12 1 0 0
  else
    let r := k0.localPass (n - k0.pidx) k0.pidx (Job.start s) (k0.keptFor (Nat.min k0.pidx n))
    let k := { k0 with kept := r.2.1, pidx := r.2.2, flags := k0.flags.or r.1.flags }
    if !r.1.ok then State.settleCmd k (r.1, r.2.2)
    else
      let s1 := r.1.s
      match k.carryIn with
      | some v => s1.carryPass k v
      | none =>
        match s1.carryIn k with
        | .wait => s1.waitCmd k
        | .broken => s1.commandFault k 12 1 0 0
        | .take v s2 =>
          let cin := v.getD (scanIdentity (k.byte 16))
          let k2 := { k with carryIn := some cin }
          (s2.putCmd k2).carryPass k2 cin

/-- SC_LIN (R434). -/
def execScLin (cmd : Nat) (s : State) : Out := .next (s.runCmd cmd State.scan)

/-- SC_PFX (R434). -/
def execScPfx (cmd : Nat) (s : State) : Out := .next (s.runCmd cmd State.scan)

/-- SC_SEG (R434, R436). -/
def execScSeg (cmd : Nat) (s : State) : Out := .next (s.runCmd cmd State.scan)

/-- SC_SEED (R437): it waits while an earlier seed of the chain has not been consumed. -/
def execScSeed (cmd : Nat) (s : State) : Out :=
  .next (s.runCmd cmd (fun s k =>
    let load := fun (put : VWord → State → State) =>
      State.settleCmd k (runUnits (fun _ j =>
        let r := j.readV k (k.num_ 24 8)
        { r.2 with s := put r.1 r.2.s }) (1 - k.pidx) k.pidx (Job.start s))
    match commandChain k with
    | none => load (fun v s => s.withCore k.core (fun c => { c with carry := v, seeded := true }))
    | some key =>
      if k.broken ∨ s.positionOn key k.tid ≠ some 0 then s.commandFault k 12 1 0 0
      else if (s.chain key).any (fun c => c.seed.isSome) ∧ k.pidx = 0 then s.waitCmd k
      else load (fun v s => s.withChain key (fun c => { c with seed := some v }))))

/-- CARRY_DELIVERY (R406, R407): a carry reaches its position. -/
def execCarryDelivery (chain position : Nat) (s : State) : Out :=
  .next (s.withChain chain (fun c =>
    { c with carries := c.carries.map (fun e => if e.1 = position then (e.1, true, e.2.2) else e) }))

end Sys2Proof.Machine
end

