-- ==== Sys2Proof/Machine/EngineCtl.lean ====
section
/-!
DEFINITION. The instructions that push, start, join, wait on and steer engine commands (spec/16_engine_commands.md R445 to R455).
-/

namespace Sys2Proof.Machine

/-- An instruction of this file that writes xd: its window checks, and its operand check (R46, R263). -/
def State.engineOp (s : State) (d : Reg) (legal : Bool) (effect : State) : State :=
  s.gate 0 ⟨[d], [], []⟩ (if legal then effect else s.illegalOperand)

/-- xd is written, and the instruction is done. -/
def State.answer (s : State) (d : Reg) (v : Word) : State := s.withCx (fun c => (c.writeX d v).retire 4)

/-- n bytes, a multiple of 32, read as loads of the thread. -/
def State.readWide (s : State) (va : Word) (n : Nat) : VRun :=
  (List.range (n / 32)).foldl (fun (r : VRun) i =>
    r.load (va + BitVec.ofNat 64 (32 * i)) 32 0 s.cx.pl (fun v x => BitVec.ofNat 4096 (v.toNat + x * 2 ^ (256 * i)))) (VRun.start s 0 0)

/-- A 64-byte record read as one single-copy-atomic load of the thread (R132, R448). -/
def State.readRecordOf (s : State) (va : Word) : VRun :=
  match s.translate (coreOf s.cx.key) s.cx.part s.cx.pl va.toNat false with
  | .ok _ pa => (s.alignBlock s.cx.key pa).readWide va 64
  | .fault _ _ => s.readWide va 64

/-- What follows wide accesses: a precise fault, a wait at a bank that is being switched, or the rest of the instruction (R306,
R445, R448, R455). -/
def State.afterWide (s : State) (r : VRun) (word : BitVec 32) (go : State → VWord → State) : State :=
  match r.fault with
  | some (code, sub, va, pa) => s.preciseData code sub va pa word
  | none =>
    if r.held then s.stall
    else go (if r.watched then r.s.withCx (fun c => { c with watchHit := true }) else r.s) r.value

/-- Entry e of an EFORK descriptor: ADDR, COUNT, and whether it is well formed (R445). -/
def forkEntry (d : Nat) (e : Nat) : Nat × Nat × Bool :=
  let addr := d / 2 ^ (128 * e) % 2 ^ 64
  let count := d / 2 ^ (128 * e + 64) % 2 ^ 32
  (addr, count, addr % 64 == 0 && decide (count ≤ 65535) && d / 2 ^ (128 * e + 96) % 2 ^ 32 == 0)

/-- The engine programs of a descriptor start (R391, R445). -/
def State.startPrograms (s : State) (d : Nat) (handle : Nat) (word : BitVec 32) : State :=
  (List.range 4).foldl (fun (s : State) e =>
    let f := forkEntry d e
    if f.2.1 = 0 then s
    else
      let p : Program :=
        { num := s.serial, cluster := clusterOf s.cx.key, core := coreOf s.cx.key, engine := e, tid := s.cx.tid, ctx := s.cx.key,
          handle := handle, pc := s.cx.pc, word := word, addr := BitVec.ofNat 64 f.1, count := f.2.1, next := 0, completed := 0,
          aborted := 0, scope := 0, after := s.cx.before, ended := false }
      { s with serial := s.serial + 1, programs := s.programs ++ [p] }.send (.programRecordRead p.num)) s

/-- EFORK (R445). -/
def execEfork (d a : Reg) (s : State) : Out :=
  let word := recordWord (wrWord 0x36 d.toNat a.toNat 0 0 0)
  .next (s.engineOp d ((s.x a).toNat % 64 == 0)
    (s.afterWide (s.readWide (s.x a) 64) word (fun s1 v =>
      if (List.range 4).any (fun e => !(forkEntry v.toNat e).2.2) then s.illegalOperand
      else
        match (List.range 4).find? (fun h => !s.cx.handles.getLsbD h) with
        | none => s1.answer d 0
        | some h =>
          ((s1.startPrograms v.toNat (h + 1) word).withCx (fun c => { c with handles := c.handles ||| BitVec.ofNat 4 (2 ^ h) })).answer d
            (BitVec.ofNat 64 (h + 1)))))

/-- ERDV (R446): a boundary that acquires (R322). -/
def execErdv (d a : Reg) (s : State) : Out :=
  let n := (s.x a).toNat
  let hs := if n = 0 then s.cx.handles else BitVec.ofNat 4 (2 ^ (n - 1)) &&& s.cx.handles
  .next (s.engineOp d (decide (n ≤ 4))
    (if hs = 0 then s.answer d (if n = 0 then 0 else BitVec.allOnes 64)
     else if (s.programsOf hs).any (fun p => !p.ended) then s.stall
     else (s.joinPrograms hs).answer d (BitVec.ofNat 64 ((s.programsOf hs).map (·.aborted)).sum)))

/-- EPUSH (R448): its ring entry is the command's; the write to the port is a remote store. -/
def execEpush (d a b : Reg) (s : State) : Out :=
  let word := recordWord (wrWord 0x36 d.toNat a.toNat b.toNat 2 0)
  let engine := (s.x b).toNat
  .next (s.ringGate 0 ⟨[d], [], []⟩
    (if (s.x a).toNat % 64 ≠ 0 ∨ 4 ≤ engine then s.illegalOperand
     else if 256 ≤ s.owed then s.stall
     else s.afterWide (s.readRecordOf (s.x a)) word (fun s1 v =>
      let record : Record := BitVec.ofNat 512 v.toNat
      let o := s1.originOf s1.cx 0 word
      let k := cmdOf s1.serial engine 0 record o s1.cx.nextSeq s1.cx.pl 0
      let s2 := { s1 with serial := s1.serial + 1, cmds := s1.cmds ++ [k] }.owe s1.cx.tid
      ((s2.withCx (fun c => c.ringTake c.pc word (BitVec.ofNat 32 (rfield record 4 4)) 1 0 (some k.num))).send
        (.commandPortWrite o engine record)).answer d (zext s1.cx.nextSeq))))

/-- The ring entry of a command that a sequence number names (R447, R449).  (DEDUCED, log entry 46.) -/
def Ctx.commandEntry (c : Ctx) (seq : Word) : Option RingEntry :=
  c.ring.find? (fun e => e.seq.toNat == seq.toNat && e.cmd.isSome)

/-- ESTAT (R447). -/
def execEstat (d a : Reg) (s : State) : Out :=
  let v := (s.cx.commandEntry (s.x a)).elim 0 (fun e => e.state * 2 ^ 61 + e.flags.toNat * 2 ^ 56 + e.pidx.toNat)
  .next (s.engineOp d true (s.answer d (BitVec.ofNat 64 v)))

/-- A push that has not been accepted is taken back, and acknowledged. -/
def State.cancelPush (s : State) (k : Cmd) : State :=
  let mine := fun (o : Origin) (e : Nat) (r : Record) => o.tid == k.tid && e == k.engine && o.pc == k.pc && o.word == k.word && r == k.record
  let s1 := { s with inflight := removeFirst (fun (i : Happening) => match i with | .commandPortWrite o e r => mine o e r | _ => false) s.inflight }
  (s1.withCore k.core (fun c => { c with heldPushes := removeFirst (fun h => mine h.2.1 h.1 h.2.2) c.heldPushes })).send
    (.storeAck k.tid k.part none 43)

/-- The commands with ORD set that a faulted command holds behind it in its stream (R390, R449). -/
def State.heldBehind (s : State) (k : Cmd) : List Cmd :=
  let later := ((s.cmds.dropWhile (fun c => c.num != k.num)).drop 1).filter (fun c =>
    c.core == k.core && c.engine == k.engine && c.program == k.program && c.state == 1)
  if k.state = 4 then later.filter (·.ord) else []

/-- A command that is not faulted is aborted, or one that is, with those held behind it (R448, R449): 1 when its last unit has
finished.  (DEDUCED, log entry 46.) -/
def State.abort (s : State) (k : Cmd) : Nat × State :=
  if k.state = 0 then (0, (s.cancelPush k).abortCmd { k with pidx := 0 })
  else if k.written then (1, s)
  else (0, (s.heldBehind k).foldl State.abortCmd (s.abortCmd k))

/-- A faulted command is started again at its progress index (R449): a record that could not be read is read again, and a command that
failed its check is checked again; EABORT waits while a bank that is being switched holds either read (R306). -/
def State.retry (s : State) (k : Cmd) : Option State :=
  let k1 := { k with state := 1, broken := false, waiting := false }
  match k.unread with
  | 0 => some ((s.putCmd k1).send k.happening)
  | 1 => if s.tableHeld k then none else some ((s.putCmd k1).check k1)
  | _ =>
    let r := (Job.start s).read k k.addr.toNat 64
    let k2 := { k1 with record := BitVec.ofNat 512 (ofBytes r.1) }
    match r.2.fault with
    | some (code, sub, va, pa) => some (s.commandFault { k with record := k2.record } code sub va pa)
    | none =>
      if r.2.held ∨ s.tableHeld k2 then none
      else some ((s.putCmd { k2 with pidx := k2.num_ 4 4 }).check { k2 with pidx := k2.num_ 4 4 })

/-- EABORT (R448, R449); a retry of a completed or aborted command answers 2.  (DESIGN CHOICE, log entry 74.) -/
def execEabort (d a b : Reg) (s : State) : Out :=
  .next (s.engineOp d (decide ((s.x b).toNat ≤ 1))
    (match s.cx.commandEntry (s.x a) with
      | none => s.answer d 3
      | some e =>
        match s.cmds.find? (fun k => some k.num == e.cmd) with
        | none => s.answer d (if s.x b = 0 then 1 else 2)
        | some k =>
          if k.state = 4 ∧ k.unread = 2 ∧ k.program = 0 then (s.abortCmd k).answer d 0
          else if s.x b = 0 then (s.abort k).2.answer d (BitVec.ofNat 64 (s.abort k).1)
          else if k.state = 4 then (s.retry k).elim s.stall (fun s1 => s1.answer d 0)
          else s.answer d 2))

/-- The slots (0 to 63) and tiles (64, 65) that two operands name (R450). -/
def unitsNamed (a b : Word) : List Nat :=
  (List.range 66).filter (fun n => if n < 64 then a.getLsbD n else b.getLsbD (n - 64))

/-- Whether a task holds a slot or tile, and has not given it up (R395, R450). -/
def Cluster.holds (c : Cluster) (tid : Word) (n : Nat) : Bool := c.ownerOf n == tid && !c.leaving.contains n

/-- A slot or tile is claimed. -/
def Cluster.claimUnit (tid : Word) (c : Cluster) (n : Nat) : Cluster :=
  if n < 64 then { c with slotOwner := tset c.slotOwner n tid } else { c with tileOwner := tset c.tileOwner (n - 64) tid }

/-- Whether a slot or tile is free. -/
def Cluster.unitFree (c : Cluster) (n : Nat) : Bool :=
  if n < 64 then !c.slotOwner.any (fun e => e.1 == n) else !c.tileOwner.any (fun e => e.1 + 64 == n)

/-- MCLAIM (R450): all or nothing. -/
def execMclaim (d a b : Reg) (s : State) : Out :=
  let k := clusterOf s.cx.key
  let c := s.cluster k
  let l := unitsNamed (s.x a) (s.x b)
  .next (s.engineOp d (decide ((s.x b).toNat < 4))
    (if l.all (fun n => c.unitFree n || c.holds s.cx.tid n) then
      (s.withCluster k (fun c => l.foldl (Cluster.claimUnit s.cx.tid) c)).answer d 0
     else s.answer d 1))

/-- MREL (R392, R450). -/
def execMrel (d a b : Reg) (s : State) : Out :=
  let k := clusterOf s.cx.key
  let l := unitsNamed (s.x a) (s.x b)
  let mine := l.filter ((s.cluster k).holds s.cx.tid)
  .next (s.engineOp d (decide ((s.x b).toNat < 4))
    (((s.withCluster k (fun c => { c with leaving := (c.leaving ++ mine).dedup })).returnUnits k).answer d
      (if mine.length = l.length then 0 else 1)))

/-- MMAP (R451). -/
def execMmap (d a b : Reg) (s : State) : Out :=
  let k := clusterOf s.cx.key
  let r0 := field (s.x a) 0 7
  let n := field (s.x a) 8 8
  let core := field (s.x b) 16 4
  let entry := fun (i : Nat) => BitVec.ofNat 64 (core * 2 ^ 16 + (field (s.x b) 0 15 + i * field (s.x b) 24 8) % 2 ^ 15)
  .next (s.engineOp d
    ((s.x a) &&& ~~~0xFF7F == 0 && (s.x b) &&& ~~~0xFF0F7FFF == 0 && decide (1 ≤ n) && decide (n ≤ 128) && decide (r0 + n ≤ 128))
    ((s.withCluster k (fun c =>
      { c with rowmap := (List.range n).foldl (fun t i => tset t (r0 + i) (entry i)) c.rowmap })).answer d ((s.cluster k).row r0)))

/-- The clusters of a quad's members by rank, once each of them has a binding that its task has asked for (R401, R450). -/
def State.quadMembers (s : State) (c : Ctx) (pos : Nat) : Option (List Nat) :=
  let at_ := fun (r : Nat) => (s.partition c.part).clusters.find? (fun cl =>
    (s.cluster cl).quad.any (fun q =>
      q.rank == r && (s.taskOf q.tid).any (fun t => t.part == c.part && t.queue == c.queue && t.gang.any (fun g => g.pos == pos))))
  let l := (List.range 4).filterMap at_
  if l.length = 4 then some l else none

/-- A quad forms at each of its members (R450). -/
def State.formQuad (s : State) (members : List Nat) : State :=
  members.foldl (fun (s : State) m => s.withCluster m (fun c =>
    { c with quad := c.quad.map (fun q => { q with members := members, jseq := 0 }) })) s

/-- MJOIN that binds, for member index of a gang of four clusters (R401, R450): it waits until all four have asked. -/
def State.bindQuad (s : State) (d : Reg) (pos index : Nat) : State :=
  let k := clusterOf s.cx.key
  let tid := s.cx.tid
  let mine := fun (q : Quad) => q.tid == tid
  let done := fun (s : State) =>
    (s.withCluster k (fun c => { c with quad := c.quad.map (fun q => if mine q then { q with told := true } else q) })).answer d
      (BitVec.ofNat 64 index)
  match (s.cluster k).quad.find? mine with
  | some q =>
    if q.members.isEmpty then s.stall
    else if q.told then
      done (s.withCluster k (fun c => { c with quad := c.quad.map (fun q => if mine q then { q with jseq := 0 } else q) }))
    else done s
  | none =>
    let s1 := s.withCluster k (fun c => { c with quad := c.quad ++ [⟨tid, index, [], 0, false⟩] })
    match s1.quadMembers s.cx pos with
    | none => s1.stall
    | some l => done (s1.formQuad l)

/-- MJOIN (R401, R450). -/
def execMjoin (d a : Reg) (s : State) : Out :=
  let k := clusterOf s.cx.key
  .next (s.engineOp d (decide ((s.x a).toNat ≤ 1))
    (if s.x a = 0 then
      (if (s.cluster k).quad.any (fun q => q.tid == s.cx.tid) then s.endQuad k else s).answer d 0
     else
      match s.cx.gang with
      | some g => if g.clusters ∧ g.size = 4 then s.bindQuad d g.pos g.index else s.answer d 0x8000000000000000
      | none => s.answer d 0x8000000000000000))

/-- The widest scope of the completions that set some tags of a core (R394, R452). -/
def Core.scopeOf (c : Core) (tags : Word) : Option (BitVec 2) :=
  widest (((List.range 64).filter tags.getLsbD).map (fun t => tget c.tagScope t 0))

/-- A context in TWANY or TWALL tests its tags and its limit (R394, R452). -/
def State.testTwait (s : State) : State :=
  match s.cx.run with
  | .waiting (.twait d mask all limit) =>
    let tags := s.core.ctags &&& mask
    if (if all then tags == mask else tags != 0) then (s.boundary none (s.core.scopeOf tags)).answer d tags
    else if limit ≠ 0 ∧ limit.toNat ≤ s.clock then s.answer d tags
    else s
  | _ => s

/-- TWANY and TWALL (R452). -/
def State.waitTags (s : State) (d a b : Reg) (all : Bool) : State :=
  s.engineOp d true
    (if s.x a = 0 then s.answer d 0
     else (s.withCx (fun c => { c with run := .waiting (.twait d (s.x a) all (s.x b)) })).testTwait)

/-- TWANY (R452). -/
def execTwany (d a b : Reg) (s : State) : Out := .next (s.waitTags d a b false)

/-- TWALL (R452). -/
def execTwall (d a b : Reg) (s : State) : Out := .next (s.waitTags d a b true)

/-- TWAIT_LIMIT (R452): a context in TWANY or TWALL tests its tags and its limit. -/
def execTwaitLimit (ctx : Nat) (s : State) : Out := .next (s.onCtx ctx State.testTwait)

/-- TFIRST (R453). -/
def execTfirst (d a : Reg) (s : State) : Out :=
  .next (s.engineOp d true (s.answer d (BitVec.ofNat 64 (ctz (s.core.ctags &&& s.x a).toNat 64 0))))

/-- TCLR (R453). -/
def execTclr (d a : Reg) (s : State) : Out :=
  .next (s.engineOp d true ((s.clearTags (coreOf s.cx.key) (s.x a)).answer d (s.core.ctags &&& s.x a)))

/-- A task takes a position of a chain; when that was the last one, every task that waits for it is told (R454). -/
def State.takePosition (s : State) (key n pos : Nat) (tid : Word) (core : Nat) : State :=
  let c := (s.chain key).getD ⟨n, [], [], none, [], none⟩
  let taken := c.taken ++ [(pos, tid, core)]
  let full := taken.length = n
  let joining := c.joining ++ [(tid, false)]
  let c1 := { c with taken := taken, joining := if full then joining.map (fun j => (j.1, true)) else joining }
  { s with chains := tset s.chains key c1 }

/-- A task whose SJOIN waits completes it once all positions have been taken (R454). -/
def State.testJoining (s : State) (d : Reg) (key : Nat) : State :=
  let mine := fun (j : Word × Bool) => j.1 == s.cx.tid
  if (s.chain key).any (fun c => c.joining.any (fun j => mine j && j.2)) then
    (s.withChain key (fun c => { c with joining := c.joining.filter (fun j => !mine j) })).answer d 0
  else s.stall

/-- SJOIN (R454); where several statuses apply, 1 before 2 before 3.  (DESIGN CHOICE, log entry 74.) -/
def execSjoin (d a b : Reg) (s : State) : Out :=
  let tid := s.cx.tid
  let n := field (s.x a) 8 8
  let pos := (s.x b).toNat
  let key := chainKey s.cx.part (dieOf (clusterOf s.cx.key)) (field (s.x a) 0 4)
  .next (s.engineOp d ((s.x a) &&& ~~~0xFF0F == 0 && decide (1 ≤ n) && decide (n ≤ 64) && decide (pos < n))
    (match s.chain key with
      | none => (s.takePosition key n pos tid (coreOf s.cx.key)).testJoining d key
      | some c =>
        if c.n = n ∧ s.positionOn key tid = some pos ∧ c.joining.any (fun j => j.1 == tid) then s.testJoining d key
        else if c.taken.any (fun t => t.1 == pos && t.2.1 != tid) then s.answer d 1
        else if c.n ≠ n then s.answer d 2
        else if (s.positionOn key tid).isSome then s.answer d 3
        else (s.takePosition key n pos tid (coreOf s.cx.key)).testJoining d key))

/-- SLEAVE (R408, R454). -/
def execSleave (d a : Reg) (s : State) : Out :=
  let key := chainKey s.cx.part (dieOf (clusterOf s.cx.key)) (s.x a).toNat
  .next (s.engineOp d (decide ((s.x a).toNat < 16))
    (if (s.positionOn key s.cx.tid).isSome then (s.leaveChain key s.cx.tid).answer d 0 else s.answer d 1))

/-- SCIN and SCOUT on the chain that they name (R455): 2 without a position on it, 1 at the wrong one. -/
def State.onChain (s : State) (d a b : Reg) (right : Chain → Nat → Bool) (go : Nat → Chain → State) : State :=
  let key := chainKey s.cx.part (dieOf (clusterOf s.cx.key)) (s.x a).toNat
  s.engineOp d (decide ((s.x a).toNat < 16) && (s.x b).toNat % 64 == 0)
    (match s.chain key, s.positionOn key s.cx.tid with
      | some c, some p => if right c p then go key c else s.answer d 1
      | _, _ => s.answer d 2)

/-- SCIN (R455). -/
def execScin (d a b : Reg) (s : State) : Out :=
  let word := recordWord (wrWord 0x39 d.toNat a.toNat b.toNat 2 0)
  .next (s.onChain d a b (fun _ p => p == 0) (fun key c =>
    if c.seed.isSome then s.stall
    else s.afterWide (s.readWide (s.x b) 512) word (fun s1 v => (s1.withChain key (fun c => { c with seed := some v })).answer d 0)))

/-- 512 bytes stored as a vector store of the thread: every access is checked before any takes effect (R161, R164). -/
def State.writeWide (s : State) (va : Word) (v : VWord) (word : BitVec 32) : VRun :=
  let z := VRun.start s 0 0
  let units := (List.range 8).map (fun i => (va + BitVec.ofNat 64 (64 * i), bytesOf (v.toNat / 2 ^ (512 * i)) 64))
  match s.firstBad s.cx.pl true (s.accessBad s.cx.pl) (units.map (fun u => (u.1, 64))) with
  | some f => { z with fault := some f }
  | none => units.foldl (fun (r : VRun) u => r.store u.1 u.2 0 s.cx.pl word) z

/-- SCOUT (R455). -/
def execScout (d a b : Reg) (s : State) : Out :=
  let word := recordWord (wrWord 0x39 d.toNat a.toNat b.toNat 3 0)
  .next (s.onChain d a b (fun c p => p + 1 == c.n) (fun key c =>
    match c.tail with
    | none => s.stall
    | some v =>
      s.afterWide (s.writeWide (s.x b) v word) word (fun s1 _ => (s1.withChain key (fun c => { c with tail := none })).answer d 0)))

end Sys2Proof.Machine
end

