-- ==== Sys2Proof/Machine/Ext.lean ====
section
/-!
DEFINITION. Extensions XF64 and XSF (spec/16_engine_commands.md R456 to R458) and the migration to a core that has one (spec/02 R61, spec/18
R484, R485).
-/

namespace Sys2Proof.Machine

/-- The core that a migration chooses: the nearest core of the cluster that has the extension (R61). -/
def migrationTarget (xf64 : Bool) (core : Nat) : Nat :=
  (best (fun a b => decide ((a - core) + (core - a) < (b - core) + (core - b)))
    (((List.range 16).map (fun c => core / 16 * 16 + c)).filter (coreHas xf64))).getD core

/-- Whether a task has a tagged command outstanding, or an engine program not joined and not ended (R484, step 1). -/
def State.engineBusy (s : State) (tid : Word) : Bool :=
  s.cmds.any (fun k => k.tid == tid && k.program == 0 && (rfield k.record 1 1).testBit 4 && k.outstanding) ||
    s.programs.any (fun p => p.tid == tid && !p.ended)

/-- An idle context of a core that no gang and no hint has reserved, lowest first. -/
def State.idleContext (s : State) (core : Nat) : Option Nat :=
  ((List.range 4).map (4 * core + ·)).find? (fun k =>
    s.idleAt k && !s.gangReserved.contains k && (s.hintOf k).isNone && !s.retiring.contains (core / 16))

/-- The running task moves to an idle context of another core (R484, steps 3 to 5): its holds end, every line copy of the new
core is closed to it, its endpoints follow, and what its registers say of the core is loaded again.  The turn stays with the
context it left. -/
def State.moveTask (s : State) (key : Nat) : State :=
  let s0 := s.leaveGroup s.cx
  let old := s0.cx.key
  let s1 := (if s0.holdsAny old then s0.withCx Ctx.broken else s0).dropHolds old
  let core := coreOf key
  let c := { s1.cx.bringRecords with
    key := key, lcore := s.lcoreOf s.cx.part core, xf64 := coreHas true core, xsf := coreHas false core, run := .running }
  let s2 := s1.freeContext old s1.cx.part
  (({ s2 with others := insertCtx c (s2.others.filter (fun o => o.key != key)) }).moveEndpoints c.tid key).closeLines key

/-- An extension migration of the running thread goes as far as it can (R61, R484, R485): it waits for earlier instructions, for
tagged commands and engine programs and for its stores, then moves, or is switched out to the target core, or waits.  It closes every
window, so that the late faults of earlier instructions are taken first (R467). -/
def State.migrateExtension (s : State) (xf64 : Bool) : State :=
  match s.cx.firstFault true with
  | some f => s.takeFault f
  | none =>
  if s.cx.open_ ∨ s.engineBusy s.cx.tid ∨ s.directedTo s.cx.tid then s.stall
  else
    let s1 := (s.withCx Ctx.closeWindows).release s.cx.key 2
    let core := migrationTarget xf64 (coreOf s.cx.key)
    if s1.cx.unack ≠ 0 then s1.stall
    else
      match s1.idleContext core with
      | some k => s1.moveTask k
      | none =>
        match (s1.withCx (fun c => { c with target := some core, run := .running })).switchOut s.cx.key core with
        | some s2 => s2
        | none => s1.stall

/-- EXTENSION_MIGRATION (R61, R484): the running thread, on a core without the extension, moves to one with it. -/
def execExtensionMigration (xf64 : Bool) (s : State) : Out :=
  .next (if s.cx.run = .idle ∨ s.cx.hasExtension xf64 then s else s.migrateExtension xf64)

/-- An extension instruction: on a core without the extension it migrates first (R61). -/
def State.extended (s : State) (xf64 : Bool) (run : State → Out) : Out :=
  if s.cx.hasExtension xf64 then run s else .next (s.migrateExtension xf64)

/-- Lanes 0 to n - 1 computed, each with its draw in stochastic mode; the lanes above keep their values (R457). -/
def State.lowLanes (s : State) (la : BitVec 4) (bits n : Nat) (m : BitVec 3) (vd : BitVec 4) (word : BitVec 32) (mode : Mode)
    (f : Nat → Nat → Nat × Flags) : Out :=
  let old := s.cx.rawV vd
  let (l, num) := goLanes f (vlane old bits) (s.cx.readM m).getLsbD true n 0 (s.num mode)
  .next (s.vecV la vd word num (BitVec.ofNat 4096 (splice old.toNat (ofLanes bits l) (n * bits / 8))))

/-- DADD (R456). -/
def execDadd (la : BitVec 4) (m : BitVec 3) (vb va vd : BitVec 4) (s : State) : Out :=
  s.extended true (fun s =>
    s.floatLanes la .f64 m vb va vd (recordWord (wvWord 0x3a vd.toNat va.toNat vb.toNat m.toNat 0 0 la.toNat)) (fun a b _ => addVal a b))

/-- DSUB (R456). -/
def execDsub (la : BitVec 4) (m : BitVec 3) (vb va vd : BitVec 4) (s : State) : Out :=
  s.extended true (fun s =>
    s.floatLanes la .f64 m vb va vd (recordWord (wvWord 0x3a vd.toNat va.toNat vb.toNat m.toNat 0 1 la.toNat)) (fun a b _ => addVal a (negVal b)))

/-- DMUL (R456). -/
def execDmul (la : BitVec 4) (m : BitVec 3) (vb va vd : BitVec 4) (s : State) : Out :=
  s.extended true (fun s =>
    s.floatLanes la .f64 m vb va vd (recordWord (wvWord 0x3a vd.toNat va.toNat vb.toNat m.toNat 0 2 la.toNat)) (fun a b _ => mulVal a b))

/-- DFMA (R456). -/
def execDfma (la : BitVec 4) (m : BitVec 3) (vb va vd : BitVec 4) (s : State) : Out :=
  s.extended true (fun s =>
    s.floatLanes la .f64 m vb va vd (recordWord (wvWord 0x3a vd.toNat va.toNat vb.toNat m.toNat 0 3 la.toNat)) (fun a b c => fmaVal a b c))

/-- DDIV (R456). -/
def execDdiv (la : BitVec 4) (m : BitVec 3) (vb va vd : BitVec 4) (s : State) : Out :=
  s.extended true (fun s =>
    s.floatLanes la .f64 m vb va vd (recordWord (wvWord 0x3a vd.toNat va.toNat vb.toNat m.toNat 0 4 la.toNat)) (fun a b _ => divVal a b))

/-- DSQRT (R456). -/
def execDsqrt (la : BitVec 4) (m : BitVec 3) (va vd : BitVec 4) (s : State) : Out :=
  s.extended true (fun s =>
    s.floatLanes la .f64 m 0 va vd (recordWord (wvWord 0x3a vd.toNat va.toNat 0 m.toNat 0 5 la.toNat)) (fun a _ _ => sqrtVal a))

/-- DCVT (R457). -/
def execDcvt (la : BitVec 4) (ty m : BitVec 3) (vb va vd : BitVec 4) (s : State) : Out :=
  s.extended true (fun s =>
    let word := (recordWord (wvWord 0x3a vd.toNat va.toNat vb.toNat m.toNat ty.toNat 6 la.toNat))
    let v := s.cx.readV va
    let mode := s.cx.roundMode 3
    if vb = 0 then
      s.lowLanes la (tyBits ty) 64 m vd word mode (fun i z => roundVal (elemTy ty) mode z (decodeFloat .f64 (vlane v 64 i)))
    else
      s.lowLanes la 64 64 m vd word mode (fun i z => roundVal (.flt .f64) mode z (decodeElem (elemTy ty) (vlane v (tyBits ty) i))))

/-- DMIN (R456). -/
def execDmin (la : BitVec 4) (m : BitVec 3) (vb va vd : BitVec 4) (s : State) : Out :=
  s.extended true (fun s =>
    s.minMaxLanes la .f64 m vb va vd (recordWord (wvWord 0x3a vd.toNat va.toNat vb.toNat m.toNat 0 7 la.toNat)) false)

/-- VERF (R458). -/
def execVerf (la : BitVec 4) (ty m : BitVec 3) (va vd : BitVec 4) (s : State) : Out :=
  s.extended false (fun s =>
    s.floatLanes la (floatOf ty) m 0 va vd (recordWord (wvWord 0x3b vd.toNat va.toNat 0 m.toNat ty.toNat 0 la.toNat)) (fun a _ _ => erfVal a))

/-- VLGAM (R458). -/
def execVlgam (la : BitVec 4) (ty m : BitVec 3) (va vd : BitVec 4) (s : State) : Out :=
  s.extended false (fun s =>
    s.floatLanes la (floatOf ty) m 0 va vd (recordWord (wvWord 0x3b vd.toNat va.toNat 0 m.toNat ty.toNat 1 la.toNat)) (fun a _ _ => lgamVal a))

/-- VPOW (R458). -/
def execVpow (la : BitVec 4) (ty m : BitVec 3) (vb va vd : BitVec 4) (s : State) : Out :=
  s.extended false (fun s =>
    s.floatLanes la (floatOf ty) m vb va vd (recordWord (wvWord 0x3b vd.toNat va.toNat vb.toNat m.toNat ty.toNat 2 la.toNat)) (fun a b _ => powVal a b))

/-- VATN2 (R458). -/
def execVatn2 (la : BitVec 4) (ty m : BitVec 3) (vb va vd : BitVec 4) (s : State) : Out :=
  s.extended false (fun s =>
    s.floatLanes la (floatOf ty) m vb va vd (recordWord (wvWord 0x3b vd.toNat va.toNat vb.toNat m.toNat ty.toNat 3 la.toNat)) (fun a b _ => atan2Val a b))

end Sys2Proof.Machine
end

