-- ==== Sys2Proof/Machine/Fabric.lean ====
section
/-!
DEFINITION. What reaches the device from its own registers and from other devices between instructions: effects of register writes
(spec/01, spec/08, spec/12, spec/15), the shoot-down (spec/19 R505 to R507), die links (R491 to R495), stations and mailboxes (R499 to
R503), clock synchronisation (spec/20 R520 to R523) and errors in memory (spec/11 R320, R321).
-/

namespace Sys2Proof.Machine

/-- ILLEGAL_INSTRUCTION (R43, R59): a word that is no instruction. -/
def execIllegalInstruction (s : State) : Out := .next (s.precise 1 0)

/-- CTAGS_CLEAR (R393). -/
def execCtagsClear (core : Nat) (mask : Word) (s : State) : Out := .next (s.clearTags core mask)

/-- QGRP_WRITE (R370). -/
def execQgrpWrite (ctx : Nat) (value : Word) (s : State) : Out := .next (s.onCtx ctx (fun s => s.setGroups value))

/-- BOUND_WRITE (R207). -/
def execBoundWrite (ctx : Nat) (value : Word) (s : State) : Out := .next (s.onCtx ctx (fun s => s.setBound value))

/-- SDOWN_GO (R505). -/
def execSdownGo (part : Nat) (value : Word) (s : State) : Out := .next (s.setShootdown part value)

/-- Whether a physical address lies in a frame of 64 KB, 2 MB or 1 GB (R505). -/
def inFrame (frame : Nat) (size : BitVec 2) (pa : Nat) : Bool :=
  let n := pageSize (if size = 3 then 0 else size.toNat)
  pa / n == frame * 65536 / n

/-- The contexts of a core that hold a line of a frame, by index.  (DEDUCED, log entry 58.) -/
def frameHolders (frame : Nat) (size : BitVec 2) (lines : List Line) : BitVec 4 :=
  lines.foldl (fun acc l => if inFrame frame size (32 * l.num) then acc ||| l.held else acc) 0

/-- A core drops what it holds of a frame: its translation entries and its line copies, held ones too; every context that held one
suffers a break (R506).  (DEDUCED, log entry 58.) -/
def State.dropFrame (s : State) (frame : Nat) (size : BitVec 2) (core : Nat) : State :=
  let lines := (tget s.cores core Core.reset).lines
  let inside := fun (l : Line) => inFrame frame size (32 * l.num)
  let s1 := s.writeBackAll core [] [] ((lines.filter (fun l => inside l && l.dirty)).map (·.num))
  (s1.breakHolds core (frameHolders frame size lines) 4).withCore core (fun c =>
    { c with
      lines := c.lines.filter (fun l => !inside l)
      tlb := c.tlb.filter (fun e => !(inFrame frame size e.leaf.pa ||
        (decide (e.leaf.pa ≤ frame * 65536) && decide (frame * 65536 < e.leaf.pa + e.leaf.size)))) })

/-- A home slice drops the lines of a frame, replicas among them (R311, R506). -/
def State.dropReplicas (s : State) (frame : Nat) (size : BitVec 2) (cluster : Nat) : State :=
  ((s.cluster cluster).slice.filter (fun w => inFrame frame size (32 * w.num))).foldl (fun s w => s.dropWay cluster w) s

/-- SHOOTDOWN_REQUEST (R506): the device drops the frame everywhere, then answers. -/
def execShootdownRequest (fromDevice frame : Nat) (size : BitVec 2) (part : Nat) (s : State) : Out :=
  let s0 := (s.cores.map (·.1)).foldl (fun s core => s.dropFrame frame size core) s
  let s1 := (s0.clusters.map (·.1)).foldl (fun s c => s.dropReplicas frame size c) s0
  .next (if fromDevice = s.dev.toNat then s1.send (.shootdownAck part fromDevice)
    else s1.emit (.mailbox fromDevice 7 (bytesOf s.dev.toNat 2)))

/-- The devices that a shoot-down asks (R506). -/
def State.shootDevices (s : State) (part : Nat) : List Nat := (s.dev.toNat :: (s.partition part).jobDevices).dedup

/-- SHOOTDOWN_ACK (R506): BUSY falls when every device has answered. -/
def execShootdownAck (part device : Nat) (s : State) : Out :=
  let p := s.partition part
  let seen := (device :: p.sdSeen).dedup
  .next
    (if !p.sdBusy then s
     else if (s.shootDevices part).all seen.contains then
      s.withPart part (fun p => { p with sdBusy := false, sdErr := false, sdSeen := [] })
     else s.withPart part (fun p => { p with sdSeen := seen }))

/-- The limit of a shoot-down, in ns (R506). -/
def Partition.shootLimit (p : Partition) : Nat := 2 * p.dfab.toNat + 20000

/-- SHOOTDOWN_TIMEOUT (R506): the limit ends a shoot-down with ERR. -/
def execShootdownTimeout (part : Nat) (s : State) : Out :=
  let p := s.partition part
  .next
    (if !p.sdBusy then s
     else if s.clock < p.sdAt + p.shootLimit then s.send (.shootdownTimeout part)
     else s.withPart part (fun p => { p with sdBusy := false, sdErr := true, sdSeen := [] }))

/-- MCMD_READ (R511).  (DEDUCED, log entry 56.) -/
def execMcmdRead (ctx : Nat) (offset : BitVec 24) (s : State) : Out :=
  .next (s.onCtx ctx (fun s => s.windowAccess offset.toNat 1))

/-- MCMD_WRITE (R511). -/
def execMcmdWrite (ctx : Nat) (offset : BitVec 24) (s : State) : Out :=
  .next (s.onCtx ctx (fun s => s.windowAccess offset.toNat 2))

/-- FWWAKE_WRITE (R514). -/
def execFwwakeWrite (complex : Nat) (core : BitVec 2) (s : State) : Out := .next (s.fwWake complex core)

/-- A context that HALT has stopped runs again.  (DEDUCED, log entry 61.) -/
def Ctx.restarted (c : Ctx) : Ctx := if c.run = .halted then { c with run := .running } else c

/-- CORE_RESTART (R118): a firmware-complex core that HALT has stopped goes on. -/
def execCoreRestart (complex : Nat) (core : BitVec 2) (s : State) : Out :=
  let k := 4 * complex + core.toNat
  .next
    { s with
      firmware := { s.firmware with
        cores := s.firmware.cores.zipIdx.map (fun e => if e.2 = k then { e.1 with ctx := e.1.ctx.restarted } else e.1) } }

/-- One or two bits of a word of a line copy fail (R320): an error beside another in one word cannot be corrected. -/
def Line.fail (l : Line) (w : Nat) (double : Bool) : Line :=
  { l with bad := l.bad ||| BitVec.ofNat 8 (if double || l.bad.getLsbD w then 2 ^ (w + 4) else 2 ^ w) }

/-- The first copy of a line in a core fails. -/
def State.failLine (s : State) (core num w : Nat) (double : Bool) : State :=
  s.withCore core (fun c => { c with lines := updateFirst (fun l => l.num == num) (fun l => l.fail w double) c.lines })

/-- One more error in a list of those that are there, by what fails: a second one makes it uncorrectable. -/
def failIn (l : List (Nat × Bool)) (n : Nat) (double : Bool) : List (Nat × Bool) :=
  l.filter (fun w => w.1 != n) ++ [(n, double || l.any (fun w => w.1 == n))]

/-- An uncorrectable error is counted when it arises (R321): by two bits at once, or by one more beside another. -/
def State.countIf (s : State) (level : Nat) (two : Bool) : State := if two then s.countErrors level 1 else s

/-- MEMORY_ERROR (R320, R321): a correctable error is counted when a read repairs it, an uncorrectable one when it arises. -/
def execMemoryError (pa : Nat) (double : Bool) (site : ErrorSite) (s : State) : Out :=
  let w := pa % 2 ^ 48 / 8
  let had := fun (l : List (Nat × Bool)) (n : Nat) => double || l.any (fun e => e.1 == n)
  .next
    (match site with
      | .word => ({ s with badWords := failIn s.badWords w double }).countIf (s.errorLevel pa) (had s.badWords w)
      | .copy core =>
        let copies := (tget s.cores core Core.reset).lines
        let bad := fun (l : Line) => l.num == pa / 32
        (s.failLine core (pa / 32) (pa % 32 / 8) double).countIf 43
          ((copies.find? bad).any (fun l => double || l.bad.getLsbD (pa % 32 / 8)))
      | .way h =>
        match s.wayOf h pa with
        | none => s
        | some way =>
          (s.withCluster h (fun c => { c with badWays := failIn c.badWays (pa / 8) double })).countIf way.bank
            (had (s.cluster h).badWays (pa / 8))
      | .entry i =>
        match s.placeOf pa with
        | .fifo g _ =>
          if i < (s.fifo g).entries.length then
            (s.withFifo g (fun f => { f with bad := failIn f.bad i double })).countIf (g % 32) (had (s.fifo g).bad i)
          else s
        | _ => s)

/-- FABRIC_ATOMIC_REFUSED (R499). -/
def execFabricAtomicRefused (device : Nat) (s : State) : Out := .next (s.emit (.error device))

/-- MAILBOX_UNKNOWN_KIND (R503): discarded, and counted. -/
def execMailboxUnknownKind (record : Record) (s : State) : Out :=
  .next (if 1 ≤ rfield record 0 1 ∧ rfield record 0 1 ≤ 9 then s else s.countErrors 64 1)

/-- STATION_DOWN (R499, R501): the station's index passes to the next live one. -/
def execStationDown (station : Nat) (s : State) : Out :=
  .next (if station < 24 then { s with stationsDown := s.stationsDown ||| BitVec.ofNat 24 (2 ^ station), routeGen := 1 - s.routeGen }
    else s)

/-- One bit of a CRC-32C register, reflected (R493). -/
def crcBit (r : BitVec 32) : BitVec 32 := if r.getLsbD 0 then (r >>> 1) ^^^ 0x82F63B78 else r >>> 1

/-- A byte into a CRC-32C register. -/
def crcByte (r : BitVec 32) (b : Byte) : BitVec 32 :=
  (List.range 8).foldl (fun (r : BitVec 32) _ => crcBit r) (r ^^^ b.zeroExtend 32)

/-- CRC-32C of bytes from an initial register value. -/
def crc32c (init : BitVec 32) (bytes : List Byte) : BitVec 32 := bytes.foldl crcByte init ^^^ BitVec.allOnes 32

/-- Bytes 0 to 263 of a flit (R493). -/
def flitBody (f : Flit) : List Byte := bytesOf f.ack.toNat 2 ++ [f.ctl] ++ bytesOf f.route.toNat 5 ++ bytesOf f.payload.toNat 256

/-- The CRC of a flit that has number n (R494). -/
def flitCrc (f : Flit) (n : Nat) : BitVec 32 := crc32c (BitVec.ofNat 32 n ^^^ BitVec.allOnes 32) (flitBody f)

/-- The link end of a number: twice the compute die, plus 0 for the end toward the next die and 1 for that toward the one before
(R492). -/
def State.link (s : State) (l : Nat) : Link := tget s.links l Link.reset

/-- A link end changed. -/
def State.withLink (s : State) (l : Nat) (f : Link → Link) : State := { s with links := tset s.links l (f (s.link l)) }

/-- The far end of a link. -/
def farEnd (l : Nat) : Nat := if l % 2 = 0 then 2 * ((l / 2 + 1) % 4) + 1 else 2 * ((l / 2 + 3) % 4)

/-- The flits that a sender keeps, less those before number e (R495). -/
def Link.keepFrom (l : Link) (e : Nat) : List Flit := l.unacked.drop (e - (l.sendNext - l.unacked.length))

/-- The number that low 16 bits name among the flits a sender keeps, or the next one. -/
def Link.named (l : Link) (ack : BitVec 16) : Nat :=
  let base := l.sendNext - l.unacked.length
  base + (ack.toNat + 65536 - base % 65536) % 65536

/-- What a flit's ACK says the far end has accepted is kept no longer (R493, R495). -/
def Link.acknowledge (l : Link) (ack : BitVec 16) : Link :=
  let e := l.named ack
  if e ≤ l.sendNext then { l with unacked := l.keepFrom e } else l

/-- FLIT_RECEIVE (R494, R495): accepted when its CRC checks against the expected number; the first flit discarded sends a NAK. -/
def execFlitReceive (link : Nat) (f : Flit) (s : State) : Out :=
  let l := s.link link
  .next
    (if l.down then s
     else if f.crc = flitCrc f l.expected then
      let s1 := s.withLink link (fun l =>
        { l.acknowledge f.ack with
          expected := l.expected + 1
          accepted := if f.ctl.getLsbD 1 then l.accepted else l.accepted ++ [f]
          nakSince := none })
      if f.ctl.getLsbD 0 then s1.send (.nakReceive link f.ack) else s1
     else if l.nakSince = none then
      ((s.withLink link (fun l => { l with nakSince := some s.clock })).emit (.nak link (BitVec.ofNat 16 l.expected))).send
        (.nakRepeat link)
     else s)

/-- NAK_REPEAT (R495): every 2 µs until a flit is accepted. -/
def execNakRepeat (link : Nat) (s : State) : Out :=
  let l := s.link link
  .next
    (match l.nakSince with
      | none => s
      | some t =>
        if l.down then s
        else if s.clock < t + 2000 then s.send (.nakRepeat link)
        else
          ((s.withLink link (fun l => { l with nakSince := some s.clock })).emit (.nak link (BitVec.ofNat 16 l.expected))).send
            (.nakRepeat link))

/-- Flits sent again, in order. -/
def State.resendAll (s : State) (link : Nat) (fs : List Flit) : State := fs.foldl (fun s f => s.emit (.resend link f)) s

/-- NAK_RECEIVE (R495): every flit from the named one onward is sent again; after 8 NAKs for one the link retrains. -/
def execNakReceive (link : Nat) (ack : BitVec 16) (s : State) : Out :=
  let l := s.link link
  let e := l.named ack
  let naks := if l.naks ≠ 0 ∧ l.nakFor = e then l.naks + 1 else 1
  .next
    (if l.down ∨ l.retraining ∨ l.sendNext < e then s
     else
      let s1 := s.withLink link (fun l => { l with unacked := l.keepFrom e, naks := if naks = 8 then 0 else naks, nakFor := e,
                                                   retraining := decide (naks = 8) })
      if naks = 8 then s1.send (.linkRetrainDone link (Config.linkTrains s.turn)) else s1.resendAll link (l.keepFrom e))

/-- The links that are down, each by its even end. -/
def State.linksDown (s : State) : List Nat := (List.range 4).filter (fun d => (s.link (2 * d)).down)

/-- The device reports a failure to the fault queue of every partition (R492; log entry 17). -/
def State.reportAll (s : State) (r : Record) : State :=
  ((s.parts.filter (fun p => p.2.exists_)).map (·.1)).foldl (fun s p => s.faultQueue p r) s

/-- A flit sent the other way round the ring, numbered there (R495). -/
def State.reroute (s : State) (link : Nat) (f : Flit) : State :=
  let l := s.link link
  let g := { f with ack := BitVec.ofNat 16 l.expected }
  let h := { g with crc := flitCrc g l.sendNext }
  (s.withLink link (fun l => { l with sendNext := l.sendNext + 1, unacked := l.unacked ++ [h] })).emit (.resend link h)

/-- A die link sends a flit, idle when it has no payload: numbered, with what its end has accepted and its CRC, and kept until it is acknowledged;
at 256 unacknowledged flits it stalls (R493 to R495).  What it sends for a link that is down goes the other way round the ring (R492, R495).  (DESIGN
CHOICE, log entry 17.) -/
def State.sendFlit (s : State) : State :=
  match (Config.linkSends s.turn).map (· % 8) with
  | none => s
  | some link =>
    let l := s.link link
    let p := Config.linkPayload s.turn
    let f : Flit :=
      { ack := BitVec.ofNat 16 l.expected, ctl := p.elim 2 (fun q => BitVec.ofNat 8 (q.1.toNat * 4)), route := p.elim 0 (·.2.1),
        payload := p.elim 0 (·.2.2), crc := 0 }
    let g := { f with crc := flitCrc f l.sendNext }
    if l.down then (if p.isSome ∧ !(s.link (Nat.xor link 1)).down then s.reroute (Nat.xor link 1) f else s)
    else if l.retraining ∨ 256 ≤ l.unacked.length then s
    else
      (s.withLink link (fun l => { l with sendNext := l.sendNext + 1, unacked := l.unacked ++ [g] })).emit (.flit link g)

/-- A link end's flits leave the other way: those that the far end has not accepted, as the two ends' counts say (R495). -/
def State.abandon (s : State) (link : Nat) : State :=
  let l := s.link link
  let rest := l.keepFrom (s.link (farEnd link)).expected
  let s1 := s.withLink link (fun l => { l with down := true, retraining := false, unacked := [], nakSince := none })
  rest.foldl (fun s f => s.reroute (Nat.xor link 1) f) s1

/-- A link is down (R492, R495); with a second one the device reports it. -/
def State.linkDown (s : State) (link : Nat) : State :=
  let s1 := (s.abandon link).abandon (farEnd link)
  if 2 ≤ s1.linksDown.length ∧ s.linksDown.length < s1.linksDown.length then s1.reportAll Config.linkReport else s1

/-- LINK_RETRAIN_DONE (R495): the sender goes on from the first flit not accepted; the third failure in a row ends the link. -/
def execLinkRetrainDone (link : Nat) (ok : Bool) (s : State) : Out :=
  let l := s.link link
  .next
    (if !l.retraining then s
     else if ok then
      (s.withLink link (fun l => { l with retraining := false, failures := 0 })).resendAll link l.unacked
     else if l.failures + 1 = 3 then (s.withLink link (fun l => { l with failures := 3 })).linkDown link
     else (s.withLink link (fun l => { l with failures := l.failures + 1 })).send (.linkRetrainDone link (Config.linkTrains s.turn)))

/-- The partition that holds the job's device table: the first with a count (R509). -/
def State.jobPart (s : State) : Option (Nat × Partition) := s.parts.find? (fun p => p.2.exists_ && p.2.jobCount != 0)

/-- The job's time master (R521). -/
def State.timeMaster (s : State) : Option Nat := s.jobPart.map (fun p => tget p.2.jobTable 0 0)

/-- The record of a clock out of bound (R523, R531). -/
def clockRecord (err : Nat) : Record := BitVec.ofNat 512 (17 + 2 * 2 ^ 8 + 2 * 2 ^ 24 + err * 2 ^ 480)

/-- BAD becomes set: every partition learns of it (R523).  (DEDUCED, log entry 57.) -/
def State.clockBad (s : State) (err : Nat) : State :=
  if s.sync.bad then s else { s with sync := { s.sync with bad := true } }.reportAll (clockRecord err)

/-- An exchange gives an error estimate and an offset (R521, R522).  (DEDUCED, log entry 57.) -/
def State.exchange (s : State) (master err : Nat) (offset : Int) : State :=
  let half := (s.jobPart.map (fun p => p.2.eclk.toNat / 2)).getD 0
  let shown := Nat.min err 65535
  let jump := !s.sync.begun && !s.sync.launched
  let s1 := s.markSafe
  let clock := if jump then (s1.clock + offset).toNat else s1.clock
  let s2 := { s1 with
    clock := clock
    sync := { s1.sync with
      sync := decide (err ≤ half), master := BitVec.ofNat 10 master, err := BitVec.ofNat 16 shown, exchanged := clock,
      readAt := none, begun := true, offset := if jump then 0 else offset } }
  if half < err then s2.clockBad shown else s2

/-- CLOCK_SYNC_READ (R521): every 125 µs; the time master's own offset is 0. -/
def execClockSyncRead (s : State) : Out :=
  .next
    (if s.clock < s.sync.due ∨ !s.firmware.started then s.send .clockSyncRead
     else
      let s1 := { s with sync := { s.sync with due := s.clock + 125000 } }.send .clockSyncRead
      match s.timeMaster with
      | none => s1
      | some m =>
        if m = s.dev.toNat then s1.exchange m 5 0
        else
          let s2 := { s1 with sync := { s1.sync with readAt := some s.clock } }.emit (.read m mailboxWindow 8)
          if Config.farAnswers s.turn then s2.send (.clockSyncReply (Config.farReply s.turn).toNat) else s2)

/-- CLOCK_SYNC_REPLY (R521): the offset and the error estimate of an exchange. -/
def execClockSyncReply (t2 : Nat) (s : State) : Out :=
  .next
    (match s.sync.readAt, s.timeMaster with
      | some t1, some m => s.exchange m ((s.clock - t1) / 2 + 5) ((t2 : Int) - ((t1 + s.clock) / 2 : Nat))
      | _, _ => s)

/-- CLOCK_SYNC_STALE (R522): no exchange has completed for 1 ms. -/
def execClockSyncStale (s : State) : Out :=
  .next ((if s.sync.exchanged + 1000000 ≤ s.clock then s.clockBad s.sync.err.toNat else s).send .clockSyncStale)

/-- The clock advances, slewed by at most 1 ns in any 10 µs toward the time master's (R521). -/
def State.tick (s : State) (ns : Nat) : State :=
  let s1 := { s with clock := s.clock + ns }
  if s.sync.offset = 0 ∨ s1.clock < s.sync.slewed + 10000 then s1
  else if 0 < s.sync.offset then
    { s1 with clock := s1.clock + 1, sync := { s1.sync with slewed := s1.clock, offset := s1.sync.offset - 1 } }
  else if ns = 0 then s1
  else { s1.markSafe with clock := s1.clock - 1, sync := { s1.sync with slewed := s1.clock, offset := s1.sync.offset + 1 } }

end Sys2Proof.Machine
end

