-- ==== Sys2Proof/Machine/Follow.lean ====
section
/-!
DEFINITION. Follow groups (spec/08 R223 to R228, spec/10 R272 to R275).
-/

namespace Sys2Proof.Machine

/-- Whether two contexts run tasks of one reaction. -/
def Ctx.sameReaction (a b : Ctx) : Bool := a.part == b.part && a.actor == b.actor

/-- Whether a context leads, or waits in LEAD. -/
def Ctx.leads (c : Ctx) : Bool := c.role == 1 || match c.run with | .waiting (.lead _ _ _ _) => true | _ => false

/-- The context of a core that leads or waits in LEAD. -/
def State.leadOn (s : State) (core : Nat) : Option Ctx := (s.cx :: s.others).find? (fun c => coreOf c.key == core && c.leads)

/-- MEMBERS of a group (R224). -/
def membersOf (keys : List Nat) : BitVec 16 := BitVec.ofNat 16 ((keys.map (fun k => coreOf k % 16)).dedup.map (2 ^ ·)).sum

/-- A context becomes a member of a group: its LEAD or FOLLOW completes with status 0. -/
def Ctx.joinGroup (c : Ctx) (d : Reg) (role : BitVec 2) (leader : Nat) (members : BitVec 16) : Ctx :=
  ({ c with role := role, leader := BitVec.ofNat 4 (coreOf leader % 16), members := members }.writeX d 0).retire 4

/-- The group of a LEAD is complete (R223, R272): every member's next instruction is the one after the LEAD. -/
def State.formGroup (s : State) (leader : Nat) (d : Reg) (joined : List Nat) : State :=
  let m := membersOf (leader :: joined)
  let s1 := s.withCtx leader (fun c => c.joinGroup d 1 leader m)
  let pc := (s1.ctxAt leader).elim 0 (·.pc)
  joined.foldl (fun s k => s.withCtx k (fun c =>
    match c.run with
    | .waiting (.follow _ _ d _) => { c.joinGroup d 2 leader m with pc := pc }
    | _ => c)) s1

/-- A LEAD accepts a follower. -/
def State.seat (s : State) (leader follower : Nat) : State :=
  let s1 := s.withCtx follower (fun c =>
    match c.run with
    | .waiting (.follow l limit d _) => { c with run := .waiting (.follow l limit d true) }
    | _ => c)
  match ((s.ctxAt leader).map Ctx.run).getD .idle with
  | .waiting (.lead n _ d joined) =>
    let all := joined ++ [follower]
    if all.length = n then s1.formGroup leader d all
    else s1.withCtx leader (fun c =>
      match c.run with
      | .waiting (.lead n limit d _) => { c with run := .waiting (.lead n limit d all) }
      | _ => c)
  | _ => s

/-- A LEAD whose limit has passed ends with status 2; the followers that joined are released with status 3 (R272, R273). -/
def State.endLead (s : State) (c : Ctx) : State :=
  match c.run with
  | .waiting (.lead _ _ d joined) => (s.releaseFollowers joined).withCtx c.key (fun c => (c.writeX d 2).retire 4)
  | _ => s

/-- A context in LEAD tests its limit (R272).  (DEDUCED, log entry 40.) -/
def State.testLead (s : State) : State :=
  match s.cx.run with
  | .waiting (.lead _ limit _ _) => if limit ≠ 0 ∧ limit.toNat ≤ s.clock then s.endLead s.cx else s
  | _ => s

/-- A context in FOLLOW that no LEAD accepts now: status 3 once its limit is reached (R273). -/
def State.keepFollowing (s : State) (limit : Word) (d : Reg) : State :=
  if limit ≠ 0 ∧ limit.toNat ≤ s.clock then s.withCx (fun c => (c.writeX d 3).retire 4) else s

/-- A context in FOLLOW tests it (R273): a LEAD whose own limit has passed ends and accepts nobody, and one that finds the FOLLOW's limit
reached does not accept it (DEDUCED, log entry 40); 2 goes before 3 (DESIGN CHOICE, log entry 74). -/
def State.testFollow (s : State) : State :=
  match s.cx.run with
  | .waiting (.follow core limit d false) =>
    let refused := s.withCx (fun c => (c.writeX d 2).retire 4)
    match s.leadOn (16 * clusterOf s.cx.key + core) with
    | none => s.keepFollowing limit d
    | some l =>
      match l.run with
      | .waiting (.lead n until_ _ joined) =>
        if until_ ≠ 0 ∧ until_.toNat < s.clock then (s.endLead l).keepFollowing limit d
        else if !l.sameReaction s.cx ∨ n ≤ joined.length then refused
        else if (limit ≠ 0 ∧ limit.toNat ≤ s.clock) ∨ joined.any (fun k => coreOf k == coreOf s.cx.key) then s.keepFollowing limit d
        else s.seat l.key s.cx.key
      | _ => refused
  | _ => s

/-- The contexts of a cluster that wait in FOLLOW. -/
def State.waitingFollowers (s : State) (cluster : Nat) : List Nat :=
  (s.others.filter (fun c => clusterOf c.key == cluster &&
    match c.run with | .waiting (.follow _ _ _ false) => true | _ => false)).map (·.key)

/-- LEAD (R272). -/
def execLead (d a b : Reg) (s : State) : Out :=
  .next (s.gate 0 ⟨[d], [], []⟩
    (if s.cx.role ≠ 0 ∨ s.x a = 0 ∨ 15 < (s.x a).toNat then s.illegalOperand
     else if s.others.any (fun c => coreOf c.key == coreOf s.cx.key && c.leads) then
       s.withCx (fun c => (c.writeX d 3).retire 4)
     else
      let s1 := s.withCx (fun c => { c with run := .waiting (.lead (s.x a).toNat (s.x b) d []) })
      ((s1.waitingFollowers (clusterOf s.cx.key)).foldl (fun s k => s.onCtx k State.testFollow) s1).testLead))

/-- FOLLOW (R273). -/
def execFollow (d a b : Reg) (s : State) : Out :=
  .next (s.gate 0 ⟨[d], [], []⟩
    (if s.cx.role ≠ 0 ∨ 16 ≤ (s.x a).toNat then s.illegalOperand
     else if (s.x a).toNat = coreOf s.cx.key % 16 then s.withCx (fun c => (c.writeX d 1).retire 4)
     else (s.withCx (fun c => { c with run := .waiting (.follow (s.x a).toNat (s.x b) d false) })).testFollow))

/-- LEAD_TIMEOUT (R272): a context in LEAD tests its limit. -/
def execLeadTimeout (ctx : Nat) (s : State) : Out := .next (s.onCtx ctx State.testLead)

/-- FOLLOW_TIMEOUT (R273): a context in FOLLOW tests for its leader and its limit. -/
def execFollowTimeout (ctx : Nat) (s : State) : Out := .next (s.onCtx ctx State.testFollow)

/-- DETACH (R227, R274): by a leader, every member leaves and goes on after it. -/
def execDetach (s : State) : Out :=
  .next
    (let s1 := if s.cx.role = 1 then (s.followers s.cx).foldl (fun s k => s.withCtx k (fun c => c.retire 4)) s else s
     (s1.leaveGroup s1.cx).withCx (fun c => c.retire 4))

/-- The leader of a follower. -/
def State.leaderOf (s : State) (c : Ctx) : Option Ctx :=
  s.others.find? (fun l => clusterOf l.key == clusterOf c.key && l.role == 1 && coreOf l.key % 16 == c.leader.toNat &&
    l.sameReaction c)

/-- BRI (R226, R275): a follower whose outcome differs from its leader's leaves the group first. -/
def execBri (a b : Reg) (off : BitVec 12) (s : State) : Out :=
  let taken := s.x a != s.x b
  let parts := s.cx.role == 2 && (s.leaderOf s.cx).any (fun l => (l.readX a != l.readX b) != taken)
  .next ((if parts then s.leaveGroup s.cx else s).branch taken (sext off) 4)

/-- A member of a group whose leader's stream ends ends its own task (R214, R227). -/
def State.endOwn (s : State) : State := s.closing (fun s => s.ending (if s.cx.root then 2 else domainScope s.cx.domain))

/-- Whether a group may issue its next instruction (R225): every follower has executed the last one and waits for nothing. -/
def State.groupReady (s : State) : Bool :=
  (s.followers s.cx).all (fun k => (s.ctxAt k).any (fun c => c.run == .running && c.pc == s.cx.pc && !c.blocked && !c.earlierOpen))

/-- What a follower's context keeps of a forwarded word (R225): the word while it stalls, else the leader's path. -/
def Ctx.forward (c : Ctx) (word : BitVec 32) (pc : Option Word) : Ctx :=
  match c.run with
  | .waiting .retry => { c with forwarded := some word }
  | .waiting .keeping => { c with forwarded := some word }
  | .running => { c with forwarded := none, pc := pc.getD c.pc }
  | _ => { c with forwarded := none }

/-- A follower executes the leader's instruction from its own registers, and takes the leader's path once the leader has it (R225,
R226); a trap that is due for it comes first, and takes it out of the group (R227).  One that stalls issues the forwarded word
later. -/
def State.followOne (run : State → Out) (trap : State → Option State) (word : BitVec 32) (pc : Option Word) (s : State) (k : Nat) :
    State :=
  let f := s.focus k
  match trap f with
  | some s1 => s1.focus s.cx.key
  | none =>
    match run f with
    | .next s1 =>
      let s2 := if s1.cx.key = k ∧ s1.cx.role = 2 then s1.withCx (fun c => c.forward word pc) else s1
      s2.focus s.cx.key
    | _ => s

/-- An instruction executed by a leader and then by each follower (R225 to R227), unless the leader stalls and tries it again; BRI is
evaluated by the followers first, since each compares its outcome with the leader's.  ends: REND or EXIT that ends the leader's own
task. -/
def State.groupRun (s : State) (bri ends : Bool) (word : BitVec 32) (trap : State → Option State) (run : State → Out) : Out :=
  let ks := s.followers s.cx
  if s.cx.role ≠ 1 then run s
  else if ends then
    let s1 := ks.foldl (fun s k => s.onCtx k State.endOwn) s
    if (s1.followers s1.cx).isEmpty then run s1 else .next s1.stall
  else if bri then
    match run (ks.foldl (fun s k => State.followOne run trap word none s k) s) with
    | .next s1 => .next ((s1.followers s1.cx).foldl (fun s k => s.withCtx k (fun c => { c with pc := s1.cx.pc })) s1)
    | o => o
  else
    match run s with
    | .next s1 =>
      if s1.cx.key = s.cx.key ∧ s1.cx.role = 1 ∧ !triedAgain s1.cx.run then
        .next (ks.foldl (fun s k => State.followOne run trap word (if s1.cx.run = .running then some s1.cx.pc else none) s k) s1)
      else .next s1
    | o => o

end Sys2Proof.Machine
end

