-- ==== Sys2Proof/Machine/FrontEnd.lean ====
section
/-!
DEFINITION. The front end (spec/09_scheduling.md): writes of the host to queue records and configuration (R237 to R240), packets and
their issue (R241 to R247), phase cleaning (R248), gangs (R254 to R259), and the host's aperture (spec/19 R509, R510).
-/

namespace Sys2Proof.Machine

/-- LAUNCH_CONFIG_WRITE (R237, R238). -/
def execLaunchConfigWrite (part : Nat) (value : Record) (s : State) : Out := .next ((s.configure part value).getD s)

/-- QUEUE_ENABLE (R239, R260). -/
def execQueueEnable (q : Nat) (s : State) : Out := .next (s.queueEnable q)

/-- QUEUE_DISABLE (R239). -/
def execQueueDisable (q : Nat) (s : State) : Out := .next (if (s.queue q).enable then s.queueDisable q else s)

/-- QUEUE_CLEAR (R244). -/
def execQueueClear (q : Nat) (s : State) : Out := .next (s.queueClear q)

/-- PROD_WRITE (R240). -/
def execProdWrite (q : Nat) (prod : Word) (s : State) : Out := .next (s.prodWrite q prod)

/-- REGISTER_WRITE (R4, R239, R497, R509). -/
def execRegisterWrite (target : RegTarget) (value : Word) (s : State) : Out :=
  .next
    (match target with
      | .queue q f => s.queueFieldWrite q f value.toNat
      | .notify part => s.withPart part (fun p => { p with fqNotify := value })
      | .jobCount part => (s.setJobCount part value.toNat).getD s
      | .jobEntry part index =>
        if index < 1024 then s.withPart part (fun p => { p with jobTable := tset p.jobTable index (value.toNat % 65536) }) else s
      | .routing => { s with routeGen := value.toNat % 2 }
      | .sysreg ctx sel => s.onCtx ctx (fun s => s.writeSys sel value 1))

/-- FAULT_QUEUE_HEAD_WRITE (R509). -/
def execFaultQueueHeadWrite (part : Nat) (head : Word) (s : State) : Out := .next ((s.advanceHead part head).getD s)

/-- Whether a target on this device grants a host's or the front end's access to a page (R315). -/
def State.pageGrants (s : State) (part cls right pa : Nat) : Bool :=
  match s.placeOf pa with
  | .hbm dev off => dev == s.dev.toNat && s.grantsHbm ((s.partition part).homeOf off) part cls right pa
  | .scratchpad g _ => s.grantsWindow (g / 32) part cls right
  | _ => false

/-- A host access that fails. -/
def State.hostFails (s : State) : State := s.emit (.reply 1 [])

/-- A host access to another device's memory (R315, R504, R510). -/
def State.hostFar (s : State) (part pa : Nat) (data : Option Word) : State :=
  if !s.grantsFabric part 6 (if data.isSome then rightWrite else rightRead) pa || !Config.farAnswers s.turn then s.hostFails
  else
    match data with
    | some v =>
      let cells := cellsOf pa (bytesOf v.toNat 8)
      ((s.emit (.write (deviceOf pa) cells)).farAccept cells).emit (.reply 0 [])
    | none => (s.emit (.read (deviceOf pa) pa 8)).emit (.hostRead (BitVec.ofNat 64 (ofBytes (s.farPeek pa 8))))

/-- HOST_APERTURE_ACCESS (R510): translated with level-1 rights, checked as class 6; a write is acknowledged once its home has
accepted it. -/
def execHostApertureAccess (part : Nat) (va : Word) (data : Option Word) (s : State) : Out :=
  .next
    (match s.walk part va.toNat with
      | none => s.hostFails
      | some l =>
        let pa := l.addr va.toNat
        if va.toNat % 8 ≠ 0 ∨ l.check 1 data.isSome ≠ 0 then s.hostFails
        else if s.placeBusy pa then s.send (.hostApertureAccess part va data)
        else if deviceOf pa ≠ s.dev.toNat then s.hostFar part pa data
        else if !s.pageGrants part 6 (if data.isSome then rightWrite else rightRead) pa then s.hostFails
        else
          match data with
          | some v => (s.acceptAt part pa (cellsOf pa (bytesOf v.toNat 8))).emit (.reply 0 [])
          | none => if s.spoiledFor part pa 8 then s.hostFails else (s.touchHome part pa 8).emit (.hostRead (s.wordAt pa)))

/-- A launch packet by its fields (R241). -/
structure Packet where
  handler : Word
  target : Word
  payload : Word
  tag : Tag
  pctl : Byte
  phase : Byte
  gsize : Nat
  gidx : Nat
  deadline : Word
  ctr : Word
  runMax : Nat
  seq : Nat
deriving DecidableEq, Repr

/-- The packet in a record of 64 bytes (R241). -/
def Packet.of (r : Record) : Packet where
  handler := BitVec.ofNat 64 (rfield r 0 8)
  target := BitVec.ofNat 64 (rfield r 8 8)
  payload := BitVec.ofNat 64 (rfield r 16 8)
  tag := ⟨BitVec.ofNat 64 (rfield r 24 8), BitVec.ofNat 32 (rfield r 32 4)⟩
  pctl := BitVec.ofNat 8 (rfield r 36 1)
  phase := BitVec.ofNat 8 (rfield r 37 1)
  gsize := rfield r 38 1
  gidx := rfield r 39 1
  deadline := BitVec.ofNat 64 (rfield r 40 8)
  ctr := BitVec.ofNat 64 (rfield r 48 8)
  runMax := rfield r 56 4
  seq := rfield r 60 4

/-- PCTL's BARRIER. -/
def Packet.barrier (p : Packet) : Bool := p.pctl.getLsbD 0

/-- PCTL's GANG. -/
def Packet.gang (p : Packet) : Bool := p.pctl.getLsbD 1

/-- PCTL's CLASS. -/
def Packet.cls (p : Packet) : BitVec 2 := BitVec.ofNat 2 (field p.pctl 2 2)

/-- PCTL's GUNIT. -/
def Packet.clusters (p : Packet) : Bool := p.pctl.getLsbD 4

/-- n bytes that the front end reads at a virtual address of a partition, as class 5 at level 1. -/
def State.frontRead (s : State) (part va n : Nat) : Option (List Byte) :=
  match s.walk part va with
  | none => none
  | some l =>
    let pa := l.addr va
    if l.check 1 false = 0 ∧ s.pageGrants part 5 rightRead pa ∧ !s.spoiledFor part pa n then some (s.peek pa n) else none

/-- The packet at a position of a queue's ring (R240).  (DESIGN CHOICE, log entry 50.) -/
def State.packetAt (s : State) (q : Queue) (pos : Nat) : Option Packet :=
  (s.frontRead q.part (q.ring.toNat + 64 * (pos % 2 ^ q.logslots)) 64).map (fun b => Packet.of (BitVec.ofNat 512 (ofBytes b)))

/-- The packets from a position on, n of them.  (DESIGN CHOICE, log entry 50.) -/
def State.packetsAt (s : State) (q : Queue) (pos : Nat) : Nat → Option (List Packet)
  | 0 => some []
  | n + 1 =>
    match s.packetAt q pos, s.packetsAt q (pos + 1) n with
    | some p, some r => some (p :: r)
    | _, _ => none

/-- Whether an address translates for a partition and the home slice that serves its page grants class 5 a right (R243); a page of
another device is served by a slice there. -/
def State.frontGrants (s : State) (part : Nat) (va : Word) (right : Nat) : Bool :=
  match s.walk part va.toNat with
  | none => false
  | some l =>
    let pa := l.addr va.toNat
    match s.placeOf pa with
    | .hbm dev off =>
      dev != s.dev.toNat ||
        (((s.partition part).homeOf off).any (fun h => s.targetGrants (.homeSlice h) part 5 right off))
    | .scratchpad g _ => s.grantsWindow (g / 32) part 5 right
    | .farWindow _ => true
    | _ => false

/-- A zero field or bit of a packet that is not zero (R243, error 2). -/
def Packet.notZero (p : Packet) : Bool := field p.pctl 5 3 != 0 || (!p.gang && (p.gsize != 0 || p.gidx != 0))

/-- The logical cores of a queue's gang region (R254). -/
def Queue.region (q : Queue) : List Nat := (List.range q.gcount.toNat).map (q.gbase.toNat + ·)

/-- The units of a gang region: logical cores, or logical clusters (R254). -/
def Queue.units (q : Queue) (clusters : Bool) : List Nat := if clusters then (q.region.map (· / 16)).dedup else q.region

/-- Whether some packets are the members of a gang (R242). -/
def gangLegal (l : List Packet) : Bool :=
  match l with
  | [] => false
  | h :: r =>
    decide (2 ≤ h.gsize) && decide (h.gsize ≤ 64) && l.length == h.gsize && (l.zipIdx).all (fun e => e.1.gang && e.1.gidx == e.2) &&
      r.all (fun p => p.gsize == h.gsize && p.clusters == h.clusters && p.cls == h.cls && p.phase == h.phase && !p.barrier) &&
      (l.map (fun p => actorAddr p.target)).dedup.length == l.length

/-- The error of the packets that the head of a queue would issue together, 0 for none (R243). -/
def State.packetError (s : State) (q : Queue) (pos : Nat) (l : List Packet) : Nat :=
  let gang := l.any Packet.gang
  let units := match l with | h :: _ => (q.units h.clusters).length | [] => 0
  if (l.zipIdx).any (fun e => e.1.seq != (pos + e.2) % 2 ^ 32) then 1
  else if l.any Packet.notZero then 2
  else if l.any (fun p => decide (q.classmax.toNat < p.cls.toNat)) then 3
  else if gang && (!gangLegal l || decide (units < l.length) || q.gcount == 0) then 4
  else if l.any (fun p => !s.frontGrants q.part p.target rightRead || (p.ctr != 0 && !s.frontGrants q.part p.ctr rightAtomic)) then 5
  else 0

/-- A packet's deadline (R241). -/
def Packet.absolute (p : Packet) (dlrel : Nat) : Word :=
  if p.deadline ≠ 0 then p.deadline
  else if dlrel = 0 then BitVec.allOnes 64
  else BitVec.ofNat 64 (Nat.min (2 ^ 64 - 1) (p.tag.time.toNat + dlrel))

/-- The event of a packet (R37, R199, R200, R241). -/
def State.packetEvent (s : State) (n : Nat) (q : Queue) (pos : Nat) (p : Packet) (gang : Option Member) : Event where
  part := q.part
  tag := p.tag
  target := p.target
  handler := p.handler
  payload := p.payload
  deadline := p.absolute q.dlrel.toNat
  cls := p.cls
  key := ⟨0, n, pos⟩
  sender := BitVec.ofNat 32 (2 ^ 31 + s.dev.toNat * 2 ^ 16 + n % 4096)
  queue := n
  packet := some pos
  ctr := p.ctr
  runMax := p.runMax
  gang := gang
  waiter := 0
  claim := none

/-- The device of a packet's target, when it translates. -/
def State.targetDevice (s : State) (part : Nat) (va : Word) : Nat :=
  ((s.walk part va.toNat).map (fun l => l.addr va.toNat / 2 ^ 48 % 1024)).getD s.dev.toNat

/-- A packet's event is delivered to its actor's home: the status is that of its arrival, here or on another device (R245). -/
def State.deliverEvent (s : State) (e : Event) : State × Nat :=
  let dev := s.targetDevice e.part e.target
  if dev = s.dev.toNat then s.arrive e (s.homeCore e.part (actorAddr e.target))
  else
    let status := (Config.farReply s.turn).toNat % 3
    let s1 := s.emit (.event dev e)
    (if status = 0 ∧ e.packet.isSome then s1.withQueue e.queue (fun q => { q with away := q.away + 1 }) else s1, status)

/-- A packet whose reaction ran on another device completes, when that device says so (R246; DESIGN CHOICE, log entry 5). -/
def State.awayDone (s : State) : State :=
  match (Config.farCompletes s.turn).filter (fun n => decide (0 < (s.queue n).away)) with
  | none => s
  | some n => s.withQueue n (fun q => { q.completeOne with away := q.away - 1 })

/-- Events delivered one after another; none when one of them is not accepted. -/
def State.deliverAll (s : State) : List Event → Option State
  | [] => some s
  | e :: es =>
    let r := s.deliverEvent e
    if r.2 = 0 then r.1.deliverAll es else none

/-- The idle unreserved contexts of a logical core, lowest first (R254). -/
def State.freeContexts (s : State) (part l : Nat) : List Nat :=
  match (s.partition part).physicalCore l with
  | none => []
  | some core =>
    if s.retiring.contains (core / 16) then []
    else ((List.range 4).map (4 * core + ·)).filter (fun k => s.idleAt k && !s.gangReserved.contains k && (s.hintOf k).isNone)

/-- The contexts that a unit offers: of a core, or of the lowest core of a cluster in the region that has one (R255). -/
def State.unitContexts (s : State) (q : Queue) (clusters : Bool) (u : Nat) : List Nat :=
  if clusters then (q.region.filter (fun l => l / 16 == u)).flatMap (s.freeContexts q.part) else s.freeContexts q.part u

/-- An element put before the first one that it may not follow. -/
def insertBy {α : Type} (le : α → α → Bool) (a : α) : List α → List α
  | [] => [a]
  | b :: r => if le a b then a :: b :: r else b :: insertBy le a r

/-- A list sorted; equal elements keep their order. -/
def sortBy {α : Type} (le : α → α → Bool) (l : List α) : List α := l.foldr (insertBy le) []

/-- A list put in the order of R255: the most idle contexts first, then the lowest number. -/
def rankUnits (l : List (Nat × List Nat)) : List (Nat × List Nat) :=
  sortBy (fun a b => decide (b.2.length < a.2.length) || (a.2.length == b.2.length && decide (a.1 ≤ b.1))) l

/-- The units of a region that offer a context, ranked, but for some of them. -/
def State.openUnits (s : State) (q : Queue) (clusters : Bool) (without : List Nat) : List (Nat × List Nat) :=
  rankUnits ((((q.units clusters).filter (fun u => !without.contains u)).map (fun u => (u, s.unitContexts q clusters u))).filter
    (fun u => !u.2.isEmpty))

/-- The place of a logical cluster in the mesh of its die, with the die. -/
def State.clusterPlace (s : State) (part l : Nat) : Option (Nat × Nat × Nat) :=
  ((s.partition part).clusters[l]?).map (fun c => (dieOf c, Config.meshPlace (s.routed c)))

/-- Whether some logical clusters lie within one 2 by 2 square of one die (R254). -/
def State.withinSquare (s : State) (part : Nat) (l : List Nat) : Bool :=
  let ps := l.map (s.clusterPlace part)
  ps.all (fun a => ps.all (fun b =>
    match a, b with
    | some (d, x, y), some (d', x', y') => d == d' && decide (x ≤ x' + 1) && decide (x' ≤ x + 1) && decide (y ≤ y' + 1) && decide (y' ≤ y + 1)
    | _, _ => false))

/-- Whether a gang's units must form a square (R254). -/
def Gang.square (g : Gang) : Bool := g.clusters && g.size == 4

/-- The first n units of a ranked list that may stand together, as far as there are any. -/
def pickUnits (fits : List Nat → Bool) : Nat → List Nat → List (Nat × List Nat) → Option (List (Nat × Nat))
  | 0, _, _ => some []
  | _ + 1, _, [] => none
  | n + 1, taken, u :: us =>
    let here :=
      if fits (taken ++ [u.1]) then
        (pickUnits fits n (taken ++ [u.1]) us).bind (fun r => (u.2.head?).map (fun k => (u.1, k) :: r))
      else none
    match here with
    | some r => some r
    | none => pickUnits fits (n + 1) taken us

/-- The queued event of a member of a gang. -/
def State.memberEvent (s : State) (n : Nat) (g : Gang) (i : Nat) : Option Queued :=
  s.events.find? (fun q => q.event.queue == n && q.event.packet == some (g.pos + i) && !q.late)

/-- The units that a gang may take, ranked (R255): of their contexts those on which every member may start past the blocked gangs of other queues
(R257).  (DEDUCED, log entry 51.) -/
def State.unitsFor (s : State) (n : Nat) (q : Queue) (g : Gang) : List (Nat × List Nat) :=
  let members := (List.range g.size).filterMap (s.memberEvent n g)
  let may := fun (k : Nat) => members.all (fun m => s.mayBackfill m.event (coreOf k))
  ((s.openUnits q g.clusters []).map (fun u => (u.1, u.2.filter may))).filter (fun u => !u.2.isEmpty)

/-- The contexts on which a gang fits, in member order: its reserved ones once it has aged, else those that R255 chooses.  (DEDUCED, log entry 51.) -/
def State.gangUnits (s : State) (n : Nat) (q : Queue) (g : Gang) : Option (List Nat) :=
  if g.aged then (if g.reserved.length = g.size then some g.reserved else none)
  else
    (pickUnits (fun l => !g.square || s.withinSquare q.part l) g.size [] (s.unitsFor n q g)).map (fun l => l.map (·.2))

/-- Whether a member's event is the safe first event of an actor that no reaction is running (R254), with no late event before it (R211). -/
def State.memberReady (s : State) (n : Nat) (g : Gang) (i : Nat) : Bool :=
  match s.memberEvent n g i with
  | none => false
  | some q =>
    let actor := actorAddr q.event.target
    !(s.actorOf q.event.part actor).running && s.isSafe q && (s.lateEvents q.event.part actor).isEmpty && (s.firstEvent q.event.part actor).any (fun f => f.event == q.event)

/-- A member starts on its unit: its actor moves there first (R197, R254); none when the queue there and the spill area have no room for the
actor's events (R202). -/
def State.placeMember (s : State) (n : Nat) (g : Gang) (i key : Nat) : Option State :=
  match s.memberEvent n g i with
  | none => none
  | some q =>
    let part := q.event.part
    let actor := actorAddr q.event.target
    (s.moveActor part actor (coreOf key)).bind (fun s1 =>
      (s1.events.find? (fun e => e.event == q.event)).map (fun e =>
        (s1.withActor part actor (fun a => { a with gang := some (n, g.pos) })).startReaction e key))

/-- The members of a gang start on their units, in member order. -/
def State.placeMembers (s : State) (n : Nat) (g : Gang) : List (Nat × Nat) → Option State
  | [] => some s
  | (key, i) :: r => (s.placeMember n g i key).bind (fun s1 => s1.placeMembers n g r)

/-- A gang is placed all or nothing, when it fits (R254, R259); its queue then issues again. -/
def State.placeGang (s : State) (n : Nat) : Option State :=
  let q := s.queue n
  match q.gang with
  | none => none
  | some g =>
    if !(List.range g.size).all (s.memberReady n g) then none
    else
      match s.gangUnits n q g with
      | none => none
      | some keys =>
        if g.square ∧ !s.withinSquare q.part (keys.map (fun k => ((s.partition q.part).logical (k / 64)).getD 0)) then none
        else
          let s1 := s.withQueue n (fun q => { q with gang := none })
          (s1.placeMembers n g keys.zipIdx).map (fun s2 => s2.send (.packetIssue n))

/-- GANG_PLACE (R254, R259). -/
def execGangPlace (q : Nat) (s : State) : Out :=
  .next (match (s.queue q).gang with
    | none => s
    | some _ => (s.placeGang q).getD (s.send (.gangPlace q)))

/-- Every gang that fits is placed, aged ones first (R250, R259). -/
def State.placeFitting (s : State) (order : List Nat) : State := order.foldl (fun s n => (s.placeGang n).getD s) s

/-- The unit of a context in a gang. -/
def State.unitOf (s : State) (part : Nat) (clusters : Bool) (key : Nat) : Nat :=
  let l := (s.partition part).logicalCore (coreOf key)
  if clusters then l / 16 else l

/-- An aged gang reserves contexts on further units of its region, in the order of R255, until it holds all it needs (R259); those of
a square are chosen within one square.  (DEDUCED, log entry 51.) -/
def State.reserveFor (s : State) (n : Nat) : Nat → State
  | 0 => s
  | fuel + 1 =>
    let q := s.queue n
    match q.gang with
    | none => s
    | some g =>
      if !g.aged ∨ g.size ≤ g.reserved.length then s
      else
        let held := g.reserved.map (s.unitOf q.part g.clusters)
        match (s.openUnits q g.clusters held).find? (fun u => !g.square || s.withinSquare q.part (held ++ [u.1])) with
        | none => s
        | some u =>
          (s.withQueue n (fun q => { q with gang := some { g with reserved := g.reserved ++ u.2.take 1 } })).reserveFor n fuel

/-- The gangs that have aged, by ageing time, then by queue number (R259). -/
def State.agedGangs (s : State) : List Nat :=
  let l := s.queues.filterMap (fun e => e.2.gang.bind (fun g => if g.aged then some (g.since + e.2.age.toNat, e.1) else none))
  (sortBy (fun a b => decide (a.1 < b.1) || (a.1 == b.1 && decide (a.2 ≤ b.2))) l).map (·.2)

/-- An idle context asks for work: gangs that fit are placed first (R250), and it may then not be idle any more. -/
def State.ask (s : State) (key : Nat) : State :=
  let s1 := s.placeFitting (s.agedGangs ++ s.queues.map (·.1))
  if s1.idleAt key then s1.takeWork key else s1

/-- DISPATCH_PICK (R221, R249, R250): an idle context asks for work. -/
def execDispatchPick (ctx : Nat) (s : State) : Out := .next (if s.idleAt ctx then s.ask ctx else s)

/-- Gangs age when their limit has passed, and aged gangs reserve what has become free (R256, R259). -/
def State.ageGangs (s : State) : State :=
  let s1 := { s with queues := s.queues.map (fun (e : Nat × Queue) =>
    (e.1, { e.2 with gang := e.2.gang.map (fun (g : Gang) =>
      if g.since + e.2.age.toNat ≤ s.clock then { g with aged := true } else g) })) }
  s1.agedGangs.foldl (fun s n => s.reserveFor n 64) s1

/-- GANG_AGE (R259): a blocked gang ages once its limit has passed; until then it is tested again. -/
def execGangAge (q : Nat) (s : State) : Out :=
  .next
    (match ((s.ageGangs).queue q).gang with
      | none => s.ageGangs
      | some g => if g.aged then s.ageGangs else (s.ageGangs).send (.gangAge q))

/-- A queue stops with an error (R243). -/
def State.stopQueue (s : State) (n err : Nat) : State :=
  s.withQueue n (fun q => { q with state := 2, err := BitVec.ofNat 8 err })

/-- The packets that have been checked are issued: one, or the members of a gang together (R245, R256). -/
def State.issue (s : State) (n : Nat) (q : Queue) (pos : Nat) (l : List Packet) : State :=
  let gang := l.any Packet.gang
  let clusters := l.any Packet.clusters
  let event := fun (e : Packet × Nat) =>
    s.packetEvent n q (pos + e.2) e.1 (if gang then some ⟨pos, l.length, e.2, clusters⟩ else none)
  match s.deliverAll (l.zipIdx.map event) with
  | none => s.send (.packetIssue n)
  | some s1 =>
    let s2 := s1.withQueue n (fun q =>
      { q with
        cons := q.cons + BitVec.ofNat 64 l.length
        phase := (l.head?.map (·.phase)).getD q.phase
        gang := if gang then some ⟨pos, l.length, clusters, s.clock, false, []⟩ else q.gang })
    if gang then (s2.placeGang n).getD ((s2.send (.gangPlace n)).send (.gangAge n)) else s2.send (.packetIssue n)

/-- How many packets the head of a queue issues together: the members of a gang of legal size, else one. -/
def Packet.count (p : Packet) : Nat := if p.gang ∧ 2 ≤ p.gsize ∧ p.gsize ≤ 64 then p.gsize else 1

/-- The head of a running queue is checked, waits where it must, and is issued (R243 to R248). -/
def State.issueHead (s : State) (n : Nat) : State :=
  let q := s.queue n
  let pos := q.cons.toNat
  let avail := (q.prod - q.cons).toNat
  let again := s.send (.packetIssue n)
  if 2 ^ q.logslots < avail then s.stopQueue n 6
  else if avail = 0 then again
  else
    match s.packetAt q pos with
    | none => s.stopQueue n 5
    | some h =>
      if avail < h.count then again
      else
        match s.packetsAt q pos h.count with
        | none => s.stopQueue n 5
        | some l =>
          if s.packetError q pos l ≠ 0 then s.stopQueue n (s.packetError q pos l)
          else if h.phase ≠ q.phase then (if q.done = q.cons then s.send (.phaseClean n h.phase) else again)
          else if h.barrier ∧ q.done ≠ q.cons then again
          else s.issue n q pos l

/-- PACKET_ISSUE (R243 to R246): a queue that runs and has no gang to place issues its next packet; a torn-down partition's packets
are discarded (R487). -/
def execPacketIssue (q : Nat) (s : State) : Out :=
  let r := s.queue q
  let s1 := { s with inflight := s.inflight.filter (fun i => i != .packetIssue q) }
  .next
    (if r.state ≠ 1 ∨ !r.enable ∨ r.gang.isSome then s1
     else if (s.partition r.part).gone then s1
     else s1.issueHead q)

/-- What cleaning leaves of a core's lines (R248): those that a context holds, closed to every other. -/
def cleanLines (lines : List Line) : List Line :=
  lines.filterMap (fun l => if l.held = 0 then none else some { l with closed := l.closed ||| ~~~l.held })

/-- A core cleans (R248): what its release writes back reaches its homes before the next packet issues.  (DEDUCED, log entry 37.) -/
def State.cleanCore (s : State) (core : Nat) : State :=
  ((s.writeBackAll core [] [] (s.dirtyLines core)).drainFirst (fun e =>
    e.origin.cls == 0 && coreOf e.origin.ctx == core && e.addr / 2 ^ 47 % 2 == 0)).withCore core (fun c => { c with lines := cleanLines c.lines, icache := [] })

/-- PHASE_CLEAN (R248): once every earlier packet has completed; the queue then issues again. -/
def execPhaseClean (q : Nat) (phase : Byte) (s : State) : Out :=
  let r := s.queue q
  .next
    (if r.done ≠ r.cons then s.send (.phaseClean q phase)
     else
      ((r.cores.foldl (fun s c => s.cleanCore c) s).withQueue q (fun r => { r with phase := phase, cores := [] })).send
        (.packetIssue q))

/-- QUEUE_ASSIGN (R239, R512): the physical function sets PART, HSHARE and FSHARE of a disabled queue. -/
def execQueueAssign (q part : Nat) (hshare fshare : Byte) (s : State) : Out :=
  let r := s.queue q
  .next
    (if !s.firmware.failed ∧ q < queueCount ∧ part < 96 ∧ r.state = 0 ∧ !r.enable then
      (s.withQueue q (fun r => { r with part := part, hshare := hshare, fshare := fshare })).emit (.reply 0 [])
     else s.emit (.reply 1 []))

end Sys2Proof.Machine
end

