-- ==== Sys2Proof/Machine/Manage.lean ====
section
/-!
DEFINITION. The management block (spec/19 R508 to R519): partitions, access tables, teardown (spec/18 R487), the debug table (R489),
retirement of clusters (R498), counters (R320), firmware, identity and configuration.
-/

namespace Sys2Proof.Machine

/-- A command of the management block is refused: it changes nothing (R512). -/
def State.refused (s : State) : Out := .next (s.emit (.reply 1 []))

/-- A command of the management block has been done. -/
def State.done (s : State) : State := s.emit (.reply 0 [])

/-- A command of the management block, when the firmware that carries it out has started; after a verification that failed only the side-band
port works, and for the images in flash alone (R513).  (DESIGN CHOICE, log entry 52.) -/
def State.managed (s : State) (run : Out) : Out := if s.firmware.failed then s.refused else run

/-- The partitions by number (R313). -/
def partitionCount : Nat := 96

/-- The physical clusters of a device (R192). -/
def clusterCount : Nat := 4 * Config.dieClusters

/-- The clusters of a new partition in the order of their logical numbers: die by die, each die's as listed (R508). -/
def dieByDie (clusters : List Nat) : List Nat := (List.range 4).flatMap (fun d => clusters.filter (fun c => dieOf c == d))

/-- Whether a cluster is free to join a partition (R508). -/
def State.clusterFree (s : State) (c : Nat) : Bool :=
  decide (c < clusterCount) && !s.spares.contains c && !s.retired.contains c && !s.routes.any (fun r => r.2 == c) &&
    !s.parts.any (fun p => p.2.exists_ && p.2.clusters.contains c)

/-- The tables that bound HBM (R314). -/
def boundedTargets : List AccessTarget :=
  (List.range clusterCount).map AccessTarget.homeSlice ++ (List.range 8).map AccessTarget.hbmPort

/-- A new partition's entries: no right, and its HBM range (R508). -/
def newEntries (part : Nat) (base limit : BitVec 23) : List ((AccessTarget × Nat × Nat) × Word) :=
  let e := BitVec.ofNat 64 (base.toNat * 2 ^ 4 + limit.toNat * 2 ^ 27)
  boundedTargets.flatMap (fun t => (List.range 7).map (fun c => ((t, part, c), e)))

/-- PART_CREATE (R508).  (DESIGN CHOICE, log entry 21.) -/
def execPartCreate (part : Nat) (clusters : List Nat) (base limit : BitVec 23) (s : State) : Out :=
  s.managed
    (if part < partitionCount ∧ !(s.partition part).exists_ ∧ !clusters.isEmpty ∧ clusters.dedup = clusters ∧
         clusters.all s.clusterFree ∧ base.toNat ≤ limit.toNat ∧ limit.toNat ≤ Config.hbmBytes / 65536 then
       .next
         ({ s with
           parts := tset s.parts part
             { Partition.reset with exists_ := true, clusters := dieByDie clusters, base := base, limit := limit }
           access := s.access.filter (fun (e : (AccessTarget × Nat × Nat) × Word) => e.1.2.1 != part) ++ newEntries part base limit }.done)
     else s.refused)

/-- The tasks of a partition, wherever they are but in a deque. -/
def State.tasksOf (s : State) (part : Nat) : List Ctx := s.allTasks.filter (fun c => c.part == part && c.run != .idle)

/-- What a partition's tasks leave in a core: forked tasks, held pushes, and reservations for its actors. -/
def Core.tornDown (c : Core) (part : Nat) (mine : Bool) : Core :=
  { c with
    deque := c.deque.filter (fun e => e.task.part != part)
    heldPushes := c.heldPushes.filter (fun h => h.2.1.part != part)
    hints := if mine then [] else c.hints
    image := if mine then none else c.image }

/-- The contexts, tasks, events and claims of a partition leave, and its packets are discarded (R487). -/
def State.sweep (s : State) (part : Nat) : State :=
  let mine := (s.partition part).clusters
  { s with
    cx := if s.cx.part = part ∧ s.cx.run ≠ Run.idle then Ctx.idle s.cx.key else s.cx
    others := s.others.filter (fun c => c.part != part)
    ready := s.ready.filter (fun r => r.2.2.part != part)
    beneath := s.beneath.filter (fun c => c.part != part)
    cores := s.cores.map (fun (k : Nat × Core) => (k.1, k.2.tornDown part (mine.contains (k.1 / 16))))
    events := s.events.filter (fun q => q.event.part != part)
    actors := s.actors.filter (fun a => a.part != part)
    claims := s.claims.filter (fun c => c.part != part)
    programs := s.programs.filter (fun p => !mine.contains p.cluster)
    queues := s.queues.map (fun (e : Nat × Queue) =>
      if e.2.part = part then (e.1, { e.2 with cons := e.2.prod, done := e.2.prod, gang := none, cores := [],
                                               state := if e.2.enable then e.2.state else if e.2.state = 1 then 0 else e.2.state })
      else e) }.withPart part (fun p => { p with saUsed := [], spillUsed := 0, gone := true })

/-- A partition's execution context is torn down (R487): engine commands are aborted, tasks stop without traps, areas return.  (DEDUCED, log entry 53.) -/
def State.tearDown (s : State) (part : Nat) : State :=
  let s1 := (s.cmds.filter (fun k => k.part == part)).foldl (fun s k => s.abortCmd k) s
  ((s1.tasksOf part).foldl (fun s c => s.cleanup c) s1).sweep part

/-- TEARDOWN (R487).  (DEDUCED, log entry 53.) -/
def execTeardown (part : Nat) (s : State) : Out :=
  s.managed
    (if (s.partition part).exists_ then .next (s.tearDown part).done else s.refused)

/-- The windows of a cluster's cores are zeroed (R508). -/
def State.zeroWindows (s : State) (cluster : Nat) : State :=
  (List.range 16).foldl (fun s c => s.wipe (windowAddr (16 * cluster + c) 0) (32 * 65536)) s

/-- A cluster's banks return to their default modes (R303, R508). -/
def Cluster.defaultBanks (c : Cluster) : Cluster := { c with banks := [], switching := [], fifos := [] }

/-- A core's caches and translations are emptied, with nothing written back. -/
def Core.emptied (c : Core) : Core := { c with lines := [], icache := [], tlb := [] }

/-- The cores of a cluster keep nothing of a partition that is destroyed (DEDUCED, log entry 53). -/
def State.emptyCaches (s : State) (cluster : Nat) : State :=
  (List.range 16).foldl (fun s c => s.withCore (16 * cluster + c) Core.emptied) s

/-- The clusters of a partition that is destroyed, one after another (R508). -/
def State.releaseClusters (s : State) : List Nat → State
  | [] => s
  | c :: r => (((s.zeroWindows c).emptyCaches c).withCluster c Cluster.defaultBanks).releaseClusters r

/-- PART_DESTROY (R508): teardown, then zeroes and default banks; a logical destination that a spare served is not used again. -/
def execPartDestroy (part : Nat) (s : State) : Out :=
  s.managed
    (let p := s.partition part
     if !p.exists_ then s.refused
     else
       let s1 := ((s.tearDown part).releaseClusters p.clusters).wipe (p.base.toNat * 65536) ((p.limit.toNat - p.base.toNat) * 65536)
       .next
         { s1 with
           parts := s1.parts.filter (fun e => e.1 != part)
           access := s1.access.filter (fun (e : (AccessTarget × Nat × Nat) × Word) => e.1.2.1 != part)
           routes := s1.routes.filter (fun r => !p.clusters.contains r.1) }.done)

/-- Whether the entries of a target's access table bound HBM (R314). -/
def targetBounds : AccessTarget → Bool
  | .homeSlice c => decide (c < clusterCount)
  | .hbmPort n => decide (n < 8)
  | _ => false

/-- Whether a target that has an access table exists (R314). -/
def targetExists : AccessTarget → Bool
  | .station n => decide (n < 24)
  | .management => true
  | t => targetBounds t

/-- An entry of an access table is written. -/
def State.setEntry (s : State) (k : AccessTarget × Nat × Nat) (e : Word) : State :=
  { s with access := s.access.filter (fun x => x.1 != k) ++ [(k, e)] }

/-- ACCESS_WRITE (R314): classes 0 to 6; class 7 always holds every right.  (DEDUCED, log entry 56.) -/
def execAccessWrite (target : AccessTarget) (part cls : Nat) (entry : Word) (s : State) : Out :=
  s.managed
    (if part < partitionCount ∧ cls < 7 ∧ targetExists target then
       let e := if targetBounds target then entry &&& 0x3FFFFFFFFFFFF else entry &&& 15
       .next (s.setEntry (target, part, cls) e).done
     else s.refused)

/-- STATION_MAP (R502). -/
def execStationMap (station device : Nat) (part : Option Nat) (s : State) : Out :=
  s.managed
    (let rest := s.stations.filter (fun (e : (Nat × Nat) × Nat) => e.1 != (station, device))
     if station < 24 ∧ device < 1024 then
       match part with
       | none => .next ({ s with stations := rest }.done)
       | some p => if p < partitionCount then .next ({ s with stations := rest ++ [((station, device), p)] }.done) else s.refused
     else s.refused)

/-- DEBUG_WRITE of one of 16 entries (R489). -/
def execDebugWrite (index : Nat) (actor tid : Option Word) (ss : Bool) (bpa wpa : Word) (s : State) : Out :=
  s.managed
    (if index < 16 then .next ({ s with debugTable := tset s.debugTable index ⟨actor, tid, ss, bpa, wpa &&& ~~~4⟩ }.done) else s.refused)

/-- The contexts of a physical cluster that hold a thread. -/
def State.threadsIn (s : State) (cluster : Nat) : List Ctx :=
  (s.cx :: s.others).filter (fun c => clusterOf c.key == cluster && c.run != .idle)

/-- Whether a context waits in an instruction that keeps it but for R251 (R476): SAFEW, PWAIT, CLAIMW; RECVW, CWAIT, WAITA, WAITAT. -/
def Ctx.keepsContext (c : Ctx) : Bool :=
  (match c.run with
    | .waiting (.safew _ _) => true
    | .waiting .keeping => true
    | _ => false) ||
    (c.blocked && c.pends.any (fun p => p.receives.isSome || match p.kind with | .entry _ _ _ _ _ w => w.isNone | _ => false))

/-- Each of some contexts is switched out where it may be (R476, R498). -/
def State.switchOutAll (s : State) : List Nat → State
  | [] => s
  | k :: ks => (if (s.ctxAt k).any Ctx.keepsContext then s else (s.switchOut k (coreOf k)).getD s).switchOutAll ks

/-- A core's level-1 caches and translations are emptied. -/
def State.emptyCore (s : State) (core : Nat) : State :=
  (s.writeBackAll core [] [] (s.dirtyLines core)).withCore core Core.emptied

/-- The size of a core's scratchpad: its banks in scratchpad mode (R302, R482). -/
def State.padSize (s : State) (core : Nat) : Nat :=
  65536 * ((List.range 32).filter (fun b =>
    bankMode (s.bank (32 * (core / 16) + b)) == 1 && bankOwner (s.bank (32 * (core / 16) + b)) == core % 16)).length

/-- The scratchpad of a retired core that a switched-out task left goes to an image in the spill area, when that has room (R202, R482;
DESIGN CHOICE, log entry 54). -/
def State.saveBanks (s : State) (part core : Nat) : State :=
  let p := s.partition part
  let n := s.padSize core
  if n = 0 ∨ p.spillFree < n ∨ !s.ready.any (fun r => coreOf r.2.2.key == core) then s
  else
    let place := rfield p.config 16 8 + 64 * (Config.imagePlace s.turn % ((rfield p.config 24 8 - n) / 64 + 1))
    (s.withCore core (fun c => { c with image := some (BitVec.ofNat 64 place, n) })).spillBytes part n true

/-- A spare takes a cluster's place: its logical destination is routed there (R496 to R498), with its banks, engines, slots and tiles as
they stand (R482). -/
def State.replaceCluster (s : State) (part cluster spare : Nat) : State :=
  let s1 := (List.range 16).foldl (fun s c => (s.emptyCore (16 * cluster + c)).saveBanks part (16 * cluster + c)) s
  { s1 with
    routes := tset s1.routes cluster spare
    retired := s1.retired ++ [s1.routed cluster]
    retiring := s1.retiring.filter (· != cluster)
    spares := s1.spares.filter (· != spare)
    routeGen := 1 - s1.routeGen }

/-- RETIRE (R498): no work starts on the cluster; its tasks are switched out; once none is left a spare of the same die takes its
place.  (DESIGN CHOICE, log entry 54.) -/
def execRetire (part cluster : Nat) (s : State) : Out :=
  s.managed
    (match (s.partition part).clusters[cluster]? with
     | none => s.refused
     | some c =>
       match s.spares.find? (fun x => dieOf x == dieOf c) with
       | none => { s with retiring := s.retiring.filter (· != c) }.refused
       | some spare =>
         let s1 := { s with retiring := (c :: s.retiring).dedup }
         let s2 := s1.switchOutAll ((s1.threadsIn c).map (·.key))
         if (s2.threadsIn c).isEmpty then .next (s2.replaceCluster part c spare).done else .next (s2.send (.retire part cluster)))

/-- COUNTERS (R320, R509, R512): the error counters by level, the mailbox records discarded, and each partition's count of dropped
records.  (DESIGN CHOICE, log entry 55.) -/
def execCounters (s : State) : Out :=
  s.managed
    (let errors := (List.range 65).flatMap (fun k => bytesOf (tget s.errors k 0) 8)
     .next (s.emit (.reply 0 (errors ++ (List.range partitionCount).flatMap (fun p => bytesOf (s.partition p).fqOvf.toNat 8)))))

/-- The mask of stations that a configuration image leaves down (R519). -/
def maskOf (i : Image) : BitVec 24 := ~~~i.stations

/-- Firmware complexes that start again from the boot ROM (R513, R516). -/
def Firmware.rebooted (f : Firmware) : Firmware :=
  { f with cores := (List.range 8).map FwCore.reset, memory := [], boots := f.boots + 1 }

/-- The boot ROM measures and verifies the images in flash and starts the firmware (R513, R517, R518); when one does not verify, only
the side-band port works. -/
def State.boot (s : State) : State :=
  let f := s.firmware
  let ok := Config.verifies f.image.bytes f.image.signature && Config.verifies f.config.bytes f.config.signature
  let s1 := { s with
    firmware := { f with
      active := 0, started := ok, failed := !ok, watchdogAt := s.clock + 1000000,
      m1 := Config.shake256 f.image.bytes 64, m2 := Config.shake256 f.config.bytes 64 }
    spares := if ok then f.config.spares else []
    stationsDown := if ok then maskOf f.config else BitVec.allOnes 24 }
  if ok then ((s1.send .clockSyncRead).send .clockSyncStale).send .watchdogExpiry else s1

/-- RESET (R512, R513): the state after device reset, with the images in flash, then the boot ROM's work.  (DESIGN CHOICE, log entry 52.) -/
def execReset (s : State) : Out :=
  .next
    ({ State.reset with
      firmware := { State.reset.firmware with image := s.firmware.image, config := s.firmware.config, boots := s.firmware.boots + 1 }
      outbox := s.outbox
      turn := s.turn }.boot.done)

/-- Whether a reader accepts a copy of a control block (R515). -/
def ControlCopy.whole (c : ControlCopy) : Bool := c.begin_ == c.end_

/-- The copy that a reader takes (R515): of those accepted the one with the higher version. -/
def ControlBlock.accepted (b : ControlBlock) : Option ControlCopy :=
  if b.a.whole && b.b.whole then (if b.b.end_.toNat ≤ b.a.end_.toNat then some b.a else some b.b)
  else if b.a.whole then some b.a
  else if b.b.whole then some b.b
  else none

/-- The version that the next write of a block writes: one more than the higher END (R515). -/
def ControlBlock.nextVersion (b : ControlBlock) : Word := (if b.a.end_.toNat ≤ b.b.end_.toNat then b.b.end_ else b.a.end_) + 1

/-- A block with one of its copies changed. -/
def ControlBlock.change (b : ControlBlock) (first : Bool) (f : ControlCopy → ControlCopy) : ControlBlock :=
  if first then { b with a := f b.a } else { b with b := f b.b }

/-- A control block that has not been written: two whole copies of version 0 (DESIGN CHOICE, log entry 69). -/
def ControlBlock.fresh : ControlBlock := ⟨⟨0, 0, 0⟩, ⟨0, 0, 0⟩⟩

/-- The control block of a queue. -/
def Firmware.block (f : Firmware) (q : Nat) : ControlBlock := tget f.blocks q ControlBlock.fresh

/-- A write of a control block begins (R515): the copy whose END is lower takes BEGIN. -/
def Firmware.beginWrite (f : Firmware) (q : Nat) (body : BitVec 896) : Firmware :=
  let b := f.block q
  let first := decide (b.a.end_.toNat ≤ b.b.end_.toNat)
  { f with
    blocks := tset f.blocks q (b.change first (fun c => { c with begin_ := b.nextVersion }))
    writing := some ⟨q, first, b.nextVersion, body, false⟩ }

/-- A write in progress goes on (R515): the BODY, then END. -/
def Firmware.goOn (f : Firmware) (w : BlockWrite) : Firmware :=
  let put := fun (g : ControlCopy → ControlCopy) => tset f.blocks w.queue ((f.block w.queue).change w.first g)
  if w.bodyDone then { f with blocks := put (fun c => { c with end_ := w.version }), writing := none }
  else { f with blocks := put (fun c => { c with body := w.body }), writing := some { w with bodyDone := true } }

/-- The active complex's work on its control blocks in a step (R515): one write at a time, in three parts.  When it writes a block, and
what the BODY holds, are free values (DESIGN CHOICE, log entry 69). -/
def State.writeBlocks (s : State) : State :=
    match s.firmware.writing with
    | some w => if Config.blockGoesOn s.turn then { s with firmware := s.firmware.goOn w } else s
    | none =>
      match Config.blockWrite s.turn with
      | some q => { s with firmware := s.firmware.beginWrite (q % queueCount) (Config.blockBody s.turn) }
      | none => s

/-- The active complex's work in a step: its control blocks (R515), and its watchdog, which it restarts when a free value says so (R516; DESIGN
CHOICE, log entry 12). -/
def State.keepBlocks (s : State) : State :=
  if !s.firmware.started then s
  else
    let s1 := s.writeBlocks
    if Config.watchdogRestarts s.turn then { s1 with firmware := { s1.firmware with watchdogAt := s.clock + 1000000 } } else s1

/-- The complex that takes over reads every control block (R515, R516); a write in progress is lost. -/
def Firmware.takeOver (f : Firmware) (now : Nat) : Firmware :=
  { f with
    active := 1 - f.active
    watchdogAt := now + 1000000
    writing := none
    imported := f.blocks.filterMap (fun b => (b.2.accepted).map (fun c => (b.1, c.body))) }

/-- WATCHDOG_EXPIRY (R516): once the active complex has not restarted its watchdog for 1 ms, the standby complex takes over; what the front end
holds is in hardware. -/
def execWatchdogExpiry (s : State) : Out :=
  .next
    (if !s.firmware.started then s
     else (if s.clock < s.firmware.watchdogAt then s else { s with firmware := s.firmware.takeOver s.clock }).send .watchdogExpiry)

/-- FW_UPDATE (R516): both complexes boot the new image, and the standby takes over; status 1 when the image does not verify or its version is too low, 2 when it does not support the state table's
format. -/
def execFwUpdate (image : Image) (s : State) : Out :=
  let f := s.firmware
  if !Config.verifies image.bytes image.signature ∨ image.version < f.config.minVersion then s.refused
  else if f.started ∧ image.tableFormat ≠ f.image.tableFormat then .next (s.emit (.reply 2 []))
  else
    .next
      ({ s with firmware :=
          if f.started then
            { (f.takeOver s.clock).rebooted with image := image, m1 := Config.shake256 (f.m1 ++ image.bytes) 64 }
          else { f with image := image } }.done)

/-- CONFIG_WRITE (R519): the new image takes effect at the next reset. -/
def execConfigWrite (image : Image) (s : State) : Out :=
  if !Config.verifies image.bytes image.signature ∨ image.version < s.firmware.config.version then s.refused
  else .next ({ s with firmware := { s.firmware with config := image } }.done)

/-- Exactly n bytes of a list, zeros behind it. -/
def exactly (n : Nat) (l : List Byte) : List Byte := (List.range n).map (fun i => l.getD i 0)

/-- The identity seed (R517): "MZ4 identity" before the secret. -/
def identitySeed : List Byte :=
  Config.shake256 ([0x4D, 0x5A, 0x34, 0x20, 0x69, 0x64, 0x65, 0x6E, 0x74, 0x69, 0x74, 0x79] ++ bytesOf Config.secret.toNat 32) 32

/-- The alias key's seed (R517). -/
def Firmware.aliasSeed (f : Firmware) : List Byte := Config.shake256 (identitySeed ++ f.m1) 32

/-- Bytes 0 to 233 of an attestation report (R518). -/
def State.report (s : State) (nonce : BitVec 256) : List Byte :=
  bytesOf 1 4 ++ bytesOf nonce.toNat 32 ++ exactly 64 (Config.shake256 Config.bootRom 64) ++ exactly 64 s.firmware.m1 ++
    exactly 64 s.firmware.m2 ++ bytesOf s.firmware.image.version 4 ++ bytesOf s.dev.toNat 2

/-- ATTEST (R518): the report signed with the alias key, the alias public key and its signature by the identity key. -/
def execAttest (nonce : BitVec 256) (s : State) : Out :=
  s.managed
    (let body := s.report nonce
     let key := Config.publicKey s.firmware.aliasSeed
     .next (s.emit (.reply 0 (body ++ exactly 3309 (Config.sign s.firmware.aliasSeed body) ++ key ++ Config.sign identitySeed key))))

/-- MCTP_CONTROL (R512). -/
def execMctpControl (message : List Byte) (s : State) : Out := .next (s.emit (.reply 0 (Config.mctpReply message)))

end Sys2Proof.Machine
end

