-- ==== Sys2Proof/Machine/Messages.lean ====
section
/-!
DEFINITION. Endpoints and messages (spec/08 R229 to R234, spec/10 R284 to R288).
-/

namespace Sys2Proof.Machine

/-- The answer for a name that the task, or no task, holds (R287). -/
def noEndpoint : Word := 0x8000000000000000

/-- The binding of a name in the job of a partition (R229). -/
def State.endpoint (s : State) (part : Nat) (name : BitVec 32) : Option Endpoint :=
  s.endpoints.find? (fun e => e.name == name && e.part == part)

/-- Whether a task holds a name. -/
def State.holds (s : State) (tid : Word) (name : BitVec 32) : Bool := s.endpoints.any (fun e => e.name == name && e.tid == tid)

/-- The context of the own device that a place names (R287). -/
def State.contextOf (s : State) (part : Nat) (place : Word) : Nat :=
  4 * ((s.partition part).physicalCore (field place 0 16)).getD 0 + field place 26 2

/-- Whether the directory of a name says that another device's task holds it: the own directory's record, or another's answer, a free value
(R230; DESIGN CHOICE, log entry 5). -/
def State.heldFar (s : State) (part : Nat) (name : BitVec 32) : Bool :=
  if s.directoryOf part name.toNat = s.dev.toNat then s.farBindings.any (fun b => b.name == name && b.part == part)
  else (Config.farReply s.turn).getLsbD 63

/-- A name is bound, or a status says why not (R229, R287): what its directory says comes before the own device's limits.  (DEDUCED, log entry
63.) -/
def State.bindName (s : State) (part : Nat) (name : BitVec 32) (tid place : Word) : Word × State :=
  if name = 0 then (4, s)
  else
    match s.endpoint part name with
    | some e => (if e.tid = tid then 0 else 1, s)
    | none =>
      if s.heldFar part name then (1, s.tellDirectory part 2 name tid place)
      else if 4 ≤ (s.endpoints.filter (fun e => e.tid == tid)).length then (2, s)
      else if rfield (s.partition part).config 32 4 ≤ (s.endpoints.filter (fun e => e.part == part)).length then (3, s)
      else
        (0, { s.tellDirectory part 0 name tid place with
              endpoints := s.endpoints ++ [⟨name, part, tid, s.contextOf part place, [], [], []⟩] })

/-- A name is freed; its unreceived messages are discarded and counted, those of the mailbox with those of the queue (R287, R288; DESIGN CHOICE,
log entry 76). -/
def State.freeName (s : State) (name : BitVec 32) (tid : Word) : Word × State :=
  match s.endpoints.find? (fun e => e.name == name && e.tid == tid) with
  | none => (noEndpoint, s)
  | some e =>
    (BitVec.ofNat 64 (e.queue.length + e.mailbox.length),
      { s.tellDirectory e.part 1 name tid 0 with endpoints := s.endpoints.filter (fun e => !(e.name == name && e.tid == tid)) })

/-- What another device's directory answers of a name that no task of this device holds: a place on another device of the job, or none (R230;
DESIGN CHOICE, log entry 5). -/
def State.farPlace (s : State) (part : Nat) : Option Word :=
  let w := Config.farReply s.turn
  let dev := field w 16 10
  if w.getLsbD 63 ∧ dev ≠ s.dev.toNat ∧ (s.partition part).jobDevices.contains dev then some (w &&& 0xFFFFFFF) else none

/-- Where the directory of a name says that its task is (R230, R287). -/
def State.foundAt (s : State) (part : Nat) (name : BitVec 32) : Option Word :=
  match s.endpoint part name with
  | some e => some (s.placeWord e.part e.ctx)
  | none =>
    if s.directoryOf part name.toNat = s.dev.toNat then
      (s.farBindings.find? (fun b => b.name == name && b.part == part)).map (·.place)
    else s.farPlace part

/-- The members of a group that a far actor is not, and the actor, when it is one of them now (R370, R371). -/
def State.enrol (s : State) (part device : Nat) (actor : Word) (haddr : BitVec 46) (grp : BitVec 16) : List Nat → State
  | [] => s
  | g :: r =>
    let others := s.farMembers.filter (fun m => !(m.part == part && m.group == g && m.device == device && m.actor == actor))
    let was := decide (others.length < s.farMembers.length)
    let joins := haddr ≠ 0 ∧ grp.getLsbD g ∧ s.directoryOf part g = s.dev.toNat ∧ (was ∨ s.groupSize part g < 64)
    ({ s with farMembers := if joins then others ++ [(⟨part, g, device, actor, haddr⟩ : FarMember)] else others }).enrol part device actor haddr grp r

/-- The groups of which the own directory records an actor of another device, as bits. -/
def State.enrolled (s : State) (part device : Nat) (actor : Word) : Word :=
  BitVec.ofNat 64 (((s.farMembers.filter (fun m => m.part == part && m.device == device && m.actor == actor)).map (fun m => 2 ^ m.group)).sum)

/-- What the own directory answers a task of another device, and what it records (R230, R371, R503). -/
def State.farDirectory (s : State) (part device : Nat) (tid : Word) (r : DirRequest) : Word × State :=
  let mine := fun (name : BitVec 32) (b : FarBinding) => b.name == name && b.part == part && b.tid == tid
  match r with
  | .bind name tid place =>
    if (s.endpoint part name).isSome then (1, s)
    else
      match s.farBindings.find? (fun b => b.name == name && b.part == part) with
      | some b => (if b.tid = tid then 0 else 1, s)
      | none => (0, { s with farBindings := s.farBindings ++ [⟨name, part, tid, place⟩] })
  | .move name _ place => (0, { s with farBindings := s.farBindings.map (fun b => if mine name b then { b with place := place } else b) })
  | .free name _ => (0, { s with farBindings := s.farBindings.filter (fun b => !mine name b) })
  | .lookup name => ((s.foundAt part name).getD noEndpoint, s)
  | .groups actor haddr grp =>
    let s1 := s.enrol part device actor haddr grp (List.range 16)
    (s1.enrolled part device actor, s1)

/-- What a directory answers a task of this device, and what it records (R230, R287). -/
def State.directory (s : State) (part : Nat) (r : DirRequest) : Word × State :=
  match r with
  | .bind name tid place => s.bindName part name tid place
  | .move _ _ _ => (0, s)
  | .free name tid => s.freeName name tid
  | .lookup name => ((s.foundAt part name).getD noEndpoint, s.tellDirectory part 2 name 0 0)
  | .groups _ _ _ => (0, s)

/-- DIRECTORY_REQUEST (R230): the directory answers, and the instruction that asked completes; a task of another device gets a kind-2 record
(R503), from a device that the station's table names (R502). -/
def execDirectoryRequest (who : Asker) (dest : Reg) (r : DirRequest) (s : State) : Out :=
  .next
    (if who.device = s.dev.toNat then
      let a := s.directory ((s.taskOf who.tid).elim 0 (·.part)) r
      a.2.withTask who.tid (fun c => c.completePend (fun p => p.dest == dest && p.kind == .reply false) (some a.1))
    else
      match s.stationPart who.device with
      | none => s.emit (.error who.device)
      | some part =>
        let a := s.farDirectory part who.device who.tid r
        a.2.emit (.mailbox who.device 2 (bytesOf who.tid.toNat 8 ++ bytesOf a.1.toNat 8)))

/-- EPBIND, EPFREE and EPWHERE ask the directory of a name (R284, R287).  (DEDUCED, log entry 63.) -/
def State.askDirectory (s : State) (la : BitVec 4) (d a : Reg) (fn : Nat) (r : BitVec 32 → DirRequest) : State :=
  s.gate la ⟨[d], [], []⟩
    (if 2 ^ 32 ≤ (s.x a).toNat then s.illegalOperand
     else
      (s.send (.directoryRequest s.dev.toNat s.cx.tid d (r ((s.x a).setWidth 32)))).withCx (fun c =>
        c.retirePend c la ⟨[d], [], []⟩ (.reply false) d (recordWord (wrWord 0x2c d.toNat a.toNat 0 fn la.toNat)) 0))

/-- EPBIND (R287). -/
def execEpbind (la : BitVec 4) (d a : Reg) (s : State) : Out :=
  .next (s.askDirectory la d a 3 (fun n => .bind n s.cx.tid (s.placeWord s.cx.part s.cx.key)))

/-- EPFREE (R287). -/
def execEpfree (la : BitVec 4) (d a : Reg) (s : State) : Out := .next (s.askDirectory la d a 4 (fun n => .free n s.cx.tid))

/-- EPWHERE (R287). -/
def execEpwhere (la : BitVec 4) (d a : Reg) (s : State) : Out := .next (s.askDirectory la d a 5 .lookup)

/-- The SEND of a message completes with a status, which goes back to another device in a kind-2 record (R234, R503). -/
def State.sendDone (s : State) (m : Message) (status : Word) : State :=
  if m.fromTid.toNat / 2 ^ 48 ≠ s.dev.toNat then
    s.emit (.mailbox (m.fromTid.toNat / 2 ^ 48) 2 (bytesOf m.fromTid.toNat 8 ++ bytesOf status.toNat 8))
  else s.withTask m.fromTid (fun c => c.completePend (fun p => p.kind == .sending m.endpoint) (some status))

/-- Where a core finds the task of a name: in its location cache, or else at the directory, whose answer it keeps (R231; DESIGN CHOICE, log entry
75). -/
def State.locate (s : State) (core part : Nat) (name : BitVec 32) : Option Word × State :=
  match ((tget s.cores core Core.reset).locations.find? (fun l => l.1 == (part, name))).filter (fun _ => Config.locationKept s.turn) with
  | some l => (some l.2, s)
  | none =>
    let at_ := s.foundAt part name
    let keep := at_.elim [] (fun w => [((part, name), w)])
    (at_, (s.tellDirectory part 2 name 0 0).withCore core (fun c =>
      { c with locations := keep ++ c.locations.filter (fun l => l.1 != (part, name)) }))

/-- A message goes to the location that its sender's core finds; with none its SEND gets status 1 (R231, R234). -/
def State.dispatchMessage (s : State) (m : Message) : State :=
  let r := s.locate (coreOf m.fromCtx) m.part m.endpoint
  r.1.elim (r.2.sendDone m 1) (fun w => r.2.send (.messageArrival { m with place := w, count := 0, directed := false }))

/-- SEND (R285): its message leaves for the location of the endpoint's task as its core knows it (R231). -/
def execSend (la : BitVec 4) (d a b : Reg) (s : State) : Out :=
  let name : BitVec 32 := (s.x a).setWidth 32
  let dests : Dests := ⟨[d], [], []⟩
  let word := recordWord (wrWord 0x2c d.toNat a.toNat b.toNat 0 la.toNat)
  .next (s.gate la dests
    (if 2 ^ 32 ≤ (s.x a).toNat then s.illegalOperand
     else if name = 0 then s.withCx (fun c => (c.writeX d 1).retireLong s.cx la dests)
     else
      (s.withCx (fun c => c.retirePend c la dests (.sending name) d word 0)).dispatchMessage
        ⟨s.cx.part, name, s.x b, s.cx.lcore, s.cx.key, s.cx.tid, 0, 0, false⟩))

/-- RECV and RECVW (R286): the oldest message, or an answer that says why there is none. -/
def State.receive (s : State) (la : BitVec 4) (d a b : Reg) (waits : Bool) : State :=
  let name : BitVec 32 := (s.x a).setWidth 32
  let dests : Dests := ⟨[d, b], [], []⟩
  let word := recordWord (wrWord 0x2c d.toNat a.toNat b.toNat (if waits then 2 else 1) la.toNat)
  let answer := fun (s1 : State) (v w : Word) => s1.withCx (fun c => ((c.writeX d v).writeX b w).retireLong s.cx la dests)
  s.gate la dests
    (if 2 ^ 32 ≤ (s.x a).toNat then s.illegalOperand
     else if !s.holds s.cx.tid name then answer s 0 0x4000000000000000
     else
      match s.takeMessage name s.cx.tid with
      | some (m, s1) => answer s1 m.1 (zext m.2)
      | none =>
        if waits then s.withCx (fun c => c.retirePend c la dests (.recv name b) d word 0) else answer s 0 noEndpoint)

/-- RECV (R286). -/
def execRecv (la : BitVec 4) (d a b : Reg) (s : State) : Out := .next (s.receive la d a b false)

/-- RECVW (R286). -/
def execRecvw (la : BitVec 4) (d a b : Reg) (s : State) : Out := .next (s.receive la d a b true)

/-- A refused message returns to its sender's core, here or on another device (R234). -/
def State.refuseMessage (s : State) (m : Message) : State :=
  if m.fromTid.toNat / 2 ^ 48 ≠ s.dev.toNat then s.sendDone m 2 else s.sendFirst (.messageRefused m)

/-- A message that its location cannot place goes to the directory, which sends it to where the task is, with its count at 0 (R232), or answers that no
task holds the name (R234). -/
def State.viaDirectory (s : State) (m : Message) : State :=
  (s.foundAt m.part m.endpoint).elim (s.sendDone m 1) (fun w =>
    (s.tellDirectory m.part 2 m.endpoint 0 0).sendFirst (.messageArrival { m with place := w, count := 0, directed := true }))

/-- A message leaves for a task of another device, whose queue engine delivers or refuses it (R230, R234): accepted, refused, or for no task. -/
def State.leaveMessage (s : State) (m : Message) : State :=
  let s1 := s.emit (.message (field m.place 16 10) m)
  match (Config.farReply s.turn).toNat % 3 with
  | 0 => s1.sendDone m 0
  | 1 => s1.sendDone m 1
  | _ => s1.sendFirst (.messageRefused m)

/-- A message reaches the task that holds its endpoint (R234, R480): into its receive queue, or its mailbox while it is switched out, or
refused when that is full. -/
def State.deliverMessage (s : State) (m : Message) (e : Endpoint) : State :=
  let here := fun (k : Endpoint) => k.name == e.name && k.tid == e.tid
  if s.ready.any (fun r => r.2.2.tid == e.tid) then
    if 32 ≤ (((s.endpoints.filter (fun k => k.tid == e.tid)).map (fun k => k.mailbox.length)).sum) then s.refuseMessage m
    else
      { s with endpoints := updateFirst here (fun k => { k with mailbox := k.mailbox ++ [(m.word, m.sender)] }) s.endpoints
      }.sendDone m 0
  else if 32 ≤ e.queue.length then s.refuseMessage m
  else
    ({ s with endpoints := updateFirst here (fun k => { k with queue := k.queue ++ [(m.word, m.sender)] }) s.endpoints
      }.sendDone m 0).serveRecv e.tid ((s.taskOf e.tid).elim [] (·.pends))

/-- The stub that a location holds for an endpoint (R231, R232). -/
def State.stubAt (s : State) (e : Endpoint) (place : Word) : Option Stub := e.stubs.find? (fun k => s.placeWord e.part k.at_ == place)

/-- MESSAGE_ARRIVAL (R232, R234) at a location: the task's, a stub's, one that holds neither, or another device. -/
def execMessageArrival (m : Message) (s : State) : Out :=
  .next
    (if field m.place 16 10 ≠ s.dev.toNat then s.leaveMessage m
     else
      match s.endpoint m.part m.endpoint with
      | none => s.viaDirectory m
      | some e =>
        if s.placeWord e.part e.ctx = m.place then s.deliverMessage m e
        else if (s.stubAt e m.place).isSome then s.sendFirst (.messageForward m)
        else s.viaDirectory m)

/-- MESSAGE_FORWARD (R232): a stub sends a message on, and counts it; one with a count of 3 goes to the directory. -/
def execMessageForward (m : Message) (s : State) : Out :=
  .next
    (match (s.endpoint m.part m.endpoint).bind (fun e => (s.stubAt e m.place).map (fun k => s.placeWord e.part k.target)) with
      | some to_ => if m.count < 3 then s.sendFirst (.messageArrival { m with place := to_, count := m.count + 1 }) else s.viaDirectory m
      | none => s.viaDirectory m)

/-- MESSAGE_REFUSED (R234): the sender's core sends it again. -/
def execMessageRefused (m : Message) (s : State) : Out :=
  let r := s.locate (coreOf m.fromCtx) m.part m.endpoint
  .next (r.1.elim (r.2.sendDone m 1) (fun w => r.2.sendFirst (.messageArrival { m with place := w, count := 0, directed := false })))

/-- STUB_EXPIRY (R231): the stubs of a name whose time has passed are gone; others are tested again. -/
def execStubExpiry (name : BitVec 32) (s : State) : Out :=
  let s1 := { s with endpoints := s.endpoints.map (fun (e : Endpoint) =>
    if e.name = name then { e with stubs := e.stubs.filter (fun k => decide (s.clock < k.until_)) } else e) }
  .next (if s1.endpoints.any (fun e => e.name == name && !e.stubs.isEmpty) then s1.send (.stubExpiry name) else s1)

end Sys2Proof.Machine
end

