-- ==== Sys2Proof/Machine/VecCmp.lean ====
section
/-!
DEFINITION. Compares, select and classify (spec/06 R173, R174).
-/

namespace Sys2Proof.Machine

/-- Whether a comparison holds for an ordering, and for a NaN operand; strict ones set NV for any NaN (R173). -/
structure Compare where
  lt : Bool
  eq : Bool
  gt : Bool
  nan : Bool
  strict : Bool
deriving DecidableEq, Repr

/-- One lane of a compare: the bit, and NV (R173). -/
def Compare.lane (k : Compare) (a b : Val) : Bool × Bool :=
  if isNan a || isNan b then (k.nan, k.strict || sigNan a || sigNan b)
  else
    (match cmpVal false a b with
      | .lt => k.lt
      | .eq => k.eq
      | .gt => k.gt, false)

/-- The first n lanes of a compare, from lane i on: the mask bits, lowest first, and NV. -/
def Compare.bits (k : Compare) (a b : Nat → Val) (mask : Nat → Bool) : Nat → Nat → Nat × Bool
  | 0, _ => (0, false)
  | n + 1, i =>
    let (r, nv) := k.bits a b mask n (i + 1)
    if mask i then
      let (v, w) := k.lane (a i) (b i)
      (v.toNat + 2 * r, w || nv)
    else (2 * r, nv)

/-- A compare into a mask register (R173). -/
def State.compare (s : State) (k : Compare) (la : BitVec 4) (ty m : BitVec 3) (vb va : BitVec 4) (vd : BitVec 3)
    (word : BitVec 32) : Out :=
  let t := elemTy ty
  let at_ := fun (v : BitVec 4) (i : Nat) => decodeElem t (vlane (s.cx.readV v) t.bits i)
  let (r, nv) := k.bits (at_ va) (at_ vb) (s.cx.readM m).getLsbD t.lanes 0
  .next (s.vec la ⟨[], [], [vd]⟩ word ((s.num .rne).raise { nv := nv }) (fun c => c.writeM vd (BitVec.ofNat 1024 r)))

/-- The class of a value of a floating-point code: the place of the 1 bit that VCLASS writes (R174). -/
def classOf (f : FloatFmt) (c : Nat) : Nat :=
  match decodeFloat f c with
  | .inf true => 0
  | .inf false => 7
  | .nan true => 8
  | .nan false => 9
  | .fin neg m _ =>
    let sub := c / 2 ^ f.mbits % 2 ^ f.ebits = 0
    if m = 0 then (if neg then 3 else 4)
    else if sub then (if neg then 2 else 5)
    else if neg then 1 else 6

/-- VCEQ (R173). -/
def execVceq (la : BitVec 4) (ty m : BitVec 3) (vb va : BitVec 4) (vd : BitVec 3) (s : State) : Out :=
  s.compare ⟨false, true, false, false, false⟩ la ty m vb va vd (recordWord (wvWord 0x20 vd.toNat va.toNat vb.toNat m.toNat ty.toNat 0 la.toNat))

/-- VCNE (R173). -/
def execVcne (la : BitVec 4) (ty m : BitVec 3) (vb va : BitVec 4) (vd : BitVec 3) (s : State) : Out :=
  s.compare ⟨true, false, true, true, false⟩ la ty m vb va vd (recordWord (wvWord 0x20 vd.toNat va.toNat vb.toNat m.toNat ty.toNat 1 la.toNat))

/-- VCLT (R173). -/
def execVclt (la : BitVec 4) (ty m : BitVec 3) (vb va : BitVec 4) (vd : BitVec 3) (s : State) : Out :=
  s.compare ⟨true, false, false, false, true⟩ la ty m vb va vd (recordWord (wvWord 0x20 vd.toNat va.toNat vb.toNat m.toNat ty.toNat 2 la.toNat))

/-- VCLE (R173). -/
def execVcle (la : BitVec 4) (ty m : BitVec 3) (vb va : BitVec 4) (vd : BitVec 3) (s : State) : Out :=
  s.compare ⟨true, true, false, false, true⟩ la ty m vb va vd (recordWord (wvWord 0x20 vd.toNat va.toNat vb.toNat m.toNat ty.toNat 3 la.toNat))

/-- VCGT (R173). -/
def execVcgt (la : BitVec 4) (ty m : BitVec 3) (vb va : BitVec 4) (vd : BitVec 3) (s : State) : Out :=
  s.compare ⟨false, false, true, false, true⟩ la ty m vb va vd (recordWord (wvWord 0x20 vd.toNat va.toNat vb.toNat m.toNat ty.toNat 4 la.toNat))

/-- VCGE (R173). -/
def execVcge (la : BitVec 4) (ty m : BitVec 3) (vb va : BitVec 4) (vd : BitVec 3) (s : State) : Out :=
  s.compare ⟨false, true, true, false, true⟩ la ty m vb va vd (recordWord (wvWord 0x20 vd.toNat va.toNat vb.toNat m.toNat ty.toNat 5 la.toNat))

/-- VSEL (R174). -/
def execVsel (la : BitVec 4) (ty m : BitVec 3) (vb va vd : BitVec 4) (s : State) : Out :=
  let bits := tyBits ty
  .next (s.vecV la vd (recordWord (wvWord 0x20 vd.toNat va.toNat vb.toNat m.toNat ty.toNat 6 la.toNat)) (s.num .rne) (mapLanes bits (s.cx.readM m) (s.cx.readV vb) (fun i => vlane (s.cx.readV va) bits i)))

/-- VCLASS (R174). -/
def execVclass (la : BitVec 4) (ty m : BitVec 3) (va vd : BitVec 4) (s : State) : Out :=
  let bits := tyBits ty
  s.vecMap la bits m vd (recordWord (wvWord 0x20 vd.toNat va.toNat 0 m.toNat ty.toNat 7 la.toNat)) (fun i => 2 ^ classOf (floatOf ty) (vlane (s.cx.readV va) bits i))


end Sys2Proof.Machine
end

