-- ==== Sys2Proof/Machine/VecCvt.lean ====
section
/-!
DEFINITION. Conversion, quantisation and random numbers (spec/06 R176 to R181).
-/

namespace Sys2Proof.Machine

/-- VCVT (R176): each lane rounded once from its exact value. -/
def State.convert (s : State) (la : BitVec 4) (m : BitVec 3) (rm : BitVec 2) (tyd tys : BitVec 3) (va vd : BitVec 4)
    (word : BitVec 32) : Out :=
  let mode := s.cx.roundMode rm
  s.vecNum la (tyBits tyd) m vd word mode (fun i z =>
    roundVal (elemTy tyd) mode z (decodeElem (elemTy tys) (vlane (s.cx.readV va) (tyBits tys) i)))

/-- The registers of a widening result written one after another (R155). -/
def writeGroup (c : Ctx) (base : BitVec 4) (k bits : Nat) (codes : List Nat) : Nat → Ctx
  | 0 => c
  | j + 1 =>
    let r := base + BitVec.ofNat 4 j
    (writeGroup c base k bits codes j).writeV r
      (ofVlanes bits ((List.range (lanesOf bits)).map (fun i => codes.getD (i * k + j) 0)))

/-- VWIDEN (R155, R177): element i of va goes to register vd + i mod k, lane i / k. -/
def State.widen (s : State) (la : BitVec 4) (m : BitVec 3) (rm : BitVec 2) (tyd tys : BitVec 3) (va vd : BitVec 4)
    (word : BitVec 32) : Out :=
  let mode := s.cx.roundMode rm
  let k := tyBits tyd / tyBits tys
  let (codes, n) := goLanes
    (fun i z => roundVal (elemTy tyd) mode z (decodeElem (elemTy tys) (vlane (s.cx.readV va) (tyBits tys) i)))
    (fun i => vlane (s.cx.rawV (vd + BitVec.ofNat 4 (i % k))) (tyBits tyd) (i / k)) (s.cx.readM m).getLsbD true (lanesOf (tyBits tys)) 0 (s.num mode)
  .next (s.vec la ⟨[], groupRegs vd k, []⟩ word n (fun c => writeGroup c vd k (tyBits tyd) codes k))

/-- VNARROW (R155, R177): element i is read from register va + i mod k, lane i / k. -/
def State.narrow (s : State) (la : BitVec 4) (m : BitVec 3) (rm : BitVec 2) (tyd tys : BitVec 3) (va vd : BitVec 4)
    (word : BitVec 32) : Out :=
  let mode := s.cx.roundMode rm
  let k := tyBits tys / tyBits tyd
  s.vecNum la (tyBits tyd) m vd word mode (fun i z =>
    roundVal (elemTy tyd) mode z (decodeElem (elemTy tys) (groupElem s.cx va k (tyBits tys) i)))

/-- The magnitude of a value: not a NaN. -/
def absVal : Val → Val
  | .fin _ m e => .fin false m e
  | .inf _ => .inf false
  | v => v

/-- The greatest magnitude among the first n lanes whose mask bit is 1, and NV for a NaN among them (R178). -/
def maxMagnitude (at_ : Nat → Val) (mask : Nat → Bool) : Nat → Val × Bool
  | 0 => (.fin false 0 0, false)
  | n + 1 =>
    let (v, nv) := maxMagnitude at_ mask n
    if mask n then
      match at_ n with
      | .nan _ => (v, true)
      | x => (if cmpVal false v (absVal x) = .lt then absVal x else v, nv)
    else (v, nv)

/-- emax of a 4-bit kind (R178). -/
def kindEmax (kind : Nat) : Int := match kind with | 0 => 2 | 1 => 2 | 2 => 6 | _ => 5

/-- The scale exponent that a greatest magnitude needs (R178). -/
def scaleNeed (kind : Nat) (v : Val) : Int :=
  match v with
  | .fin _ m e => if m = 0 then 0 else 32 + ((Nat.log2 m : Int) + e) - kindEmax kind
  | _ => 63

/-- The exponent of VQMAX and VQNT: element 0 of a register as i32, with what is needed, clamped to 0 to 63 (R178, R180). -/
def scaleExp (v : VWord) (need : Int) : Nat := (min 63 (max 0 (max need (signed 32 (vlane v 32 0))))).toNat

/-- VQMAX (R178, R179). -/
def State.quantMax (s : State) (la : BitVec 4) (m : BitVec 3) (kind : Nat) (tys : BitVec 3) (va vd : BitVec 4)
    (word : BitVec 32) : Out :=
  let bits := tyBits tys
  let (v, nv) := maxMagnitude (fun i => decodeElem (elemTy tys) (vlane (s.cx.readV va) bits i)) (s.cx.readM m).getLsbD 124
  let old := s.cx.readV vd
  .next (s.vecV la vd word ((s.num .rne).raise { nv := nv })
    (BitVec.ofNat 4096 (splice (s.cx.rawV vd).toNat (scaleExp old (scaleNeed kind v)) 4)))

/-- The value scaled by 2^k. -/
def scaleVal (v : Val) (k : Int) : Val :=
  match v with
  | .fin n m e => .fin n m (e + k)
  | v => v

/-- VQNT (R180): a self-describing block of 124 four-bit codes in bytes 0 to 63. -/
def State.quantise (s : State) (la : BitVec 4) (m : BitVec 3) (rm : BitVec 2) (kind : Nat) (tys : BitVec 3) (va vd : BitVec 4)
    (word : BitVec 32) : Out :=
  let mode := s.cx.roundMode rm
  let bits := tyBits tys
  let old := s.cx.readV vd
  let e := scaleExp old 0
  let (codes, n) := goLanes
    (fun i z => roundVal4 kind mode z (scaleVal (decodeElem (elemTy tys) (vlane (s.cx.readV va) bits i)) (32 - (e : Int))))
    (fun _ => 0) (s.cx.readM m).getLsbD true 124 0 (s.num mode)
  let block := 4 + (kind * 64 + e) * 256 + ofLanes 4 codes * 65536
  .next (s.vecV la vd word n (BitVec.ofNat 4096 (splice (s.cx.rawV vd).toNat block 64)))

/-- The lanes of VRNG in ascending order: one draw each, masked or not (R181). -/
def drawLanes (put : Word → Nat) (old : Nat → Nat) (mask : Nat → Bool) : Nat → Nat → Num → List Nat × Num
  | 0, _, n => ([], n)
  | k + 1, i, n =>
    let (w, n1) := n.draw
    let (r, n2) := drawLanes put old mask k (i + 1) n1
    ((if mask i then put w else old i) :: r, n2)

/-- What VRNG delivers from a draw: the top 24 bits as an FP32 value below 1, or the top bits of an integer type (R181). -/
def randomElem (tyd : BitVec 3) (w : Word) : Nat :=
  match elemTy tyd with
  | .flt f => (roundFloat f .rne 0 ⟨false, w.toNat / 2 ^ 40, -24, false⟩).1
  | .int b => w.toNat / 2 ^ (64 - b)

/-- VRNG (R181). -/
def State.random (s : State) (la : BitVec 4) (m : BitVec 3) (tyd : BitVec 3) (vd : BitVec 4) (word : BitVec 32) : Out :=
  let bits := tyBits tyd
  let (l, n) := drawLanes (randomElem tyd) (vlane (s.cx.rawV vd) bits) (s.cx.readM m).getLsbD (lanesOf bits) 0 (s.num .rne)
  .next (s.vecV la vd word n (ofVlanes bits l))

/-- VCVT (R176). -/
def execVcvt (la : BitVec 4) (m rm : BitVec 2) (tyd tys : BitVec 3) (va vd : BitVec 4) (s : State) : Out :=
  s.convert la (m.zeroExtend 3) rm tyd tys va vd (recordWord (wvtWord 0x22 vd.toNat va.toNat tys.toNat tyd.toNat rm.toNat m.toNat 0 la.toNat))

/-- VWIDEN (R177). -/
def execVwiden (la : BitVec 4) (m rm : BitVec 2) (tyd tys : BitVec 3) (va vd : BitVec 4) (s : State) : Out :=
  s.widen la (m.zeroExtend 3) rm tyd tys va vd (recordWord (wvtWord 0x22 vd.toNat va.toNat tys.toNat tyd.toNat rm.toNat m.toNat 1 la.toNat))

/-- VNARROW (R177). -/
def execVnarrow (la : BitVec 4) (m rm : BitVec 2) (tyd tys : BitVec 3) (va vd : BitVec 4) (s : State) : Out :=
  s.narrow la (m.zeroExtend 3) rm tyd tys va vd (recordWord (wvtWord 0x22 vd.toNat va.toNat tys.toNat tyd.toNat rm.toNat m.toNat 2 la.toNat))

/-- VQNT (R180). -/
def execVqnt (la : BitVec 4) (m rm : BitVec 2) (tyd tys : BitVec 3) (va vd : BitVec 4) (s : State) : Out :=
  s.quantise la (m.zeroExtend 3) rm tyd.toNat tys va vd (recordWord (wvtWord 0x22 vd.toNat va.toNat tys.toNat tyd.toNat rm.toNat m.toNat 3 la.toNat))

/-- VQMAX (R178). -/
def execVqmax (la : BitVec 4) (m : BitVec 2) (tyd tys : BitVec 3) (va vd : BitVec 4) (s : State) : Out :=
  s.quantMax la (m.zeroExtend 3) tyd.toNat tys va vd (recordWord (wvtWord 0x22 vd.toNat va.toNat tys.toNat tyd.toNat 0 m.toNat 4 la.toNat))

/-- VRNG (R181). -/
def execVrng (la : BitVec 4) (m : BitVec 2) (tyd : BitVec 3) (vd : BitVec 4) (s : State) : Out :=
  s.random la (m.zeroExtend 3) tyd vd (recordWord (wvtWord 0x22 vd.toNat 0 0 tyd.toNat 0 m.toNat 5 la.toNat))


end Sys2Proof.Machine
end

