-- ==== Sys2Proof/Machine/VecInt.lean ====
section
/-!
DEFINITION. Integer, logical and shift operations on lanes (spec/06 R172).
-/

namespace Sys2Proof.Machine

/-- A lane operation on the bits of va and vb, at the width of a type (R172). -/
def State.intLanes (s : State) (la : BitVec 4) (ty m : BitVec 3) (vb va vd : BitVec 4) (word : BitVec 32)
    (F : Nat → Nat → Nat → Nat) : Out :=
  let bits := tyBits ty
  s.vecMap la bits m vd word (fun i => F bits (vlane (s.cx.readV va) bits i) (vlane (s.cx.readV vb) bits i) % 2 ^ bits)

/-- VIADD (R172). -/
def execViadd (la : BitVec 4) (ty m : BitVec 3) (vb va vd : BitVec 4) (s : State) : Out :=
  s.intLanes la ty m vb va vd (recordWord (wvWord 0x1e vd.toNat va.toNat vb.toNat m.toNat ty.toNat 0 la.toNat)) (fun _ a b => a + b)

/-- VISUB (R172). -/
def execVisub (la : BitVec 4) (ty m : BitVec 3) (vb va vd : BitVec 4) (s : State) : Out :=
  s.intLanes la ty m vb va vd (recordWord (wvWord 0x1e vd.toNat va.toNat vb.toNat m.toNat ty.toNat 1 la.toNat)) (fun n a b => a + 2 ^ n - b)

/-- VIMUL (R172). -/
def execVimul (la : BitVec 4) (ty m : BitVec 3) (vb va vd : BitVec 4) (s : State) : Out :=
  s.intLanes la ty m vb va vd (recordWord (wvWord 0x1e vd.toNat va.toNat vb.toNat m.toNat ty.toNat 2 la.toNat)) (fun _ a b => a * b)

/-- VAND (R172). -/
def execVand (la : BitVec 4) (ty m : BitVec 3) (vb va vd : BitVec 4) (s : State) : Out :=
  s.intLanes la ty m vb va vd (recordWord (wvWord 0x1e vd.toNat va.toNat vb.toNat m.toNat ty.toNat 3 la.toNat)) (fun _ a b => a &&& b)

/-- VOR (R172). -/
def execVor (la : BitVec 4) (ty m : BitVec 3) (vb va vd : BitVec 4) (s : State) : Out :=
  s.intLanes la ty m vb va vd (recordWord (wvWord 0x1e vd.toNat va.toNat vb.toNat m.toNat ty.toNat 4 la.toNat)) (fun _ a b => a ||| b)

/-- VXOR (R172). -/
def execVxor (la : BitVec 4) (ty m : BitVec 3) (vb va vd : BitVec 4) (s : State) : Out :=
  s.intLanes la ty m vb va vd (recordWord (wvWord 0x1e vd.toNat va.toNat vb.toNat m.toNat ty.toNat 5 la.toNat)) (fun _ a b => a ^^^ b)

/-- VIMIN (R172). -/
def execVimin (la : BitVec 4) (ty m : BitVec 3) (vb va vd : BitVec 4) (s : State) : Out :=
  s.intLanes la ty m vb va vd (recordWord (wvWord 0x1e vd.toNat va.toNat vb.toNat m.toNat ty.toNat 6 la.toNat)) (fun n a b => if signed n b < signed n a then b else a)

/-- VIMAX (R172). -/
def execVimax (la : BitVec 4) (ty m : BitVec 3) (vb va vd : BitVec 4) (s : State) : Out :=
  s.intLanes la ty m vb va vd (recordWord (wvWord 0x1e vd.toNat va.toNat vb.toNat m.toNat ty.toNat 7 la.toNat)) (fun n a b => if signed n a < signed n b then b else a)

/-- VSHL (R172). -/
def execVshl (la : BitVec 4) (ty m : BitVec 3) (vb va vd : BitVec 4) (s : State) : Out :=
  s.intLanes la ty m vb va vd (recordWord (wvWord 0x1f vd.toNat va.toNat vb.toNat m.toNat ty.toNat 0 la.toNat)) (fun n a b => a <<< (b % n))

/-- VSHR (R172). -/
def execVshr (la : BitVec 4) (ty m : BitVec 3) (vb va vd : BitVec 4) (s : State) : Out :=
  s.intLanes la ty m vb va vd (recordWord (wvWord 0x1f vd.toNat va.toNat vb.toNat m.toNat ty.toNat 1 la.toNat)) (fun n a b => a >>> (b % n))

/-- VSRA (R172). -/
def execVsra (la : BitVec 4) (ty m : BitVec 3) (vb va vd : BitVec 4) (s : State) : Out :=
  s.intLanes la ty m vb va vd (recordWord (wvWord 0x1f vd.toNat va.toNat vb.toNat m.toNat ty.toNat 2 la.toNat)) (fun n a b => ofSigned n (signed n a / 2 ^ (b % n)))

/-- VCLMUL (R172). -/
def execVclmul (la : BitVec 4) (ty m : BitVec 3) (vb va vd : BitVec 4) (s : State) : Out :=
  s.intLanes la ty m vb va vd (recordWord (wvWord 0x1f vd.toNat va.toNat vb.toNat m.toNat ty.toNat 3 la.toNat)) (fun n a b => clmul a b n)

/-- VPOPC (R172). -/
def execVpopc (la : BitVec 4) (ty m : BitVec 3) (va vd : BitVec 4) (s : State) : Out :=
  s.intLanes la ty m 0 va vd (recordWord (wvWord 0x1f vd.toNat va.toNat 0 m.toNat ty.toNat 4 la.toNat)) (fun n a _ => popcount a n)

/-- VCLZ (R172). -/
def execVclz (la : BitVec 4) (ty m : BitVec 3) (va vd : BitVec 4) (s : State) : Out :=
  s.intLanes la ty m 0 va vd (recordWord (wvWord 0x1f vd.toNat va.toNat 0 m.toNat ty.toNat 5 la.toNat)) (fun n a _ => clz n a)


end Sys2Proof.Machine
end

