-- ==== Sys2Proof/Machine/VecMove.lean ====
section
/-!
DEFINITION. Scalar-vector moves and mask operations (spec/06 R186, R187).
-/

namespace Sys2Proof.Machine

/-- VGET (R186). -/
def execVget (la : BitVec 4) (ty : BitVec 3) (x : Reg) (va : BitVec 4) (s : State) : Out :=
  let bits := tyBits ty
  let v := vlane (s.cx.readV va) bits ((s.x x).toNat % lanesOf bits)
  let r := if 5 ≤ ty.toNat then wordOfInt (signed bits v) else BitVec.ofNat 64 v
  .next (s.vec la ⟨[x], [], []⟩ (recordWord (wvxWord 0x25 0 va.toNat x.toNat 0 ty.toNat 0 la.toNat)) (s.num .rne) (fun c => c.writeX x r))

/-- VPUT (R186). -/
def execVput (la : BitVec 4) (ty : BitVec 3) (x : Reg) (va vd : BitVec 4) (s : State) : Out :=
  let bits := tyBits ty
  .next (s.vecV la vd (recordWord (wvxWord 0x25 vd.toNat va.toNat x.toNat 0 ty.toNat 1 la.toNat)) (s.num .rne)
    (ofVlanes bits ((List.range (lanesOf bits)).map (fun i =>
      if i = 0 then (s.x x).toNat % 2 ^ bits else vlane (s.cx.readV va) bits (i - 1)))))

/-- VSPLAT (R186). -/
def execVsplat (la : BitVec 4) (ty m : BitVec 3) (x : Reg) (vd : BitVec 4) (s : State) : Out :=
  let bits := tyBits ty
  s.vecMap la bits m vd (recordWord (wvxWord 0x25 vd.toNat 0 x.toNat m.toNat ty.toNat 2 la.toNat)) (fun _ => (s.x x).toNat % 2 ^ bits)

/-- VMOV (R186). -/
def execVmov (la : BitVec 4) (ty m : BitVec 3) (va vd : BitVec 4) (s : State) : Out :=
  let bits := tyBits ty
  s.vecMap la bits m vd (recordWord (wvxWord 0x25 vd.toNat va.toNat 0 m.toNat ty.toNat 3 la.toNat)) (vlane (s.cx.readV va) bits)

/-- A mask instruction with a mask destination (R187). -/
def State.maskTo (s : State) (la : BitVec 4) (vd : BitVec 3) (word : BitVec 32) (v : MWord) : Out :=
  .next (s.vec la ⟨[], [], [vd]⟩ word (s.num .rne) (fun c => c.writeM vd v))

/-- A mask instruction with a scalar destination, x0 to x15 (R56, R187). -/
def State.maskScalar (s : State) (la vd : BitVec 4) (word : BitVec 32) (v : Nat) : Out :=
  .next (s.vec la ⟨[lowReg vd], [], []⟩ word (s.num .rne) (fun c => c.writeX (lowReg vd) (BitVec.ofNat 64 v)))

/-- MAND (R187). -/
def execMand (la : BitVec 4) (vb va vd : BitVec 3) (s : State) : Out :=
  s.maskTo la vd (recordWord (wvWord 0x26 vd.toNat va.toNat vb.toNat 0 0 0 la.toNat)) (s.cx.readM va &&& s.cx.readM vb)

/-- MOR (R187). -/
def execMor (la : BitVec 4) (vb va vd : BitVec 3) (s : State) : Out :=
  s.maskTo la vd (recordWord (wvWord 0x26 vd.toNat va.toNat vb.toNat 0 0 1 la.toNat)) (s.cx.readM va ||| s.cx.readM vb)

/-- MXOR (R187). -/
def execMxor (la : BitVec 4) (vb va vd : BitVec 3) (s : State) : Out :=
  s.maskTo la vd (recordWord (wvWord 0x26 vd.toNat va.toNat vb.toNat 0 0 2 la.toNat)) (s.cx.readM va ^^^ s.cx.readM vb)

/-- MNOT (R187). -/
def execMnot (la : BitVec 4) (va vd : BitVec 3) (s : State) : Out :=
  s.maskTo la vd (recordWord (wvWord 0x26 vd.toNat va.toNat 0 0 0 3 la.toNat)) (~~~s.cx.readM va)

/-- MPOPC (R187). -/
def execMpopc (la : BitVec 4) (va : BitVec 3) (vd : BitVec 4) (s : State) : Out :=
  s.maskScalar la vd (recordWord (wvWord 0x26 vd.toNat va.toNat 0 0 0 4 la.toNat)) (popcount (s.cx.readM va).toNat 1024)

/-- MFIRST (R187). -/
def execMfirst (la : BitVec 4) (va : BitVec 3) (vd : BitVec 4) (s : State) : Out :=
  s.maskScalar la vd (recordWord (wvWord 0x26 vd.toNat va.toNat 0 0 0 5 la.toNat)) (ctz (s.cx.readM va).toNat 1024 0)

/-- MSET (R187). -/
def execMset (la vb va : BitVec 4) (vd : BitVec 3) (s : State) : Out :=
  let old := (s.cx.rawM vd).toNat
  let k := 64 * ((s.x (lowReg vb)).toNat % 16)
  s.maskTo la vd (recordWord (wvWord 0x26 vd.toNat va.toNat vb.toNat 0 0 6 la.toNat))
    (BitVec.ofNat 1024 (old - lane old 64 (k / 64) * 2 ^ k + (s.x (lowReg va)).toNat * 2 ^ k))

/-- MGET (R187). -/
def execMget (la vb : BitVec 4) (va : BitVec 3) (vd : BitVec 4) (s : State) : Out :=
  s.maskScalar la vd (recordWord (wvWord 0x26 vd.toNat va.toNat vb.toNat 0 0 7 la.toNat)) (lane (s.cx.readM va).toNat 64 ((s.x (lowReg vb)).toNat % 16))


end Sys2Proof.Machine
end

