-- ==== Sys2Proof/Machine/VecPerm.lean ====
section
/-!
DEFINITION. Permutations, scalar-vector moves and mask operations (spec/06 R185 to R187).
-/

namespace Sys2Proof.Machine

/-- The lanes of a width whose mask bit is 1, in ascending order. -/
def trueLanes (m : MWord) (n : Nat) : List Nat := (List.range n).filter m.getLsbD

/-- A governed permutation: true lane i takes F i (R185). -/
def State.permute (s : State) (la : BitVec 4) (ty m : BitVec 3) (vd : BitVec 4) (word : BitVec 32) (F : Nat → Nat → Nat) : Out :=
  let bits := tyBits ty
  s.vecMap la bits m vd word (F bits)

/-- Which element VSHUF delivers in lane i (R185). -/
def shuffleIndex (bits i j : Nat) : Nat := if bits = 8 then j % 256 + 256 * (i / 256) else j % lanesOf bits

/-- VSHUF (R185). -/
def execVshuf (la : BitVec 4) (ty m : BitVec 3) (vb va vd : BitVec 4) (s : State) : Out :=
  s.permute la ty m vd (recordWord (wvWord 0x24 vd.toNat va.toNat vb.toNat m.toNat ty.toNat 0 la.toNat)) (fun n i => vlane (s.cx.readV va) n (shuffleIndex n i (vlane (s.cx.readV vb) n i)))

/-- VROT (R185). -/
def execVrot (la : BitVec 4) (ty m : BitVec 3) (vb va vd : BitVec 4) (s : State) : Out :=
  s.permute la ty m vd (recordWord (wvWord 0x24 vd.toNat va.toNat vb.toNat m.toNat ty.toNat 1 la.toNat)) (fun n i => vlane (s.cx.readV va) n ((i + vlane (s.cx.readV vb) n 0) % lanesOf n))

/-- VSLIDE (R185). -/
def execVslide (la : BitVec 4) (ty m : BitVec 3) (vb va vd : BitVec 4) (s : State) : Out :=
  s.permute la ty m vd (recordWord (wvWord 0x24 vd.toNat va.toNat vb.toNat m.toNat ty.toNat 2 la.toNat)) (fun n i => if i = 0 then vlane (s.cx.readV vb) n (lanesOf n - 1) else vlane (s.cx.readV va) n (i - 1))

/-- VCMPR (R185). -/
def execVcmpr (la : BitVec 4) (ty m : BitVec 3) (va vd : BitVec 4) (s : State) : Out :=
  let bits := tyBits ty
  let l := trueLanes (s.cx.readM m) (lanesOf bits)
  .next (s.vecV la vd (recordWord (wvWord 0x24 vd.toNat va.toNat 0 m.toNat ty.toNat 3 la.toNat)) (s.num .rne)
    (ofVlanes bits (l.map (vlane (s.cx.readV va) bits))))

/-- VEXPD (R185). -/
def execVexpd (la : BitVec 4) (ty m : BitVec 3) (va vd : BitVec 4) (s : State) : Out :=
  s.permute la ty m vd (recordWord (wvWord 0x24 vd.toNat va.toNat 0 m.toNat ty.toNat 4 la.toNat)) (fun n i =>
    vlane (s.cx.readV va) n (trueLanes (s.cx.readM m) i).length)

/-- VIOTA (R185). -/
def execViota (la : BitVec 4) (ty m : BitVec 3) (vd : BitVec 4) (s : State) : Out :=
  let bits := tyBits ty
  .next (s.vecV la vd (recordWord (wvWord 0x24 vd.toNat 0 0 m.toNat ty.toNat 5 la.toNat)) (s.num .rne)
    (ofVlanes bits ((List.range (lanesOf bits)).map (fun i => (trueLanes (s.cx.readM m) i).length % 2 ^ bits))))

/-- VBCAST (R185). -/
def execVbcast (la : BitVec 4) (ty m : BitVec 3) (va vd : BitVec 4) (s : State) : Out :=
  s.permute la ty m vd (recordWord (wvWord 0x24 vd.toNat va.toNat 0 m.toNat ty.toNat 6 la.toNat)) (fun n _ => vlane (s.cx.readV va) n (0))

/-- VZIP (R185). -/
def execVzip (la : BitVec 4) (ty m : BitVec 3) (vb va vd : BitVec 4) (s : State) : Out :=
  s.permute la ty m vd (recordWord (wvWord 0x24 vd.toNat va.toNat vb.toNat m.toNat ty.toNat 7 la.toNat)) (fun n i => if i % 2 = 0 then vlane (s.cx.readV va) n (i / 2) else vlane (s.cx.readV vb) n ((i - 1) / 2))


end Sys2Proof.Machine
end

