-- ==== Sys2Proof/Machine/VecRed.lean ====
section
/-!
DEFINITION. Reductions of a vector register (spec/06 R182 to R184).
-/

namespace Sys2Proof.Machine

/-- An exact sum of values: its signed magnitude at an exponent, the infinities and NaNs met, NV, and whether every summand
so far is -0 (R183). -/
structure Sum where
  i : Int := 0
  e : Int := 0
  pinf : Bool := false
  ninf : Bool := false
  nan : Bool := false
  nv : Bool := false
  any : Bool := false
  negz : Bool := true
deriving DecidableEq, Repr

/-- One summand (R183). -/
def Sum.add (t : Sum) (v : Val) (nv : Bool) : Sum :=
  match v with
  | .nan s => { t with any := true, nan := true, nv := t.nv || nv || s }
  | .inf true => { t with any := true, ninf := true, nv := t.nv || nv, negz := false }
  | .inf false => { t with any := true, pinf := true, nv := t.nv || nv, negz := false }
  | .fin n m e =>
    let (i, q) := sumInt (decide (t.i < 0)) t.i.natAbs t.e n m e
    { t with any := true, i := i, e := q, nv := t.nv || nv, negz := t.negz && n && m == 0 }

/-- The sum as a result to round once: an infinity of each sign is a NaN with NV (R183). -/
def Sum.result (t : Sum) : Result :=
  if t.pinf && t.ninf then .value (.nan false) { nv := true }
  else if t.nan then .value (.nan false) { nv := t.nv }
  else if t.pinf then .value (.inf false) { nv := t.nv }
  else if t.ninf then .value (.inf true) { nv := t.nv }
  else .exact ⟨if t.i = 0 then t.any && t.negz else t.i < 0, t.i.natAbs, t.e, false⟩ { nv := t.nv }

/-- The summands of the first n lanes whose mask bit is 1. -/
def sumLanes (f : Nat → Val × Bool) (mask : Nat → Bool) : Nat → Sum
  | 0 => {}
  | n + 1 => if mask n then (sumLanes f mask n).add (f n).1 (f n).2 else sumLanes f mask n

/-- An exact integer sum of the first n lanes whose mask bit is 1. -/
def sumIntLanes (f : Nat → Int) (mask : Nat → Bool) : Nat → Int
  | 0 => 0
  | n + 1 => sumIntLanes f mask n + (if mask n then f n else 0)

/-- The leading bytes of a destination written, the others kept (R182). -/
def State.reduceTo (s : State) (la : BitVec 4) (vd : BitVec 4) (word : BitVec 32) (n : Num) (value bytes : Nat) : Out :=
  .next (s.vecV la vd word n (BitVec.ofNat 4096 (splice (s.cx.rawV vd).toNat value bytes)))

/-- VRSUM and VDOT: an exact sum of the lanes' terms, rounded once to FP32, or modulo 2^64 for integer types (R182, R183). -/
def State.sumReduce (s : State) (la : BitVec 4) (ty m : BitVec 3) (vb va vd : BitVec 4) (word : BitVec 32) (dot : Bool) : Out :=
  let t := elemTy ty
  let mask := (s.cx.readM m).getLsbD
  let a := fun i => vlane (s.cx.readV va) t.bits i
  let b := fun i => vlane (s.cx.readV vb) t.bits i
  match t with
  | .int w =>
    let f := fun i => if dot then signed w (a i) * signed w (b i) else signed w (a i)
    s.reduceTo la vd word (s.num .rne) (wordOfInt (sumIntLanes f mask t.lanes)).toNat 8
  | .flt f =>
    let term := fun i => if dot then mulExact (decodeFloat f (a i)) (decodeFloat f (b i)) else (decodeFloat f (a i), false)
    let mode := s.cx.roundMode 3
    let (z, n) := (s.num mode).z
    let (c, g) := roundResult .f32 mode z (sumLanes term mask t.lanes).result
    s.reduceTo la vd word (n.raise g) c 4

/-- The better lane so far for VRMAX and VRMIN: none, only NaNs met, or a code (R182). -/
inductive Best where
  | none | nan | code (c : Nat)
deriving DecidableEq, Repr

/-- One lane joins a VRMAX or VRMIN (R171, R182). -/
def Best.join (k : Best) (t : ElemTy) (greater : Bool) (c : Nat) : Best :=
  if isNan (decodeElem t c) then (match k with | .code d => .code d | _ => .nan)
  else
    match k with
    | .code d =>
      let o := cmpVal true (decodeElem t d) (decodeElem t c)
      .code (if (greater && o == .lt) || (!greater && o == .gt) then c else d)
    | _ => .code c

/-- The best of the first n lanes whose mask bit is 1, and NV for a signalling NaN. -/
def bestLanes (t : ElemTy) (greater : Bool) (f : Nat → Nat) (mask : Nat → Bool) : Nat → Best × Bool
  | 0 => (.none, false)
  | n + 1 =>
    let (k, nv) := bestLanes t greater f mask n
    if mask n then (k.join t greater (f n), nv || sigNan (decodeElem t (f n))) else (k, nv)

/-- VRMAX and VRMIN with no true lane (R182). -/
def emptyBest (t : ElemTy) (greater : Bool) : Nat :=
  match t with
  | .flt f => f.infCode + (if greater then 2 ^ (f.bits - 1) else 0)
  | .int b => if greater then 2 ^ (b - 1) else 2 ^ (b - 1) - 1

/-- VRMAX and VRMIN (R182). -/
def State.bestReduce (s : State) (la : BitVec 4) (ty m : BitVec 3) (va vd : BitVec 4) (word : BitVec 32) (greater : Bool) :
    Out :=
  let t := elemTy ty
  let (k, nv) := bestLanes t greater (fun i => vlane (s.cx.readV va) t.bits i) (s.cx.readM m).getLsbD t.lanes
  let v := match k with
    | .code c => c
    | .nan => (match t with | .flt f => f.nan | .int _ => 0)
    | .none => emptyBest t greater
  s.reduceTo la vd word ((s.num .rne).raise { nv := nv }) v (t.bits / 8)

/-- VRBAND, VRBOR and VRBXOR (R182). -/
def State.bitReduce (s : State) (la : BitVec 4) (ty m : BitVec 3) (va vd : BitVec 4) (word : BitVec 32) (start : Nat → Nat)
    (f : Nat → Nat → Nat) : Out :=
  let bits := tyBits ty
  let v := ((List.range (lanesOf bits)).filter (s.cx.readM m).getLsbD).foldl
    (fun acc i => f acc (vlane (s.cx.readV va) bits i)) (start bits)
  s.reduceTo la vd word (s.num .rne) v (bits / 8)

/-- The lanes of VRSUMA in ascending order: one draw a lane when stochastic (R158, R184). -/
def windowLanes (f : Nat) (at_ : Nat → Val) (mask : Nat → Bool) : Nat → Nat → Int → Num → Int × Num
  | 0, _, q, n => (q, n)
  | k + 1, i, q, n =>
    let (z, n1) := n.z
    if mask i then
      let (x, g) := toA64 n.mode z f (at_ i)
      let (r, c) := clampA64 (q + x)
      windowLanes f at_ mask k (i + 1) r (n1.raise (g.or { sat := c }))
    else windowLanes f at_ mask k (i + 1) q n1

/-- VRSUMA (R184). -/
def State.windowReduce (s : State) (la : BitVec 4) (ty m : BitVec 3) (vb va vd : BitVec 4) (word : BitVec 32) : Out :=
  let t := elemTy ty
  let f := min 62 ((s.cx.readV vb).toNat % 64)
  let (q, n) := windowLanes f (fun i => decodeElem t (vlane (s.cx.readV va) t.bits i)) (s.cx.readM m).getLsbD t.lanes 0
    (signed 64 (s.cx.readV vd).toNat) (s.num (s.cx.roundMode 3))
  s.reduceTo la vd word n (wordOfInt q).toNat 8

/-- VRSUM (R182). -/
def execVrsum (la : BitVec 4) (ty m : BitVec 3) (va vd : BitVec 4) (s : State) : Out :=
  s.sumReduce la ty m 0 va vd (recordWord (wvWord 0x23 vd.toNat va.toNat 0 m.toNat ty.toNat 0 la.toNat)) false

/-- VDOT (R182). -/
def execVdot (la : BitVec 4) (ty m : BitVec 3) (vb va vd : BitVec 4) (s : State) : Out :=
  s.sumReduce la ty m vb va vd (recordWord (wvWord 0x23 vd.toNat va.toNat vb.toNat m.toNat ty.toNat 6 la.toNat)) true

/-- VRMAX (R182). -/
def execVrmax (la : BitVec 4) (ty m : BitVec 3) (va vd : BitVec 4) (s : State) : Out :=
  s.bestReduce la ty m va vd (recordWord (wvWord 0x23 vd.toNat va.toNat 0 m.toNat ty.toNat 1 la.toNat)) true

/-- VRMIN (R182). -/
def execVrmin (la : BitVec 4) (ty m : BitVec 3) (va vd : BitVec 4) (s : State) : Out :=
  s.bestReduce la ty m va vd (recordWord (wvWord 0x23 vd.toNat va.toNat 0 m.toNat ty.toNat 2 la.toNat)) false

/-- VRBAND (R182). -/
def execVrband (la : BitVec 4) (ty m : BitVec 3) (va vd : BitVec 4) (s : State) : Out :=
  s.bitReduce la ty m va vd (recordWord (wvWord 0x23 vd.toNat va.toNat 0 m.toNat ty.toNat 3 la.toNat)) (fun n => 2 ^ n - 1) (fun a b => a &&& b)

/-- VRBOR (R182). -/
def execVrbor (la : BitVec 4) (ty m : BitVec 3) (va vd : BitVec 4) (s : State) : Out :=
  s.bitReduce la ty m va vd (recordWord (wvWord 0x23 vd.toNat va.toNat 0 m.toNat ty.toNat 4 la.toNat)) (fun _ => 0) (fun a b => a ||| b)

/-- VRBXOR (R182). -/
def execVrbxor (la : BitVec 4) (ty m : BitVec 3) (va vd : BitVec 4) (s : State) : Out :=
  s.bitReduce la ty m va vd (recordWord (wvWord 0x23 vd.toNat va.toNat 0 m.toNat ty.toNat 5 la.toNat)) (fun _ => 0) (fun a b => a ^^^ b)

/-- VRSUMA (R184). -/
def execVrsuma (la : BitVec 4) (ty m : BitVec 3) (vb va vd : BitVec 4) (s : State) : Out :=
  s.windowReduce la ty m vb va vd (recordWord (wvWord 0x23 vd.toNat va.toNat vb.toNat m.toNat ty.toNat 7 la.toNat))


end Sys2Proof.Machine
end

