-- ==== Sys2Proof/Machine/Dispatch.lean ====
section
/-!
DEFINITION. The meaning of every operation: one arm per constructor of Instr, each a direct call.
-/

namespace Sys2Proof.Machine

/-- One operation of the MZ4 acting on the device. -/
def exec (i : Instr) (s : State) : Host.Outcome State Fault Refusal :=
  match i with
  | .add d a b => Sys2Proof.Machine.execAdd d a b s
  | .sub d a b => Sys2Proof.Machine.execSub d a b s
  | .and_ d a b => Sys2Proof.Machine.execAnd d a b s
  | .or_ d a b => Sys2Proof.Machine.execOr d a b s
  | .xor_ d a b => Sys2Proof.Machine.execXor d a b s
  | .andn d a b => Sys2Proof.Machine.execAndn d a b s
  | .orn d a b => Sys2Proof.Machine.execOrn d a b s
  | .xnor d a b => Sys2Proof.Machine.execXnor d a b s
  | .shl d a b => Sys2Proof.Machine.execShl d a b s
  | .shr d a b => Sys2Proof.Machine.execShr d a b s
  | .sra d a b => Sys2Proof.Machine.execSra d a b s
  | .rol d a b => Sys2Proof.Machine.execRol d a b s
  | .ror d a b => Sys2Proof.Machine.execRor d a b s
  | .min d a b => Sys2Proof.Machine.execMin d a b s
  | .max d a b => Sys2Proof.Machine.execMax d a b s
  | .minn d a b => Sys2Proof.Machine.execMinn d a b s
  | .maxn d a b => Sys2Proof.Machine.execMaxn d a b s
  | .slt d a b => Sys2Proof.Machine.execSlt d a b s
  | .sltn d a b => Sys2Proof.Machine.execSltn d a b s
  | .seq d a b => Sys2Proof.Machine.execSeq d a b s
  | .sne d a b => Sys2Proof.Machine.execSne d a b s
  | .clz d a => Sys2Proof.Machine.execClz d a s
  | .ctz d a => Sys2Proof.Machine.execCtz d a s
  | .popc d a => Sys2Proof.Machine.execPopc d a s
  | .brev d a => Sys2Proof.Machine.execBrev d a s
  | .bswap d a => Sys2Proof.Machine.execBswap d a s
  | .sext xf d a => Sys2Proof.Machine.execSext xf d a s
  | .zext xf d a => Sys2Proof.Machine.execZext xf d a s
  | .mul la d a b => Sys2Proof.Machine.execMul la d a b s
  | .mulh la d a b => Sys2Proof.Machine.execMulh la d a b s
  | .mulhn la d a b => Sys2Proof.Machine.execMulhn la d a b s
  | .div la d a b => Sys2Proof.Machine.execDiv la d a b s
  | .divn la d a b => Sys2Proof.Machine.execDivn la d a b s
  | .rem la d a b => Sys2Proof.Machine.execRem la d a b s
  | .remn la d a b => Sys2Proof.Machine.execRemn la d a b s
  | .clmul la d a b => Sys2Proof.Machine.execClmul la d a b s
  | .clmulh la d a b => Sys2Proof.Machine.execClmulh la d a b s
  | .addi d a imm => Sys2Proof.Machine.execAddi d a imm s
  | .andi d a imm => Sys2Proof.Machine.execAndi d a imm s
  | .ori d a imm => Sys2Proof.Machine.execOri d a imm s
  | .xori d a imm => Sys2Proof.Machine.execXori d a imm s
  | .shli d a amt => Sys2Proof.Machine.execShli d a amt s
  | .shri d a amt => Sys2Proof.Machine.execShri d a amt s
  | .srai d a amt => Sys2Proof.Machine.execSrai d a amt s
  | .rori d a amt => Sys2Proof.Machine.execRori d a amt s
  | .slti d a imm => Sys2Proof.Machine.execSlti d a imm s
  | .sltni d a imm => Sys2Proof.Machine.execSltni d a imm s
  | .seqi d a imm => Sys2Proof.Machine.execSeqi d a imm s
  | .lih d imm => Sys2Proof.Machine.execLih d imm s
  | .lox d a => Sys2Proof.Machine.execLox d a s
  | .sox d a => Sys2Proof.Machine.execSox d a s
  | .ld la d a off w => Sys2Proof.Machine.execLd la d a off w s
  | .st d a off w => Sys2Proof.Machine.execSt d a off w s
  | .beq a b off => Sys2Proof.Machine.execBeq a b off s
  | .bne a b off => Sys2Proof.Machine.execBne a b off s
  | .blt a b off => Sys2Proof.Machine.execBlt a b off s
  | .bge a b off => Sys2Proof.Machine.execBge a b off s
  | .bltn a b off => Sys2Proof.Machine.execBltn a b off s
  | .bgen a b off => Sys2Proof.Machine.execBgen a b off s
  | .jal d off => Sys2Proof.Machine.execJal d off s
  | .jalr d a => Sys2Proof.Machine.execJalr d a s
  | .mfs d sel => Sys2Proof.Machine.execMfs d sel s
  | .mts sel a => Sys2Proof.Machine.execMts sel a s
  | .trap sel => Sys2Proof.Machine.execTrap sel s
  | .brk sel => Sys2Proof.Machine.execBrk sel s
  | .waiti d a => Sys2Proof.Machine.execWaiti d a s
  | .tlbi a => Sys2Proof.Machine.execTlbi a s
  | .tlba d a => Sys2Proof.Machine.execTlba d a s
  | .cAdd d b => Sys2Proof.Machine.execCAdd d b s
  | .cSub d b => Sys2Proof.Machine.execCSub d b s
  | .cMov d b => Sys2Proof.Machine.execCMov d b s
  | .cAddi d imm => Sys2Proof.Machine.execCAddi d imm s
  | .cLi d imm => Sys2Proof.Machine.execCLi d imm s
  | .cAnd d b => Sys2Proof.Machine.execCAnd d b s
  | .cOr d b => Sys2Proof.Machine.execCOr d b s
  | .cXor d b => Sys2Proof.Machine.execCXor d b s
  | .cShli d imm => Sys2Proof.Machine.execCShli d imm s
  | .cShri d imm => Sys2Proof.Machine.execCShri d imm s
  | .cSrai d imm => Sys2Proof.Machine.execCSrai d imm s
  | .cLdsp d imm => Sys2Proof.Machine.execCLdsp d imm s
  | .cStsp d imm => Sys2Proof.Machine.execCStsp d imm s
  | .cBeqz d imm => Sys2Proof.Machine.execCBeqz d imm s
  | .cBnez d imm => Sys2Proof.Machine.execCBnez d imm s
  | .cJ off => Sys2Proof.Machine.execCJ off s
  | .cJr d => Sys2Proof.Machine.execCJr d s
  | .vld la o ty m xb xa v => Sys2Proof.Machine.execVld la o ty m xb xa v s
  | .vlds la o ty m xb xa v => Sys2Proof.Machine.execVlds la o ty m xb xa v s
  | .vgather la ty m xa vi v => Sys2Proof.Machine.execVgather la ty m xa vi v s
  | .vldb la o ty m xb xa v => Sys2Proof.Machine.execVldb la o ty m xb xa v s
  | .vst la o ty m xb xa v => Sys2Proof.Machine.execVst la o ty m xb xa v s
  | .vsts la o ty m xb xa v => Sys2Proof.Machine.execVsts la o ty m xb xa v s
  | .vscatter la ty m xa vi v => Sys2Proof.Machine.execVscatter la ty m xa vi v s
  | .vldbc la o m xb xa v => Sys2Proof.Machine.execVldbc la o m xb xa v s
  | .vadd la ty m vb va vd => Sys2Proof.Machine.execVadd la ty m vb va vd s
  | .vsub la ty m vb va vd => Sys2Proof.Machine.execVsub la ty m vb va vd s
  | .vmul la ty m vb va vd => Sys2Proof.Machine.execVmul la ty m vb va vd s
  | .vmin la ty m vb va vd => Sys2Proof.Machine.execVmin la ty m vb va vd s
  | .vmax la ty m vb va vd => Sys2Proof.Machine.execVmax la ty m vb va vd s
  | .vdiv la ty m vb va vd => Sys2Proof.Machine.execVdiv la ty m vb va vd s
  | .vabs la ty m va vd => Sys2Proof.Machine.execVabs la ty m va vd s
  | .vneg la ty m va vd => Sys2Proof.Machine.execVneg la ty m va vd s
  | .vfma la ty m vb va vd => Sys2Proof.Machine.execVfma la ty m vb va vd s
  | .vfms la ty m vb va vd => Sys2Proof.Machine.execVfms la ty m vb va vd s
  | .vfnma la ty m vb va vd => Sys2Proof.Machine.execVfnma la ty m vb va vd s
  | .vsqrt la ty m va vd => Sys2Proof.Machine.execVsqrt la ty m va vd s
  | .vcps la ty m vb va vd => Sys2Proof.Machine.execVcps la ty m vb va vd s
  | .viadd la ty m vb va vd => Sys2Proof.Machine.execViadd la ty m vb va vd s
  | .visub la ty m vb va vd => Sys2Proof.Machine.execVisub la ty m vb va vd s
  | .vimul la ty m vb va vd => Sys2Proof.Machine.execVimul la ty m vb va vd s
  | .vand la ty m vb va vd => Sys2Proof.Machine.execVand la ty m vb va vd s
  | .vor la ty m vb va vd => Sys2Proof.Machine.execVor la ty m vb va vd s
  | .vxor la ty m vb va vd => Sys2Proof.Machine.execVxor la ty m vb va vd s
  | .vimin la ty m vb va vd => Sys2Proof.Machine.execVimin la ty m vb va vd s
  | .vimax la ty m vb va vd => Sys2Proof.Machine.execVimax la ty m vb va vd s
  | .vshl la ty m vb va vd => Sys2Proof.Machine.execVshl la ty m vb va vd s
  | .vshr la ty m vb va vd => Sys2Proof.Machine.execVshr la ty m vb va vd s
  | .vsra la ty m vb va vd => Sys2Proof.Machine.execVsra la ty m vb va vd s
  | .vclmul la ty m vb va vd => Sys2Proof.Machine.execVclmul la ty m vb va vd s
  | .vpopc la ty m va vd => Sys2Proof.Machine.execVpopc la ty m va vd s
  | .vclz la ty m va vd => Sys2Proof.Machine.execVclz la ty m va vd s
  | .vceq la ty m vb va vd => Sys2Proof.Machine.execVceq la ty m vb va vd s
  | .vcne la ty m vb va vd => Sys2Proof.Machine.execVcne la ty m vb va vd s
  | .vclt la ty m vb va vd => Sys2Proof.Machine.execVclt la ty m vb va vd s
  | .vcle la ty m vb va vd => Sys2Proof.Machine.execVcle la ty m vb va vd s
  | .vcgt la ty m vb va vd => Sys2Proof.Machine.execVcgt la ty m vb va vd s
  | .vcge la ty m vb va vd => Sys2Proof.Machine.execVcge la ty m vb va vd s
  | .vsel la ty m vb va vd => Sys2Proof.Machine.execVsel la ty m vb va vd s
  | .vclass la ty m va vd => Sys2Proof.Machine.execVclass la ty m va vd s
  | .vexp2 la ty m va vd => Sys2Proof.Machine.execVexp2 la ty m va vd s
  | .vlog2 la ty m va vd => Sys2Proof.Machine.execVlog2 la ty m va vd s
  | .vrcp la ty m va vd => Sys2Proof.Machine.execVrcp la ty m va vd s
  | .vrsq la ty m va vd => Sys2Proof.Machine.execVrsq la ty m va vd s
  | .vtanh la ty m va vd => Sys2Proof.Machine.execVtanh la ty m va vd s
  | .vsig la ty m va vd => Sys2Proof.Machine.execVsig la ty m va vd s
  | .vsin la ty m va vd => Sys2Proof.Machine.execVsin la ty m va vd s
  | .vcos la ty m va vd => Sys2Proof.Machine.execVcos la ty m va vd s
  | .vcvt la m rm tyd tys va vd => Sys2Proof.Machine.execVcvt la m rm tyd tys va vd s
  | .vwiden la m rm tyd tys va vd => Sys2Proof.Machine.execVwiden la m rm tyd tys va vd s
  | .vnarrow la m rm tyd tys va vd => Sys2Proof.Machine.execVnarrow la m rm tyd tys va vd s
  | .vqnt la m rm tyd tys va vd => Sys2Proof.Machine.execVqnt la m rm tyd tys va vd s
  | .vqmax la m tyd tys va vd => Sys2Proof.Machine.execVqmax la m tyd tys va vd s
  | .vrng la m tyd vd => Sys2Proof.Machine.execVrng la m tyd vd s
  | .vrsum la ty m va vd => Sys2Proof.Machine.execVrsum la ty m va vd s
  | .vrmax la ty m va vd => Sys2Proof.Machine.execVrmax la ty m va vd s
  | .vrmin la ty m va vd => Sys2Proof.Machine.execVrmin la ty m va vd s
  | .vrband la ty m va vd => Sys2Proof.Machine.execVrband la ty m va vd s
  | .vrbor la ty m va vd => Sys2Proof.Machine.execVrbor la ty m va vd s
  | .vrbxor la ty m va vd => Sys2Proof.Machine.execVrbxor la ty m va vd s
  | .vdot la ty m vb va vd => Sys2Proof.Machine.execVdot la ty m vb va vd s
  | .vrsuma la ty m vb va vd => Sys2Proof.Machine.execVrsuma la ty m vb va vd s
  | .vshuf la ty m vb va vd => Sys2Proof.Machine.execVshuf la ty m vb va vd s
  | .vrot la ty m vb va vd => Sys2Proof.Machine.execVrot la ty m vb va vd s
  | .vslide la ty m vb va vd => Sys2Proof.Machine.execVslide la ty m vb va vd s
  | .vcmpr la ty m va vd => Sys2Proof.Machine.execVcmpr la ty m va vd s
  | .vexpd la ty m va vd => Sys2Proof.Machine.execVexpd la ty m va vd s
  | .viota la ty m vd => Sys2Proof.Machine.execViota la ty m vd s
  | .vbcast la ty m va vd => Sys2Proof.Machine.execVbcast la ty m va vd s
  | .vzip la ty m vb va vd => Sys2Proof.Machine.execVzip la ty m vb va vd s
  | .vget la ty x va => Sys2Proof.Machine.execVget la ty x va s
  | .vput la ty x va vd => Sys2Proof.Machine.execVput la ty x va vd s
  | .vsplat la ty m x vd => Sys2Proof.Machine.execVsplat la ty m x vd s
  | .vmov la ty m va vd => Sys2Proof.Machine.execVmov la ty m va vd s
  | .mand la vb va vd => Sys2Proof.Machine.execMand la vb va vd s
  | .mor la vb va vd => Sys2Proof.Machine.execMor la vb va vd s
  | .mxor la vb va vd => Sys2Proof.Machine.execMxor la vb va vd s
  | .mnot la va vd => Sys2Proof.Machine.execMnot la va vd s
  | .mpopc la va vd => Sys2Proof.Machine.execMpopc la va vd s
  | .mfirst la va vd => Sys2Proof.Machine.execMfirst la va vd s
  | .mset la vb va vd => Sys2Proof.Machine.execMset la vb va vd s
  | .mget la vb va vd => Sys2Proof.Machine.execMget la vb va vd s
  | .vchain la ty va vd => Sys2Proof.Machine.execVchain la ty va vd s
  | .vchainr la ty va vd => Sys2Proof.Machine.execVchainr la ty va vd s
  | .fork d a b => Sys2Proof.Machine.execFork d a b s
  | .join d => Sys2Proof.Machine.execJoin d s
  | .yield d => Sys2Proof.Machine.execYield d s
  | .domain d a => Sys2Proof.Machine.execDomain d a s
  | .spawnq d => Sys2Proof.Machine.execSpawnq d s
  | .lead d a b => Sys2Proof.Machine.execLead d a b s
  | .follow d a b => Sys2Proof.Machine.execFollow d a b s
  | .bri a b off => Sys2Proof.Machine.execBri a b off s
  | .post d a b => Sys2Proof.Machine.execPost d a b s
  | .postd d a b => Sys2Proof.Machine.execPostd d a b s
  | .safew d a => Sys2Proof.Machine.execSafew d a s
  | .dln d a => Sys2Proof.Machine.execDln d a s
  | .tagr d a => Sys2Proof.Machine.execTagr d a s
  | .clkr d => Sys2Proof.Machine.execClkr d s
  | .lateq d a => Sys2Proof.Machine.execLateq d a s
  | .send la d a b => Sys2Proof.Machine.execSend la d a b s
  | .recv la d a b => Sys2Proof.Machine.execRecv la d a b s
  | .recvw la d a b => Sys2Proof.Machine.execRecvw la d a b s
  | .epbind la d a => Sys2Proof.Machine.execEpbind la d a s
  | .epfree la d a => Sys2Proof.Machine.execEpfree la d a s
  | .epwhere la d a => Sys2Proof.Machine.execEpwhere la d a s
  | .prio d a => Sys2Proof.Machine.execPrio d a s
  | .prioq d a => Sys2Proof.Machine.execPrioq d a s
  | .phase sc => Sys2Proof.Machine.execPhase sc s
  | .fence sc => Sys2Proof.Machine.execFence sc s
  | .acq sc => Sys2Proof.Machine.execAcq sc s
  | .rel sc => Sys2Proof.Machine.execRel sc s
  | .pwait sc d a b => Sys2Proof.Machine.execPwait sc d a b s
  | .phint d a b => Sys2Proof.Machine.execPhint d a b s
  | .cadd la sc d a b => Sys2Proof.Machine.execCadd la sc d a b s
  | .cwait la sc d a b => Sys2Proof.Machine.execCwait la sc d a b s
  | .cread la sc d a => Sys2Proof.Machine.execCread la sc d a s
  | .creg la sc d a b => Sys2Proof.Machine.execCreg la sc d a b s
  | .cunreg la d a => Sys2Proof.Machine.execCunreg la d a s
  | .waita la sc d a b => Sys2Proof.Machine.execWaita la sc d a b s
  | .waitat la sc d a b => Sys2Proof.Machine.execWaitat la sc d a b s
  | .rdadd la sc d a b => Sys2Proof.Machine.execRdadd la sc d a b s
  | .rdaddf la sc d a b => Sys2Proof.Machine.execRdaddf la sc d a b s
  | .rdadda la sc d a b => Sys2Proof.Machine.execRdadda la sc d a b s
  | .rdmax la sc d a b => Sys2Proof.Machine.execRdmax la sc d a b s
  | .rdmin la sc d a b => Sys2Proof.Machine.execRdmin la sc d a b s
  | .rdand la sc d a b => Sys2Proof.Machine.execRdand la sc d a b s
  | .rdior la sc d a b => Sys2Proof.Machine.execRdior la sc d a b s
  | .rdxor la sc d a b => Sys2Proof.Machine.execRdxor la sc d a b s
  | .subs d a b => Sys2Proof.Machine.execSubs d a b s
  | .unsub d a => Sys2Proof.Machine.execUnsub d a s
  | .sflush d => Sys2Proof.Machine.execSflush d s
  | .sstat d a => Sys2Proof.Machine.execSstat d a s
  | .claim d a b => Sys2Proof.Machine.execClaim d a b s
  | .object d a b => Sys2Proof.Machine.execObject d a b s
  | .claimw d a => Sys2Proof.Machine.execClaimw d a s
  | .cwin d a b => Sys2Proof.Machine.execCwin d a b s
  | .cflush d a b => Sys2Proof.Machine.execCflush d a b s
  | .cinv d a b => Sys2Proof.Machine.execCinv d a b s
  | .bmode d a b => Sys2Proof.Machine.execBmode d a b s
  | .bqry d a => Sys2Proof.Machine.execBqry d a s
  | .pref a => Sys2Proof.Machine.execPref a s
  | .mcst sc d a b => Sys2Proof.Machine.execMcst sc d a b s
  | .efork d a => Sys2Proof.Machine.execEfork d a s
  | .erdv d a => Sys2Proof.Machine.execErdv d a s
  | .epush d a b => Sys2Proof.Machine.execEpush d a b s
  | .estat d a => Sys2Proof.Machine.execEstat d a s
  | .eabort d a b => Sys2Proof.Machine.execEabort d a b s
  | .mclaim d a b => Sys2Proof.Machine.execMclaim d a b s
  | .mrel d a b => Sys2Proof.Machine.execMrel d a b s
  | .mmap d a b => Sys2Proof.Machine.execMmap d a b s
  | .mjoin d a => Sys2Proof.Machine.execMjoin d a s
  | .twany d a b => Sys2Proof.Machine.execTwany d a b s
  | .twall d a b => Sys2Proof.Machine.execTwall d a b s
  | .tfirst d a => Sys2Proof.Machine.execTfirst d a s
  | .tclr d a => Sys2Proof.Machine.execTclr d a s
  | .sjoin d a b => Sys2Proof.Machine.execSjoin d a b s
  | .sleave d a => Sys2Proof.Machine.execSleave d a s
  | .scin d a b => Sys2Proof.Machine.execScin d a b s
  | .scout d a b => Sys2Proof.Machine.execScout d a b s
  | .dadd la m vb va vd => Sys2Proof.Machine.execDadd la m vb va vd s
  | .dsub la m vb va vd => Sys2Proof.Machine.execDsub la m vb va vd s
  | .dmul la m vb va vd => Sys2Proof.Machine.execDmul la m vb va vd s
  | .dfma la m vb va vd => Sys2Proof.Machine.execDfma la m vb va vd s
  | .ddiv la m vb va vd => Sys2Proof.Machine.execDdiv la m vb va vd s
  | .dsqrt la m va vd => Sys2Proof.Machine.execDsqrt la m va vd s
  | .dcvt la ty m vb va vd => Sys2Proof.Machine.execDcvt la ty m vb va vd s
  | .dmin la m vb va vd => Sys2Proof.Machine.execDmin la m vb va vd s
  | .verf la ty m va vd => Sys2Proof.Machine.execVerf la ty m va vd s
  | .vlgam la ty m va vd => Sys2Proof.Machine.execVlgam la ty m va vd s
  | .vpow la ty m vb va vd => Sys2Proof.Machine.execVpow la ty m vb va vd s
  | .vatn2 la ty m vb va vd => Sys2Proof.Machine.execVatn2 la ty m vb va vd s
  | .eret => Sys2Proof.Machine.execEret s
  | .synci => Sys2Proof.Machine.execSynci s
  | .halt => Sys2Proof.Machine.execHalt s
  | .cRet => Sys2Proof.Machine.execCRet s
  | .cNop => Sys2Proof.Machine.execCNop s
  | .exit_ => Sys2Proof.Machine.execExit s
  | .detach => Sys2Proof.Machine.execDetach s
  | .rend => Sys2Proof.Machine.execRend s
  | .fencer => Sys2Proof.Machine.execFencer s
  | .illegalInstruction => Sys2Proof.Machine.execIllegalInstruction s
  | .extensionMigration xf64 => Sys2Proof.Machine.execExtensionMigration xf64 s
  | .loadReply tid dest value level hops queue => Sys2Proof.Machine.execLoadReply tid dest value level hops queue s
  | .storeAck tid part refusal level => Sys2Proof.Machine.execStoreAck tid part refusal level s
  | .homeRequest q => Sys2Proof.Machine.execHomeRequest q s
  | .waitEntryWake tid pa value => Sys2Proof.Machine.execWaitEntryWake tid pa value s
  | .waitatTimeout tid pa => Sys2Proof.Machine.execWaitatTimeout tid pa s
  | .systemAtomicRequest who op pa operand reply => Sys2Proof.Machine.execSystemAtomicRequest who op pa operand reply s
  | .fabricRequestTimeout q => Sys2Proof.Machine.execFabricRequestTimeout q s
  | .fifoPush o bank value => Sys2Proof.Machine.execFifoPush o bank value s
  | .fifoPop tid bank dest => Sys2Proof.Machine.execFifoPop tid bank dest s
  | .fifoCount tid bank dest => Sys2Proof.Machine.execFifoCount tid bank dest s
  | .fifoHeldPushDone bank => Sys2Proof.Machine.execFifoHeldPushDone bank s
  | .fifoHeldPopDone bank => Sys2Proof.Machine.execFifoHeldPopDone bank s
  | .bankSwitchDone bank => Sys2Proof.Machine.execBankSwitchDone bank s
  | .subscriptionUpdate sub cells sent release => Sys2Proof.Machine.execSubscriptionUpdate sub cells sent release s
  | .objectionArrival addr claimer cause objector tag late => Sys2Proof.Machine.execObjectionArrival addr claimer cause objector tag late s
  | .claimDecision news => Sys2Proof.Machine.execClaimDecision news s
  | .claimRecordExpiry part actor addr claimer => Sys2Proof.Machine.execClaimRecordExpiry part actor addr claimer s
  | .eventArrival e => Sys2Proof.Machine.execEventArrival e s
  | .eventForward e => Sys2Proof.Machine.execEventForward e s
  | .eventSafe part actor => Sys2Proof.Machine.execEventSafe part actor s
  | .dispatchPick ctx => Sys2Proof.Machine.execDispatchPick ctx s
  | .switchOut ctx => Sys2Proof.Machine.execSwitchOut ctx s
  | .actorMove part actor core => Sys2Proof.Machine.execActorMove part actor core s
  | .stealRequest ctx => Sys2Proof.Machine.execStealRequest ctx s
  | .stealAnswer q => Sys2Proof.Machine.execStealAnswer q s
  | .priorityRaise tid raise => Sys2Proof.Machine.execPriorityRaise tid raise s
  | .phintExpiry core actor => Sys2Proof.Machine.execPhintExpiry core actor s
  | .messageArrival m => Sys2Proof.Machine.execMessageArrival m s
  | .messageForward m => Sys2Proof.Machine.execMessageForward m s
  | .messageRefused m => Sys2Proof.Machine.execMessageRefused m s
  | .directoryRequest who dest r => Sys2Proof.Machine.execDirectoryRequest who dest r s
  | .stubExpiry name => Sys2Proof.Machine.execStubExpiry name s
  | .waitiWake ctx => Sys2Proof.Machine.execWaitiWake ctx s
  | .waitiTimeout ctx => Sys2Proof.Machine.execWaitiTimeout ctx s
  | .joinComplete ctx => Sys2Proof.Machine.execJoinComplete ctx s
  | .safewComplete ctx => Sys2Proof.Machine.execSafewComplete ctx s
  | .leadTimeout ctx => Sys2Proof.Machine.execLeadTimeout ctx s
  | .followTimeout ctx => Sys2Proof.Machine.execFollowTimeout ctx s
  | .twaitLimit ctx => Sys2Proof.Machine.execTwaitLimit ctx s
  | .commandPortWrite o engine cmd => Sys2Proof.Machine.execCommandPortWrite o engine cmd s
  | .stagingStore o engine offset bytes => Sys2Proof.Machine.execStagingStore o engine offset bytes s
  | .stagingCommit o engine value => Sys2Proof.Machine.execStagingCommit o engine value s
  | .pushHeldAccept core engine => Sys2Proof.Machine.execPushHeldAccept core engine s
  | .programRecordRead program => Sys2Proof.Machine.execProgramRecordRead program s
  | .commandComplete cmd => Sys2Proof.Machine.execCommandComplete cmd s
  | .carryDelivery chain position => Sys2Proof.Machine.execCarryDelivery chain position s
  | .collectivePartial p => Sys2Proof.Machine.execCollectivePartial p s
  | .mxFill cmd => Sys2Proof.Machine.execMxFill cmd s
  | .mxMma cmd => Sys2Proof.Machine.execMxMma cmd s
  | .mxJoint cmd => Sys2Proof.Machine.execMxJoint cmd s
  | .mxOut cmd => Sys2Proof.Machine.execMxOut cmd s
  | .mxZero cmd => Sys2Proof.Machine.execMxZero cmd s
  | .mxRdacc cmd => Sys2Proof.Machine.execMxRdacc cmd s
  | .scLin cmd => Sys2Proof.Machine.execScLin cmd s
  | .scPfx cmd => Sys2Proof.Machine.execScPfx cmd s
  | .scSeed cmd => Sys2Proof.Machine.execScSeed cmd s
  | .scSeg cmd => Sys2Proof.Machine.execScSeg cmd s
  | .cpCopy cmd => Sys2Proof.Machine.execCpCopy cmd s
  | .cpGather cmd => Sys2Proof.Machine.execCpGather cmd s
  | .cpScatter cmd => Sys2Proof.Machine.execCpScatter cmd s
  | .cpFill cmd => Sys2Proof.Machine.execCpFill cmd s
  | .cpCadd cmd => Sys2Proof.Machine.execCpCadd cmd s
  | .cpWait cmd => Sys2Proof.Machine.execCpWait cmd s
  | .clRss cmd => Sys2Proof.Machine.execClRss cmd s
  | .clAgs cmd => Sys2Proof.Machine.execClAgs cmd s
  | .clSend cmd => Sys2Proof.Machine.execClSend cmd s
  | .clRecva cmd => Sys2Proof.Machine.execClRecva cmd s
  | .clRate cmd => Sys2Proof.Machine.execClRate cmd s
  | .ctagsClear core mask => Sys2Proof.Machine.execCtagsClear core mask s
  | .qgrpWrite ctx value => Sys2Proof.Machine.execQgrpWrite ctx value s
  | .boundWrite ctx value => Sys2Proof.Machine.execBoundWrite ctx value s
  | .sdownGo part value => Sys2Proof.Machine.execSdownGo part value s
  | .shootdownRequest fromDevice frame size part => Sys2Proof.Machine.execShootdownRequest fromDevice frame size part s
  | .shootdownAck part device => Sys2Proof.Machine.execShootdownAck part device s
  | .shootdownTimeout part => Sys2Proof.Machine.execShootdownTimeout part s
  | .mcmdRead ctx offset => Sys2Proof.Machine.execMcmdRead ctx offset s
  | .mcmdWrite ctx offset => Sys2Proof.Machine.execMcmdWrite ctx offset s
  | .fwwakeWrite complex core => Sys2Proof.Machine.execFwwakeWrite complex core s
  | .launchConfigWrite part value => Sys2Proof.Machine.execLaunchConfigWrite part value s
  | .queueEnable q => Sys2Proof.Machine.execQueueEnable q s
  | .queueDisable q => Sys2Proof.Machine.execQueueDisable q s
  | .queueClear q => Sys2Proof.Machine.execQueueClear q s
  | .prodWrite q prod => Sys2Proof.Machine.execProdWrite q prod s
  | .registerWrite target value => Sys2Proof.Machine.execRegisterWrite target value s
  | .faultQueueHeadWrite part head => Sys2Proof.Machine.execFaultQueueHeadWrite part head s
  | .hostApertureAccess part va data => Sys2Proof.Machine.execHostApertureAccess part va data s
  | .packetIssue q => Sys2Proof.Machine.execPacketIssue q s
  | .phaseClean q phase => Sys2Proof.Machine.execPhaseClean q phase s
  | .gangPlace q => Sys2Proof.Machine.execGangPlace q s
  | .gangAge q => Sys2Proof.Machine.execGangAge q s
  | .clockSyncRead => Sys2Proof.Machine.execClockSyncRead s
  | .clockSyncReply t2 => Sys2Proof.Machine.execClockSyncReply t2 s
  | .clockSyncStale => Sys2Proof.Machine.execClockSyncStale s
  | .flitReceive link f => Sys2Proof.Machine.execFlitReceive link f s
  | .nakReceive link ack => Sys2Proof.Machine.execNakReceive link ack s
  | .nakRepeat link => Sys2Proof.Machine.execNakRepeat link s
  | .linkRetrainDone link ok => Sys2Proof.Machine.execLinkRetrainDone link ok s
  | .stationDown station => Sys2Proof.Machine.execStationDown station s
  | .fabricAtomicRefused device => Sys2Proof.Machine.execFabricAtomicRefused device s
  | .mailboxUnknownKind record => Sys2Proof.Machine.execMailboxUnknownKind record s
  | .watchdogExpiry => Sys2Proof.Machine.execWatchdogExpiry s
  | .mctpControl message => Sys2Proof.Machine.execMctpControl message s
  | .partCreate part clusters base limit => Sys2Proof.Machine.execPartCreate part clusters base limit s
  | .partDestroy part => Sys2Proof.Machine.execPartDestroy part s
  | .accessWrite target part cls entry => Sys2Proof.Machine.execAccessWrite target part cls entry s
  | .stationMap station device part => Sys2Proof.Machine.execStationMap station device part s
  | .queueAssign q part hshare fshare => Sys2Proof.Machine.execQueueAssign q part hshare fshare s
  | .teardown part => Sys2Proof.Machine.execTeardown part s
  | .debugWrite index actor tid ss bpa wpa => Sys2Proof.Machine.execDebugWrite index actor tid ss bpa wpa s
  | .retire part cluster => Sys2Proof.Machine.execRetire part cluster s
  | .counters => Sys2Proof.Machine.execCounters s
  | .fwUpdate image => Sys2Proof.Machine.execFwUpdate image s
  | .configWrite image => Sys2Proof.Machine.execConfigWrite image s
  | .attest nonce => Sys2Proof.Machine.execAttest nonce s
  | .reset => Sys2Proof.Machine.execReset s
  | .coreRestart complex core => Sys2Proof.Machine.execCoreRestart complex core s
  | .memoryError pa double site => Sys2Proof.Machine.execMemoryError pa double site s

end Sys2Proof.Machine
end

