-- ==== Sys2Proof/Machine/Firmware.lean ====
section
/-!
DEFINITION. The turn of a core of a firmware complex (spec/19 R513, R514; spec/04 R114, R118): the boot ROM's loop of cores 1 to 3, and the
instructions of firmware, whose bytes are free values.
-/

namespace Sys2Proof.Machine

/-- Whether an instruction neither accesses memory nor orders accesses, so that it may execute while an earlier access of its thread
has not acted (R48, R161, R323). -/
def registerOnly (i : Instr) : Bool :=
  match i with
  | .add .. | .sub .. | .and_ .. | .or_ .. | .xor_ .. | .andn .. | .orn .. | .xnor .. | .shl .. | .shr .. | .sra .. | .rol .. | .ror .. => true
  | .min .. | .max .. | .minn .. | .maxn .. | .slt .. | .sltn .. | .seq .. | .sne .. | .clz .. | .ctz .. | .popc .. | .brev .. => true
  | .bswap .. | .sext .. | .zext .. | .mul .. | .mulh .. | .mulhn .. | .div .. | .divn .. | .rem .. | .remn .. | .clmul .. | .clmulh .. => true
  | .addi .. | .andi .. | .ori .. | .xori .. | .shli .. | .shri .. | .srai .. | .rori .. | .slti .. | .sltni .. | .seqi .. | .lih .. => true
  | .lox .. | .sox .. | .beq .. | .bne .. | .blt .. | .bge .. | .bltn .. | .bgen .. | .jal .. | .jalr .. | .mfs .. | .mts .. => true
  | .cAdd .. | .cSub .. | .cMov .. | .cAddi .. | .cLi .. | .cAnd .. | .cOr .. | .cXor .. | .cShli .. | .cShri .. | .cSrai .. => true
  | .cBeqz .. | .cBnez .. | .cJ .. | .cJr .. | .cRet | .cNop | .bri .. => true
  | .vadd .. | .vsub .. | .vmul .. | .vmin .. | .vmax .. | .vdiv .. | .vabs .. | .vneg .. | .vfma .. | .vfms .. | .vfnma .. => true
  | .vsqrt .. | .vcps .. | .viadd .. | .visub .. | .vimul .. | .vand .. | .vor .. | .vxor .. | .vimin .. | .vimax .. | .vshl .. => true
  | .vshr .. | .vsra .. | .vclmul .. | .vpopc .. | .vclz .. | .vceq .. | .vcne .. | .vclt .. | .vcle .. | .vcgt .. | .vcge .. => true
  | .vsel .. | .vclass .. | .vexp2 .. | .vlog2 .. | .vrcp .. | .vrsq .. | .vtanh .. | .vsig .. | .vsin .. | .vcos .. | .vcvt .. => true
  | .vwiden .. | .vnarrow .. | .vqnt .. | .vqmax .. | .vrng .. | .vrsum .. | .vrmax .. | .vrmin .. | .vrband .. | .vrbor .. => true
  | .vrbxor .. | .vdot .. | .vrsuma .. | .vshuf .. | .vrot .. | .vslide .. | .vcmpr .. | .vexpd .. | .viota .. | .vbcast .. => true
  | .vzip .. | .vget .. | .vput .. | .vsplat .. | .vmov .. | .mand .. | .mor .. | .mxor .. | .mnot .. | .mpopc .. | .mfirst .. => true
  | .mset .. | .mget .. | .domain .. | .dln .. | .tagr .. | .clkr .. | .lateq .. | .send .. | .recv .. | .recvw .. | .prio .. => true
  | .dadd .. | .dsub .. | .dmul .. | .dfma .. | .ddiv .. | .dsqrt .. | .dcvt .. | .dmin .. | .verf .. | .vlgam .. | .vpow .. => true
  | .vatn2 .. => true
  | _ => false

/-- A byte of the memory of a firmware complex (R513, R514): what its cores have written, else a free value (DESIGN CHOICE, log entry
12). -/
def State.fwByte (s : State) (complex a : Nat) : Byte :=
  ((s.firmware.memory.find? (fun c => c.1 == complex * 2 ^ 64 + a % 2 ^ 64)).map (·.2)).getD
    (Config.firmwareByte s.firmware.boots complex (a % 2 ^ 64))

/-- n bytes of the memory of a firmware complex. -/
def State.fwBytes (s : State) (complex a n : Nat) : List Byte := (List.range n).map (fun j => s.fwByte complex (a + j))

/-- Bytes written into the memory of a firmware complex. -/
def State.fwPut (s : State) (complex a : Nat) (bytes : List Byte) : State :=
  { s with firmware := { s.firmware with
      memory := (bytes.zipIdx.map (fun b => (complex * 2 ^ 64 + (a + b.2) % 2 ^ 64, b.1))).foldl (fun m c =>
        c :: m.filter (fun d => d.1 != c.1)) s.firmware.memory } }

/-- Firmware core k changed. -/
def State.withFw (s : State) (k : Nat) (f : FwCore → FwCore) : State :=
  { s with firmware := { s.firmware with cores := s.firmware.cores.zipIdx.map (fun e => if e.2 = k then f e.1 else e.1) } }

/-- The running context's next instruction lies so many bytes further. -/
def Ctx.fwRetire (c : Ctx) (d : Reg) (v : Word) (len : Nat) : Ctx := (c.writeX d v).retire len

/-- LD or ST of a firmware core, in the memory of its complex; a misaligned one would take a trap of level 2. -/
def State.fwAccess (s : State) (complex : Nat) (i : Instr) : Option State :=
  let load := fun (d : Reg) (ea : Word) (w : BitVec 3) (len : Nat) =>
    if ea.toNat % loadSize w ≠ 0 then none
    else some (s.withCx (fun c => c.fwRetire d (loadValue w (s.fwBytes complex ea.toNat (loadSize w))) len))
  let store := fun (d : Reg) (ea : Word) (size len : Nat) =>
    if ea.toNat % size ≠ 0 then none
    else some ((s.fwPut complex ea.toNat (bytesOf (s.x d).toNat size)).withCx (fun c => c.retire len))
  match i with
  | .ld _ d a off w => load d (effAddr (s.x a) off (loadSize w)) w 4
  | .st d a off w => store d (effAddr (s.x a) off (storeSize w)) (storeSize w) 4
  | _ => none

/-- Whether an instruction of firmware is executed as on any core: register arithmetic, branches, and the system instructions. -/
def fwPlain (i : Instr) : Bool :=
  registerOnly i || match i with | .waiti .. => true | .halt => true | .synci => true | _ => false

/-- A decoded instruction of the firmware core that has the turn.  Level 2 has no trap that the manual describes, and it does not say
what firmware does with the memory and the units of compute cores: such an instruction is refused by name. -/
def State.fwRun (s : State) (complex : Nat) (d : Decoded) : Out :=
  match d with
  | .word i _ =>
    match s.fwAccess complex i with
    | some t => .next t
    | none =>
      if !fwPlain i then .refused .firmwareCode
      else
        match exec i s with
        | .next t => if t.cx.pl = 2 ∧ t.cx.key = s.cx.key then .next t else .refused .firmwareCode
        | o => o
  | _ => .refused .firmwareCode

/-- The boot ROM's loop of cores 1 to 3 (R514): woken, the core loads the doubleword at 0x100 + 8k of its complex's memory and jumps to
it when it is not zero. -/
def State.fwBoot (s : State) (k : Nat) : State :=
  if !(s.firmware.cores[k]?).any (·.wake) then s
  else
    let start := BitVec.ofNat 64 (ofBytes (s.fwBytes (k / 4) (0x100 + 8 * (k % 4)) 8))
    (s.takeWake k).withFw k (fun c =>
      if start = 0 then c
      else { c with started := true, ctx := { c.ctx with run := .running, pc := start &&& ~~~1 } })

/-- The turn of firmware core k as its context runs or waits. -/
noncomputable def State.fwIssue (s : State) (k : Nat) : Out :=
  match s.cx.run with
  | .running => s.fwRun (k / 4) (decodeBytes (s.fwBytes (k / 4) s.cx.pc.toNat 4))
  | .waiting .retry => s.fwRun (k / 4) (decodeBytes (s.fwBytes (k / 4) s.cx.pc.toNat 4))
  | .waiting .keeping => s.fwRun (k / 4) (decodeBytes (s.fwBytes (k / 4) s.cx.pc.toNat 4))
  | .waiting (.waiti _ _) => .next s.testWaiti
  | _ => .next s

/-- The turn of firmware core k (R513, R514): its context has the turn while it issues. -/
noncomputable def State.firmwareTurn (s : State) (k : Nat) : Out :=
  match s.firmware.cores[k]? with
  | none => .next s
  | some f =>
    if !f.started then .next (s.fwBoot k)
    else
      match ({ s with cx := f.ctx, others := if s.cx.run = Run.idle then s.others else insertCtx s.cx s.others }).fwIssue k with
      | .next t =>
        .next { (t.withFw k (fun g => { g with ctx := t.cx })) with
                cx := s.cx, others := t.others.filter (fun c => c.key != s.cx.key) }
      | o => o

end Sys2Proof.Machine
end

