-- ==== Sys2Proof/Machine/Happen.lean ====
section
/-!
DEFINITION. What a happening in flight does when it lands: the meaning of the operation that it is (spec/95_what_each_step_holds.md).
-/

namespace Sys2Proof.Machine

/-- A happening lands. -/
def runHappening (i : Happening) (s : State) : Out :=
  match i with
  | .extensionMigration xf64 => execExtensionMigration xf64 s
  | .loadReply tid dest value level hops queue => execLoadReply tid dest value level hops queue s
  | .storeAck tid part refusal level => execStoreAck tid part refusal level s
  | .homeRequest q => execHomeRequest q s
  | .waitEntryWake tid pa value => execWaitEntryWake tid pa value s
  | .waitatTimeout tid pa => execWaitatTimeout tid pa s
  | .systemAtomicRequest device op pa operand tid reply => execSystemAtomicRequest ⟨device, tid⟩ op pa operand reply s
  | .fabricRequestTimeout q => execFabricRequestTimeout q s
  | .fifoPush o bank value => execFifoPush o bank value s
  | .fifoPop tid bank dest => execFifoPop tid bank dest s
  | .fifoCount tid bank dest => execFifoCount tid bank dest s
  | .fifoHeldPushDone bank => execFifoHeldPushDone bank s
  | .fifoHeldPopDone bank => execFifoHeldPopDone bank s
  | .bankSwitchDone bank => execBankSwitchDone bank s
  | .subscriptionUpdate sub u => execSubscriptionUpdate sub u.cells u.sent u.release s
  | .objectionArrival addr claimer cause objector objectorTid tag late => execObjectionArrival addr claimer cause ⟨objector, objectorTid⟩ tag late s
  | .claimDecision news => execClaimDecision news s
  | .claimRecordExpiry part actor addr claimer => execClaimRecordExpiry part actor addr claimer s
  | .eventArrival e => execEventArrival e s
  | .eventForward e => execEventForward e s
  | .eventSafe part actor => execEventSafe part actor s
  | .dispatchPick ctx => execDispatchPick ctx s
  | .switchOut ctx => execSwitchOut ctx s
  | .actorMove part actor core => execActorMove part actor core s
  | .stealRequest ctx => execStealRequest ctx s
  | .stealAnswer q => execStealAnswer q s
  | .priorityRaise tid cls far => execPriorityRaise tid ⟨cls, far⟩ s
  | .phintExpiry core actor => execPhintExpiry core actor s
  | .messageArrival m => execMessageArrival m s
  | .messageForward m => execMessageForward m s
  | .messageRefused m => execMessageRefused m s
  | .directoryRequest device tid dest r => execDirectoryRequest ⟨device, tid⟩ dest r s
  | .stubExpiry name => execStubExpiry name s
  | .waitiWake ctx => execWaitiWake ctx s
  | .waitiTimeout ctx => execWaitiTimeout ctx s
  | .joinComplete ctx => execJoinComplete ctx s
  | .safewComplete ctx => execSafewComplete ctx s
  | .leadTimeout ctx => execLeadTimeout ctx s
  | .followTimeout ctx => execFollowTimeout ctx s
  | .twaitLimit ctx => execTwaitLimit ctx s
  | .commandPortWrite o engine cmd => execCommandPortWrite o engine cmd s
  | .stagingStore o engine offset bytes => execStagingStore o engine offset bytes s
  | .stagingCommit o engine value => execStagingCommit o engine value s
  | .pushHeldAccept core engine => execPushHeldAccept core engine s
  | .programRecordRead program => execProgramRecordRead program s
  | .commandComplete cmd => execCommandComplete cmd s
  | .carryDelivery chain position => execCarryDelivery chain position s
  | .collectivePartial p => execCollectivePartial p s
  | .mxFill cmd => execMxFill cmd s
  | .mxMma cmd => execMxMma cmd s
  | .mxJoint cmd => execMxJoint cmd s
  | .mxOut cmd => execMxOut cmd s
  | .mxZero cmd => execMxZero cmd s
  | .mxRdacc cmd => execMxRdacc cmd s
  | .scLin cmd => execScLin cmd s
  | .scPfx cmd => execScPfx cmd s
  | .scSeed cmd => execScSeed cmd s
  | .scSeg cmd => execScSeg cmd s
  | .cpCopy cmd => execCpCopy cmd s
  | .cpGather cmd => execCpGather cmd s
  | .cpScatter cmd => execCpScatter cmd s
  | .cpFill cmd => execCpFill cmd s
  | .cpCadd cmd => execCpCadd cmd s
  | .cpWait cmd => execCpWait cmd s
  | .clRss cmd => execClRss cmd s
  | .clAgs cmd => execClAgs cmd s
  | .clSend cmd => execClSend cmd s
  | .clRecva cmd => execClRecva cmd s
  | .clRate cmd => execClRate cmd s
  | .ctagsClear core mask => execCtagsClear core mask s
  | .qgrpWrite ctx value => execQgrpWrite ctx value s
  | .boundWrite ctx value => execBoundWrite ctx value s
  | .sdownGo part value => execSdownGo part value s
  | .shootdownRequest fromDevice frame size part => execShootdownRequest fromDevice frame size part s
  | .shootdownAck part device => execShootdownAck part device s
  | .shootdownTimeout part => execShootdownTimeout part s
  | .mcmdRead ctx offset => execMcmdRead ctx offset s
  | .mcmdWrite ctx offset => execMcmdWrite ctx offset s
  | .fwwakeWrite complex core => execFwwakeWrite complex core s
  | .launchConfigWrite part value => execLaunchConfigWrite part value s
  | .queueEnable q => execQueueEnable q s
  | .queueDisable q => execQueueDisable q s
  | .queueClear q => execQueueClear q s
  | .prodWrite q prod => execProdWrite q prod s
  | .registerWrite target value => execRegisterWrite target value s
  | .faultQueueHeadWrite part head => execFaultQueueHeadWrite part head s
  | .hostApertureAccess part va data => execHostApertureAccess part va data s
  | .packetIssue q => execPacketIssue q s
  | .phaseClean q phase => execPhaseClean q phase s
  | .gangPlace q => execGangPlace q s
  | .gangAge q => execGangAge q s
  | .clockSyncRead => execClockSyncRead s
  | .clockSyncReply t2 => execClockSyncReply t2 s
  | .clockSyncStale => execClockSyncStale s
  | .flitReceive link f => execFlitReceive link f s
  | .nakReceive link ack => execNakReceive link ack s
  | .nakRepeat link => execNakRepeat link s
  | .linkRetrainDone link ok => execLinkRetrainDone link ok s
  | .stationDown station => execStationDown station s
  | .fabricAtomicRefused device => execFabricAtomicRefused device s
  | .mailboxUnknownKind record => execMailboxUnknownKind record s
  | .watchdogExpiry => execWatchdogExpiry s
  | .mctpControl message => execMctpControl message s
  | .partCreate part clusters base limit => execPartCreate part clusters base limit s
  | .partDestroy part => execPartDestroy part s
  | .accessWrite target part cls entry => execAccessWrite target part cls entry s
  | .stationMap station device part => execStationMap station device part s
  | .queueAssign q part hshare fshare => execQueueAssign q part hshare fshare s
  | .teardown part => execTeardown part s
  | .debugWrite index actor tid ss bpa wpa => execDebugWrite index actor tid ss bpa wpa s
  | .retire part cluster => execRetire part cluster s
  | .counters => execCounters s
  | .fwUpdate image => execFwUpdate image s
  | .configWrite image => execConfigWrite image s
  | .attest nonce => execAttest nonce s
  | .reset => execReset s
  | .coreRestart complex core => execCoreRestart complex core s
  | .memoryError pa double site => execMemoryError pa double site s

end Sys2Proof.Machine
end

