-- ==== Sys2Proof/Machine/Turn.lean ====
section
/-!
DEFINITION. What one step of the device is made of: which happening in flight may land, the traps that are due at a context's turn (spec/18
R467 to R470, R490), the fetch of a word (spec/01 R13, spec/02 R39), and what follows every step.
-/

namespace Sys2Proof.Machine

/-- Whether a happening in flight is a store to a port of a context on its way (R384). -/
def portTraffic (ctx : Nat) (i : Happening) : Bool :=
  match i with
  | .commandPortWrite o _ _ => o.ctx == ctx
  | .stagingStore o _ _ _ => o.ctx == ctx
  | .stagingCommit o _ _ => o.ctx == ctx
  | _ => false

/-- A message on its way: its sender and its endpoint. -/
def messageKey (i : Happening) : Option (Word × BitVec 32) :=
  match i with
  | .messageArrival m => some (m.fromTid, m.endpoint)
  | .messageForward m => some (m.fromTid, m.endpoint)
  | .messageRefused m => some (m.fromTid, m.endpoint)
  | _ => none

/-- Whether a happening is a store of a context to a command port or its traffic there (R383, R384). -/
def State.toPort (s : State) (ctx : Nat) (i : Happening) : Bool :=
  portTraffic ctx i ||
    match i with
    | .homeRequest q => q.origin.cls == 0 && q.origin.ctx == ctx && (match s.placeOf q.addr with | .port _ _ => true | _ => false)
    | _ => false

/-- The subscriber and the publisher's core of a subscription (R340). -/
def State.pairOf (s : State) (n : Nat) : Option (Word × Nat) := (s.subs.find? (fun b => b.num == n)).map (fun b => (b.tid, b.pubCore))

/-- Whose releases hold a happening back, if any do (R331): remote stores, events, what goes to a port, subscription updates, and what an engine
program reads (R339). -/
def State.heldFor (s : State) (i : Happening) : Option Before :=
  match i with
  | .homeRequest q => if q.origin.cls = 0 then some q.origin.before else none
  | .fifoPush o _ _ => if o.cls = 0 then some o.before else none
  | .commandPortWrite o _ _ => some o.before
  | .stagingStore o _ _ _ => some o.before
  | .stagingCommit o _ _ => some o.before
  | .subscriptionUpdate _ u => some u.sent
  | .eventArrival e => (s.taskOf e.waiter).map Ctx.before
  | .programRecordRead n => (s.programs.find? (fun p => p.num == n)).map (·.after)
  | _ => none

/-- The other device whose record in the mailbox window a happening is, if it is one (R503). -/
def State.recordFrom (s : State) (i : Happening) : Option Nat :=
  (match i with
    | .eventArrival e => some (e.sender.toNat / 2 ^ 16 % 1024)
    | .messageArrival m => some (m.fromTid.toNat / 2 ^ 48)
    | .directoryRequest d _ _ _ => some d
    | .objectionArrival _ claimer _ _ tid _ late => some (if late.isSome then claimer.toNat / 2 ^ 16 else tid.toNat / 2 ^ 48)
    | .claimDecision (.enter d _ _ _ _ _ _) => some d
    | .claimDecision (.won d _ _) => some d
    | .systemAtomicRequest d _ _ _ _ _ => some d
    | .shootdownRequest d _ _ _ => some d
    | .shootdownAck _ d => some d
    | .collectivePartial p => some p.device
    | _ => none).filter (fun d => d != s.dev.toNat)

/-- Whether an earlier happening in flight keeps a later one from landing before it: requests to one home (R301), what is sent after a
release (R331), stores to a port (R384), pushes and pops of one context (R305), updates of one publisher and subscriber (R340), messages of one
sender to one endpoint (R233), records of one device (R501, R503).  (DESIGN CHOICE, log entry 2.) -/
def State.keepsBack (s : State) (early late : Happening) : Bool :=
  ((s.heldFor late).any (fun b => s.heldBack b early)) || ((s.recordFrom late).isSome && s.recordFrom early == s.recordFrom late) ||
    match late with
    | .homeRequest q => match early with | .homeRequest e => s.requestBefore e q | _ => false
    | .commandPortWrite o _ _ => s.toPort o.ctx early
    | .stagingStore o _ _ _ => s.toPort o.ctx early
    | .stagingCommit o _ _ => s.toPort o.ctx early
    | .fifoPush o b _ => match early with | .fifoPush o' b' _ => o.ctx == o'.ctx && b == b' | _ => false
    | .fifoPop t b _ =>
      match early with
      | .fifoPop t' b' _ => t == t' && b == b'
      | .fifoCount t' b' _ => t == t' && b == b'
      | _ => false
    | .fifoCount t b _ => match early with | .fifoPop t' b' _ => t == t' && b == b' | _ => false
    | .subscriptionUpdate n _ => match early with | .subscriptionUpdate m _ => n == m || s.pairOf n == s.pairOf m | _ => false
    | .messageArrival m => messageKey early == some (m.fromTid, m.endpoint)
    | .messageForward m => messageKey early == some (m.fromTid, m.endpoint)
    | .messageRefused m => messageKey early == some (m.fromTid, m.endpoint)
    | _ => false

/-- Whether a happening waits for a store that is held at a full FIFO or a full port (R304, R331, R385). -/
def State.waitsAside (s : State) (i : Happening) : Bool := (s.heldFor i).any s.heldAside

/-- The happening of an index, taken from those in flight, when none before it keeps it back. -/
def State.takeLanding (s : State) (n : Nat) : Option (Happening × State) :=
  match s.inflight[n]? with
  | none => none
  | some i =>
    if s.waitsAside i || (s.inflight.take n).any (fun e => s.keepsBack e i) then none
    else some (i, { s with inflight := s.inflight.take n ++ s.inflight.drop (n + 1) })

/-- The happening that lands in this step, if one does (DESIGN CHOICE, log entry 2). -/
def State.landing (s : State) : Option (Happening × State) :=
  if s.inflight.isEmpty then none else (Config.arrives s.turn).bind (fun n => s.takeLanding (n % s.inflight.length))

/-- Whether an instruction closes every open window (R51). -/
def closesWindows (i : Instr) : Bool :=
  match i with
  | .rend => true
  | .exit_ => true
  | .join _ => true
  | .yield _ => true
  | .trap _ => true
  | .brk _ => true
  | .eret => true
  | .halt => true
  | .waiti _ _ => true
  | _ => false

/-- Whether an instruction is BRI (R226). -/
def isBri (i : Instr) : Bool := match i with | .bri _ _ _ => true | _ => false

/-- Whether an instruction ends the running task: REND in a root task, EXIT in another (R214). -/
def endsTask (root : Bool) (i : Instr) : Bool :=
  match i with
  | .rend => root
  | .exit_ => !root
  | _ => false

/-- What the fetch of a word answers: its bytes, or a fault at an address (R13, R39). -/
inductive Fetch where
  | bytes (l : List Byte) (s : State)
  | fault (code : Nat) (va : Word) (pa : Nat)
deriving Repr

/-- The word at the running context's pc is fetched (R13, R39). -/
def State.fetchWord (s : State) : Fetch :=
  let c := s.cx
  let core := coreOf c.key
  match s.fetchLineAt core c.part c.pl c.pc.toNat (some c.tid) with
  | .fault code pa => .fault code c.pc pa
  | .line d s1 =>
    let h := halfAt d c.pc.toNat
    if h % 2 = 0 then .bytes (bytesOf h 2) s1
    else
      match s1.fetchLineAt core c.part c.pl (c.pc + 2).toNat (some c.tid) with
      | .fault code pa => .fault code (c.pc + 2) pa
      | .line e s2 => .bytes (bytesOf h 2 ++ bytesOf (halfAt e (c.pc + 2).toNat) 2) s2

/-- Whether a breakpoint is armed at the running context's pc (R489, R490). -/
def Ctx.atBreakpoint (c : Ctx) : Bool := c.pl == 0 && c.bpa.getLsbD 0 && field c.bpa 1 63 == field c.pc 1 63

/-- An instruction that issued at level 0 under single step has a trap after it (R490), but for one that has taken a precise trap, waits
to be tried again, or has moved to another context first.  before is the context when the instruction issued. -/
def State.noteStep (s : State) (before : Ctx) : State :=
  if !before.ss ∨ before.pl ≠ 0 then s
  else
    match s.taskOf before.tid with
    | none => s
    | some c =>
      let trapped := c.pl != 0 && c.cause.code != 13
      let moved := c.key != before.key && c.pc == before.pc
      if trapped ∨ moved ∨ triedAgain c.run then s else s.withTask before.tid (fun c => { c with stepDue := true })

/-- The debug trap that is due before the running context's next instruction (R490): a watchpoint, then a single step, which waits for
a scalar long-latency instruction to complete.  (DEDUCED, log entry 60.) -/
def State.debugTrap (s : State) : Option State :=
  let c := s.cx
  if c.pl ≠ 0 then none
  else if c.watchHit then some ((s.withCx (fun c => { c with watchHit := false })).trap 15 2 true false c.pc 0 0 none)
  else if c.stepDue ∧ !c.pends.any (fun p => p.depth == c.depth && !p.isVector) then
    some ((s.withCx (fun c => { c with stepDue := false })).trap 15 0 false false c.pc 0 0 none)
  else none

/-- The trap that is due for a follower before a forwarded instruction, if any (R227): a debug trap, a late trap, a breakpoint. -/
def State.followerTrap (s : State) (closing : Bool) : Option State :=
  (s.debugTrap.orElse (fun _ => s.asyncTrap closing)).orElse (fun _ =>
    if s.cx.atBreakpoint then some (s.trap 15 1 false false s.cx.pc 0 0 none) else none)

/-- An instruction of the running context, and of its followers when it leads (R225). -/
def State.runInstr (s : State) (i : Instr) (word : BitVec 32) : Out :=
  match s.groupRun (isBri i) (endsTask s.cx.root i) word (fun s => s.followerTrap (closesWindows i)) (exec i) with
  | .next s1 => .next ((s.cx :: (s.followers s.cx).filterMap s.ctxAt).foldl (fun s c => s.noteStep c) s1)
  | o => o

/-- Whether an instruction is itself a memory-accessing vector instruction, which waits in order with the others (R474). -/
def vectorAccess (i : Instr) : Bool :=
  match i with
  | .vld .. | .vlds .. | .vgather .. | .vldb .. | .vst .. | .vsts .. | .vscatter .. | .vldbc .. | .vchain .. | .vchainr .. => true
  | _ => false

/-- Whether a waiting CWAIT, WAITA or WAITAT of the running code has not reached its boundary (R323). -/
def Ctx.entryOpen (c : Ctx) : Bool :=
  c.pends.any (fun p => p.depth == c.depth && match p.kind with | .entry _ _ _ _ _ _ => true | _ => false)

/-- Whether a vector access of the running code has not acted (R161). -/
def Ctx.vectorOpen (c : Ctx) : Bool := c.pends.any (fun p => p.depth == c.depth && p.isVector)

/-- An instruction of a window waits for an earlier access of its thread: the boundary of a wait on an address, and a vector access that
has not acted, come before later accesses whatever la says (R48, R161, R323).  (DESIGN CHOICE, log entry 67.) -/
def State.inOrder (s : State) (i : Instr) (run : State → Out) : Out :=
  if registerOnly i then run s
  else if s.cx.entryOpen then .next s.stall
  else if s.cx.vectorOpen && !vectorAccess i then .next s.stallOnSlot
  else run s

/-- A fetched word that the decoder has read (R59, R467): late faults that are due before an instruction of R51, the instruction, or
the illegal-instruction trap. -/
def State.runDecoded (s : State) (word : BitVec 32) (d : Decoded) : Out :=
  match d with
  | .word i _ =>
    match (if closesWindows i then s.asyncTrap true else none) with
    | some s1 => .next s1
    | none => s.inOrder i (fun s => s.runInstr i word)
  | _ => execIllegalInstruction s

/-- The running context's next word is fetched and runs; a follower that stalled at a forwarded word issues that (R225). -/
noncomputable def State.issueWord (s : State) : Out :=
  match s.cx.forwarded with
  | some w => s.withCx (fun c => { c with forwarded := none }) |>.runDecoded w (decodeBytes (bytesOf w.toNat 4))
  | none =>
    match s.fetchWord with
    | .fault code va pa => .next (s.fetchFault code va pa)
    | .bytes l s1 => s1.runDecoded (BitVec.ofNat 32 (ofBytes l)) (decodeBytes l)

/-- A leader whose followers have not all executed its last instruction, and a follower that has no word to issue: nothing issues (R225). -/
def State.groupHolds (s : State) : Bool :=
  if s.cx.role = 1 then !s.groupReady
  else if s.cx.role = 2 then (s.leaderOf s.cx).isSome && s.cx.forwarded.isNone
  else false

/-- A memory-accessing vector instruction that waits for the replay slot stops the code: the late fault of the one that holds the slot
is taken now (R474; DESIGN CHOICE, log entry 67). -/
def State.blockedTurn (s : State) : State :=
  if s.cx.pends.any (fun p => p.isVector && p.blocks s.cx.depth s.cx.replay.isSome) then s.slotFault.getD s else s

/-- The turn of a context that runs, or tries an instruction again: a late trap that is due, a wait for a long-latency instruction, a
breakpoint, or the next word. -/
noncomputable def State.issueTurn (s : State) : Out :=
  match s.asyncTrap false with
  | some s1 => .next s1
  | none =>
    if s.groupHolds then .next s
    else if s.cx.blocked then .next s.blockedTurn
    else if s.cx.atBreakpoint then .next (s.trap 15 1 false false s.cx.pc 0 0 none)
    else s.issueWord

/-- Whether a wait may be given up for a trap, to be executed again (R50, R467). -/
def Wait.interruptible (w : Wait) : Bool :=
  match w with
  | .posting _ => false
  | .bank _ _ _ => false
  | .waiti _ _ => false
  | _ => true

/-- A context in a wait gives it up; an instruction that waits has not completed, so that it executes again. -/
def State.giveUpWait (s : State) : State :=
  (s.leaveFollow s.cx).withCx (fun c => { c with run := .running, stepDue := false })

/-- The trap for which a context gives up its wait, if one is due (R467): JOIN closes windows, and so do REND and EXIT (R51). -/
def State.waitTrap (s : State) (w : Wait) : Option State :=
  if !w.interruptible then none
  else s.giveUpWait.asyncTrap (match w with | .join _ => true | _ => false)

/-- A context that waits tests its condition. -/
def State.testWait (s : State) (w : Wait) : State :=
  match w with
  | .join _ => s.testJoin
  | .safew _ _ => s.testSafew
  | .twait _ _ _ _ => s.testTwait
  | .lead _ _ _ _ => s.testLead
  | .follow _ _ _ _ => s.testFollow
  | .waiti _ _ => s.testWaiti
  | _ => s

/-- The turn of a context that waits: it tries its instruction again, or takes a trap that is due, or tests its condition. -/
noncomputable def State.waitTurn (s : State) (w : Wait) : Out :=
  match w with
  | .retry => (s.withCx (fun c => { c with run := .running })).issueTurn
  | .keeping => (s.withCx (fun c => { c with run := .running })).issueTurn
  | w => .next ((s.waitTrap w).getD (s.testWait w))

/-- The turn of a context that runs: a debug trap first. -/
noncomputable def State.runTurn (s : State) : Out :=
  match s.debugTrap with
  | some s1 => .next s1
  | none => s.issueTurn

/-- What comes first at a context's turn: records that find a slot free are written (R469), and a long form in progress goes on, as far
as a pre-emption lets it (R169). -/
noncomputable def State.beginTurn (s : State) : State :=
  let s1 := (s.settle 4).withCx (fun c => { c with limit := Config.longUnits s.turn })
  s1.startWaiting s1.cx.pends.length

/-- The turn of the context that has it (R193, R221). -/
noncomputable def State.turnOf (s : State) : Out :=
  match s.cx.run with
  | .idle => .next (s.ask s.cx.key)
  | .halted => .next s
  | .running =>
    if s.cx.pl = 3 then .fault .levelNeverHeld
    else if s.cx.pl = 2 then .refused .firmwareCode
    else s.beginTurn.runTurn
  | .waiting w => s.beginTurn.waitTurn w

/-- The contexts of the compute dies. -/
def contextCount : Nat := 64 * clusterCount

/-- Whether a context is ready to issue (R193). -/
def Ctx.ready (c : Ctx) : Bool := c.run == .running && !c.blocked

/-- The context that takes the turn when one is chosen (R193): a context that is ready gives way to the next ready one of its core,
round-robin from the one that issued last; one that is not ready only looks at what it waits for. -/
def State.roundRobin (s : State) (k : Nat) : Nat :=
  if (s.ctxAt k).any Ctx.ready then
    let last := (tget s.cores (coreOf k) Core.reset).lastIssued
    (((List.range 4).map (fun i => 4 * coreOf k + (last + 1 + i) % 4)).find? (fun j => (s.ctxAt j).any Ctx.ready)).getD k
  else k

/-- The turn passes to a context (R193). -/
def State.passTurn (s : State) (k : Nat) : State :=
  let j := s.roundRobin k
  ((if (s.ctxAt j).any Ctx.ready then s.withCore (coreOf j) (fun c => { c with lastIssued := j % 4 }) else s).focus j)

/-- Another device's memory changes as others write it (R290, R325; DESIGN CHOICE, log entry 5). -/
def State.changeFar (s : State) : State :=
  match Config.farChanged s.turn with
  | none => s
  | some (block, data) =>
    if deviceOf (64 * block) = s.dev.toNat then s else s.farAccept (cellsOf (64 * block) (bytesOf data.toNat 64))

/-- A context with RAE whose load has missed may run ahead until the miss returns (R486): what that keeps is a fill of a translation
entry and of a line of the level-1 cache or the instruction cache, which a free value names (DESIGN CHOICE, log entry 84). -/
def State.runAhead (s : State) : State :=
  match Config.runAhead s.turn with
  | none => s
  | some (key, va, code) =>
    match s.ctxAt key with
    | none => s
    | some c =>
      if c.rae && s.inflight.any (fun i => match i with | .loadReply tid _ _ _ _ _ => tid == c.tid | _ => false) then
        if code then s.icPrefetch (coreOf key) c.part va 1
        else
          match s.translate (coreOf key) c.part c.pl va false with
          | .fault _ _ => s
          | .ok leaf _ => (s.tlbFill (coreOf key) c.part va leaf).prefetch key c.part c.pl va
      else s

/-- What follows every step: other devices go on (R246, R325), a die link sends (R493), the active firmware complex keeps its control blocks
(R515), a context runs ahead (R486), pre-emption and gangs are considered (R251, R259), updates due to tasks that are switched out are
applied and their images kept current (R479 to R483), time passes, and the next context takes the turn.  (DESIGN CHOICE, log entry 64.) -/
def State.after (s before : State) : State :=
  let s1 := (s.changeFar.awayDone.sendFlit.keepBlocks.runAhead.preempt.ageGangs.applyAway).syncImages before
  let s2 := s1.tick (Config.elapsed s1.turn)
  { s2 with turn := s2.turn + 1, fwTurn := (Config.firmwareTurn s2.turn).map (· % 8) }.passTurn
    (Config.nextContext s2.turn % contextCount)

/-- The outcome of a step with what follows it.  (DESIGN CHOICE, log entry 64.) -/
def outcomeAfter (before : State) (o : Out) : Out :=
  match o with
  | .next s => .next (s.after before)
  | o => o

/-- One step of the device: a happening lands, or the firmware core or the context that has the turn takes it. -/
noncomputable def State.stepOnce (s : State) : Out :=
  match s.landing, s.fwTurn with
  | some (i, s1), _ => outcomeAfter s (runHappening i s1)
  | none, some k => outcomeAfter s (s.firmwareTurn k)
  | none, none => outcomeAfter s s.turnOf

end Sys2Proof.Machine
end

