-- ==== Sys2Proof/Machine/Step.lean ====
section
/-!
DEFINITION. One step of the device, and a state whose next step fetches and runs a given word.
-/

namespace Sys2Proof.Machine

/-- One step. -/
noncomputable def step (s : State) : Host.Outcome State Fault Refusal := s.stepOnce

/-- The context on which a placed program runs: context 0 of core 14 of cluster 0, a core with both extensions. -/
def loadKey : Nat := 56

/-- The virtual address of a placed program, on the second page of 64 KB. -/
def loadAddr : Nat := 0x10000

/-- Where a placed program's page tables and code lie in HBM. -/
def loadBase : Nat := 0x100000

/-- The thread of a placed program, at level 0 (R37). -/
def loadThread (s : State) : Ctx :=
  { Ctx.idle loadKey with
    run := .running, pc := BitVec.ofNat 64 loadAddr, xf64 := true, xsf := true, domain := 1, nextSeq := 1
    tid := BitVec.ofNat 64 (s.dev.toNat * 2 ^ 48 + 1), root := true, lcore := BitVec.ofNat 26 (s.dev.toNat * 65536 + 14) }

/-- The page tables of a placed program (R295, R297), and its code: three tables of 512 entries, one of 32, and a page that may be read,
written and executed at level 0. -/
def loadCells (s : State) (w : Nat) : List Cell :=
  let dev := s.dev.toNat * 2 ^ 48
  let entry := fun (at_ v : Nat) => cellsOf at_ (bytesOf v 8)
  entry loadBase (dev + loadBase + 0x1000 + 1) ++ entry (loadBase + 0x1000) (dev + loadBase + 0x2000 + 1) ++
    entry (loadBase + 0x2000) (dev + loadBase + 0x3000 + 1) ++
    entry (loadBase + 0x3008) (dev + loadBase + 0x10000 + 2 + 0x70 + 2 ^ 62) ++ cellsOf (loadBase + 0x10000) (bytesOf w 4)

/-- The entries that let partition 0 use HBM of the device through slice 0 and every port (R314). -/
def loadAccess : List ((AccessTarget × Nat × Nat) × Word) :=
  let e : Word := BitVec.ofNat 64 (7 + 0x600000 * 2 ^ 27)
  ((AccessTarget.homeSlice 0, 0, 0), e) :: (List.range 8).map (fun p => ((AccessTarget.hbmPort p, 0, 0), e))

/-- The state with an instruction placed where the next step fetches: a thread at level 0 of partition 0, its tables, its access
entries and the word at its pc; nothing in flight (DESIGN CHOICE, log entry 21). -/
def State.withFetchWord (s : State) (_nbits w : Nat) : State :=
  { s with
    cx := loadThread s
    others := s.others.filter (fun c => c.key != loadKey)
    cores := s.cores.filter (fun c => c.1 != coreOf loadKey)
    parts := tset s.parts 0
      { s.partition 0 with exists_ := true, gone := false, clusters := [0], base := 0, limit := 0x600000
                           ptbase := BitVec.ofNat 46 ((s.dev.toNat * 2 ^ 48 + loadBase) / 4096) }
    access := loadAccess ++ s.access
    mem := Memory.writeCells s.mem (loadCells s w)
    inflight := []
    fwTurn := none }

end Sys2Proof.Machine
end

