-- ==== Sys2Proof/Safety.lean ====
section
/-!
DEFINITION. What counts as a safe run, and the terms in which the claims speak of one operation: when open windows let an instruction
issue, and what a state that follows another may differ in.
-/

namespace Sys2Proof.Machine

/-- A state whose next step does not stop. -/
def State.safe (s : State) : Prop := ∃ t, step s = .next t

/-- Whether open windows let the running context issue an instruction with these destinations (R46, R50, R475). -/
def State.admits (s : State) (la : BitVec 4) (d : Dests) : Prop :=
  (s.cx.hazard d = false ∨ s.cx.lao = true) ∧ (la = 0 ∨ s.cx.overCapacity d = false)

/-- Whether they let it issue, and the dispatch ring has a place for it (R471). -/
def State.admitsRing (s : State) (la : BitVec 4) (d : Dests) : Prop := s.admits la d ∧ s.cx.ringFull = false

/-- The state t is s but for the running context: every other context, every task, memory, actor, queue, engine and device register is
the same. -/
def State.sameButCx (s t : State) : Prop := t = { s with cx := t.cx }

/-- The window that an instruction with one scalar destination opens (R45, R46). -/
def openedX (c : Ctx) (la : BitVec 4) (d : Reg) : List Window :=
  if la = 0 then [] else [⟨la.toNat, if d = 0 then [] else [(d.toNat, c.rawX d)], [], []⟩]

/-- The running context of t is that of s after an instruction that wrote v to the scalar register d, opened some windows and went on
to an address: its other scalar registers, and everything else it holds, are as they were, but for the counts of the open windows,
late faults and pending instructions (R45, R467). -/
structure State.wroteX (s t : State) (d : Reg) (v next : Word) (opened : List Window) : Prop where
  device : s.sameButCx t
  context : t.cx = { s.cx.stepTo next with x := t.cx.x, windows := t.cx.windows }
  windows : t.cx.windows = tickWindows (s.cx.writeX d v).windows ++ opened
  value : d ≠ 0 → t.cx.rawX d = v
  others : ∀ r, r ≠ d ∨ d = 0 → t.cx.rawX r = s.cx.rawX r

/-- The running context of t has taken a trap in s (R466): the level and the cause saved, the address to resume at, the handler's
entry, the windows kept, and no register or byte of memory changed. -/
structure State.trapped (s t : State) (code sub group : Nat) (late rpl : Bool) (resume : Word) : Prop where
  level : t.cx.pl = 1
  cause : t.cx.cause = ⟨late, rpl, s.cx.pl, BitVec.ofNat 16 sub, BitVec.ofNat 8 code⟩
  epc : t.cx.epc = BitVec.ofNat 63 (resume.toNat / 2)
  pc : t.cx.pc = BitVec.ofNat 64 (s.part.evec.toNat * 64 + 0x40 * group)
  windows : t.cx.windows = []
  kept : t.cx.kept = s.cx.windows :: s.cx.kept
  run : t.cx.run = .running
  registers : t.cx.x = s.cx.x ∧ t.cx.v = s.cx.v ∧ t.cx.m = s.cx.m ∧ t.cx.ox = s.cx.ox
  memory : t.mem = s.mem

/-- From the state s1, the scalar register d takes v and the thread goes on to the next 32-bit instruction. -/
def State.answered (s1 : State) (d : Reg) (v : Word) : State := s1.withCx (fun c => (c.writeX d v).retire 4)

/-- The address of the word after one of that length. -/
def State.nextPc (s : State) (len : Nat) : Word := s.cx.pc + BitVec.ofNat 64 len

/-- The old values that an open window keeps, without those of the registers that an instruction writes (R50). -/
def withoutDests (d : Dests) (w : Window) : Window :=
  { w with
    xs := w.xs.filter (fun e => !d.xs.any (fun r => r != 0 && e.1 == r.toNat))
    vs := w.vs.filter (fun e => !d.vs.any (fun r => e.1 == r.toNat))
    ms := w.ms.filter (fun e => !d.ms.any (fun r => r != 0 && e.1 == r.toNat)) }

/-- The state t is s after a vector instruction that computes in registers and writes only the destinations d: of the device, only the
core's stochastic stream may differ (R26), which is now st; of the context, only its destinations, its sticky flags, to which g has been
added (R27), its windows (R45, R46, R50), its pc and counts, and the ring entry that the instruction took, completed (R471). -/
structure State.computed (s t : State) (la : BitVec 4) (d : Dests) (st : Stream) (g : Flags) : Prop where
  device : t = { s with
    cx := t.cx, cores := (s.withCore (coreOf s.cx.key) (fun c => { c with s0 := st.s0, s1 := st.s1 })).cores }
  context : t.cx = { s.cx.stepTo (s.nextPc 4) with
    x := t.cx.x, v := t.cx.v, m := t.cx.m, windows := t.cx.windows, ring := t.cx.ring, nextSeq := seqNext s.cx.nextSeq,
    fflags := s.cx.fflags ||| g.toBits }
  entry : ∃ e : RingEntry, t.cx.ring = (s.cx.ring ++ [e]).drop (s.cx.ring.length - 63) ∧
    e.seq = s.cx.nextSeq ∧ e.pc = s.cx.pc ∧ e.state = 3
  windows : t.cx.windows = (tickWindows s.cx.windows).map (withoutDests d) ++ s.cx.capture la d
  otherX : ∀ r, r ∉ d.xs ∨ r = 0 → t.cx.rawX r = s.cx.rawX r
  otherV : ∀ r, r ∉ d.vs → t.cx.rawV r = s.cx.rawV r
  otherM : ∀ r, r ∉ d.ms ∨ r = 0 → t.cx.rawM r = s.cx.rawM r

end Sys2Proof.Machine
end

