-- ==== Sys2Proof/Certificates/Slice0/Obligations.lean ====
section
/-!
DEFINITION. The statements for the provers.  What each family of operations is to do is written here beside the statements, from the
rules of spec/, in tables from the instruction to its effect; the statements say that exec does it.
-/

namespace Sys2Proof.Claims

open Sys2Proof.Machine

/-! ## Scalar instructions -/

/-- A form with one scalar destination: the register it writes, its la field, its length in bytes, and what the value written is. -/
structure ScalarForm where
  dest : Reg
  la : BitVec 4
  len : Nat
  value : Word → Prop

/-- The instruction completes as its form says, when open windows let it issue. -/
def ScalarForm.completes (f : ScalarForm) (i : Instr) (s : State) : Prop :=
  s.admits f.la ⟨[f.dest], [], []⟩ →
    ∃ t v, exec i s = .next t ∧ f.value v ∧ s.wroteX t f.dest v (s.nextPc f.len) (openedX s.cx f.la f.dest)

/-- A four-byte form without a window. -/
def plainForm (d : Reg) (v : Word) : ScalarForm := ⟨d, 0, 4, fun w => w = v⟩

/-- A four-byte form without a window, whose value is described by its bits. -/
def bitsForm (d : Reg) (p : Word → Prop) : ScalarForm := ⟨d, 0, 4, p⟩

/-- A four-byte form with a window. -/
def longForm (la : BitVec 4) (d : Reg) (v : Word) : ScalarForm := ⟨d, la, 4, fun w => w = v⟩

/-- A two-byte form. -/
def shortForm (d : Reg) (v : Word) : ScalarForm := ⟨d, 0, 2, fun w => w = v⟩

/-- The forms of major 0x01 (R89). -/
def registerForm (s : State) : Instr → Option ScalarForm
  | .add d a b => some (plainForm d (BitVec.ofNat 64 ((s.x a).toNat + (s.x b).toNat)))
  | .sub d a b => some (plainForm d (BitVec.ofInt 64 ((s.x a).toInt - (s.x b).toInt)))
  | .and_ d a b => some (plainForm d (s.x a &&& s.x b))
  | .or_ d a b => some (plainForm d (s.x a ||| s.x b))
  | .xor_ d a b => some (plainForm d (s.x a ^^^ s.x b))
  | .andn d a b => some (plainForm d (s.x a &&& ~~~s.x b))
  | .orn d a b => some (plainForm d (s.x a ||| ~~~s.x b))
  | .xnor d a b => some (plainForm d (~~~(s.x a ^^^ s.x b)))
  | .shl d a b => some (plainForm d (BitVec.ofNat 64 ((s.x a).toNat * 2 ^ ((s.x b).toNat % 64))))
  | .shr d a b => some (plainForm d (BitVec.ofNat 64 ((s.x a).toNat / 2 ^ ((s.x b).toNat % 64))))
  | .sra d a b => some (plainForm d (BitVec.ofInt 64 ((s.x a).toInt / 2 ^ ((s.x b).toNat % 64))))
  | .rol d a b => some (plainForm d ((s.x a).rotateLeft ((s.x b).toNat % 64)))
  | .ror d a b => some (plainForm d ((s.x a).rotateRight ((s.x b).toNat % 64)))
  | .min d a b => some (plainForm d (if (s.x a).toInt < (s.x b).toInt then s.x a else s.x b))
  | .max d a b => some (plainForm d (if (s.x b).toInt < (s.x a).toInt then s.x a else s.x b))
  | .minn d a b => some (plainForm d (if (s.x a).toNat < (s.x b).toNat then s.x a else s.x b))
  | .maxn d a b => some (plainForm d (if (s.x b).toNat < (s.x a).toNat then s.x a else s.x b))
  | .slt d a b => some (plainForm d (if (s.x a).toInt < (s.x b).toInt then 1 else 0))
  | .sltn d a b => some (plainForm d (if (s.x a).toNat < (s.x b).toNat then 1 else 0))
  | .seq d a b => some (plainForm d (if s.x a = s.x b then 1 else 0))
  | .sne d a b => some (plainForm d (if s.x a = s.x b then 0 else 1))
  | _ => none

/-- The number of 1 bits among the low n bits of a value. -/
def onesBelow (v : Word) (n : Nat) : Nat := ((List.range n).filter (fun i => v.getLsbD i)).length

/-- The width that an xf field selects for SEXT and ZEXT (R55, R91). -/
def extendWidth (xf : BitVec 4) : Nat := if xf = 0 then 8 else if xf = 1 then 16 else 32

/-- The forms of major 0x02 (R90, R91). -/
def bitFieldForm (s : State) : Instr → Option ScalarForm
  | .clz d a => some (bitsForm d (fun v => (s.x a = 0 → v = 64) ∧ (s.x a ≠ 0 →
      v.toNat ≤ 63 ∧ (s.x a).getLsbD (63 - v.toNat) = true ∧ ∀ k, 63 - v.toNat < k → (s.x a).getLsbD k = false)))
  | .ctz d a => some (bitsForm d (fun v => (s.x a = 0 → v = 64) ∧ (s.x a ≠ 0 →
      (s.x a).getLsbD v.toNat = true ∧ ∀ k, k < v.toNat → (s.x a).getLsbD k = false)))
  | .popc d a => some (bitsForm d (fun v => v.toNat = onesBelow (s.x a) 64))
  | .brev d a => some (bitsForm d (fun v => ∀ k, k < 64 → v.getLsbD k = (s.x a).getLsbD (63 - k)))
  | .bswap d a => some (bitsForm d (fun v => ∀ j, j < 8 → field v (8 * j) 8 = field (s.x a) (8 * (7 - j)) 8))
  | .sext xf d a => some (bitsForm d (fun v => ∀ k, k < 64 →
      v.getLsbD k = (s.x a).getLsbD (if k < extendWidth xf then k else extendWidth xf - 1)))
  | .zext xf d a => some (bitsForm d (fun v => ∀ k, k < 64 → v.getLsbD k = (decide (k < extendWidth xf) && (s.x a).getLsbD k)))
  | _ => none

/-- Bit k of the carry-less product of two registers (R92). -/
def carrylessBit (A B : Word) (k : Nat) : Bool :=
  decide (((List.range 64).filter (fun i => decide (i ≤ k) && B.getLsbD i && A.getLsbD (k - i))).length % 2 = 1)

/-- The forms of major 0x03 (R92, R93). -/
def multiplyForm (s : State) : Instr → Option ScalarForm
  | .mul la d a b => some (longForm la d (BitVec.ofInt 64 ((s.x a).toInt * (s.x b).toInt)))
  | .mulh la d a b => some (longForm la d (BitVec.ofInt 64 ((s.x a).toInt * (s.x b).toInt / 2 ^ 64)))
  | .mulhn la d a b => some (longForm la d (BitVec.ofNat 64 ((s.x a).toNat * (s.x b).toNat / 2 ^ 64)))
  | .div la d a b => some (longForm la d (if s.x b = 0 then BitVec.allOnes 64 else BitVec.ofInt 64 ((s.x a).toInt.tdiv (s.x b).toInt)))
  | .divn la d a b => some (longForm la d (if s.x b = 0 then BitVec.allOnes 64 else BitVec.ofNat 64 ((s.x a).toNat / (s.x b).toNat)))
  | .rem la d a b => some (longForm la d (if s.x b = 0 then s.x a else BitVec.ofInt 64 ((s.x a).toInt.tmod (s.x b).toInt)))
  | .remn la d a b => some (longForm la d (if s.x b = 0 then s.x a else BitVec.ofNat 64 ((s.x a).toNat % (s.x b).toNat)))
  | .clmul la d a b => some ⟨d, la, 4, fun v => ∀ k, k < 64 → v.getLsbD k = carrylessBit (s.x a) (s.x b) k⟩
  | .clmulh la d a b => some ⟨d, la, 4, fun v => ∀ k, k < 64 → v.getLsbD k = carrylessBit (s.x a) (s.x b) (64 + k)⟩
  | _ => none

/-- The immediate and high-immediate forms, and SOX (R94 to R97). -/
def immediateForm (s : State) : Instr → Option ScalarForm
  | .addi d a imm => some (plainForm d (BitVec.ofInt 64 ((s.x a).toInt + imm.toInt)))
  | .andi d a imm => some (plainForm d (s.x a &&& BitVec.ofInt 64 imm.toInt))
  | .ori d a imm => some (plainForm d (s.x a ||| BitVec.ofInt 64 imm.toInt))
  | .xori d a imm => some (plainForm d (s.x a ^^^ BitVec.ofInt 64 imm.toInt))
  | .slti d a imm => some (plainForm d (if (s.x a).toInt < imm.toInt then 1 else 0))
  | .sltni d a imm => some (plainForm d (if (s.x a).toNat < (BitVec.ofInt 64 imm.toInt).toNat then 1 else 0))
  | .seqi d a imm => some (plainForm d (if (s.x a).toInt = imm.toInt then 1 else 0))
  | .shli d a amt => some (plainForm d (BitVec.ofNat 64 ((s.x a).toNat * 2 ^ amt.toNat)))
  | .shri d a amt => some (plainForm d (BitVec.ofNat 64 ((s.x a).toNat / 2 ^ amt.toNat)))
  | .srai d a amt => some (plainForm d (BitVec.ofInt 64 ((s.x a).toInt / 2 ^ amt.toNat)))
  | .rori d a amt => some (plainForm d ((s.x a).rotateRight amt.toNat))
  | .lih d imm => some (plainForm d (BitVec.ofInt 64 (imm.toInt * 2 ^ 14)))
  | .sox d a => some (plainForm d (s.cx.readOx a))
  | _ => none

/-- The 16-bit forms with one scalar destination (R57). -/
def compressedForm (s : State) : Instr → Option ScalarForm
  | .cAdd d b => some (shortForm d (BitVec.ofNat 64 ((s.x d).toNat + (s.x b).toNat)))
  | .cSub d b => some (shortForm d (BitVec.ofInt 64 ((s.x d).toInt - (s.x b).toInt)))
  | .cMov d b => some (shortForm d (s.x b))
  | .cAddi d imm => some (shortForm d (BitVec.ofInt 64 ((s.x d).toInt + imm.toInt)))
  | .cLi d imm => some (shortForm d (BitVec.ofInt 64 imm.toInt))
  | .cAnd d b => some (shortForm d (s.x d &&& s.x b))
  | .cOr d b => some (shortForm d (s.x d ||| s.x b))
  | .cXor d b => some (shortForm d (s.x d ^^^ s.x b))
  | .cShli d imm => some (shortForm d (BitVec.ofNat 64 ((s.x d).toNat * 2 ^ imm.toNat)))
  | .cShri d imm => some (shortForm d (BitVec.ofNat 64 ((s.x d).toNat / 2 ^ imm.toNat)))
  | .cSrai d imm => some (shortForm d (BitVec.ofInt 64 ((s.x d).toInt / 2 ^ imm.toNat)))
  | .cNop => some (shortForm 0 0)
  | _ => none

/-- Whether a branch of R106 or one of its 16-bit forms is taken, its offset in halfwords, and its length. -/
def branchForm (s : State) : Instr → Option (Bool × Int × Nat)
  | .beq a b off => some (decide (s.x a = s.x b), off.toInt, 4)
  | .bne a b off => some (decide (s.x a ≠ s.x b), off.toInt, 4)
  | .blt a b off => some (decide ((s.x a).toInt < (s.x b).toInt), off.toInt, 4)
  | .bge a b off => some (decide ((s.x b).toInt ≤ (s.x a).toInt), off.toInt, 4)
  | .bltn a b off => some (decide ((s.x a).toNat < (s.x b).toNat), off.toInt, 4)
  | .bgen a b off => some (decide ((s.x b).toNat ≤ (s.x a).toNat), off.toInt, 4)
  | .cBeqz d imm => some (decide (s.x d = 0), imm.toInt, 2)
  | .cBnez d imm => some (decide (s.x d ≠ 0), imm.toInt, 2)
  | _ => none

/-- Where a jump of R107 or one of its 16-bit forms goes, the register that takes the return address, and its length. -/
def jumpForm (s : State) : Instr → Option (Word × Reg × Nat)
  | .jal d off => some (BitVec.ofInt 64 (s.cx.pc.toInt + 2 * off.toInt), d, 4)
  | .jalr d a => some (s.x a &&& ~~~1, d, 4)
  | .cJ off => some (BitVec.ofInt 64 (s.cx.pc.toInt + 2 * off.toInt), 0, 2)
  | .cJr d => some (s.x d &&& ~~~1, 0, 2)
  | .cRet => some (s.x 1 &&& ~~~1, 0, 2)
  | _ => none

/-! ## Loads, stores and system instructions -/

/-- What LD delivers for a width code from the value read (R99). -/
def loaded (w : BitVec 3) (v : Nat) : Word :=
  if w = 0 then BitVec.ofInt 64 (BitVec.ofNat 8 v).toInt
  else if w = 2 then BitVec.ofInt 64 (BitVec.ofNat 16 v).toInt
  else if w = 4 then BitVec.ofInt 64 (BitVec.ofNat 32 v).toInt
  else BitVec.ofNat 64 v

/-- The base, scaled offset, size and direction of a scalar access, its la field, register, and length (R57, R99, R100). -/
structure Access where
  base : Word
  offset : Int
  size : Nat
  store : Bool
  la : BitVec 4
  reg : Reg
  len : Nat
  word : BitVec 32

/-- The address of an access. -/
def Access.address (a : Access) : Word := a.base + BitVec.ofInt 64 a.offset

/-- The accesses of LD and its 16-bit form, with the width code. -/
def loadForm (s : State) : Instr → Option (Access × BitVec 3)
  | .ld la d a off w => some (⟨s.x a, off.toInt * loadSize w, loadSize w, false, la, d, 4,
      recordWord (wmWord 0x0e d.toNat a.toNat w.toNat off.toNat la.toNat)⟩, w)
  | .cLdsp d imm => some (⟨s.x 2, imm.toNat * 8, 8, false, 0, d, 2, recordWord (hsWord 12 d.toNat imm.toNat)⟩, 6)
  | _ => none

/-- The accesses of ST and its 16-bit form. -/
def storeForm (s : State) : Instr → Option Access
  | .st d a off w => some ⟨s.x a, off.toInt * storeSize w, storeSize w, true, 0, d, 4,
      recordWord (wmWord 0x0f d.toNat a.toNat w.toNat off.toNat 0)⟩
  | .cStsp d imm => some ⟨s.x 2, imm.toNat * 8, 8, true, 0, d, 2, recordWord (hsWord 13 d.toNat imm.toNat)⟩
  | _ => none

/-! ## Vector instructions -/

/-- Element k of a vector register, n bits wide (R153). -/
def elemAt (v : VWord) (n k : Nat) : BitVec n := v.extractLsb' (n * k) n

/-- The state after a vector instruction that writes one vector register: which of its elements a mask lets it write, what those take,
and what the others keep. -/
structure VecForm where
  la : BitVec 4
  bits : Nat
  mask : MWord
  vd : BitVec 4
  old : VWord
  value : Nat → BitVec bits → Prop

/-- The instruction completes as its form says, without a draw and without a flag, when windows and the ring let it issue. -/
def VecForm.completes (f : VecForm) (i : Instr) (s : State) : Prop :=
  s.admitsRing f.la ⟨[], [f.vd], []⟩ →
    ∃ t, exec i s = .next t ∧ s.computed t f.la ⟨[], [f.vd], []⟩ s.stream {} ∧
      ∀ k, k < lanesOf f.bits →
        if f.mask.getLsbD k then f.value k (elemAt (t.cx.rawV f.vd) f.bits k)
        else elemAt (t.cx.rawV f.vd) f.bits k = elemAt f.old f.bits k

/-- A form governed by mask m (R154), with the width of ty. -/
def laneForm (s : State) (la : BitVec 4) (ty m : BitVec 3) (vd : BitVec 4) (p : Nat → BitVec (tyBits ty) → Prop) : VecForm :=
  ⟨la, tyBits ty, s.cx.readM m, vd, s.cx.rawV vd, p⟩

/-- A form that writes every element. -/
def wholeForm (la : BitVec 4) (ty : BitVec 3) (vd : BitVec 4) (p : Nat → BitVec (tyBits ty) → Prop) : VecForm :=
  ⟨la, tyBits ty, BitVec.allOnes 1024, vd, 0, p⟩

/-- Element k of V[v], at the width of ty. -/
def laneAt (s : State) (v : BitVec 4) (ty : BitVec 3) (k : Nat) : BitVec (tyBits ty) := elemAt (s.cx.readV v) (tyBits ty) k

/-- The integer forms of R172, and the sign forms of R170, on the operands' bits. -/
def vectorIntegerForm (s : State) : Instr → Option VecForm
  | .viadd la ty m vb va vd => some (laneForm s la ty m vd (fun k r => r = laneAt s va ty k + laneAt s vb ty k))
  | .visub la ty m vb va vd => some (laneForm s la ty m vd (fun k r => r = laneAt s va ty k - laneAt s vb ty k))
  | .vimul la ty m vb va vd => some (laneForm s la ty m vd (fun k r => r = laneAt s va ty k * laneAt s vb ty k))
  | .vand la ty m vb va vd => some (laneForm s la ty m vd (fun k r => r = laneAt s va ty k &&& laneAt s vb ty k))
  | .vor la ty m vb va vd => some (laneForm s la ty m vd (fun k r => r = laneAt s va ty k ||| laneAt s vb ty k))
  | .vxor la ty m vb va vd => some (laneForm s la ty m vd (fun k r => r = laneAt s va ty k ^^^ laneAt s vb ty k))
  | .vimin la ty m vb va vd => some (laneForm s la ty m vd (fun k r =>
      r = if (laneAt s vb ty k).toInt < (laneAt s va ty k).toInt then laneAt s vb ty k else laneAt s va ty k))
  | .vimax la ty m vb va vd => some (laneForm s la ty m vd (fun k r =>
      r = if (laneAt s va ty k).toInt < (laneAt s vb ty k).toInt then laneAt s vb ty k else laneAt s va ty k))
  | .vshl la ty m vb va vd => some (laneForm s la ty m vd (fun k r =>
      r = laneAt s va ty k <<< ((laneAt s vb ty k).toNat % tyBits ty)))
  | .vshr la ty m vb va vd => some (laneForm s la ty m vd (fun k r =>
      r = laneAt s va ty k >>> ((laneAt s vb ty k).toNat % tyBits ty)))
  | .vsra la ty m vb va vd => some (laneForm s la ty m vd (fun k r =>
      r = (laneAt s va ty k).sshiftRight ((laneAt s vb ty k).toNat % tyBits ty)))
  | .vclmul la ty m vb va vd => some (laneForm s la ty m vd (fun k r => ∀ j, j < tyBits ty → r.getLsbD j =
      decide (((List.range (tyBits ty)).filter (fun i =>
        decide (i ≤ j) && (laneAt s vb ty k).getLsbD i && (laneAt s va ty k).getLsbD (j - i))).length % 2 = 1)))
  | .vpopc la ty m va vd => some (laneForm s la ty m vd (fun k r =>
      r.toNat = ((List.range (tyBits ty)).filter (fun i => (laneAt s va ty k).getLsbD i)).length))
  | .vclz la ty m va vd => some (laneForm s la ty m vd (fun k r =>
      (laneAt s va ty k = 0 → r.toNat = tyBits ty) ∧ (laneAt s va ty k ≠ 0 → r.toNat < tyBits ty ∧
        (laneAt s va ty k).getLsbD (tyBits ty - 1 - r.toNat) = true ∧
        ∀ j, tyBits ty - 1 - r.toNat < j → (laneAt s va ty k).getLsbD j = false)))
  | .vabs la ty m va vd => some (laneForm s la ty m vd (fun k r => ∀ j, j < tyBits ty →
      r.getLsbD j = (decide (j ≠ tyBits ty - 1) && (laneAt s va ty k).getLsbD j)))
  | .vneg la ty m va vd => some (laneForm s la ty m vd (fun k r => ∀ j, j < tyBits ty →
      r.getLsbD j = ((laneAt s va ty k).getLsbD j ^^ decide (j = tyBits ty - 1))))
  | .vcps la ty m vb va vd => some (laneForm s la ty m vd (fun k r => ∀ j, j < tyBits ty →
      r.getLsbD j = if j = tyBits ty - 1 then (laneAt s vb ty k).getLsbD j else (laneAt s va ty k).getLsbD j))
  | _ => none

/-- The number of true mask bits below lane k (R185). -/
def trueBelow (m : MWord) (k : Nat) : Nat := ((List.range k).filter (fun i => m.getLsbD i)).length

/-- The permutations of R185. -/
def permuteForm (s : State) : Instr → Option VecForm
  | .vshuf la ty m vb va vd => some (laneForm s la ty m vd (fun k r =>
      r = laneAt s va ty (if tyBits ty = 8 then (laneAt s vb ty k).toNat % 256 + 256 * (k / 256)
        else (laneAt s vb ty k).toNat % lanesOf (tyBits ty))))
  | .vrot la ty m vb va vd => some (laneForm s la ty m vd (fun k r =>
      r = laneAt s va ty ((k + (laneAt s vb ty 0).toNat) % lanesOf (tyBits ty))))
  | .vslide la ty m vb va vd => some (laneForm s la ty m vd (fun k r =>
      r = if k = 0 then laneAt s vb ty (lanesOf (tyBits ty) - 1) else laneAt s va ty (k - 1)))
  | .vcmpr la ty m va vd => some (wholeForm la ty vd (fun k r =>
      (∀ j, j < lanesOf (tyBits ty) → (s.cx.readM m).getLsbD j = true → trueBelow (s.cx.readM m) j = k → r = laneAt s va ty j) ∧
        (trueBelow (s.cx.readM m) (lanesOf (tyBits ty)) ≤ k → r = 0)))
  | .vexpd la ty m va vd => some (laneForm s la ty m vd (fun k r => r = laneAt s va ty (trueBelow (s.cx.readM m) k)))
  | .viota la ty m vd => some (wholeForm la ty vd (fun k r => r = BitVec.ofNat (tyBits ty) (trueBelow (s.cx.readM m) k)))
  | .vbcast la ty m va vd => some (laneForm s la ty m vd (fun _ r => r = laneAt s va ty 0))
  | .vzip la ty m vb va vd => some (laneForm s la ty m vd (fun k r =>
      r = if k % 2 = 0 then laneAt s va ty (k / 2) else laneAt s vb ty ((k - 1) / 2)))
  | _ => none

/-- The moves of R186 into a vector register, and select and classify (R174). -/
def vectorMoveForm (s : State) : Instr → Option VecForm
  | .vput la ty x va vd => some (wholeForm la ty vd (fun k r =>
      r = if k = 0 then (s.x x).setWidth (tyBits ty) else laneAt s va ty (k - 1)))
  | .vsplat la ty m x vd => some (laneForm s la ty m vd (fun _ r => r = (s.x x).setWidth (tyBits ty)))
  | .vmov la ty m va vd => some (laneForm s la ty m vd (fun k r => r = laneAt s va ty k))
  | .vsel la ty m vb va vd => some ⟨la, tyBits ty, s.cx.readM m, vd, s.cx.readV vb, fun k r => r = laneAt s va ty k⟩
  | .vclass la ty m va vd => some (laneForm s la ty m vd (fun k r =>
      r = BitVec.ofNat (tyBits ty) (2 ^ classOf (floatOf ty) (laneAt s va ty k).toNat)))
  | _ => none

/-- What computing starts with, after k draws, one an element (R158). -/
def drawn (n : Machine.Num) : Nat → Machine.Num
  | 0 => n
  | k + 1 => (drawn n k).z.2

/-- A vector instruction that computes each element with its own draw: its width, how many elements it covers, its mode, and what each
element takes with a draw. -/
structure DrawForm where
  /-- The extension it needs: none, XF64 or XSF. -/
  needs : Option Bool
  la : BitVec 4
  bits : Nat
  count : Nat
  m : BitVec 3
  vd : BitVec 4
  mode : Mode
  compute : Nat → Nat → Nat × Flags

/-- Element k's result, with the draw that falls to it whether its mask bit is 1 or not (R158). -/
def DrawForm.result (f : DrawForm) (s : State) (k : Nat) : Nat × Flags := f.compute k (drawn (s.num f.mode) k).z.1

/-- The flags of every true element together (R157). -/
def DrawForm.flags (f : DrawForm) (s : State) : Flags :=
  ((List.range f.count).filter (fun k => (s.cx.readM f.m).getLsbD k)).foldl (fun g k => g.or (f.result s k).2) {}

/-- The instruction completes as its form says, when the core has its extension and windows and the ring let it issue. -/
def DrawForm.completes (f : DrawForm) (i : Instr) (s : State) : Prop :=
  (∀ b, f.needs = some b → s.cx.hasExtension b = true) → s.admitsRing f.la ⟨[], [f.vd], []⟩ →
    ∃ t, exec i s = .next t ∧ s.computed t f.la ⟨[], [f.vd], []⟩ (drawn (s.num f.mode) f.count).stream (f.flags s) ∧
      ∀ k, k < lanesOf f.bits → elemAt (t.cx.rawV f.vd) f.bits k =
        if k < f.count ∧ (s.cx.readM f.m).getLsbD k then BitVec.ofNat f.bits (f.result s k).1
        else elemAt (s.cx.rawV f.vd) f.bits k

/-- The value of an element of V[v] in a floating-point format (R119). -/
def floatAt (s : State) (f : FloatFmt) (v : BitVec 4) (k : Nat) : Val := decodeFloat f (elemAt (s.cx.readV v) f.bits k).toNat

/-- The value of an element of V[v] at a type (R153). -/
def valueAt (s : State) (ty : BitVec 3) (v : BitVec 4) (k : Nat) : Val := decodeElem (elemTy ty) (laneAt s v ty k).toNat

/-- A form whose elements are exact results rounded once under sys.frm (R157, R170). -/
def roundedForm (s : State) (needs : Option Bool) (la : BitVec 4) (f : FloatFmt) (m : BitVec 3) (vd : BitVec 4)
    (r : Nat → Result) : DrawForm :=
  ⟨needs, la, f.bits, lanesOf f.bits, m, vd, modeOf s.cx.frm, fun k z => roundResult f (modeOf s.cx.frm) z (r k)⟩

/-- The floating-point arithmetic of R170 and the special functions of R175. -/
def floatForm (s : State) : Instr → Option DrawForm
  | .vadd la ty m vb va vd => some (roundedForm s none la (floatOf ty) m vd (fun k =>
      addVal (floatAt s (floatOf ty) va k) (floatAt s (floatOf ty) vb k)))
  | .vsub la ty m vb va vd => some (roundedForm s none la (floatOf ty) m vd (fun k =>
      addVal (floatAt s (floatOf ty) va k) (negVal (floatAt s (floatOf ty) vb k))))
  | .vmul la ty m vb va vd => some (roundedForm s none la (floatOf ty) m vd (fun k =>
      mulVal (floatAt s (floatOf ty) va k) (floatAt s (floatOf ty) vb k)))
  | .vdiv la ty m vb va vd => some (roundedForm s none la (floatOf ty) m vd (fun k =>
      divVal (floatAt s (floatOf ty) va k) (floatAt s (floatOf ty) vb k)))
  | .vfma la ty m vb va vd => some (roundedForm s none la (floatOf ty) m vd (fun k =>
      fmaVal (floatAt s (floatOf ty) va k) (floatAt s (floatOf ty) vb k) (floatAt s (floatOf ty) vd k)))
  | .vfms la ty m vb va vd => some (roundedForm s none la (floatOf ty) m vd (fun k =>
      fmaVal (floatAt s (floatOf ty) va k) (floatAt s (floatOf ty) vb k) (negVal (floatAt s (floatOf ty) vd k))))
  | .vfnma la ty m vb va vd => some (roundedForm s none la (floatOf ty) m vd (fun k =>
      fmaVal (negVal (floatAt s (floatOf ty) va k)) (floatAt s (floatOf ty) vb k) (floatAt s (floatOf ty) vd k)))
  | .vsqrt la ty m va vd => some (roundedForm s none la (floatOf ty) m vd (fun k => sqrtVal (floatAt s (floatOf ty) va k)))
  | .vexp2 la ty m va vd => some (roundedForm s none la (floatOf ty) m vd (fun k => exp2Val (floatAt s (floatOf ty) va k)))
  | .vlog2 la ty m va vd => some (roundedForm s none la (floatOf ty) m vd (fun k => log2Val (floatAt s (floatOf ty) va k)))
  | .vrcp la ty m va vd => some (roundedForm s none la (floatOf ty) m vd (fun k => rcpVal (floatAt s (floatOf ty) va k)))
  | .vrsq la ty m va vd => some (roundedForm s none la (floatOf ty) m vd (fun k => rsqVal (floatAt s (floatOf ty) va k)))
  | .vtanh la ty m va vd => some (roundedForm s none la (floatOf ty) m vd (fun k => tanhVal (floatAt s (floatOf ty) va k)))
  | .vsig la ty m va vd => some (roundedForm s none la (floatOf ty) m vd (fun k => sigVal (floatAt s (floatOf ty) va k)))
  | .vsin la ty m va vd => some (roundedForm s none la (floatOf ty) m vd (fun k => sinVal (floatAt s (floatOf ty) va k)))
  | .vcos la ty m va vd => some (roundedForm s none la (floatOf ty) m vd (fun k => cosVal (floatAt s (floatOf ty) va k)))
  | _ => none

/-- The greater or the lesser of two codes of a format (R171): a single NaN is ignored, two give the canonical NaN, and -0 counts as
below +0; a signalling NaN sets NV. -/
def pickForm (s : State) (needs : Option Bool) (la : BitVec 4) (f : FloatFmt) (m : BitVec 3) (vb va vd : BitVec 4)
    (greater : Bool) : DrawForm :=
  ⟨needs, la, f.bits, lanesOf f.bits, m, vd, .rne, fun k _ =>
    let a := floatAt s f va k
    let b := floatAt s f vb k
    let ca := (elemAt (s.cx.readV va) f.bits k).toNat
    let cb := (elemAt (s.cx.readV vb) f.bits k).toNat
    (if isNan a ∧ isNan b then f.nan
     else if isNan a then cb
     else if isNan b then ca
     else if cmpVal true a b = (if greater then .lt else .gt) then cb
     else ca,
     { nv := sigNan a || sigNan b })⟩

/-- The forms of R171, R456 to R458 and R176, R177: the lesser and the greater, the extensions, and conversions. -/
def extendedForm (s : State) : Instr → Option DrawForm
  | .vmin la ty m vb va vd => some (pickForm s none la (floatOf ty) m vb va vd false)
  | .vmax la ty m vb va vd => some (pickForm s none la (floatOf ty) m vb va vd true)
  | .dadd la m vb va vd => some (roundedForm s (some true) la .f64 m vd (fun k => addVal (floatAt s .f64 va k) (floatAt s .f64 vb k)))
  | .dsub la m vb va vd => some (roundedForm s (some true) la .f64 m vd (fun k =>
      addVal (floatAt s .f64 va k) (negVal (floatAt s .f64 vb k))))
  | .dmul la m vb va vd => some (roundedForm s (some true) la .f64 m vd (fun k => mulVal (floatAt s .f64 va k) (floatAt s .f64 vb k)))
  | .dfma la m vb va vd => some (roundedForm s (some true) la .f64 m vd (fun k =>
      fmaVal (floatAt s .f64 va k) (floatAt s .f64 vb k) (floatAt s .f64 vd k)))
  | .ddiv la m vb va vd => some (roundedForm s (some true) la .f64 m vd (fun k => divVal (floatAt s .f64 va k) (floatAt s .f64 vb k)))
  | .dsqrt la m va vd => some (roundedForm s (some true) la .f64 m vd (fun k => sqrtVal (floatAt s .f64 va k)))
  | .dmin la m vb va vd => some (pickForm s (some true) la .f64 m vb va vd false)
  | .dcvt la ty m vb va vd => some (
      if vb = 0 then ⟨some true, la, tyBits ty, 64, m, vd, modeOf s.cx.frm, fun k z =>
        roundVal (elemTy ty) (modeOf s.cx.frm) z (floatAt s .f64 va k)⟩
      else ⟨some true, la, 64, 64, m, vd, modeOf s.cx.frm, fun k z =>
        roundVal (.flt .f64) (modeOf s.cx.frm) z (valueAt s ty va k)⟩)
  | .verf la ty m va vd => some (roundedForm s (some false) la (floatOf ty) m vd (fun k => erfVal (floatAt s (floatOf ty) va k)))
  | .vlgam la ty m va vd => some (roundedForm s (some false) la (floatOf ty) m vd (fun k => lgamVal (floatAt s (floatOf ty) va k)))
  | .vpow la ty m vb va vd => some (roundedForm s (some false) la (floatOf ty) m vd (fun k =>
      powVal (floatAt s (floatOf ty) va k) (floatAt s (floatOf ty) vb k)))
  | .vatn2 la ty m vb va vd => some (roundedForm s (some false) la (floatOf ty) m vd (fun k =>
      atan2Val (floatAt s (floatOf ty) va k) (floatAt s (floatOf ty) vb k)))
  | .vcvt la m rm tyd tys va vd => some ⟨none, la, tyBits tyd, lanesOf (tyBits tyd), m.zeroExtend 3, vd, s.cx.roundMode rm, fun k z =>
      roundVal (elemTy tyd) (s.cx.roundMode rm) z (decodeElem (elemTy tys) (elemAt (s.cx.readV va) (tyBits tys) k).toNat)⟩
  | .vnarrow la m rm tyd tys va vd => some
      ⟨none, la, tyBits tyd, lanesOf (tyBits tyd), m.zeroExtend 3, vd, s.cx.roundMode rm, fun k z =>
        roundVal (elemTy tyd) (s.cx.roundMode rm) z (decodeElem (elemTy tys)
          (elemAt (s.cx.readV (va + BitVec.ofNat 4 (k % (tyBits tys / tyBits tyd)))) (tyBits tys) (k / (tyBits tys / tyBits tyd))).toNat)⟩
  | _ => none

/-- When a comparison of R173 holds: less, equal, greater, unordered; and whether a quiet NaN sets NV. -/
def compareForm : Instr → Option (Compare × BitVec 4 × BitVec 3 × BitVec 3 × BitVec 4 × BitVec 4 × BitVec 3)
  | .vceq la ty m vb va vd => some (⟨false, true, false, false, false⟩, la, ty, m, vb, va, vd)
  | .vcne la ty m vb va vd => some (⟨true, false, true, true, false⟩, la, ty, m, vb, va, vd)
  | .vclt la ty m vb va vd => some (⟨true, false, false, false, true⟩, la, ty, m, vb, va, vd)
  | .vcle la ty m vb va vd => some (⟨true, true, false, false, true⟩, la, ty, m, vb, va, vd)
  | .vcgt la ty m vb va vd => some (⟨false, false, true, false, true⟩, la, ty, m, vb, va, vd)
  | .vcge la ty m vb va vd => some (⟨false, true, true, false, true⟩, la, ty, m, vb, va, vd)
  | _ => none

/-- The mask operations of R187 with a mask destination. -/
def maskForm (s : State) : Instr → Option (BitVec 4 × BitVec 3 × (MWord → Prop))
  | .mand la vb va vd => some (la, vd, fun r => r = s.cx.readM va &&& s.cx.readM vb)
  | .mor la vb va vd => some (la, vd, fun r => r = s.cx.readM va ||| s.cx.readM vb)
  | .mxor la vb va vd => some (la, vd, fun r => r = s.cx.readM va ^^^ s.cx.readM vb)
  | .mnot la va vd => some (la, vd, fun r => r = ~~~s.cx.readM va)
  | .mset la vb va vd => some (la, vd, fun r => ∀ w, w < 16 → r.extractLsb' (64 * w) 64 =
      if w = (s.x (lowReg vb)).toNat % 16 then s.x (lowReg va) else (s.cx.rawM vd).extractLsb' (64 * w) 64)
  | _ => none

/-- The vector and mask instructions with a scalar destination (R186, R187). -/
def toScalarForm (s : State) : Instr → Option (BitVec 4 × Reg × (Word → Prop))
  | .vget la ty x va => some (la, x, fun r =>
      r = if 5 ≤ ty.toNat then (laneAt s va ty ((s.x x).toNat % lanesOf (tyBits ty))).signExtend 64
        else (laneAt s va ty ((s.x x).toNat % lanesOf (tyBits ty))).setWidth 64)
  | .mpopc la va vd => some (la, lowReg vd, fun r => r.toNat = trueBelow (s.cx.readM va) 1024)
  | .mfirst la va vd => some (la, lowReg vd, fun r => (s.cx.readM va = 0 → r = 1024) ∧ (s.cx.readM va ≠ 0 →
      (s.cx.readM va).getLsbD r.toNat = true ∧ ∀ j, j < r.toNat → (s.cx.readM va).getLsbD j = false))
  | .mget la vb va vd => some (la, lowReg vd, fun r => r = (s.cx.readM va).extractLsb' (64 * ((s.x (lowReg vb)).toNat % 16)) 64)
  | _ => none

/-- The true lanes of a reduction, in ascending order. -/
def trueOf (s : State) (ty m : BitVec 3) : List Nat := (List.range (lanesOf (tyBits ty))).filter (fun k => (s.cx.readM m).getLsbD k)

/-- A reduction (R182): the leading bytes written, their value, the flags, and the draws made. -/
structure ReduceForm where
  la : BitVec 4
  vd : BitVec 4
  bytes : Nat
  value : Nat
  flags : Flags
  stream : Stream

/-- The instruction completes as its form says. -/
def ReduceForm.completes (f : ReduceForm) (i : Instr) (s : State) : Prop :=
  s.admitsRing f.la ⟨[], [f.vd], []⟩ →
    ∃ t, exec i s = .next t ∧ s.computed t f.la ⟨[], [f.vd], []⟩ f.stream f.flags ∧
      ∀ j, j < 4096 → (t.cx.rawV f.vd).getLsbD j =
        if j < 8 * f.bytes then f.value.testBit j else (s.cx.rawV f.vd).getLsbD j

/-- The integer reductions: exact sums modulo 2^64, and bitwise combinations. -/
def integerReduceForm (s : State) : Instr → Option ReduceForm
  | .vrsum la ty m va vd => if 5 ≤ ty.toNat then
      some ⟨la, vd, 8, (BitVec.ofInt 64 ((trueOf s ty m).map (fun k => (laneAt s va ty k).toInt)).sum).toNat, {}, s.stream⟩ else none
  | .vdot la ty m vb va vd => if 5 ≤ ty.toNat then
      some ⟨la, vd, 8, (BitVec.ofInt 64 ((trueOf s ty m).map (fun k =>
        (laneAt s va ty k).toInt * (laneAt s vb ty k).toInt)).sum).toNat, {}, s.stream⟩ else none
  | .vrband la ty m va vd => some ⟨la, vd, tyBits ty / 8,
      ((trueOf s ty m).foldl (fun r k => r &&& laneAt s va ty k) (BitVec.allOnes _)).toNat, {}, s.stream⟩
  | .vrbor la ty m va vd => some ⟨la, vd, tyBits ty / 8,
      ((trueOf s ty m).foldl (fun r k => r ||| laneAt s va ty k) 0).toNat, {}, s.stream⟩
  | .vrbxor la ty m va vd => some ⟨la, vd, tyBits ty / 8,
      ((trueOf s ty m).foldl (fun r k => r ^^^ laneAt s va ty k) 0).toNat, {}, s.stream⟩
  | _ => none

/-- The sum of the true lanes' terms rounded once to FP32 (R182, R183). -/
def sumForm (s : State) (la : BitVec 4) (ty m : BitVec 3) (vd : BitVec 4) (term : Nat → Val × Bool) : ReduceForm :=
  let n := s.num (modeOf s.cx.frm)
  let r := roundResult .f32 (modeOf s.cx.frm) n.z.1
    ((trueOf s ty m).foldl (fun (q : Sum) k => q.add (term k).1 (term k).2) {}).result
  ⟨la, vd, 4, r.1, r.2, n.z.2.stream⟩

/-- The floating-point sums, VRMAX and VRMIN (R182, R183). -/
def floatReduceForm (s : State) : Instr → Option ReduceForm
  | .vrsum la ty m va vd => if ty.toNat < 5 then some (sumForm s la ty m vd (fun k => (floatAt s (floatOf ty) va k, false))) else none
  | .vdot la ty m vb va vd => if ty.toNat < 5 then
      some (sumForm s la ty m vd (fun k => mulExact (floatAt s (floatOf ty) va k) (floatAt s (floatOf ty) vb k))) else none
  | .vrmax la ty m va vd => some (bestForm s la ty m va vd true)
  | .vrmin la ty m va vd => some (bestForm s la ty m va vd false)
  | _ => none
where
  /-- The greatest or the least of the true lanes that are no NaN, the earliest of equals. -/
  bestForm (s : State) (la : BitVec 4) (ty m : BitVec 3) (va vd : BitVec 4) (greater : Bool) : ReduceForm :=
    let good := (trueOf s ty m).filter (fun k => !isNan (valueAt s ty va k))
    let code := fun (k : Nat) => (laneAt s va ty k).toNat
    let better := fun (o : Option Nat) (k : Nat) => match o with
      | none => some (code k)
      | some c => if cmpVal true (decodeElem (elemTy ty) c) (valueAt s ty va k) = (if greater then .lt else .gt)
          then some (code k) else some c
    let none_ := if trueOf s ty m = [] then emptyBest (elemTy ty) greater else (floatOf ty).nan
    ⟨la, vd, tyBits ty / 8, (good.foldl better none).getD none_,
      { nv := (trueOf s ty m).any (fun k => sigNan (valueAt s ty va k)) }, s.stream⟩

/-! ## Vector loads, stores and chains -/

/-- A memory-accessing vector instruction at issue: what its access is made of (R163, R165, R166, R168, R188). -/
def accessOf (s : State) (kind : VKind) (ty : BitVec 3) (v : BitVec 4) (base step : Word) (idx : VWord) (mask : MWord)
    (ox : List Word) (word : BitVec 32) : VMem :=
  { kind := kind, ty := ty, vreg := v.toNat, base := base, step := step, idx := idx, data := s.cx.readV v, mask := mask, ox := ox,
    seq := s.cx.nextSeq, pc := s.cx.pc, word := word, level := s.cx.pl, start := 0, flags := {} }

/-- An access of format WVM: the address register that it updates when o is 1, by so much (R163). -/
def spanForm (s : State) (kind : VKind) (maj : Nat) (la : BitVec 4) (o : BitVec 1) (ty m : BitVec 3) (xb xa : Reg) (v : BitVec 4)
    (span : Word) : BitVec 4 × VMem × Option (Reg × Word) :=
  (la, accessOf s kind ty v (s.x xa) (s.x xb) 0 (s.cx.readM m) []
    (recordWord (wvmWord maj v.toNat xa.toNat xb.toNat m.toNat ty.toNat o.toNat la.toNat)), if o = 1 then some (xa, s.x xa + span) else none)

/-- An access of format WVG (R165). -/
def gatherForm (s : State) (kind : VKind) (maj : Nat) (la : BitVec 4) (ty m : BitVec 3) (xa : Reg) (vi v : BitVec 4) :
    BitVec 4 × VMem × Option (Reg × Word) :=
  (la, accessOf s kind ty v (s.x xa) 0 (s.cx.readV vi) (s.cx.readM m) []
    (recordWord (wvgWord maj v.toNat vi.toNat xa.toNat m.toNat ty.toNat la.toNat)), none)

/-- A chain (R188, R189). -/
def chainForm (s : State) (kind : VKind) (fn : Nat) (la : BitVec 4) (ty : BitVec 3) (va vd : BitVec 4) :
    BitVec 4 × VMem × Option (Reg × Word) :=
  (la, { accessOf s kind ty 0 (s.x (lowReg va)) (s.x (lowReg vd)) 0 (BitVec.allOnes 1024)
    [s.cx.readOx 0, s.cx.readOx 1, s.cx.readOx 2, s.cx.readOx 3] (recordWord (wvWord 0x27 vd.toNat va.toNat 0 0 ty.toNat fn la.toNat))
    with data := 0 }, none)

/-- The memory-accessing vector instructions: la, the access, and the address register updated. -/
def vectorAccess (s : State) : Instr → Option (BitVec 4 × VMem × Option (Reg × Word))
  | .vld la o ty m xb xa v => some (spanForm s .vld 0x14 la o ty m xb xa v (s.x xb + 512))
  | .vlds la o ty m xb xa v => some (spanForm s .vlds 0x15 la o ty m xb xa v (BitVec.ofNat 64 (lanesOf (tyBits ty)) * s.x xb))
  | .vgather la ty m xa vi v => some (gatherForm s .vgather 0x16 la ty m xa vi v)
  | .vldb la o ty m xb xa v => some (spanForm s .vldb 0x17 la o ty m xb xa v (s.x xb + BitVec.ofNat 64 (64 * vldbBlocks ty)))
  | .vst la o ty m xb xa v => some (spanForm s .vst 0x18 la o ty m xb xa v (s.x xb + 512))
  | .vsts la o ty m xb xa v => some (spanForm s .vsts 0x19 la o ty m xb xa v (BitVec.ofNat 64 (lanesOf (tyBits ty)) * s.x xb))
  | .vscatter la ty m xa vi v => some (gatherForm s .vscatter 0x1a la ty m xa vi v)
  | .vldbc la o m xb xa v => some (spanForm s .vldbc 0x1b la o 0 m xb xa v (s.x xb + 512))
  | .vchain la ty va vd => some (chainForm s .vchain 0 la ty va vd)
  | .vchainr la ty va vd => some (chainForm s .vchainr 1 la ty va vd)
  | _ => none

/-- What an access, run from its first unit for as many units as the context allows now (R169), makes of a state in which its address register has been updated. -/
def runOf (s : State) (m : VMem) (update : Option (Reg × Word)) : VRun :=
  (s.withCx (fun c => update.elim c (fun u => c.writeX u.1 u.2))).runMem m (s.cx.rawV (BitVec.ofNat 4 m.vreg)) s.cx.limit

/-- Whether a memory-accessing vector instruction waits before this one (R474). -/
def vectorsWait (c : Ctx) : Bool := c.replay.isSome || c.pends.any (fun p => match p.kind with | .vector _ => true | _ => false)

/-! ## Tasks, groups, events and messages -/

/-- The running context with its windows closed (R51). -/
def closed (s : State) : State := s.withCx Ctx.closeWindows

/-- Every other context has a key of its own. -/
def keysApart (s : State) : Prop := ∀ c, c ∈ s.others → c.key ≠ s.cx.key

/-! ## Memory operations between threads -/

/-- The core of the running context. -/
def coreHere (s : State) : Nat := coreOf s.cx.key

/-- The lines of the running core. -/
def linesHere (s : State) : List Line := (tget s.cores (coreHere s) Core.reset).lines

/-- A counter, reduction or read of R356, R358 and R364: la, scope, destination, address register, width in bytes, what goes before it,
and its new value and result from the old value of its location; none where it writes nothing. -/
structure AtomicForm where
  la : BitVec 4
  sc : BitVec 2
  d : Reg
  a : Reg
  size : Nat
  before : State
  new : Word → Option Word
  out : Word → Word

/-- The reductions at memory, which return the old value (R364). -/
def reductionForm (s : State) (la : BitVec 4) (sc : BitVec 2) (d a : Reg) (new : Word → Word) : AtomicForm :=
  ⟨la, sc, d, a, 8, s, fun v => some (new v), id⟩

/-- The operations of R356, R358 and R364. -/
def atomicForm (s : State) : Instr → Option AtomicForm
  | .cadd la sc d a b => some ⟨la, sc, d, a, 8, s.boundary (some sc) none,
      fun v => some (BitVec.ofNat 64 (Nat.min (v.toNat + (s.x b).toNat) (2 ^ 64 - 2))),
      fun v => BitVec.ofNat 64 (Nat.min (v.toNat + (s.x b).toNat) (2 ^ 64 - 2))⟩
  | .cread la sc d a => some ⟨la, sc, d, a, 8, s, fun _ => none, id⟩
  | .rdadd la sc d a b => some (reductionForm s la sc d a (fun v => v + s.x b))
  | .rdaddf la sc d a b => some ⟨la, sc, d, a, 4, s,
      fun v => some (BitVec.ofNat 64 (f32Add v.toNat ((s.x b).toNat % 2 ^ 32)).1), id⟩
  | .rdadda la sc d a b => some (reductionForm s la sc d a (fun v =>
      BitVec.ofInt 64 (min (2 ^ 63 - 1) (max (-(2 ^ 63)) (v.toInt + (s.x b).toInt)))))
  | .rdmax la sc d a b => some (reductionForm s la sc d a (fun v => if v.toInt < (s.x b).toInt then s.x b else v))
  | .rdmin la sc d a b => some (reductionForm s la sc d a (fun v => if (s.x b).toInt < v.toInt then s.x b else v))
  | .rdand la sc d a b => some (reductionForm s la sc d a (fun v => v &&& s.x b))
  | .rdior la sc d a b => some (reductionForm s la sc d a (fun v => v ||| s.x b))
  | .rdxor la sc d a b => some (reductionForm s la sc d a (fun v => v ^^^ s.x b))
  | _ => none

/-- A wait on an address (R357, R363): la, scope, destination, address register, whether it waits for at least the value that it gives
or for any other, that value, and its limit. -/
def waitForm (s : State) : Instr → Option (BitVec 4 × BitVec 2 × Reg × Reg × Bool × Word × Option Nat)
  | .cwait la sc d a b => some (la, sc, d, a, true, s.x b, none)
  | .waita la sc d a b => some (la, sc, d, a, false, s.x b, none)
  | .waitat la sc d a b => some (la, sc, d, a, false, s.x b, some (s.clock + (s.cx.readOx 7).toNat))
  | _ => none

/-- Whether a value ends such a wait. -/
def waitDone (atLeast : Bool) (expected v : Word) : Prop := if atLeast then expected.toNat ≤ v.toNat else v ≠ expected

/-- No store to a byte is on its way to its home, or held by a line of some cores. -/
def noStoreTo (s : State) (cores : List Nat) (a : Nat) : Prop :=
  (∀ q, Happening.homeRequest q ∈ s.inflight → ∀ c, c ∈ q.cells → c.1 % 2 ^ 48 ≠ a) ∧
    ∀ k, k ∈ cores → ∀ c, c ∈ s.unsentCells k → c.1 % 2 ^ 48 ≠ a

/-- Memory reads as before, but where a store that was on its way to its home, or that a line of the running core held, may have arrived (R301). -/
def storesLandAtMost (s t : State) : Prop := ∀ a, noStoreTo s [coreHere s] a → Memory.read t.mem a = Memory.read s.mem a

/-! ## Caches, banks and engines -/

/-- The chain that a register names for the running task: of its partition, on its die (R454). -/
def chainHere (s : State) (c : Nat) : Nat := chainKey s.cx.part (dieOf (clusterOf s.cx.key)) c

/-- The cluster of the running context. -/
def clusterHere (s : State) : Cluster := s.cluster (clusterOf s.cx.key)

/-! ## Happenings -/

/-- What becomes of the task of an identifier, wherever it is. -/
def taskBecomes (s t : State) (tid : Word) (p : Ctx → Ctx → Prop) : Prop :=
  ∀ c, s.taskOf tid = some c → ∃ c', t.taskOf tid = some c' ∧ p c c'

/-- The context takes a value in a register as a reply writes it, and one pending instruction has completed. -/
def replied (d : Reg) (v : Word) (c c' : Ctx) : Prop :=
  c'.pends.length + 1 = c.pends.length ∧ (d ≠ 0 → c'.rawX d = v) ∧ (∀ r, r ≠ d → c'.rawX r = c.rawX r) ∧ c'.windows = c.windows ∧
    c'.pc = c.pc

/-- A pending instruction is an entry of the wait-on-address table that has been woken, for a location of this device (R337). -/
def wokenEntry (p : Pend) (pa : Nat) (atLeast : Bool) : Prop :=
  ∃ e sc lim w, p.kind = .entry pa atLeast e sc lim (some w)

/-- A count raised by n, saturating (R319). -/
def raised (w : Word) (n : Nat) : Word := BitVec.ofNat 64 (Nat.min (w.toNat + n) (2 ^ 64 - 1))

/-- The cells of bytes stored from a physical address up, as memory holds them. -/
def cellsHere (pa : Nat) (bytes : List Byte) : List Cell := (cellsOf pa bytes).map (fun c => (c.1 % 2 ^ 48, c.2))

/-- A thread that waited has gone on past its instruction, with a value in a register; no other register has changed. -/
def wentOn (d : Reg) (v : Word) (c c' : Ctx) : Prop :=
  c'.run = .running ∧ c'.pc = (c.pc + 4) &&& ~~~1 ∧ (d ≠ 0 → c'.rawX d = v) ∧ ∀ r, r ≠ d ∨ d = 0 → c'.rawX r = c.rawX r

/-- A record of a claim that an expiry names, whose time has passed. -/
def expired (s : State) (addr : Word) (claimer : BitVec 26) (r : ClaimRecord) : Bool :=
  r.addr == addr && r.claimer == claimer && decide (r.until_ ≤ s.clock)

/-- Whether an event is for an actor. -/
def forActor (part : Nat) (actor : Word) (q : Queued) : Bool := q.event.part == part && actorAddr q.event.target == actor

/-- Whether an event would arrive late at its actor (R211). -/
def comesLate (s : State) (e : Event) : Bool :=
  (s.actorOf e.part (actorAddr e.target)).started.any (fun x => orderLt (eventPlace e) x)

/-- An event has joined its actor's queue at its current home, not spilled and not late, and whoever posted it goes on (R202, R276). -/
def queuedAtHome (s t : State) (e : Event) : Prop :=
  (∃ q, t.events = s.events ++ [q] ∧ q.event = e ∧ q.core = s.homeCore e.part (actorAddr e.target) ∧ q.spilled = false ∧ q.late = false) ∧
    taskBecomes s t e.waiter (fun c c' => ∀ d, c.run = .waiting (.posting d) → e.waiter ≠ 0 → wentOn d 0 c c')

/-- Whether an event finds a place that needs no spilling (R202). -/
def roomAt (s : State) (core : Nat) : Prop := (s.events.filter (fun q => q.core == core && !q.spilled)).length < 128

/-- Whether a partition is there to take events. -/
def takesEvents (s : State) (part : Nat) : Prop := (s.partition part).exists_ = true ∧ (s.partition part).gone = false

/-! ## Engine commands -/

/-- A command that its happening finds queued and free to start, or waiting (R388). -/
def starts (s : State) (k : Cmd) : Prop :=
  s.cmds.find? (fun c => c.num == k.num) = some k ∧ ((k.state = 1 ∧ s.canStart k = true) ∨ (k.state = 2 ∧ k.waiting = true))

/-- A command has done so many units, which are all it has, and its completion is on its way (R389). -/
def finished (t : State) (k : Cmd) (units : Nat) : Prop :=
  t.inflight.getLast? = some (.commandComplete k.num) ∧
    ∃ k', t.cmds.find? (fun c => c.num == k.num) = some k' ∧ k'.state = 2 ∧ k'.waiting = false ∧ k'.pidx = units

/-- A command waits, and is tried again. -/
def waitsOn (t : State) (k : Cmd) : Prop :=
  t.inflight.getLast? = some k.happening ∧
    ∃ k', t.cmds.find? (fun c => c.num == k.num) = some k' ∧ k'.state = 2 ∧ k'.waiting = true ∧ k'.pidx = k.pidx

/-- The core that a command came from. -/
def coreAt (t : State) (k : Cmd) : Core := tget t.cores k.core Core.reset

/-- The bytes that an engine reads. -/
def engineReads (s : State) (k : Cmd) (va n : Nat) (bytes : List Byte) (j : Job) : Prop :=
  (Job.start s).read k (va % 2 ^ 64) n = (bytes, j) ∧ j.ok = true

/-- A counter's value raised, stopping below all ones (R356). -/
def counted (v : Word) (n : Nat) : Word := BitVec.ofNat 64 (Nat.min (v.toNat + n) (2 ^ 64 - 2))

/-- A command as a push makes it. -/
def pushedCmd (s : State) (o : Origin) (engine : Nat) (cmd : Record) : Cmd := cmdOf s.serial engine 0 cmd o 0 0 1

/-- The output rows of one member of an MX.OUT or MX.JOINT (R428). -/
def outForm (k : Cmd) : OutForm := ⟨k.byte 17, modeOf (BitVec.ofNat 2 (k.byte 18)), k.byte 19, k.num_ 28 4⟩

/-! ## The front end, registers from outside, links and management -/

/-- The state t is s with one launch-queue record changed. -/
def queueOnly (s t : State) (q : Nat) : Prop :=
  t.cx = s.cx ∧ t.others = s.others ∧ t.mem = s.mem ∧ t.events = s.events ∧ t.parts = s.parts ∧ ∀ k, k ≠ q → t.queue k = s.queue k

/-- A status that the management block answers (R512). -/
def repliesWith (s t : State) (status : Nat) : Prop := t.outbox = s.outbox ++ [.reply status []]

/-- A queue whose packets the front end may issue. -/
def issuing (s : State) (q : Nat) : Prop :=
  (s.queue q).state = 1 ∧ (s.queue q).enable = true ∧ (s.queue q).gang = none ∧ (s.partition (s.queue q).part).gone = false

/-- The bytes of the counters' reply (R320, R503, R509). -/
def counterBytes (s : State) : List Byte :=
  (List.range 65).flatMap (fun k => bytesOf (tget s.errors k 0) 8) ++ (List.range 96).flatMap (fun p => bytesOf (s.partition p).fqOvf.toNat 8)

/-! ## Decoding, steps, memory and registers -/

/-- A step at which the running context issues a word: no happening lands, no firmware core has the turn, and once its turn has begun (R169, R469)
nothing is due before it, nothing holds it, and no breakpoint is armed there. -/
def issues (s b : State) : Prop :=
  s.landing = none ∧ s.fwTurn = none ∧ s.cx.run = .running ∧ s.cx.pl.toNat ≤ 1 ∧ b.debugTrap = none ∧ b.asyncTrap false = none ∧
    b.groupHolds = false ∧ b.cx.blocked = false ∧ b.cx.atBreakpoint = false

/-- Neither a late fault that an instruction of R51 meets first, nor an earlier access of its thread (R48, R161, R323), comes before a decoded
instruction. -/
def mayRun (s : State) (i : Instr) : Prop :=
  (closesWindows i = true → s.asyncTrap true = none) ∧
    (registerOnly i = true ∨ (s.cx.entryOpen = false ∧ (s.cx.vectorOpen = false ∨ Sys2Proof.Machine.vectorAccess i = true)))

/-- The operation that a happening in flight is, when it lands. -/
noncomputable def happeningInstr (h : Happening) : Instr :=
  match h with
  | .extensionMigration xf64 => .extensionMigration xf64
  | .loadReply tid dest value level hops queue => .loadReply tid dest value level hops queue
  | .storeAck tid part refusal level => .storeAck tid part refusal level
  | .homeRequest q => .homeRequest q
  | .waitEntryWake tid pa value => .waitEntryWake tid pa value
  | .waitatTimeout tid pa => .waitatTimeout tid pa
  | .systemAtomicRequest device op pa operand tid reply => .systemAtomicRequest ⟨device, tid⟩ op pa operand reply
  | .fabricRequestTimeout q => .fabricRequestTimeout q
  | .fifoPush o bank value => .fifoPush o bank value
  | .fifoPop tid bank dest => .fifoPop tid bank dest
  | .fifoCount tid bank dest => .fifoCount tid bank dest
  | .fifoHeldPushDone bank => .fifoHeldPushDone bank
  | .fifoHeldPopDone bank => .fifoHeldPopDone bank
  | .bankSwitchDone bank => .bankSwitchDone bank
  | .subscriptionUpdate sub u => .subscriptionUpdate sub u.cells u.sent u.release
  | .objectionArrival addr claimer cause objector objectorTid tag late => .objectionArrival addr claimer cause ⟨objector, objectorTid⟩ tag late
  | .claimDecision news => .claimDecision news
  | .claimRecordExpiry part actor addr claimer => .claimRecordExpiry part actor addr claimer
  | .eventArrival e => .eventArrival e
  | .eventForward e => .eventForward e
  | .eventSafe part actor => .eventSafe part actor
  | .dispatchPick ctx => .dispatchPick ctx
  | .switchOut ctx => .switchOut ctx
  | .actorMove part actor core => .actorMove part actor core
  | .stealRequest ctx => .stealRequest ctx
  | .stealAnswer q => .stealAnswer q
  | .priorityRaise tid cls far => .priorityRaise tid ⟨cls, far⟩
  | .phintExpiry core actor => .phintExpiry core actor
  | .messageArrival m => .messageArrival m
  | .messageForward m => .messageForward m
  | .messageRefused m => .messageRefused m
  | .directoryRequest device tid dest r => .directoryRequest ⟨device, tid⟩ dest r
  | .stubExpiry name => .stubExpiry name
  | .waitiWake ctx => .waitiWake ctx
  | .waitiTimeout ctx => .waitiTimeout ctx
  | .joinComplete ctx => .joinComplete ctx
  | .safewComplete ctx => .safewComplete ctx
  | .leadTimeout ctx => .leadTimeout ctx
  | .followTimeout ctx => .followTimeout ctx
  | .twaitLimit ctx => .twaitLimit ctx
  | .commandPortWrite o engine cmd => .commandPortWrite o engine cmd
  | .stagingStore o engine offset bytes => .stagingStore o engine offset bytes
  | .stagingCommit o engine value => .stagingCommit o engine value
  | .pushHeldAccept core engine => .pushHeldAccept core engine
  | .programRecordRead program => .programRecordRead program
  | .commandComplete cmd => .commandComplete cmd
  | .carryDelivery chain position => .carryDelivery chain position
  | .collectivePartial p => .collectivePartial p
  | .mxFill cmd => .mxFill cmd
  | .mxMma cmd => .mxMma cmd
  | .mxJoint cmd => .mxJoint cmd
  | .mxOut cmd => .mxOut cmd
  | .mxZero cmd => .mxZero cmd
  | .mxRdacc cmd => .mxRdacc cmd
  | .scLin cmd => .scLin cmd
  | .scPfx cmd => .scPfx cmd
  | .scSeed cmd => .scSeed cmd
  | .scSeg cmd => .scSeg cmd
  | .cpCopy cmd => .cpCopy cmd
  | .cpGather cmd => .cpGather cmd
  | .cpScatter cmd => .cpScatter cmd
  | .cpFill cmd => .cpFill cmd
  | .cpCadd cmd => .cpCadd cmd
  | .cpWait cmd => .cpWait cmd
  | .clRss cmd => .clRss cmd
  | .clAgs cmd => .clAgs cmd
  | .clSend cmd => .clSend cmd
  | .clRecva cmd => .clRecva cmd
  | .clRate cmd => .clRate cmd
  | .ctagsClear core mask => .ctagsClear core mask
  | .qgrpWrite ctx value => .qgrpWrite ctx value
  | .boundWrite ctx value => .boundWrite ctx value
  | .sdownGo part value => .sdownGo part value
  | .shootdownRequest fromDevice frame size part => .shootdownRequest fromDevice frame size part
  | .shootdownAck part device => .shootdownAck part device
  | .shootdownTimeout part => .shootdownTimeout part
  | .mcmdRead ctx offset => .mcmdRead ctx offset
  | .mcmdWrite ctx offset => .mcmdWrite ctx offset
  | .fwwakeWrite complex core => .fwwakeWrite complex core
  | .launchConfigWrite part value => .launchConfigWrite part value
  | .queueEnable q => .queueEnable q
  | .queueDisable q => .queueDisable q
  | .queueClear q => .queueClear q
  | .prodWrite q prod => .prodWrite q prod
  | .registerWrite target value => .registerWrite target value
  | .faultQueueHeadWrite part head => .faultQueueHeadWrite part head
  | .hostApertureAccess part va data => .hostApertureAccess part va data
  | .packetIssue q => .packetIssue q
  | .phaseClean q phase => .phaseClean q phase
  | .gangPlace q => .gangPlace q
  | .gangAge q => .gangAge q
  | .clockSyncRead => .clockSyncRead
  | .clockSyncReply t2 => .clockSyncReply t2
  | .clockSyncStale => .clockSyncStale
  | .flitReceive link f => .flitReceive link f
  | .nakReceive link ack => .nakReceive link ack
  | .nakRepeat link => .nakRepeat link
  | .linkRetrainDone link ok => .linkRetrainDone link ok
  | .stationDown station => .stationDown station
  | .fabricAtomicRefused device => .fabricAtomicRefused device
  | .mailboxUnknownKind record => .mailboxUnknownKind record
  | .watchdogExpiry => .watchdogExpiry
  | .mctpControl message => .mctpControl message
  | .partCreate part clusters base limit => .partCreate part clusters base limit
  | .partDestroy part => .partDestroy part
  | .accessWrite target part cls entry => .accessWrite target part cls entry
  | .stationMap station device part => .stationMap station device part
  | .queueAssign q part hshare fshare => .queueAssign q part hshare fshare
  | .teardown part => .teardown part
  | .debugWrite index actor tid ss bpa wpa => .debugWrite index actor tid ss bpa wpa
  | .retire part cluster => .retire part cluster
  | .counters => .counters
  | .fwUpdate image => .fwUpdate image
  | .configWrite image => .configWrite image
  | .attest nonce => .attest nonce
  | .reset => .reset
  | .coreRestart complex core => .coreRestart complex core
  | .memoryError pa double site => .memoryError pa double site

/-- What an access to memory leaves of the running context: its registers, its windows, its place in the code and its level. -/
structure sameThread (c d : Ctx) : Prop where
  registers : d.x = c.x ∧ d.v = c.v ∧ d.m = c.m ∧ d.ox = c.ox
  windows : d.windows = c.windows ∧ d.kept = c.kept
  place : d.key = c.key ∧ d.pc = c.pc ∧ d.pl = c.pl
  saved : d.cause = c.cause ∧ d.epc = c.epc ∧ d.eseq = c.eseq ∧ d.frec = c.frec
  modes : d.lao = c.lao ∧ d.fflags = c.fflags ∧ d.frm = c.frm

/-- The lines of the running context's core. -/
def linesOf (s : State) : List Line := (tget s.cores (coreOf s.cx.key) Core.reset).lines

/-- Two lines of 32 bytes are the same but for n bytes from byte j. -/
def sameBut (j n : Nat) (old new : BitVec 256) : Prop := ∀ k, k < 32 → (k < j ∨ j + n ≤ k) → lineBytes new k 1 = lineBytes old k 1

/-- The state right after reset, with the turn given to the context of a key. -/
def resetAt (key : Nat) : State := State.reset.focus key

/-! ## System registers, and what each completes with on its own -/

/-- The fields of a system register (R20 to R30, R203 to R217, R291, R319, R324, R370, R393, R398, R461, R462, R472, R500, R505, R511, R522,
R524, R541): the lowest bit, the width and the value of each; every other bit reads as zero (R6).  The selectors that no register has give
none (R18). -/
def registerFields (s : State) (n : Nat) : Option (List (Nat × Nat × Nat)) :=
  let c := s.cx
  let p := s.part
  let whole := fun (v : Word) => some [(0, 64, v.toNat)]
  match n with
  | 0x000 => some [(0, 2, c.pl.toNat), (3, 1, c.rae.toNat), (4, 1, c.lao.toNat), (5, 1, c.ss.toNat), (8, 1, c.xsf.toNat), (9, 1, c.xf64.toNat)]
  | 0x001 => some [(0, 26, c.lcore.toNat)]
  | 0x002 => some [(0, 2, c.key % 4)]
  | 0x003 => whole c.seed
  | 0x004 => whole s.core.s0
  | 0x005 => some [(0, 6, c.fflags.toNat)]
  | 0x006 => some [(0, 2, c.frm.toNat)]
  | 0x007 => whole s.core.s1
  | 0x100 => whole c.tag.time
  | 0x101 => some [(0, 32, c.tag.micro.toNat)]
  | 0x103 => whole c.dline
  | 0x104 => some [(0, 2, c.cls.toNat), (2, 2, c.eff.toNat)]
  | 0x105 => some [(0, 33, c.bound.toNat)]
  | 0x106 => some [(0, 2, c.domain.toNat)]
  | 0x107 => some [(0, 2, c.role.toNat), (4, 4, c.leader.toNat), (8, 16, c.members.toNat)]
  | 0x200 => some [(0, 9, Nat.min c.unack 256)]
  | 0x201 => some [(0, 32, c.pcnt.toNat), (32, 16, c.brk.toNat)]
  | 0x202 => some [(0, 16, c.grp.toNat), (18, 46, c.haddr.toNat)]
  | 0x203 => if c.daccsel.toNat % 64 < 43 then whole (tget c.dacc (4 * (c.daccsel.toNat % 64) + c.daccsel.toNat / 64) 0) else whole 0
  | 0x204 => some [(0, 6, c.daccsel.toNat % 64), (6, 2, c.daccsel.toNat / 64)]
  | 0x300 => whole s.core.ctags
  | 0x400 => some [(0, 32, c.pidx.toNat)]
  | 0x401 => some [(0, 8, c.cause.code.toNat), (8, 16, c.cause.sub.toNat), (60, 2, c.cause.ppl.toNat), (62, 1, c.cause.rpl.toNat),
      (63, 1, c.cause.late.toNat)]
  | 0x402 => some [(1, 63, c.epc.toNat)]
  | 0x403 => some [(0, 32, c.eseq.toNat)]
  | 0x404 => some [(6, 58, p.evec.toNat)]
  | 0x405 => whole c.tid
  | 0x407 => whole c.frec
  | 0x408 => whole c.bpa
  | 0x409 => whole c.wpa
  | 0x500 => some [(0, 32, p.dfab.toNat)]
  | 0x501 => some [(0, 32, p.eclk.toNat)]
  | 0x502 => some [(0, 10, s.dev.toNat)]
  | 0x503 => some [(0, 16, s.sync.err.toNat), (32, 10, s.sync.master.toNat), (62, 1, s.sync.bad.toNat), (63, 1, s.sync.sync.toNat)]
  | 0x600 => some [(12, 46, p.ptbase.toNat)]
  | 0x601 => some [(14, 50, p.sabase.toNat)]
  | 0x602 => some [(0, 20, p.sanum.toNat)]
  | 0x603 => some [(8, 56, p.frbase.toNat)]
  | 0x604 => some [(14, 2, p.sdSize.toNat), (16, 42, p.sdFrame.toNat), (62, 1, p.sdErr.toNat), (63, 1, p.sdBusy.toNat)]
  | 0x605 => some [(3, 21, c.mcmdOff.toNat), (63, 1, c.mcmdErr.toNat)]
  | 0x606 => whole c.mdat
  | 0x008 => whole p.dies
  | 0x102 => some [(0, 64, s.clock % 2 ^ 64)]
  | 0x406 => some [(0, 32, c.nextSeq.toNat), (32, 32, c.ringOut % 2 ^ 32)]
  | _ =>
    if 0x210 ≤ n ∧ n ≤ 0x21F then whole (tget p.cwin (n - 0x210) 0)
    else if 0x380 ≤ n ∧ n ≤ 0x3FF then whole (tget (s.cluster (clusterOf c.key)).rowmap (n - 0x380) (rowmapReset (n - 0x380)))
    else none

/-- A value has these fields, and zeros elsewhere. -/
def hasFields (v : Word) (fs : List (Nat × Nat × Nat)) : Prop :=
  (∀ f, f ∈ fs → field v f.1 f.2.1 = f.2.2) ∧ ∀ k, k < 64 → (∀ f, f ∈ fs → k < f.1 ∨ f.1 + f.2.1 ≤ k) → v.getLsbD k = false

/-- The fields of a system register after a write of v at a level that may, by the Access code of each (R4, R17); none where the write does more
than set fields, and for a register whose fields are all RO what it holds. -/
def fieldsWritten (s : State) (n : Nat) (v : Word) : Option (List (Nat × Nat × Nat)) :=
  let c := s.cx
  let privileged := fun (fs : List (Nat × Nat × Nat)) => if c.pl = 0 then registerFields s n else some fs
  let whole := [(0, 64, v.toNat)]
  match n with
  | 0x000 => some [(0, 2, c.pl.toNat), (3, 1, field v 3 1), (4, 1, field v 4 1), (5, 1, if c.pl = 0 then c.ss.toNat else field v 5 1),
      (8, 1, c.xsf.toNat), (9, 1, c.xf64.toNat)]
  | 0x004 => some whole
  | 0x005 => some [(0, 6, field v 0 6)]
  | 0x006 => some [(0, 2, if field v 0 2 = 3 then 0 else field v 0 2)]
  | 0x007 => some whole
  | 0x105 => some [(0, 33, field v 0 33)]
  | 0x106 => some [(0, 2, field v 0 2)]
  | 0x201 => some [(0, 32, c.pcnt.toNat), (32, 16, field v 32 16)]
  | 0x202 => if field v 18 46 = 0 then some [(0, 16, 0), (18, 46, 0)] else none
  | 0x203 => if c.daccsel.toNat % 64 < 43 then some whole else registerFields s n
  | 0x204 => some [(0, 6, field v 0 6), (6, 2, if field v 6 2 = 3 then 0 else field v 6 2)]
  | 0x300 => some [(0, 64, (s.core.ctags &&& ~~~v).toNat)]
  | 0x400 => privileged [(0, 32, field v 0 32)]
  | 0x401 => privileged [(0, 8, field v 0 8), (8, 16, field v 8 16), (60, 2, if 2 ≤ field v 60 2 then 1 else field v 60 2),
      (62, 1, field v 62 1), (63, 1, field v 63 1)]
  | 0x402 => privileged [(1, 63, field v 1 63)]
  | 0x404 => privileged [(6, 58, field v 6 58)]
  | 0x408 => privileged whole
  | 0x409 => privileged [(0, 64, field v 0 2 + 8 * field v 3 61)]
  | 0x500 => privileged [(0, 32, Nat.max 2500 (field v 0 32))]
  | 0x501 => privileged [(0, 32, Nat.max 100 (field v 0 32))]
  | 0x503 => privileged [(0, 16, s.sync.err.toNat), (32, 10, s.sync.master.toNat),
      (62, 1, if v.getLsbD 62 then 0 else s.sync.bad.toNat), (63, 1, s.sync.sync.toNat)]
  | 0x600 => some [(12, 46, field v 12 46)]
  | 0x601 => some [(14, 50, field v 14 50)]
  | 0x602 => some [(0, 20, field v 0 20)]
  | 0x603 => some [(8, 56, field v 8 56)]
  | 0x604 =>
    if s.part.sdBusy then registerFields s n
    else some [(14, 2, if field v 14 2 = 3 then 0 else field v 14 2), (16, 42, field v 16 42), (62, 1, s.part.sdErr.toNat), (63, 1, field v 0 1)]
  | 0x605 => if field v 0 2 = 0 ∨ field v 0 2 = 3 then some [(3, 21, field v 3 21), (63, 1, c.mcmdErr.toNat)] else none
  | 0x606 => some whole
  | _ =>
    if 0x210 ≤ n ∧ n ≤ 0x21F then some [(0, 64, field v 0 33)]
    else if 0x380 ≤ n ∧ n ≤ 0x3FF then some [(0, 64, field v 0 15 + 65536 * field v 16 4)]
    else registerFields s n

/-- The registers besides its own whose values a write may change: sys.dacc follows sys.daccsel (R319), and sys.mdat takes what sys.mcmd reads
(R511). -/
def alsoChanges (n other : Nat) : Prop := (n = 0x204 ∧ other = 0x203) ∨ (n = 0x605 ∧ other = 0x606)

/-- The regions that SUBS names are as R365 asks: aligned, of a size it allows, the task's own scratchpad and a publisher's, and apart. -/
structure Subscribable (s : State) (va ox n pa pb : Nat) : Prop where
  aligned : va % 32 = 0 ∧ ox % 32 = 0 ∧ n % 32 = 0
  size : 32 ≤ n ∧ n ≤ 2097152
  own : s.regionAt va n = some pa ∧ s.scratchRegion pa n = true ∧ windowCore pa = coreHere s
  publisher : s.regionAt ox n = some pb ∧ s.scratchRegion pb n = true ∧ s.grantsWindow (windowCore pb / 16) s.cx.part 0 rightRead = true
  apart : pa + n ≤ pb ∨ pb + n ≤ pa
  others : ∀ b, b ∈ s.subs → b.end_ = 0 → b.core = coreHere s → pa % 2 ^ 48 + n ≤ b.dest ∨ b.dest + b.size ≤ pa % 2 ^ 48

/-- No gang waits for its units. -/
def noGangs (s : State) : Prop := ∀ e, e ∈ s.queues → e.2.gang = none

/-- A core holds nothing that could start on it but what a statement names: no forked task and no reservation. -/
def bareCore (s : State) (core : Nat) : Prop :=
  (tget s.cores core Core.reset).deque = [] ∧ (tget s.cores core Core.reset).hints = [] ∧ s.retiring.contains (core / 16) = false

/-- A context runs the reaction of an event from its start (R37). -/
def runsReaction (k : Ctx) (e : Event) : Prop :=
  k.run = .running ∧ k.root = true ∧ k.pl = 0 ∧ k.pc = e.handler &&& ~~~1 ∧ k.rawX 10 = e.payload ∧ k.rawX 11 = e.target ∧
    k.rawX 12 = zext e.sender ∧ k.tag = e.tag ∧ k.dline = e.deadline ∧ k.cls = e.cls

/-- Two contexts hold the same registers and go on at the same address. -/
def keepsItsThread (c k : Ctx) : Prop := k.tid = c.tid ∧ k.pc = c.pc ∧ k.x = c.x ∧ k.v = c.v ∧ k.m = c.m ∧ k.ox = c.ox

end Sys2Proof.Claims

open Sys2Proof Sys2Proof.Machine Sys2Proof.Claims

/-- R89: every instruction of major 0x01 writes its table's value to X[d] and goes on to the next word; nothing else changes. -/
def Sys2Proof.Claims.RegisterArithmeticWritesResult : Prop := ∀ (i : Instr) (s : State) (f : ScalarForm), registerForm s i = some f → f.completes i s

/-- R90, R91: the bit-field instructions. -/
def Sys2Proof.Claims.BitFieldsWriteResult : Prop := ∀ (i : Instr) (s : State) (f : ScalarForm), bitFieldForm s i = some f → f.completes i s

/-- R92, R93: multiplies, divides and carry-less multiplies, with their windows. -/
def Sys2Proof.Claims.MultiplyDivideWriteResult : Prop := ∀ (i : Instr) (s : State) (f : ScalarForm), multiplyForm s i = some f → f.completes i s

/-- R94 to R97: the immediate forms, LIH and SOX. -/
def Sys2Proof.Claims.ImmediatesWriteResult : Prop := ∀ (i : Instr) (s : State) (f : ScalarForm), immediateForm s i = some f → f.completes i s

/-- R57: the 16-bit forms that write a register. -/
def Sys2Proof.Claims.CompressedFormsWriteResult : Prop := ∀ (i : Instr) (s : State) (f : ScalarForm), compressedForm s i = some f → f.completes i s

/-- R97, R98: LOX writes its ox register and nothing else. -/
def Sys2Proof.Claims.LoxWritesExtensionRegister : Prop := ∀ (n : BitVec 3) (a : Reg) (s : State),
  ∃ t, exec (.lox n a) s = .next t ∧ s.sameButCx t ∧ t.cx = { s.cx.retire 4 with ox := t.cx.ox } ∧
    t.cx.readOx n = s.x a ∧ ∀ k, k ≠ n → t.cx.readOx k = s.cx.readOx k

/-- R106, R58: a branch goes to its target when its condition holds, else to the next word; it writes no register and no memory. -/
def Sys2Proof.Claims.BranchesGoWhereTheConditionSays : Prop := ∀ (i : Instr) (s : State) (taken : Bool) (off : Int) (len : Nat),
  branchForm s i = some (taken, off, len) →
    exec i s = .next (s.withCx (fun c => c.stepTo (if taken then BitVec.ofInt 64 (s.cx.pc.toInt + 2 * off) else s.nextPc len)))

/-- R107, R58: a jump writes the address of the next word to X[d] and goes to its target. -/
def Sys2Proof.Claims.JumpsWriteReturnAddress : Prop := ∀ (i : Instr) (s : State) (target : Word) (d : Reg) (len : Nat),
  jumpForm s i = some (target, d, len) → s.admits 0 ⟨[d], [], []⟩ →
    ∃ t, exec i s = .next t ∧ s.wroteX t d (s.nextPc len) target []

/-- R99: a load whose address is aligned, names no FIFO and reads as dataRead answers delivers the bytes read, extended as its width says,
and opens its window; one whose address is not aligned takes the precise alignment trap with SUB 0. -/
def Obligations.LoadsDeliverMemory : Prop :=
  (∀ (i : Instr) (s s1 : State) (a : Access) (w : BitVec 3) (bytes : List Byte),
    loadForm s i = some (a, w) → s.admits a.la ⟨[a.reg], [], []⟩ → a.address.toNat % a.size = 0 →
    s.fifoAt a.address.toNat = none → s.dataRead a.address.toNat a.size s.cx.pl = .value bytes s1 →
      ∃ t, exec i s = .next t ∧ (s1.watch a.address.toNat a.size false).wroteX t a.reg (loaded w (ofBytes bytes))
        ((s1.watch a.address.toNat a.size false).nextPc a.len) (openedX s.cx a.la a.reg)) ∧
  (∀ (i : Instr) (s : State) (a : Access) (w : BitVec 3), loadForm s i = some (a, w) → s.admits a.la ⟨[a.reg], [], []⟩ →
    a.address.toNat % a.size ≠ 0 → exec i s = .next (s.preciseData 6 0 a.address 0 a.word))

/-- R100: a store whose address is aligned takes effect as dataWrite answers, and the thread goes on; no register changes.  One whose
address is not aligned takes the precise alignment trap with SUB 1. -/
def Obligations.StoresWriteMemory : Prop :=
  (∀ (i : Instr) (s s1 : State) (a : Access),
    storeForm s i = some a → a.address.toNat % a.size = 0 →
    s.dataWrite a.address.toNat (bytesOf (s.x a.reg).toNat a.size) s.cx.pl a.word = .done s1 →
      exec i s = .next ((s1.watch a.address.toNat a.size true).withCx (fun c => c.retire a.len))) ∧
  (∀ (i : Instr) (s : State) (a : Access), storeForm s i = some a →
    a.address.toNat % a.size ≠ 0 → exec i s = .next (s.preciseData 6 1 a.address 0 a.word))

/-- R28, R111: MFS reads the register that its selector names, MTS writes it, at a level that may; sys.fflags once no earlier instruction is
open. -/
def Obligations.SystemRegisterMovesTakeEffect : Prop :=
  (∀ (d : Reg) (sel : BitVec 11) (s : State), s.admits 0 ⟨[d], [], []⟩ → sysLevel sel ≤ s.cx.pl.toNat →
    (sel = 5 → s.cx.earlierOpen = false) → ∃ t, exec (.mfs d sel) s = .next t ∧ s.wroteX t d (s.readSys sel) (s.nextPc 4) []) ∧
  (∀ (sel : BitVec 11) (a : Reg) (s : State), sysLevel sel ≤ s.cx.pl.toNat → (sel = 5 → s.cx.earlierOpen = false) →
    exec (.mts sel a) s = .next ((s.writeSys sel (s.x a) s.cx.pl).withCx (fun c => c.retire 4)))

/-- R112: TRAP and BRK take their traps, with their codes, the address to resume at, and their groups' entries; in a partition without a
vector base they end their task instead, with a record of the cause (R466). -/
def Obligations.SoftwareTrapsEnterHandler : Prop :=
  (∀ (code : BitVec 11) (s : State), s.cx.open_ = false → s.part.evec ≠ 0 →
    ∃ t, exec (.trap code) s = .next t ∧ (closed s).trapped t 13 code.toNat 3 false false (s.nextPc 4)) ∧
  (∀ (code : BitVec 11) (s : State), s.cx.open_ = false → s.part.evec ≠ 0 →
    ∃ t, exec (.brk code) s = .next t ∧ (closed s).trapped t 14 code.toNat 2 false false s.cx.pc) ∧
  (∀ (code : BitVec 11) (s : State), s.cx.open_ = false → s.part.evec = 0 →
    exec (.trap code) s =
      .next ((closed s).kill (closed s).cx (mkRecord 13 code.toNat 0 0 s.cx.tag 0 0 0 s.cx.pc 0 s.cx.tid)) ∧
    exec (.brk code) s =
      .next ((closed s).kill (closed s).cx (mkRecord 14 code.toNat 0 0 s.cx.tag 0 0 0 s.cx.pc 0 s.cx.tid)))

/-- R113, R468: ERET restores the level, the pc and the kept windows, and changes no register and no memory. -/
def Obligations.EretReturnsToInterruptedCode : Prop := ∀ (s : State), 1 ≤ s.cx.pl.toNat → s.cx.open_ = false → s.cx.replay = none →
  ∃ t, exec .eret s = .next t ∧ t.cx.pl = s.cx.cause.ppl ∧ t.cx.pc = BitVec.ofNat 64 (2 * s.cx.epc.toNat) ∧
    t.cx.windows = s.cx.kept.headD [] ∧ t.cx.kept = s.cx.kept.drop 1 ∧ t.cx.x = s.cx.x ∧ t.cx.v = s.cx.v ∧ t.cx.m = s.cx.m ∧
    t.cx.ox = s.cx.ox ∧ t.mem = s.mem

/-- R114 to R118: WAITI whose limit has passed, SYNCI, TLBI of every entry, TLBA of an address without a translation, and HALT. -/
def Obligations.WaitSyncTranslationAndHaltTakeEffect : Prop :=
  (∀ (d a : Reg) (s : State), 1 ≤ s.cx.pl.toNat → s.cx.open_ = false → s.cx.windows = [] → s.cx.asyncDue = false → s.wakeHeld = false →
    s.x a ≠ 0 → (s.x a).toNat ≤ s.clock → ∃ t, exec (.waiti d a) s = .next t ∧ s.wroteX t d 0 (s.nextPc 4) []) ∧
  (∀ (s : State), exec .synci s =
    .next ((s.withCore (coreOf s.cx.key) (fun c => { c with icache := [] })).withCx (fun c => c.retire 4))) ∧
  (∀ (a : Reg) (s : State), 1 ≤ s.cx.pl.toNat → s.x a = 0 → exec (.tlbi a) s =
    .next ((s.withCore (coreOf s.cx.key) (fun c => { c with tlb := c.tlb.filter (fun e => e.part != s.cx.part) })).withCx
      (fun c => c.retire 4))) ∧
  (∀ (d a : Reg) (s : State), 1 ≤ s.cx.pl.toNat → s.admits 0 ⟨[d], [], []⟩ →
    s.leafAt (coreOf s.cx.key) s.cx.part (s.x a).toNat = none →
    ∃ t, exec (.tlba d a) s = .next t ∧ s.wroteX t d 0x8000000000000000 (s.nextPc 4) []) ∧
  (∀ (s : State), 2 ≤ s.cx.pl.toNat → s.cx.open_ = false →
    exec .halt s = .next (s.withCx (fun c => { c with windows := [], pc := c.pc + 4, run := .halted })))

/-- R109: an instruction below its least level takes the precise privilege trap, with no other effect. -/
def Obligations.BelowItsLevelAnInstructionTraps : Prop := ∀ (s : State),
  (∀ (d : Reg) (sel : BitVec 11), 0x600 ≤ sel.toNat → s.cx.pl = 0 → exec (.mfs d sel) s = .next (s.precise 3 0)) ∧
  (∀ (sel : BitVec 11) (a : Reg), 0x600 ≤ sel.toNat → s.cx.pl = 0 → exec (.mts sel a) s = .next (s.precise 3 0)) ∧
  (∀ (a : Reg), s.cx.pl.toNat < 2 → exec (.mts 0x607 a) s = .next (s.precise 3 0)) ∧
  (s.cx.pl = 0 → exec .eret s = .next (s.precise 3 0)) ∧
  (∀ (d a : Reg), s.cx.pl = 0 → exec (.waiti d a) s = .next (s.precise 3 0)) ∧
  (∀ (a : Reg), s.cx.pl = 0 → exec (.tlbi a) s = .next (s.precise 3 0)) ∧
  (∀ (d a : Reg), s.cx.pl = 0 → exec (.tlba d a) s = .next (s.precise 3 0)) ∧
  (s.cx.pl.toNat < 2 → exec .halt s = .next (s.precise 3 0))

/-- R466: what a precise trap without a record does, when the partition has a vector base. -/
def Sys2Proof.Claims.PreciseTrapEntersHandler : Prop := ∀ (s : State) (code sub : Nat),
  s.part.evec ≠ 0 → s.trapped (s.precise code sub) code sub (trapGroup code false) false false s.cx.pc

/-- R466: without a vector base the task is ended instead, with a record of the cause in the fault queue. -/
def Sys2Proof.Claims.TrapWithoutVectorEndsTask : Prop := ∀ (s : State) (code sub : Nat), s.part.evec = 0 →
  s.precise code sub = s.kill s.cx (mkRecord code sub 0 0 s.cx.tag 0 0 0 s.cx.pc 0 s.cx.tid)

/-- R46: an instruction that would write a pending destination takes the precise window-hazard trap, unless LAO is 1. -/
def Obligations.WritingPendingDestinationTraps : Prop := ∀ (i : Instr) (s : State) (f : ScalarForm),
  (registerForm s i = some f ∨ bitFieldForm s i = some f ∨ multiplyForm s i = some f ∨ immediateForm s i = some f ∨
    compressedForm s i = some f) →
  s.cx.hazard ⟨[f.dest], [], []⟩ = true → s.cx.lao = false → exec i s = .next (s.precise 4 0)


/-- R172, R170: the integer, logical, shift and sign instructions on every lane whose mask bit is 1; the other lanes keep their values. -/
def Sys2Proof.Claims.VectorIntegerLanesAreComputed : Prop := ∀ (i : Instr) (s : State) (f : VecForm), vectorIntegerForm s i = some f → f.completes i s

/-- R185: the permutations. -/
def Sys2Proof.Claims.PermutationsMoveLanes : Prop := ∀ (i : Instr) (s : State) (f : VecForm), permuteForm s i = some f → f.completes i s

/-- R174, R186: VPUT, VSPLAT, VMOV, VSEL and VCLASS. -/
def Sys2Proof.Claims.VectorMovesWriteLanes : Prop := ∀ (i : Instr) (s : State) (f : VecForm), vectorMoveForm s i = some f → f.completes i s

/-- R157, R158, R170, R175: every true lane takes the exact result rounded once under sys.frm, with one draw a lane in ascending order
when the mode is stochastic, and every true lane's flags are merged. -/
def Obligations.FloatLanesAreRoundedOnce : Prop := ∀ (i : Instr) (s : State) (f : DrawForm), floatForm s i = some f → f.completes i s

/-- R171, R176, R177, R456 to R458: VMIN, VMAX, conversions, and the extensions on a core that has them. -/
def Sys2Proof.Claims.ConversionsAndExtensionsAreRoundedOnce : Prop := ∀ (i : Instr) (s : State) (f : DrawForm),
  extendedForm s i = some f → f.completes i s

/-- R173: a compare writes the bits of its true lanes, and 0 to every other bit of M[vd]. -/
def Sys2Proof.Claims.ComparesWriteMasks : Prop := ∀ (i : Instr) (s : State) (c : Compare) (la : BitVec 4) (ty m : BitVec 3)
  (vb va : BitVec 4) (vd : BitVec 3), compareForm i = some (c, la, ty, m, vb, va, vd) → s.admitsRing la ⟨[], [], [vd]⟩ →
    ∃ t, exec i s = .next t ∧
      s.computed t la ⟨[], [], [vd]⟩ s.stream
        { nv := (trueOf s ty m).any (fun k => (c.lane (valueAt s ty va k) (valueAt s ty vb k)).2) } ∧
      (vd ≠ 0 → ∀ k, k < 1024 → (t.cx.rawM vd).getLsbD k = (decide (k < lanesOf (tyBits ty)) && (s.cx.readM m).getLsbD k &&
        (c.lane (valueAt s ty va k) (valueAt s ty vb k)).1))

/-- R187: the mask operations that write a mask register; m0 discards. -/
def Sys2Proof.Claims.MaskOperationsWriteMasks : Prop := ∀ (i : Instr) (s : State) (la : BitVec 4) (vd : BitVec 3) (p : MWord → Prop),
  maskForm s i = some (la, vd, p) → s.admitsRing la ⟨[], [], [vd]⟩ →
    ∃ t, exec i s = .next t ∧ s.computed t la ⟨[], [], [vd]⟩ s.stream {} ∧ (vd ≠ 0 → p (t.cx.rawM vd))

/-- R186, R187: VGET and the mask operations that write a scalar register; x0 discards. -/
def Sys2Proof.Claims.VectorToScalarMovesWriteRegister : Prop := ∀ (i : Instr) (s : State) (la : BitVec 4) (d : Reg) (p : Word → Prop),
  toScalarForm s i = some (la, d, p) → s.admitsRing la ⟨[d], [], []⟩ →
    ∃ t, exec i s = .next t ∧ s.computed t la ⟨[d], [], []⟩ s.stream {} ∧ (d ≠ 0 → p (t.cx.rawX d))

/-- R182: the integer reductions write an exact sum or a bitwise combination of the true lanes to the leading bytes of V[vd]. -/
def Sys2Proof.Claims.IntegerReductionsAreExact : Prop := ∀ (i : Instr) (s : State) (f : ReduceForm),
  integerReduceForm s i = some f → f.completes i s

/-- R182, R183: the floating-point sums round once; VRMAX and VRMIN ignore NaN lanes. -/
def Sys2Proof.Claims.FloatReductionsRoundOnce : Prop := ∀ (i : Instr) (s : State) (f : ReduceForm),
  floatReduceForm s i = some f → f.completes i s

/-- R155, R177 to R181, R184: VWIDEN, VQMAX, VQNT, VRNG and VRSUMA, with their draws. -/
def Obligations.WideningQuantisationAndRandomNumbersComplete : Prop :=
  (∀ (la : BitVec 4) (m rm : BitVec 2) (tyd tys : BitVec 3) (va vd : BitVec 4) (s : State),
    tyBits tys < tyBits tyd → s.admitsRing la ⟨[], groupRegs vd (tyBits tyd / tyBits tys), []⟩ →
    let k := tyBits tyd / tyBits tys
    let f : DrawForm := ⟨none, la, tyBits tys, lanesOf (tyBits tys), m.zeroExtend 3, vd, s.cx.roundMode rm, fun i z =>
      roundVal (elemTy tyd) (s.cx.roundMode rm) z (valueAt s tys va i)⟩
    ∃ t, exec (.vwiden la m rm tyd tys va vd) s = .next t ∧
      s.computed t la ⟨[], groupRegs vd k, []⟩ (drawn (s.num f.mode) f.count).stream (f.flags s) ∧
      ∀ i, i < lanesOf (tyBits tys) → elemAt (t.cx.rawV (vd + BitVec.ofNat 4 (i % k))) (tyBits tyd) (i / k) =
        if (s.cx.readM f.m).getLsbD i then BitVec.ofNat (tyBits tyd) (f.result s i).1
        else elemAt (s.cx.rawV (vd + BitVec.ofNat 4 (i % k))) (tyBits tyd) (i / k)) ∧
  (∀ (la : BitVec 4) (m : BitVec 2) (tyd tys : BitVec 3) (va vd : BitVec 4) (s : State), s.admitsRing la ⟨[], [vd], []⟩ →
    let top := maxMagnitude (valueAt s tys va) (fun k => (s.cx.readM (m.zeroExtend 3)).getLsbD k) 124
    ∃ t, exec (.vqmax la m tyd tys va vd) s = .next t ∧ s.computed t la ⟨[], [vd], []⟩ s.stream { nv := top.2 } ∧
      (∀ j, 32 ≤ j → j < 4096 → (t.cx.rawV vd).getLsbD j = (s.cx.rawV vd).getLsbD j) ∧
      ((elemAt (t.cx.rawV vd) 32 0).toNat : Int) =
        min 63 (max 0 (max (scaleNeed tyd.toNat top.1) (elemAt (s.cx.readV vd) 32 0).toInt))) ∧
  (∀ (la : BitVec 4) (m rm : BitVec 2) (tyd tys : BitVec 3) (va vd : BitVec 4) (s : State), s.admitsRing la ⟨[], [vd], []⟩ →
    tyd.toNat < 4 →
    let e := min 63 (max 0 (elemAt (s.cx.readV vd) 32 0).toInt)
    let f : DrawForm := ⟨none, la, 4, 124, m.zeroExtend 3, vd, s.cx.roundMode rm, fun k z =>
      roundVal4 tyd.toNat (s.cx.roundMode rm) z (scaleVal (valueAt s tys va k) (32 - e))⟩
    ∃ t, exec (.vqnt la m rm tyd tys va vd) s = .next t ∧
      s.computed t la ⟨[], [vd], []⟩ (drawn (s.num f.mode) 124).stream (f.flags s) ∧
      (∀ j, 512 ≤ j → j < 4096 → (t.cx.rawV vd).getLsbD j = (s.cx.rawV vd).getLsbD j) ∧
      elemAt (t.cx.rawV vd) 8 0 = 4 ∧ (elemAt (t.cx.rawV vd) 8 1).toNat = tyd.toNat * 64 + e.toNat ∧
      ∀ k, k < 124 → elemAt (t.cx.rawV vd) 4 (4 + k) =
        if (s.cx.readM f.m).getLsbD k then BitVec.ofNat 4 (f.result s k).1 else 0) ∧
  (∀ (la : BitVec 4) (m : BitVec 2) (tyd : BitVec 3) (vd : BitVec 4) (s : State), s.admitsRing la ⟨[], [vd], []⟩ →
    ∃ t, exec (.vrng la m tyd vd) s = .next t ∧
      s.computed t la ⟨[], [vd], []⟩ (drawn (s.num .rsto) (lanesOf (tyBits tyd))).stream {} ∧
      ∀ k, k < lanesOf (tyBits tyd) → elemAt (t.cx.rawV vd) (tyBits tyd) k =
        if (s.cx.readM (m.zeroExtend 3)).getLsbD k
        then BitVec.ofNat (tyBits tyd) (randomElem tyd (draw (drawn (s.num .rsto) k).stream).1)
        else elemAt (s.cx.rawV vd) (tyBits tyd) k) ∧
  (∀ (la : BitVec 4) (ty m : BitVec 3) (vb va vd : BitVec 4) (s : State), s.admitsRing la ⟨[], [vd], []⟩ →
    let r := windowLanes (min 62 ((s.cx.readV vb).toNat % 64)) (valueAt s ty va) (s.cx.readM m).getLsbD (lanesOf (tyBits ty)) 0
      ((s.cx.readV vd).extractLsb' 0 64).toInt (s.num (modeOf s.cx.frm))
    ∃ t, exec (.vrsuma la ty m vb va vd) s = .next t ∧
      s.computed t la ⟨[], [vd], []⟩ (drawn (s.num (modeOf s.cx.frm)) (lanesOf (tyBits ty))).stream r.2.flags ∧
      elemAt (t.cx.rawV vd) 64 0 = BitVec.ofInt 64 r.1 ∧
      ∀ j, 64 ≤ j → j < 4096 → (t.cx.rawV vd).getLsbD j = (s.cx.rawV vd).getLsbD j)

/-- R61, R467: on a core without its extension, an extension instruction waits for earlier instructions before its thread migrates, and does
nothing else; a late fault of one of them is taken first. -/
def Sys2Proof.Claims.ExtensionInstructionsMigrateFirst : Prop := ∀ (i : Instr) (s : State) (f : DrawForm) (b : Bool),
  extendedForm s i = some f → f.needs = some b → s.cx.hasExtension b = false →
    (s.cx.firstFault true = none → s.cx.open_ = true → exec i s = .next s.stall) ∧
    (∀ q, s.cx.firstFault true = some q → exec i s = .next (s.takeFault q))

/-- R163 to R169, R188 to R190, R471, R474: a memory-accessing vector instruction that no other waits before issues; its loaded elements
stand in V[v], and its address register is updated; a long form of which units remain stays in progress; at a fault the instruction is
kept in the replay slot, from the unit that failed, and a late fault is due la instructions on. -/
def Sys2Proof.Claims.VectorAccessesComplete : Prop := ∀ (i : Instr) (s : State) (la : BitVec 4) (m : VMem) (u : Option (Reg × Word)),
  vectorAccess s i = some (la, m, u) → s.admitsRing la ⟨u.toList.map (·.1), m.dest, []⟩ → vectorsWait s.cx = false →
  (runOf s m u).held = false →
    ∃ t, exec i s = .next t ∧ t.mem = (runOf s m u).s.mem ∧ t.inflight = (runOf s m u).s.inflight ∧
      t.cx.pc = (((runOf s m u).s.cx.pc + 4) &&& ~~~1) ∧ t.cx.x = (runOf s m u).s.cx.x ∧ t.cx.m = (runOf s m u).s.cx.m ∧
      (∀ d, d ∈ m.dest → t.cx.rawV d = (runOf s m u).value) ∧
      (∀ d, d ∉ m.dest → t.cx.rawV d = (runOf s m u).s.cx.rawV d) ∧
      match (runOf s m u).fault with
      | none => t.cx.replay = (runOf s m u).s.cx.replay ∧ ((runOf s m u).more = true →
          ∃ p, t.cx.pends.getLast? = some p ∧ p.kind = .vector (m.after (runOf s m u)))
      | some _ => t.cx.replay = some (m.after (runOf s m u)) ∧ ∃ f, f ∈ t.cx.faults ∧ f.seq = m.seq ∧ f.left = la.toNat

/-- R474: while the replay slot is held, or an older one waits for it, the instruction issues and waits; it accesses nothing. -/
def Sys2Proof.Claims.VectorAccessesWaitForTheReplaySlot : Prop := ∀ (i : Instr) (s : State) (la : BitVec 4) (m : VMem) (u : Option (Reg × Word)),
  vectorAccess s i = some (la, m, u) → s.admitsRing la ⟨u.toList.map (·.1), m.dest, []⟩ → vectorsWait s.cx = true →
    ∃ t, exec i s = .next t ∧ s.sameButCx t ∧ t.cx.v = s.cx.v ∧ ∃ p, t.cx.pends.getLast? = some p ∧ p.kind = .vector m

/-- R164, R168: VLD, VLDS, VST, VSTS and VLDBC check every true lane before any takes effect: one that faults leaves the destination and
everything else as it was. -/
def Sys2Proof.Claims.FaultedSpanAccessesLeaveEverything : Prop := ∀ (s : State) (m : VMem) (old : VWord) (limit : Option Nat),
  m.kind ∈ [VKind.vld, VKind.vlds, VKind.vst, VKind.vsts, VKind.vldbc] → (s.runMem m old limit).fault ≠ none →
    (s.runMem m old limit).s = s ∧ (m.dest ≠ [] → (s.runMem m old limit).value = old)

/-- R154, R165, R169: a gather delivers its elements in ascending order: where it stops, the elements from that unit on keep their values,
and so, at any end, do those before its start and those whose mask bits are 0. -/
def Sys2Proof.Claims.GatherKeepsElementsFromItsFaultOn : Prop := ∀ (s : State) (m : VMem) (old : VWord) (limit : Option Nat) (k : Nat),
  k < m.lanes → (m.mask.getLsbD k = false ∨ k < m.start ∨ (s.runGather m old limit).units ≤ k) →
    elemAt (s.runGather m old limit).value (tyBits m.ty) k = elemAt old (tyBits m.ty) k

/-- R216, R264 to R266: FORK pushes a task onto the head of its core's deque, with its entry, argument, tag, steal domain and parent, and
writes 0; with a full deque it writes 1 and does nothing else. -/
def Sys2Proof.Claims.ForkPushesATask : Prop :=
  (∀ (d a b : Reg) (s : State), s.admits 0 ⟨[d], [], []⟩ → s.dequeRoom (coreOf s.cx.key) s.cx.part = true →
    let s1 := s.boundary (some (domainScope s.cx.domain)) none
    ∃ t e rest, exec (.fork d a b) s = .next t ∧ t.nextTid = s1.nextTid + 1 ∧ t.cx.children = s1.cx.children + 1 ∧
      (d ≠ 0 → t.cx.rawX d = 0) ∧ (tget t.cores (coreOf s.cx.key) Core.reset).deque = e :: rest ∧ e.level = s.cx.domain ∧
      e.spilled = false ∧ e.task.pc = (s.x a &&& ~~~1) ∧ e.task.rawX 10 = s.x b ∧ e.task.parent = s1.cx.tid ∧
      e.task.tag = s1.cx.tag ∧ e.task.root = false) ∧
  (∀ (d a b : Reg) (s : State), s.admits 0 ⟨[d], [], []⟩ → s.dequeRoom (coreOf s.cx.key) s.cx.part = false →
    ∃ t, exec (.fork d a b) s = .next t ∧ s.wroteX t d 1 (s.nextPc 4) [])

/-- R214, R219, R266 to R268, R278: JOIN of children that have all ended writes their number; with one outstanding and an empty deque it
waits; EXIT of a child and REND of a root with nothing to join end their task, and each is illegal in the other. -/
def Sys2Proof.Claims.JoinExitAndRendEndTasks : Prop :=
  (∀ (d : Reg) (s : State), s.cx.open_ = false → s.cx.children = 0 →
    ∃ t, exec (.join d) s = .next t ∧ (d ≠ 0 → t.cx.rawX d = BitVec.ofNat 64 s.cx.joinable.length) ∧ t.cx.joinable = [] ∧
      t.cx.run = .running) ∧
  (∀ (d : Reg) (s : State), s.cx.open_ = false → s.cx.children ≠ 0 → s.core.deque = [] →
    exec (.join d) s = .next ((closed s).withCx (fun c => { c with run := .waiting (.join (some d)) }))) ∧
  (∀ (s : State), s.cx.root = false → s.cx.open_ = false → s.cx.children = 0 → s.cx.unack = 0 → s.cx.handles = 0 → s.cx.joinable = [] →
    exec .exit_ s = .next ((closed s).endTask (if s.cx.domain = 3 then 2 else s.cx.domain))) ∧
  (∀ (s : State), s.cx.root = true → s.cx.open_ = false → s.cx.children = 0 → s.cx.unack = 0 → s.cx.handles = 0 → s.cx.joinable = [] →
    exec .rend s = .next ((closed s).endTask 2)) ∧
  (∀ (s : State), s.cx.root = true → exec .exit_ s = .next (s.precise 2 0)) ∧
  (∀ (s : State), s.cx.root = false → exec .rend s = .next (s.precise 2 0))

/-- R269 to R271: YIELD with nothing to yield to writes 0, and so when it may not be switched out; else its context goes to what it yields to;
DOMAIN sets the steal domain and writes the old one, and takes the illegal-operand trap above 3; SPAWNQ counts the deque. -/
def Sys2Proof.Claims.YieldDomainAndSpawnqTakeEffect : Prop :=
  (∀ (d : Reg) (s : State), s.cx.open_ = false → (closed s).yieldTo = (none, none) →
    ∃ t, exec (.yield d) s = .next t ∧ (closed s).wroteX t d 0 (s.nextPc 4) []) ∧
  (∀ (d : Reg) (s s1 : State), s.cx.open_ = false → (closed s).yieldTo ≠ (none, none) →
    ((closed s).answered d 1).switchOut s.cx.key (coreOf s.cx.key) = some s1 →
    exec (.yield d) s = .next (((s1.makeWay s.cx.key).startPick s.cx.key (closed s).yieldTo.1 (closed s).yieldTo.2).getD s1)) ∧
  (∀ (d : Reg) (s : State), s.cx.open_ = false → ((closed s).answered d 1).switchOut s.cx.key (coreOf s.cx.key) = none →
    ∃ t, exec (.yield d) s = .next t ∧ (closed s).wroteX t d 0 (s.nextPc 4) []) ∧
  (∀ (d a : Reg) (s : State), s.admits 0 ⟨[d], [], []⟩ → (s.x a).toNat < 4 →
    ∃ t, exec (.domain d a) s = .next t ∧
      (s.withCx (fun c => { c with domain := (s.x a).setWidth 2 })).wroteX t d (zext s.cx.domain) (s.nextPc 4) []) ∧
  (∀ (d a : Reg) (s : State), s.admits 0 ⟨[d], [], []⟩ → 4 ≤ (s.x a).toNat → exec (.domain d a) s = .next (s.precise 2 0)) ∧
  (∀ (d : Reg) (s : State), s.admits 0 ⟨[d], [], []⟩ →
    ∃ t, exec (.spawnq d) s = .next t ∧ s.wroteX t d (BitVec.ofNat 64 s.core.deque.length) (s.nextPc 4) [])

/-- R223 to R228, R272 to R275: a FOLLOW that completes its leader's number forms the group, and so does a LEAD that finds its one
follower waiting; DETACH leaves a group; BRI branches, and a follower whose outcome differs from its leader's leaves first. -/
def Obligations.FollowGroupsFormAndPart : Prop :=
  (∀ (d a b : Reg) (s : State) (l : Ctx) (n : Nat) (limit : Word) (d' : Reg) (joined : List Nat),
    s.admits 0 ⟨[d], [], []⟩ → s.cx.role = 0 → (s.x a).toNat < 16 → (s.x a).toNat ≠ coreOf s.cx.key % 16 →
    (limit = 0 ∨ s.clock ≤ limit.toNat) → (s.x b = 0 ∨ s.clock < (s.x b).toNat) →
    let s1 := s.withCx (fun c => { c with run := .waiting (.follow (s.x a).toNat (s.x b) d false) })
    s1.leadOn (16 * clusterOf s.cx.key + (s.x a).toNat) = some l → l.run = .waiting (.lead n limit d' joined) → l.key ≠ s.cx.key →
    l.sameReaction s.cx = true → n = joined.length + 1 → (∀ k, k ∈ joined → coreOf k ≠ coreOf s.cx.key) → s.ctxAt l.key = some l →
    exec (.follow d a b) s = .next
      ((s.withCx (fun c => { c with run := .waiting (.follow (s.x a).toNat (s.x b) d true) })).formGroup l.key d' (joined ++ [s.cx.key]))) ∧
  (∀ (d a b : Reg) (s : State) (f : Ctx) (d' : Reg),
    s.admits 0 ⟨[d], [], []⟩ → s.cx.role = 0 → s.x a = 1 → s.others = [f] → f.key ≠ s.cx.key → coreOf f.key ≠ coreOf s.cx.key →
    clusterOf f.key = clusterOf s.cx.key → f.role = 0 → f.run = .waiting (.follow (coreOf s.cx.key % 16) 0 d' false) →
    (s.x b = 0 ∨ s.clock ≤ (s.x b).toNat) →
    s.cx.sameReaction f = true →
    ∃ t, exec (.lead d a b) s = .next t ∧ t.cx.role = 1 ∧ t.cx.members = membersOf [s.cx.key, f.key] ∧ (d ≠ 0 → t.cx.rawX d = 0) ∧
      ∃ g, t.others = [g] ∧ g.key = f.key ∧ g.role = 2 ∧ g.members = t.cx.members ∧ g.pc = t.cx.pc) ∧
  (∀ (s : State), s.cx.role ≠ 3 → keysApart s →
    ∃ t, exec .detach s = .next t ∧ t.cx.role = 0 ∧ t.cx.pc = (s.nextPc 4 &&& ~~~1) ∧ t.cx.x = s.cx.x) ∧
  (∀ (a b : Reg) (off : BitVec 12) (s : State), s.cx.role ≠ 2 →
    exec (.bri a b off) s = .next (s.withCx (fun c => c.stepTo
      (if s.x a ≠ s.x b then BitVec.ofInt 64 (s.cx.pc.toInt + 2 * off.toInt) else s.nextPc 4)))) ∧
  (∀ (a b : Reg) (off : BitVec 12) (s : State) (l : Ctx), s.cx.role = 2 → s.leaderOf s.cx = some l →
    (decide (l.readX a = l.readX b) ≠ decide (s.x a = s.x b)) →
    exec (.bri a b off) s = .next ((s.leaveGroup s.cx).withCx (fun c => c.stepTo
      (if s.x a ≠ s.x b then BitVec.ofInt 64 ((s.leaveGroup s.cx).cx.pc.toInt + 2 * off.toInt) else (s.leaveGroup s.cx).nextPc 4))))

/-- R201, R276: a POST or POSTD to an actor of this device sends its event, with the tag, handler and payload given, after a release, and
waits for the event's arrival; a tag that is not allowed or a bad actor address is answered with its status. -/
def Sys2Proof.Claims.PostsSendEvents : Prop := ∀ (i : Instr) (s : State) (d a b : Reg) (tag : Option Tag) (bad : Word),
  (i = .post d a b ∧ tag = s.cx.postTag ∧ bad = 1) ∨
    (i = .postd d a b ∧ tag = s.cx.postdTag ∧ bad = 4 ∧ (s.cx.readOx 6).toNat < 2 ^ 32) →
  s.admits 0 ⟨[d], [], []⟩ →
    (∀ t pa, tag = some t → s.actorPage (s.x a) = some pa → deviceOf pa = s.dev.toNat →
      ∃ t' e, exec i s = .next t' ∧ t'.inflight.getLast? = some (.eventArrival e) ∧ e.tag = t ∧ e.target = s.x a ∧
        e.handler = s.cx.readOx 4 ∧ e.payload = s.x b ∧ e.waiter = s.cx.tid ∧ t'.cx.run = .waiting (.posting d)) ∧
    (tag = none → exec i s = .next (s.answered d bad)) ∧
    (∀ t, tag = some t → s.actorPage (s.x a) = none → exec i s = .next (s.answered d 3))

/-- R201, R276: the tag of a POST is (T, M + 1) for an ox5 of 0, else (T + ox5, 0); POSTD's is (ox5, ox6), which must not be earlier than
(T, M + 1). -/
def Sys2Proof.Claims.PostTagsFollowTheirRules : Prop := ∀ (c : Ctx),
  (c.readOx 5 = 0 → c.tag.micro ≠ BitVec.allOnes 32 → c.postTag = some ⟨c.tag.time, c.tag.micro + 1⟩) ∧
  (c.readOx 5 = 0 → c.tag.micro = BitVec.allOnes 32 → c.postTag = none) ∧
  (c.readOx 5 ≠ 0 → ∀ t, c.postTag = some t ↔
    t.micro = 0 ∧ t.time.toNat = c.tag.time.toNat + (c.readOx 5).toNat) ∧
  (∀ t, c.postdTag = some t ↔ t.time = c.readOx 5 ∧ t.micro = (c.readOx 6).setWidth 32 ∧
    (c.tag.time.toNat < t.time.toNat ∨ (c.tag.time = t.time ∧ c.tag.micro.toNat < t.micro.toNat)))

/-- R279 to R283, R289: SAFEW whose clock value is reached, DLN, TAGR, CLKR, LATEQ, PRIO and PRIOQ. -/
def Obligations.EventAndPriorityInstructionsTakeEffect : Prop :=
  (∀ (d a : Reg) (s : State), s.admits 0 ⟨[d], [], []⟩ → (s.x a).toNat + s.inputBound s.cx.part s.cx.actor ≤ s.clock →
    ∃ t, exec (.safew d a) s = .next t ∧ s.wroteX t d (BitVec.ofNat 64 s.clock) (s.nextPc 4) []) ∧
  (∀ (d a : Reg) (s : State), s.admits 0 ⟨[d], [], []⟩ →
    ∃ t, exec (.dln d a) s = .next t ∧ (s.withCx (fun c => { c with dline := s.x a })).wroteX t d s.cx.dline (s.nextPc 4) []) ∧
  (∀ (d a : Reg) (s : State), s.admits 0 ⟨[d], [], []⟩ → (s.x a).toNat ≤ 4 →
    ∃ t, exec (.tagr d a) s = .next t ∧ s.wroteX t d (s.tagr (s.x a).toNat) (s.nextPc 4) []) ∧
  (∀ (d a : Reg) (s : State), s.admits 0 ⟨[d], [], []⟩ → 4 < (s.x a).toNat → exec (.tagr d a) s = .next (s.precise 2 0)) ∧
  (∀ (d : Reg) (s : State), s.admits 0 ⟨[d], [], []⟩ → s.cx.earlierOpen = false →
    ∃ t, exec (.clkr d) s = .next t ∧ s.wroteX t d (BitVec.ofNat 64 s.clock) (s.nextPc 4) []) ∧
  (∀ (d a : Reg) (s : State), s.admits 0 ⟨[d], [], []⟩ →
    ∃ t, exec (.lateq d a) s = .next t ∧ (t.actorOf s.cx.part s.cx.actor).lateHandler = (s.x a &&& ~~~1) ∧
      (d ≠ 0 → t.cx.rawX d = (s.actorOf s.cx.part s.cx.actor).lateHandler)) ∧
  (∀ (d a : Reg) (s : State), s.admits 0 ⟨[d], [], []⟩ → (s.x a).toNat < 4 →
    ∃ t, exec (.prio d a) s = .next t ∧
      ((t.actorOf s.cx.part s.cx.actor).reactionFloor.toNat = Nat.min (s.x a).toNat (s.queue s.cx.queue).classmax.toNat) ∧
      (d ≠ 0 → t.cx.rawX d = zext t.cx.eff)) ∧
  (∀ (d a : Reg) (s : State), s.admits 0 ⟨[d], [], []⟩ → (s.x a).toNat < 4 →
    ∃ t, exec (.prioq d a) s = .next t ∧
      ((t.actorOf s.cx.part s.cx.actor).floor.toNat = Nat.min (s.x a).toNat (s.queue s.cx.queue).classmax.toNat) ∧
      (d ≠ 0 → t.cx.rawX d = zext t.cx.eff))

/-- R230, R231, R284 to R287: SEND sends a message with its word and its sender's number to where its core finds the endpoint's task, and is
answered 1 when there is none; RECV and RECVW deliver the oldest message of an endpoint that the task holds; EPBIND, EPFREE and EPWHERE ask
the directory. -/
def Obligations.MessageInstructionsTakeEffect : Prop :=
  (∀ (la : BitVec 4) (d a b : Reg) (s : State) (w : Word), s.admits la ⟨[d], [], []⟩ → (s.x a).toNat < 2 ^ 32 → s.x a ≠ 0 →
    (s.locate (coreHere s) s.cx.part ((s.x a).setWidth 32)).1 = some w →
    ∃ t p, exec (.send la d a b) s = .next t ∧
      t.inflight = s.inflight ++
        [.messageArrival ⟨s.cx.part, (s.x a).setWidth 32, s.x b, s.cx.lcore, s.cx.key, s.cx.tid, 0, w, false⟩] ∧
      t.cx.pends.getLast? = some p ∧ p.kind = .sending ((s.x a).setWidth 32) ∧ p.dest = d ∧ t.cx.x = s.cx.x) ∧
  (∀ (la : BitVec 4) (d a b : Reg) (s : State), s.admits la ⟨[d], [], []⟩ → s.x a = 0 →
    ∃ t, exec (.send la d a b) s = .next t ∧ s.wroteX t d 1 (s.nextPc 4) (openedX s.cx la d)) ∧
  (∀ (s : State) (core part : Nat) (name : BitVec 32) (e : Endpoint), s.endpoint part name = some e →
    (∀ l, l ∈ (tget s.cores core Core.reset).locations → l.1 ≠ (part, name)) →
    (s.locate core part name).1 = some (s.placeWord e.part e.ctx)) ∧
  (∀ (waits : Bool) (la : BitVec 4) (d a b : Reg) (s s1 : State) (m : Word × BitVec 26), s.admits la ⟨[d, b], [], []⟩ →
    (s.x a).toNat < 2 ^ 32 → s.holds s.cx.tid ((s.x a).setWidth 32) = true →
    s.takeMessage ((s.x a).setWidth 32) s.cx.tid = some (m, s1) → d ≠ b →
    ∃ t, exec (if waits then .recvw la d a b else .recv la d a b) s = .next t ∧ t.endpoints = s1.endpoints ∧
      (d ≠ 0 → t.cx.rawX d = m.1) ∧ (b ≠ 0 → t.cx.rawX b = zext m.2)) ∧
  (∀ (la : BitVec 4) (d a : Reg) (s : State), s.admits la ⟨[d], [], []⟩ → (s.x a).toNat < 2 ^ 32 →
    (∃ t p, exec (.epbind la d a) s = .next t ∧ t.inflight = s.inflight ++
      [.directoryRequest s.dev.toNat s.cx.tid d (.bind ((s.x a).setWidth 32) s.cx.tid (s.placeWord s.cx.part s.cx.key))] ∧
      t.cx.pends.getLast? = some p ∧ p.kind = .reply false ∧ p.dest = d) ∧
    (∃ t p, exec (.epfree la d a) s = .next t ∧ t.inflight = s.inflight ++
      [.directoryRequest s.dev.toNat s.cx.tid d (.free ((s.x a).setWidth 32) s.cx.tid)] ∧
      t.cx.pends.getLast? = some p ∧ p.kind = .reply false ∧ p.dest = d) ∧
    (∃ t p, exec (.epwhere la d a) s = .next t ∧ t.inflight = s.inflight ++
      [.directoryRequest s.dev.toNat s.cx.tid d (.lookup ((s.x a).setWidth 32))] ∧
      t.cx.pends.getLast? = some p ∧ p.kind = .reply false ∧ p.dest = d))

/-- R323, R331, R332, R351 to R353: PHASE counts its boundary and leaves the thread no hold; a release writes every line of the core
back; an acquire leaves no copy but those that it may use; FENCE is both; FENCER waits for every acknowledgement.  REL, ACQ and FENCE store
nothing of their own: memory changes where earlier stores reach it. -/
def Obligations.PhasesAndFencesOrderMemory : Prop :=
  (∀ (sc : BitVec 2) (s : State), ∃ t, exec (.phase sc) s = .next t ∧ t.cx.pcnt = s.cx.pcnt + 1 ∧ t.holdsAny s.cx.key = false ∧
    t.cx.pc = (s.nextPc 4 &&& ~~~1) ∧ t.cx.x = s.cx.x ∧ t.cx.v = s.cx.v ∧ t.cx.m = s.cx.m) ∧
  (∀ (sc : BitVec 2) (s : State), ∃ t, exec (.rel sc) s = .next t ∧ t.cx.pcnt = s.cx.pcnt ∧ t.cx.x = s.cx.x ∧ storesLandAtMost s t ∧
    (sc ≠ 0 → t.dirtyLines (coreHere s) = [])) ∧
  (∀ (sc : BitVec 2) (s : State), ∃ t, exec (.acq sc) s = .next t ∧ t.cx.pcnt = s.cx.pcnt ∧ t.cx.x = s.cx.x ∧ storesLandAtMost s t ∧
    (sc ≠ 0 → ∀ l, l ∈ (tget t.cores (coreHere s) Core.reset).lines →
      l.ros = true ∨ l.held.getLsbD (s.cx.key % 4) = true ∨ l.closed.getLsbD (s.cx.key % 4) = true)) ∧
  (∀ (sc : BitVec 2) (s : State), s.cx.loading = false → ∃ t, exec (.fence sc) s = .next t ∧ t.cx.x = s.cx.x ∧ storesLandAtMost s t ∧
    (sc ≠ 0 → t.dirtyLines (coreHere s) = [] ∧ ∀ l, l ∈ (tget t.cores (coreHere s) Core.reset).lines →
      l.ros = true ∨ l.held.getLsbD (s.cx.key % 4) = true ∨ l.closed.getLsbD (s.cx.key % 4) = true)) ∧
  (∀ (s : State), s.cx.unack = 0 → exec .fencer s = .next (s.withCx (fun c => c.retire 4))) ∧
  (∀ (s : State), s.cx.unack ≠ 0 → exec .fencer s = .next s.stall)

/-- R354, R355: PWAIT returns the tag time at which its actor last ended, once that is late enough, as a boundary; PHINT reserves an idle
context of the actor's home, for a time of 10,000 ns when its operand is 0. -/
def Obligations.EarlySuccessorInstructionsTakeEffect : Prop :=
  (∀ (sc : BitVec 2) (d a b : Reg) (s : State) (pa : Nat) (w : Word), s.admits 0 ⟨[d], [], []⟩ → actorAddr (s.x a) ≠ s.cx.actor →
    s.actorPage (s.x a) = some pa → deviceOf pa = s.dev.toNat → (s.actorOf s.cx.part (actorAddr (s.x a))).ended = some w →
    (s.x b).toNat ≤ w.toNat →
    ∃ t, exec (.pwait sc d a b) s = .next t ∧ (d ≠ 0 → t.cx.rawX d = w) ∧ t.cx.pcnt = s.cx.pcnt + 1) ∧
  (∀ (sc : BitVec 2) (d a b : Reg) (s : State), s.admits 0 ⟨[d], [], []⟩ → actorAddr (s.x a) = s.cx.actor →
    exec (.pwait sc d a b) s = .next (s.precise 2 0)) ∧
  (∀ (d a b : Reg) (s : State) (pa k : Nat), s.admits 0 ⟨[d], [], []⟩ → (s.x b).toNat ≤ 1000000 → s.actorPage (s.x a) = some pa →
    deviceOf pa = s.dev.toNat →
    let core := s.homeCore s.cx.part (actorAddr (s.x a))
    (s.warm core (actorAddr (s.x a))).unreserved core = some k →
    ∃ t, exec (.phint d a b) s = .next t ∧ (d ≠ 0 → t.cx.rawX d = 0) ∧
      (tget t.cores core Core.reset).hints.getLast? =
        some ⟨actorAddr (s.x a), k, s.clock + if s.x b = 0 then 10000 else (s.x b).toNat⟩) ∧
  (∀ (d a b : Reg) (s : State), s.admits 0 ⟨[d], [], []⟩ → 1000000 < (s.x b).toNat → exec (.phint d a b) s = .next (s.precise 2 0))

/-- R349, R350, R356, R358, R364: on a location of this device that its scope and the access tables allow, an operation returns its result, and
writes its new value to that location alone; what its core has stored there, and what its task has released, has arrived before it, else it waits.
On a location of another device that answers, the agent there is asked, and its reply is awaited. -/
def Sys2Proof.Claims.AtomicsActInPlace : Prop := ∀ (i : Instr) (s : State) (f : AtomicForm) (pa : Nat),
  atomicForm s i = some f → s.admits f.la ⟨[f.d], [], []⟩ → s.owed < 256 → s.site f.sc (s.x f.a) f.size true = .at_ pa →
    let s1 := f.before.drainSent f.before.cx pa
    let old := BitVec.ofNat 64 (ofBytes (s1.peek pa f.size))
    (s1.unreleased s1.cx.before = false → deviceOf pa = s.dev.toNat →
      ∃ t, exec i s = .next t ∧ (f.d ≠ 0 → t.cx.rawX f.d = f.out old) ∧
        t.mem = (f.new old).elim s1.mem
          (fun v => Memory.writeCells s1.mem ((cellsOf pa (bytesOf v.toNat f.size)).map (fun c => (c.1 % 2 ^ 48, c.2))))) ∧
    (s1.unreleased s1.cx.before = false → deviceOf pa ≠ s.dev.toNat →
      ∃ t, exec i s = .next t ∧ (Config.farAnswers s.turn = true → t.mem = s1.mem ∧
        (∃ op x, Sent.atomic (deviceOf pa) (.act op) pa x s.cx.tid ∈ t.outbox) ∧
        (f.d ≠ 0 → ∃ p c, t.cx.pends.getLast? = some p ∧ p.kind = .reply c ∧ p.dest = f.d))) ∧
    (s1.unreleased s1.cx.before = true → exec i s = .next s.stall)

/-- R101, R311, R349: a misaligned location takes the alignment trap, one on a read-only-shared page the write-protection fault, and one that its
scope or the access tables do not allow is refused: with a destination and la = 0 as a precise fault with cause 9. -/
def Sys2Proof.Claims.AtomicsCheckTheirLocation : Prop := ∀ (i : Instr) (s : State) (f : AtomicForm),
  atomicForm s i = some f → s.admits f.la ⟨[f.d], [], []⟩ → s.owed < 256 →
    ((s.x f.a).toNat % f.size ≠ 0 → ∃ word, exec i s = .next (s.preciseData 6 (if f.d = 0 then 1 else 0) (s.x f.a) 0 word)) ∧
    (∀ leaf pa, (s.x f.a).toNat % f.size = 0 → s.translate (coreHere s) s.cx.part s.cx.pl (s.x f.a).toNat false = .ok leaf pa →
      leaf.ros = true → ∃ word, exec i s = .next (s.preciseData 8 (if f.d = 0 then 1 else 0) (s.x f.a) pa word)) ∧
    (∀ pa, f.d ≠ 0 → f.la = 0 → s.site f.sc (s.x f.a) f.size true = .refused 9 pa →
      ∃ word, exec i s = .next (s.preciseData 9 0 (s.x f.a) pa word))

/-- R337, R357, R363: a wait that the value of its location, on this device, ends returns that value at once, and WAITAT past its limit the
expected value; else its entry is made, and the instruction is pending. -/
def Sys2Proof.Claims.WaitsOnAddressesCompleteOrEnter : Prop := ∀ (i : Instr) (s : State) (la : BitVec 4) (sc : BitVec 2) (d a : Reg)
  (atLeast : Bool) (expected : Word) (limit : Option Nat) (pa : Nat),
  waitForm s i = some (la, sc, d, a, atLeast, expected, limit) → s.admits la ⟨[d], [], []⟩ → s.owed < 256 →
  s.site sc (s.x a) 8 atLeast = .at_ pa → deviceOf pa = s.dev.toNat →
  let s1 := s.drainSent s.cx pa
  s1.unreleased s1.cx.before = false →
    (waitDone atLeast expected (s1.wordAt pa) → ∃ t, exec i s = .next t ∧ (d ≠ 0 → t.cx.rawX d = s1.wordAt pa)) ∧
    (¬ waitDone atLeast expected (s1.wordAt pa) → (∀ l, limit = some l → s.clock < l) →
      ∃ t p, exec i s = .next t ∧ t.cx.pends.getLast? = some p ∧ p.dest = d ∧ p.la = la.toNat ∧
        p.kind = .entry (s1.locationKey pa) atLeast expected sc limit none) ∧
    (¬ waitDone atLeast expected (s1.wordAt pa) → (∃ l, limit = some l ∧ l ≤ s.clock) →
      ∃ t, exec i s = .next t ∧ (d ≠ 0 → t.cx.rawX d = expected))

/-- R359, R360: CREG adds a registration of the running task, and CUNREG ends it and returns what it still owes: on a counter of this device, at
once. -/
def Sys2Proof.Claims.RegistrationsAreMadeAndEnded : Prop :=
  (∀ (la : BitVec 4) (sc : BitVec 2) (d a b : Reg) (s : State) (pa : Nat), s.admits la ⟨[d], [], []⟩ → s.owed < 256 → s.x b ≠ 0 →
    (s.x b).toNat < 2 ^ 32 → s.site sc (s.x a) 8 true = .at_ pa → deviceOf pa = s.dev.toNat →
    let s1 := s.drainSent s.cx pa
    let key := s1.locationKey pa
    s1.unreleased s1.cx.before = false →
    (s1.registrations.filter (fun r => r.tid == s1.cx.tid)).length < 4 →
    (∀ r, r ∈ s1.registrations → ¬ (r.pa = key ∧ r.tid = s1.cx.tid)) →
    ∃ t, exec (.creg la sc d a b) s = .next t ∧ (d ≠ 0 → t.cx.rawX d = 0) ∧
      t.registrations = s1.registrations ++ [⟨key, s.x a, s1.cx.tid, s1.cx.key, sc, (s.x b).toNat⟩]) ∧
  (∀ (la : BitVec 4) (d a : Reg) (s : State) (r : Registration), s.admits la ⟨[d], [], []⟩ → s.owed < 256 → (s.x a).toNat % 8 = 0 →
    s.registrationAt (s.x a) = some r → deviceOf (s.keyAddr r.pa) = s.dev.toNat →
    let s1 := s.drainSent s.cx (s.keyAddr r.pa)
    s1.unreleased s1.cx.before = false →
    ∃ t, exec (.cunreg la d a) s = .next t ∧ (d ≠ 0 → t.cx.rawX d = BitVec.ofNat 64 r.owed) ∧
      ∀ q, q ∈ t.registrations → ¬ (q.pa = r.pa ∧ q.tid = s.cx.tid)) ∧
  (∀ (la : BitVec 4) (d a : Reg) (s : State), s.admits la ⟨[d], [], []⟩ → (s.x a).toNat % 8 = 0 → s.registrationAt (s.x a) = none →
    ∃ t, exec (.cunreg la d a) s = .next t ∧ s.wroteX t d (BitVec.allOnes 64) (s.nextPc 4) (openedX s.cx la d))

/-- R365 to R368: SUBS adds a live subscription and returns its number, or refuses with bit 63 set; UNSUB ends one; SFLUSH empties the
core's batches and returns their size; SSTAT reads the state of one. -/
def Obligations.SubscriptionInstructionsTakeEffect : Prop :=
  (∀ (d a b : Reg) (s : State), s.admits 0 ⟨[d], [], []⟩ →
    ∃ t v, exec (.subs d a b) s = .next t ∧ (d ≠ 0 → t.cx.rawX d = v) ∧
      ((v.getLsbD 63 = true ∧ t.subs = s.subs) ∨
       (v.toNat < 32 ∧ ∃ k, t.subs.getLast? = some k ∧ k.slot = v.toNat ∧ k.tid = s.cx.tid ∧ k.core = coreHere s ∧
         k.size = (s.x b).toNat ∧ k.end_ = 0 ∧ k.batch = []))) ∧
  (∀ (d a : Reg) (s : State) (b : Sub), s.admits 0 ⟨[d], [], []⟩ → (s.x a).toNat ≤ 31 → s.subNamed (s.x a).toNat = some b → b.end_ ≠ 1 →
    ∃ t, exec (.unsub d a) s = .next t ∧ (d ≠ 0 → t.cx.rawX d = 0) ∧ t.subs = (s.unsubscribe b).subs) ∧
  (∀ (d a : Reg) (s : State), s.admits 0 ⟨[d], [], []⟩ → (s.x a).toNat ≤ 31 → s.subNamed (s.x a).toNat = none →
    ∃ t, exec (.unsub d a) s = .next t ∧ s.wroteX t d 1 (s.nextPc 4) []) ∧
  (∀ (d : Reg) (s : State), s.admits 0 ⟨[d], [], []⟩ → s.flushHeld (coreHere s) = true → exec (.sflush d) s = .next s.stall) ∧
  (∀ (d : Reg) (s : State), s.admits 0 ⟨[d], [], []⟩ → s.flushHeld (coreHere s) = false →
    ∃ t, exec (.sflush d) s = .next t ∧ (d ≠ 0 → t.cx.rawX d = BitVec.ofNat 64 (s.batched (coreHere s))) ∧
      ∀ b, b ∈ t.subs → b.pubCore = coreHere s → b.end_ = 0 → b.batch = []) ∧
  (∀ (d a : Reg) (s : State), s.admits 0 ⟨[d], [], []⟩ → (s.x a).toNat ≤ 31 →
    ∃ t, exec (.sstat d a) s = .next t ∧ s.wroteX t d ((s.subNamed (s.x a).toNat).elim 0 Sub.stat) (s.nextPc 4) []) ∧
  (∀ (d a : Reg) (s : State), s.admits 0 ⟨[d], [], []⟩ → 31 < (s.x a).toNat →
    exec (.unsub d a) s = .next (s.precise 2 0) ∧ exec (.sstat d a) s = .next (s.precise 2 0))

/-- R343 to R345, R373 to R376: CLAIM makes a claim that will be decided; OBJECT sends an objection to a claim whose window is open;
CLAIMW returns a decision, as a boundary, and 257 for an address that its task has not claimed; CWIN sets a claim window and returns the
old one. -/
def Obligations.ClaimInstructionsTakeEffect : Prop :=
  (∀ (d a b : Reg) (s : State) (pa : Nat), s.admits 0 ⟨[d], [], []⟩ → (s.cx.readOx 6).toNat < 16 → (s.x a).toNat % 8 = 0 →
    let cw := tget s.part.cwin (s.cx.readOx 6).toNat 0
    field cw 0 32 ≠ 0 → s.cx.tag.micro ≠ BitVec.allOnes 32 → s.claimable (s.x a).toNat = some pa →
    (∀ c, c ∈ s.claims → ¬ (c.decided = false ∧ c.pa = pa ∧ c.claimer = s.cx.lcore)) →
    let s1 := s.release s.cx.key (if cw.getLsbD 32 then 3 else 2)
    let s2 := s1.drainSent s1.cx pa
    s2.unreleased s2.cx.before = false →
    ∃ t c, exec (.claim d a b) s = .next t ∧ (d ≠ 0 → t.cx.rawX d = 0) ∧ c ∈ t.claims ∧ c.num = s2.serial ∧ c.addr = s.x a ∧
      c.value = s.x b ∧ c.pa = pa ∧ c.window = field cw 0 32 ∧ c.decided = false ∧ c.tid = s.cx.tid ∧
      t.inflight.getLast? = some (.claimDecision (.decide s2.serial))) ∧
  (∀ (d a b : Reg) (s : State), s.admits 0 ⟨[d], [], []⟩ → (s.cx.readOx 6).toNat < 16 → (s.x a).toNat % 8 = 0 →
    field (tget s.part.cwin (s.cx.readOx 6).toNat 0) 0 32 = 0 →
    ∃ t, exec (.claim d a b) s = .next t ∧ s.wroteX t d 1 (s.nextPc 4) []) ∧
  (∀ (d a b : Reg) (s : State) (r : ClaimRecord), s.admits 0 ⟨[d], [], []⟩ → field (s.x b) 26 30 = 0 → field (s.x b) 56 8 ≠ 0 →
    (((s.actorOf s.cx.part s.cx.actor).claims).filter (fun k => k.addr == s.x a && k.claimer == (s.x b).setWidth 26)).getLast? = some r →
    s.clock < r.ta + r.window → field (s.x b) 16 10 = s.dev.toNat →
    ∃ t, exec (.object d a b) s = .next t ∧ (d ≠ 0 → t.cx.rawX d = 0) ∧ t.inflight = s.inflight ++
      [.objectionArrival (s.x a) ((s.x b).setWidth 26) ((s.x b).extractLsb' 56 8) s.cx.key s.cx.tid s.cx.tag none]) ∧
  (∀ (d a : Reg) (s : State) (e : Word × Nat), s.admits 0 ⟨[d], [], []⟩ → s.cx.decisions.find? (fun k => k.1 == s.x a) = some e →
    ∃ t, exec (.claimw d a) s = .next t ∧ (d ≠ 0 → t.cx.rawX d = BitVec.ofNat 64 e.2) ∧ t.cx.pcnt = s.cx.pcnt + 1) ∧
  (∀ (d a : Reg) (s : State), s.admits 0 ⟨[d], [], []⟩ → s.cx.decisions.find? (fun k => k.1 == s.x a) = none →
    (∀ c, c ∈ s.claims → ¬ (c.decided = false ∧ c.addr = s.x a ∧ c.tid = s.cx.tid)) →
    ∃ t, exec (.claimw d a) s = .next t ∧ s.wroteX t d 257 (s.nextPc 4) []) ∧
  (∀ (d a b : Reg) (s : State), s.admits 0 ⟨[d], [], []⟩ → (s.x a).toNat ≤ 15 → (s.x b).toNat < 2 ^ 33 →
    ∃ t, exec (.cwin d a b) s = .next t ∧ (d ≠ 0 → t.cx.rawX d = tget s.part.cwin (s.x a).toNat 0) ∧
      tget (t.partition s.cx.part).cwin (s.x a).toNat 0 = s.x b)

/-- R377, R379: CFLUSH and CINV write back every line of a range, and return how many lines were written back; PREF changes no register, and
only fetches. -/
def Sys2Proof.Claims.CacheInstructionsTakeEffect : Prop :=
  (∀ (d a b : Reg) (s : State), s.admits 0 ⟨[d], [], []⟩ → (s.x a).toNat + (s.x b).toNat ≤ 2 ^ 64 →
    let pages := s.pages (coreHere s) s.cx.part
    ∃ t, exec (.cflush d a b) s = .next t ∧ storesLandAtMost s t ∧
      (d ≠ 0 → t.cx.rawX d = BitVec.ofNat 64 ((s.dirtyLines (coreHere s)).length - (t.dirtyLines (coreHere s)).length)) ∧
      ∀ l, l ∈ (tget t.cores (coreHere s) Core.reset).lines → lineInRange pages (s.x a).toNat (s.x b).toNat l = true → l.dirty = false) ∧
  (∀ (d a b : Reg) (s : State), s.admits 0 ⟨[d], [], []⟩ → (s.x a).toNat + (s.x b).toNat ≤ 2 ^ 64 →
    let pages := s.pages (coreHere s) s.cx.part
    ∃ t, exec (.cinv d a b) s = .next t ∧ storesLandAtMost s t ∧
      (d ≠ 0 → t.cx.rawX d = BitVec.ofNat 64 ((s.dirtyLines (coreHere s)).length - (t.dirtyLines (coreHere s)).length)) ∧
      ∀ l, l ∈ (tget t.cores (coreHere s) Core.reset).lines → lineInRange pages (s.x a).toNat (s.x b).toNat l = true →
        l.dirty = false ∧ (l.ros = true ∨ l.held.getLsbD (s.cx.key % 4) = true ∨ l.closed.getLsbD (s.cx.key % 4) = true)) ∧
  (∀ (d a b : Reg) (s : State), s.admits 0 ⟨[d], [], []⟩ → 2 ^ 64 < (s.x a).toNat + (s.x b).toNat →
    exec (.cflush d a b) s = .next (s.precise 2 0) ∧ exec (.cinv d a b) s = .next (s.precise 2 0)) ∧
  (∀ (a : Reg) (s : State), ∃ t, exec (.pref a) s = .next t ∧ t.cx.x = s.cx.x ∧ t.cx.v = s.cx.v ∧ t.cx.m = s.cx.m ∧
    t.cx.pc = (s.nextPc 4 &&& ~~~1) ∧ storesLandAtMost s t)

/-- R306, R369, R378: BMODE starts the switch of a bank, which ends the subscriptions that touch it, and waits; BANK_SWITCH_DONE gives the
bank its new descriptor and zeroes it; BQRY reads a descriptor. -/
def Sys2Proof.Claims.BankSwitchesZeroTheirBank : Prop :=
  (∀ (d a b : Reg) (s : State) (g : Nat), 1 ≤ s.cx.pl.toNat → s.admits 0 ⟨[d], [], []⟩ → s.x a &&& ~~~0x1FF1F = 0 →
    s.bankNamed (s.x a) = some g → descriptorBad (s.x b) = false → bankBusy (s.bank g) = false →
    (s.x b).setWidth 9 &&& 0xFF ≠ s.bank g →
    ∃ t, exec (.bmode d a b) s = .next t ∧ t.cx.run = .waiting (.bank g (zext (s.bank g)) d) ∧ bankBusy (t.bank g) = true ∧
      t.inflight.getLast? = some (.bankSwitchDone g) ∧
      ∀ k, k ∈ t.subs → (regionTouches g k.dest k.size || regionTouches g k.source k.size) = true → k.end_ ≠ 0) ∧
  (∀ (d a b : Reg) (s : State) (g : Nat), 1 ≤ s.cx.pl.toNat → s.admits 0 ⟨[d], [], []⟩ → s.x a &&& ~~~0x1FF1F = 0 →
    s.bankNamed (s.x a) = some g → descriptorBad (s.x b) = false → bankBusy (s.bank g) = false →
    (s.x b).setWidth 9 &&& 0xFF = s.bank g →
    ∃ t, exec (.bmode d a b) s = .next t ∧ s.wroteX t d (zext (s.bank g)) (s.nextPc 4) []) ∧
  (∀ (d a b : Reg) (s : State), s.cx.pl = 0 → exec (.bmode d a b) s = .next (s.precise 3 0)) ∧
  (∀ (d a : Reg) (s : State), s.admits 0 ⟨[d], [], []⟩ → s.x a &&& ~~~0x1FF1F = 0 →
    ∃ t, exec (.bqry d a) s = .next t ∧
      s.wroteX t d ((s.bankNamed (s.x a)).elim 0x8000000000000000 (fun g => zext (s.bank g))) (s.nextPc 4) []) ∧
  (∀ (g : Nat) (s : State) (e : Nat × BitVec 9), (s.cluster (g / 32)).switching.find? (fun k => k.1 == g % 32) = some e →
    ∃ t, exec (.bankSwitchDone g) s = .next t ∧ t.bank g = e.2 ∧
      ∀ j, j < 65536 → Memory.read t.mem ((windowAddr (16 * (g / 32) + bankOwner e.2) (g % 32 * 65536)) % 2 ^ 48 + j) = Config.unwritten)

/-- R101, R331, R380: MCST is a release, and sends one store for each bit of ox5 to the word at the same offset of its cluster's core. -/
def Sys2Proof.Claims.MulticastStoresSendACopyEach : Prop :=
  (∀ (sc : BitVec 2) (d a b : Reg) (s : State) (leaf : Leaf) (pa l core woff : Nat), s.admits 0 ⟨[d], [], []⟩ → (s.x a).toNat % 8 = 0 →
    s.translate (coreHere s) s.cx.part s.cx.pl (s.x a).toNat true = .ok leaf pa → s.multicastWord pa = some (l, core, woff) →
    let js := (List.range 64).filter (fun j => (s.cx.readOx 5).getLsbD j)
    js ≠ [] → (∀ j, j ∈ js → l + j < s.part.clusters.length) → s.owed + js.length ≤ 256 →
    let s1 := s.release s.cx.key sc
    ∃ (t : State) (sent : List HomeReq), exec (.mcst sc d a b) s = .next t ∧ (d ≠ 0 → t.cx.rawX d = BitVec.ofNat 64 js.length) ∧
      t.inflight = s1.inflight ++ sent.map Happening.homeRequest ∧
      sent.map HomeReq.cells = (js.filterMap (fun j => s.part.clusters[l + j]?)).map (fun c =>
        cellsOf (s.dev.toNat * 2 ^ 48 + windowAddr (16 * c + core) woff) (bytesOf (s.x b).toNat 8))) ∧
  (∀ (sc : BitVec 2) (d a b : Reg) (s : State), s.admits 0 ⟨[d], [], []⟩ → (s.x a).toNat % 8 ≠ 0 →
    ∃ word, exec (.mcst sc d a b) s = .next (s.preciseData 6 1 (s.x a) 0 word))

/-- R445, R448: EFORK starts the programs of its descriptor under a free handle; EPUSH makes the command whose 64 bytes it reads, gives it
the next entry of the dispatch ring, sends it to its port, and returns its sequence number. -/
def Sys2Proof.Claims.EnginePushesMakeCommands : Prop :=
  (∀ (d a : Reg) (s : State) (r : VRun) (h : Nat), s.admits 0 ⟨[d], [], []⟩ → (s.x a).toNat % 64 = 0 → r = s.readWide (s.x a) 64 →
    r.fault = none → r.held = false → r.watched = false → (∀ e, e < 4 → (forkEntry r.value.toNat e).2.2 = true) →
    (List.range 4).find? (fun k => !s.cx.handles.getLsbD k) = some h →
    ∃ t, exec (.efork d a) s = .next t ∧ (d ≠ 0 → t.cx.rawX d = BitVec.ofNat 64 (h + 1)) ∧
      t.cx.handles = r.s.cx.handles ||| BitVec.ofNat 4 (2 ^ h) ∧
      t.programs.length = r.s.programs.length + ((List.range 4).filter (fun e => (forkEntry r.value.toNat e).2.1 != 0)).length ∧
      ∀ p, p ∈ t.programs → p ∈ r.s.programs ∨ (p.handle = h + 1 ∧ p.tid = r.s.cx.tid ∧
        (p.addr, p.count) = (BitVec.ofNat 64 (forkEntry r.value.toNat p.engine).1, (forkEntry r.value.toNat p.engine).2.1))) ∧
  (∀ (d a b : Reg) (s : State) (r : VRun), s.admitsRing 0 ⟨[d], [], []⟩ → (s.x a).toNat % 64 = 0 → (s.x b).toNat < 4 → s.owed < 256 →
    r = s.readRecordOf (s.x a) → r.fault = none → r.held = false → r.watched = false →
    ∃ t k o, exec (.epush d a b) s = .next t ∧ (d ≠ 0 → t.cx.rawX d = zext r.s.cx.nextSeq) ∧ t.cmds = r.s.cmds ++ [k] ∧
      k.record = BitVec.ofNat 512 r.value.toNat ∧ k.engine = (s.x b).toNat ∧ k.seq = r.s.cx.nextSeq ∧ k.num = r.s.serial ∧
      t.inflight = r.s.inflight ++ [.commandPortWrite o (s.x b).toNat k.record] ∧ t.cx.nextSeq = seqNext r.s.cx.nextSeq ∧
      ∃ e, t.cx.ring.getLast? = some e ∧ e.seq = r.s.cx.nextSeq ∧ e.state = 1 ∧ e.cmd = some k.num) ∧
  (∀ (d a b : Reg) (s : State), s.admitsRing 0 ⟨[d], [], []⟩ → (s.x a).toNat % 64 ≠ 0 ∨ 4 ≤ (s.x b).toNat →
    exec (.epush d a b) s = .next (s.precise 2 0))

/-- R392, R446, R447, R449: ERDV joins programs that have ended and returns how many commands were aborted; ESTAT reads a command's state,
flags and progress index; EABORT aborts a command, and starts a faulted one again. -/
def Sys2Proof.Claims.EngineCommandsAreJoinedReadAndAborted : Prop :=
  (∀ (d a : Reg) (s : State), s.admits 0 ⟨[d], [], []⟩ → (s.x a).toNat ≤ 4 →
    let hs := if s.x a = 0 then s.cx.handles else BitVec.ofNat 4 (2 ^ ((s.x a).toNat - 1)) &&& s.cx.handles
    hs ≠ 0 → (∀ p, p ∈ s.programsOf hs → p.ended = true) →
    ∃ t, exec (.erdv d a) s = .next t ∧ (d ≠ 0 → t.cx.rawX d = BitVec.ofNat 64 ((s.programsOf hs).map (fun p => p.aborted)).sum) ∧
      t.cx.handles &&& hs = 0 ∧ t.cx.pcnt = s.cx.pcnt + 1) ∧
  (∀ (d a : Reg) (s : State), s.admits 0 ⟨[d], [], []⟩ → s.x a = 0 → s.cx.handles = 0 →
    ∃ t, exec (.erdv d a) s = .next t ∧ s.wroteX t d 0 (s.nextPc 4) []) ∧
  (∀ (d a : Reg) (s : State) (e : RingEntry), s.admits 0 ⟨[d], [], []⟩ → s.cx.commandEntry (s.x a) = some e → e.state < 8 →
    ∃ t v, exec (.estat d a) s = .next t ∧ s.wroteX t d v (s.nextPc 4) [] ∧ field v 61 3 = e.state ∧ field v 56 5 = e.flags.toNat ∧
      field v 0 32 = e.pidx.toNat ∧ field v 32 24 = 0) ∧
  (∀ (d a : Reg) (s : State), s.admits 0 ⟨[d], [], []⟩ → s.cx.commandEntry (s.x a) = none →
    ∃ t, exec (.estat d a) s = .next t ∧ s.wroteX t d 0 (s.nextPc 4) []) ∧
  (∀ (d a b : Reg) (s : State) (e : RingEntry) (k : Cmd), s.admits 0 ⟨[d], [], []⟩ → s.x b = 0 → s.cx.commandEntry (s.x a) = some e →
    s.cmds.find? (fun c => some c.num == e.cmd) = some k → k.state = 1 ∨ k.state = 2 ∧ k.waiting = true →
    ∃ t, exec (.eabort d a b) s = .next t ∧ (d ≠ 0 → t.cx.rawX d = 0) ∧ t.cmds = (s.abortCmd k).cmds) ∧
  (∀ (d a b : Reg) (s s1 : State) (e : RingEntry) (k : Cmd), s.admits 0 ⟨[d], [], []⟩ → s.x b = 1 → s.cx.commandEntry (s.x a) = some e →
    s.cmds.find? (fun c => some c.num == e.cmd) = some k → k.state = 4 → (k.unread ≠ 2 ∨ k.program ≠ 0) → s.retry k = some s1 →
    ∃ t, exec (.eabort d a b) s = .next t ∧ (d ≠ 0 → t.cx.rawX d = 0) ∧ t.mem = s1.mem ∧ t.cmds = s1.cmds)

/-- R401, R450, R451: MCLAIM claims all the slots and tiles named or none; MREL gives them up; MMAP writes rows of the map; MJOIN with 0
ends the quad binding, and by a task of no quad gang is refused; bound as the last of four, it returns its member index. -/
def Sys2Proof.Claims.MatrixResourcesAreClaimedAndReleased : Prop :=
  (∀ (d a b : Reg) (s : State), s.admits 0 ⟨[d], [], []⟩ → (s.x b).toNat < 4 →
    (∀ n, n ∈ unitsNamed (s.x a) (s.x b) → (clusterHere s).unitFree n = true ∨ (clusterHere s).holds s.cx.tid n = true) →
    ∃ t, exec (.mclaim d a b) s = .next t ∧ (d ≠ 0 → t.cx.rawX d = 0) ∧
      ∀ n, n ∈ unitsNamed (s.x a) (s.x b) → (clusterHere t).ownerOf n = s.cx.tid) ∧
  (∀ (d a b : Reg) (s : State) (n : Nat), s.admits 0 ⟨[d], [], []⟩ → (s.x b).toNat < 4 → n ∈ unitsNamed (s.x a) (s.x b) →
    (clusterHere s).unitFree n = false → (clusterHere s).holds s.cx.tid n = false →
    ∃ t, exec (.mclaim d a b) s = .next t ∧ s.wroteX t d 1 (s.nextPc 4) []) ∧
  (∀ (d a b : Reg) (s : State), s.admits 0 ⟨[d], [], []⟩ → (s.x b).toNat < 4 →
    (∀ n, n ∈ unitsNamed (s.x a) (s.x b) → (clusterHere s).holds s.cx.tid n = true) →
    ∃ t, exec (.mrel d a b) s = .next t ∧ (d ≠ 0 → t.cx.rawX d = 0) ∧
      ∀ n, n ∈ unitsNamed (s.x a) (s.x b) → s.cx.tid ≠ 0 → (clusterHere t).holds s.cx.tid n = false) ∧
  (∀ (d a b : Reg) (s : State), s.admits 0 ⟨[d], [], []⟩ → s.x a &&& ~~~0xFF7F = 0 → s.x b &&& ~~~0xFF0F7FFF = 0 →
    1 ≤ field (s.x a) 8 8 → field (s.x a) 0 7 + field (s.x a) 8 8 ≤ 128 →
    ∃ t, exec (.mmap d a b) s = .next t ∧ (d ≠ 0 → t.cx.rawX d = (clusterHere s).row (field (s.x a) 0 7)) ∧
      ∀ i, i < field (s.x a) 8 8 → (clusterHere t).row (field (s.x a) 0 7 + i) =
        BitVec.ofNat 64 (field (s.x b) 16 4 * 2 ^ 16 + (field (s.x b) 0 15 + i * field (s.x b) 24 8) % 2 ^ 15)) ∧
  (∀ (d a : Reg) (s : State), s.admits 0 ⟨[d], [], []⟩ → s.x a = 0 →
    ∃ t, exec (.mjoin d a) s = .next t ∧ (d ≠ 0 → t.cx.rawX d = 0) ∧ ∀ q, q ∈ (clusterHere t).quad → q.tid ≠ s.cx.tid) ∧
  (∀ (d a : Reg) (s : State), s.admits 0 ⟨[d], [], []⟩ → s.x a = 1 → s.cx.gang = none →
    ∃ t, exec (.mjoin d a) s = .next t ∧ s.wroteX t d 0x8000000000000000 (s.nextPc 4) []) ∧
  (∀ (d a : Reg) (s : State) (g : Member) (q : Quad), s.admits 0 ⟨[d], [], []⟩ → s.x a = 1 → s.cx.gang = some g → g.clusters = true →
    g.size = 4 → (clusterHere s).quad.find? (fun k => k.tid == s.cx.tid) = some q → q.members ≠ [] → q.told = false →
    ∃ t, exec (.mjoin d a) s = .next t ∧ (d ≠ 0 → t.cx.rawX d = BitVec.ofNat 64 g.index))

/-- R393, R394, R452, R453: TWANY and TWALL return the tags that they waited for once these are set; TFIRST finds the lowest and TCLR
clears them. -/
def Sys2Proof.Claims.CopyTagsAreWaitedForAndCleared : Prop :=
  (∀ (d a b : Reg) (s : State), s.admits 0 ⟨[d], [], []⟩ → s.core.ctags &&& s.x a ≠ 0 →
    ∃ t, exec (.twany d a b) s = .next t ∧ (d ≠ 0 → t.cx.rawX d = s.core.ctags &&& s.x a) ∧ t.cx.pcnt = s.cx.pcnt + 1) ∧
  (∀ (d a b : Reg) (s : State), s.admits 0 ⟨[d], [], []⟩ → s.x a ≠ 0 → s.core.ctags &&& s.x a = s.x a →
    ∃ t, exec (.twall d a b) s = .next t ∧ (d ≠ 0 → t.cx.rawX d = s.x a) ∧ t.cx.pcnt = s.cx.pcnt + 1) ∧
  (∀ (d a b : Reg) (s : State), s.admits 0 ⟨[d], [], []⟩ → s.x a ≠ 0 → s.core.ctags &&& s.x a = 0 →
    s.x b = 0 ∨ s.clock < (s.x b).toNat →
    exec (.twany d a b) s = .next (s.withCx (fun c => { c with run := .waiting (.twait d (s.x a) false (s.x b)) })) ∧
    exec (.twall d a b) s = .next (s.withCx (fun c => { c with run := .waiting (.twait d (s.x a) true (s.x b)) }))) ∧
  (∀ (d a : Reg) (s : State), s.admits 0 ⟨[d], [], []⟩ → ∃ t v, exec (.tfirst d a) s = .next t ∧ s.wroteX t d v (s.nextPc 4) [] ∧
    (s.core.ctags &&& s.x a = 0 → v = 64) ∧ (s.core.ctags &&& s.x a ≠ 0 → (s.core.ctags &&& s.x a).getLsbD v.toNat = true ∧
      ∀ j, j < v.toNat → (s.core.ctags &&& s.x a).getLsbD j = false)) ∧
  (∀ (d a : Reg) (s : State), s.admits 0 ⟨[d], [], []⟩ → ∃ t, exec (.tclr d a) s = .next t ∧
    (d ≠ 0 → t.cx.rawX d = s.core.ctags &&& s.x a) ∧ (tget t.cores (coreHere s) Core.reset).ctags = s.core.ctags &&& ~~~s.x a)

/-- R408, R454, R455: SJOIN takes a position and, as the last of its chain, completes; SLEAVE gives one up; SCIN loads the seed at the
first position, and SCOUT stores the tail at the last. -/
def Sys2Proof.Claims.SpliceChainsAreJoinedAndLeft : Prop :=
  (∀ (d a b : Reg) (s : State), s.admits 0 ⟨[d], [], []⟩ → s.x a &&& ~~~0xFF0F = 0 → field (s.x a) 8 8 = 1 → s.x b = 0 →
    s.chain (chainHere s (field (s.x a) 0 4)) = none →
    ∃ t, exec (.sjoin d a b) s = .next t ∧ (d ≠ 0 → t.cx.rawX d = 0) ∧
      t.positionOn (chainHere s (field (s.x a) 0 4)) s.cx.tid = some 0) ∧
  (∀ (d a b : Reg) (s : State) (c : Chain) (w : Word), s.admits 0 ⟨[d], [], []⟩ → s.x a &&& ~~~0xFF0F = 0 → 1 ≤ field (s.x a) 8 8 →
    field (s.x a) 8 8 ≤ 64 → (s.x b).toNat < field (s.x a) 8 8 → s.chain (chainHere s (field (s.x a) 0 4)) = some c → w ≠ s.cx.tid →
    (∃ k, ((s.x b).toNat, w, k) ∈ c.taken) →
    (∀ j, j ∈ c.joining → j.1 ≠ s.cx.tid) →
    ∃ t, exec (.sjoin d a b) s = .next t ∧ s.wroteX t d 1 (s.nextPc 4) []) ∧
  (∀ (d a : Reg) (s : State), s.admits 0 ⟨[d], [], []⟩ → (s.x a).toNat < 16 →
    (s.positionOn (chainHere s (s.x a).toNat) s.cx.tid).isSome = true →
    ∃ t, exec (.sleave d a) s = .next t ∧ (d ≠ 0 → t.cx.rawX d = 0) ∧ t.chains = (s.leaveChain (chainHere s (s.x a).toNat) s.cx.tid).chains) ∧
  (∀ (d a b : Reg) (s : State) (c : Chain) (r : VRun), s.admits 0 ⟨[d], [], []⟩ → (s.x a).toNat < 16 → (s.x b).toNat % 64 = 0 →
    s.chain (chainHere s (s.x a).toNat) = some c → s.positionOn (chainHere s (s.x a).toNat) s.cx.tid = some 0 → c.seed = none →
    r = s.readWide (s.x b) 512 → r.fault = none → r.held = false → r.watched = false →
    ∃ t, exec (.scin d a b) s = .next t ∧ (d ≠ 0 → t.cx.rawX d = 0) ∧
      t.chains = (r.s.withChain (chainHere s (s.x a).toNat) (fun c => { c with seed := some r.value })).chains) ∧
  (∀ (d a b : Reg) (s : State) (c : Chain) (p : Nat) (v : VWord) (r : VRun), s.admits 0 ⟨[d], [], []⟩ → (s.x a).toNat < 16 →
    (s.x b).toNat % 64 = 0 → s.chain (chainHere s (s.x a).toNat) = some c →
    s.positionOn (chainHere s (s.x a).toNat) s.cx.tid = some p → p + 1 = c.n → c.tail = some v →
    (∃ word, r = s.writeWide (s.x b) v word ∧ word = recordWord (wrWord 0x39 d.toNat a.toNat b.toNat 3 0)) →
    r.fault = none → r.held = false → r.watched = false →
    ∃ t, exec (.scout d a b) s = .next t ∧ (d ≠ 0 → t.cx.rawX d = 0) ∧ t.mem = r.s.mem ∧
      t.chains = (r.s.withChain (chainHere s (s.x a).toNat) (fun c => { c with tail := none })).chains)

/-- R301, R307, R315, R317, R318, R349, R479, R504: what arrives: a load's reply, a store's acknowledgement or refusal, a store at its
home, another device's atomic, and the limit of a request to another device. -/
def Sys2Proof.Claims.RequestsAndRepliesLand : Prop :=
  (∀ (tid : Word) (d : Reg) (v : Word) (level hops queue : Nat) (s : State), level ≤ 42 → d ≠ 0 →
    ∃ t, exec (.loadReply tid d v level hops queue) s = .next t ∧ t.mem = s.mem ∧ taskBecomes s t tid (fun c c' =>
      tget c'.dacc (4 * level) 0 = raised (tget c.dacc (4 * level) 0) 1 ∧
      tget c'.dacc (4 * level + 1) 0 = raised (tget c.dacc (4 * level + 1) 0) hops ∧
      tget c'.dacc (4 * level + 2) 0 = raised (tget c.dacc (4 * level + 2) 0) (Nat.min queue (2 ^ 24 - 1)) ∧
      (c.pends.any (Pend.repliesTo d) = true → replied d v c c'))) ∧
  (∀ (tid : Word) (part level : Nat) (s : State), ∃ t, exec (.storeAck tid part none level) s = .next t ∧ t.mem = s.mem ∧
    taskBecomes s t tid (fun c c' => c'.unack = c.unack - 1 ∧ c'.x = c.x)) ∧
  (∀ (tid : Word) (part level : Nat) (r : Record) (s : State), ∃ t, exec (.storeAck tid part (some r) level) s = .next t ∧ t.mem = s.mem ∧
    taskBecomes s t tid (fun c c' => c'.unack = c.unack ∧ ∃ h, c'.records = c.records ++ [h] ∧ h.record = r ∧ h.slot = none ∧ h.unack = true)) ∧
  (∀ (q : HomeReq) (pa dev off : Nat) (b : Byte) (bs : List Byte) (s : State), q.origin.cls ≠ 6 → q.cells = cellsOf pa (b :: bs) →
    q.count = 1 → s.placeBusy pa = false → s.placeOf pa = .hbm dev off → dev = s.dev.toNat →
    ((s.grantsHbm ((s.partition q.origin.part).homeOf off) q.origin.part q.origin.cls rightWrite pa = true →
      ∃ t l, exec (.homeRequest q) s = .next t ∧ t.mem = Memory.writeCells s.mem (cellsHere pa (b :: bs)) ∧
        t.inflight.getLast? = some (.storeAck q.origin.tid q.origin.part none l)) ∧
    (s.grantsHbm ((s.partition q.origin.part).homeOf off) q.origin.part q.origin.cls rightWrite pa = false →
      ∃ l r, exec (.homeRequest q) s = .next (s.send (.storeAck q.origin.tid q.origin.part (some r) l)) ∧
        rfield r 0 1 = 9 ∧ rfield r 24 8 = q.origin.va.toNat))) ∧
  (∀ (device pa part : Nat) (op : AtomicOp) (x tid : Word) (s : State),
    let full := s.dev.toNat * 2 ^ 48 + pa % 2 ^ 48
    s.stationPart device = some part → s.atomicAccepts 0 part 3 full = true → s.atomicGrants part 6 full = true →
    s.spoiledFor part full (atomicSize op) = false →
    let r := atomicResult op (BitVec.ofNat 64 (ofBytes (s.peek full (atomicSize op)))) x
    ∃ t, exec (.systemAtomicRequest ⟨device, tid⟩ (.act op) pa x true) s = .next t ∧
      (op ≠ .cread → t.mem = Memory.writeCells s.mem (cellsHere full (bytesOf r.1.toNat (atomicSize op)))) ∧
      (op = .cread → t.mem = s.mem) ∧ t.outbox.getLast? = some (.mailbox device 4 (bytesOf r.2.1.toNat 8))) ∧
  (∀ (device pa part : Nat) (x tid : Word) (reply : Bool) (s : State),
    let full := s.dev.toNat * 2 ^ 48 + pa % 2 ^ 48
    s.stationPart device = some part → s.atomicAccepts 0 part 3 full = true → s.atomicGrants part 6 full = true →
    s.spoiledFor part full 8 = false → s.keyValue (s.locationKey full) = x →
    exec (.systemAtomicRequest ⟨device, tid⟩ .waita pa x reply) s =
      .next { s with farWaits := s.farWaits ++ [⟨device, tid, s.locationKey full, false, x, 0⟩] }) ∧
  (∀ (device pa : Nat) (op : AgentOp) (x tid : Word) (reply : Bool) (s : State), s.stationPart device = none →
    exec (.systemAtomicRequest ⟨device, tid⟩ op pa x reply) s = .next (s.emit (.error device))) ∧
  (∀ (q : HomeReq) (s : State), s.taskOf q.origin.tid = none → q.count = 1 →
    ∃ l r, exec (.fabricRequestTimeout q) s = .next (s.send (.storeAck q.origin.tid q.origin.part (some r) l)) ∧ rfield r 0 1 = 9) ∧
  (∀ (q : HomeReq) (s : State) (c : Ctx) (p : Pend), s.taskOf q.origin.tid = some c → c.tid = q.origin.tid →
    c.pends.find? (fun p => p.repliesTo p.dest && p.pc == q.origin.pc) = some p →
    ∃ t, exec (.fabricRequestTimeout q) s = .next t ∧ t.mem = s.mem ∧ ∃ c' f, t.taskOf c.tid = some c' ∧ c'.x = c.x ∧
      c'.faults = c.faults ++ [f] ∧ f.code = 9 ∧ f.left = p.left ∧ c'.pends.length + 1 = c.pends.length)

/-- R304 to R306: a FIFO bank takes pushes and gives pops in order, holds a push while it has 8,192 entries and a pop while it has none,
and counts; while its bank is being switched each waits. -/
def Sys2Proof.Claims.FifosDeliverInOrder : Prop :=
  (∀ (o : Origin) (g : Nat) (v : Word) (s : State), bankBusy (s.bank g) = false →
    ((s.fifo g).entries.length < 8192 → (s.fifo g).pushes = [] →
      ∃ t, exec (.fifoPush o g v) s = .next t ∧ (t.fifo g).entries = (s.fifo g).entries ++ [v] ∧ t.mem = s.mem) ∧
    (8192 ≤ (s.fifo g).entries.length ∨ (s.fifo g).pushes ≠ [] →
      ∃ t, exec (.fifoPush o g v) s = .next t ∧ (t.fifo g).pushes = (s.fifo g).pushes ++ [(o, v)] ∧
        (t.fifo g).entries = (s.fifo g).entries)) ∧
  (∀ (tid : Word) (g : Nat) (d : Reg) (s : State) (v : Word) (r : List Word), bankBusy (s.bank g) = false →
    (s.fifo g).entries = v :: r → (s.fifo g).pops = [] → (s.fifo g).headBad ≠ some true →
    ∃ t, exec (.fifoPop tid g d) s = .next t ∧ (t.fifo g).entries = r ∧ taskBecomes s t tid (fun c c' =>
      c.pends.any (fun p => p.kind == .fifo g && p.dest == d) = true → replied d v c c')) ∧
  (∀ (tid : Word) (g : Nat) (d : Reg) (s : State), bankBusy (s.bank g) = false → (s.fifo g).entries = [] ∨ (s.fifo g).pops ≠ [] →
    ∃ t, exec (.fifoPop tid g d) s = .next t ∧ (t.fifo g).pops = (s.fifo g).pops ++ [.task tid d] ∧ (t.fifo g).entries = (s.fifo g).entries ∧
      t.taskOf tid = s.taskOf tid ∧ t.mem = s.mem) ∧
  (∀ (tid : Word) (g : Nat) (d : Reg) (s : State), bankBusy (s.bank g) = false →
    ∃ t, exec (.fifoCount tid g d) s = .next t ∧ t.clusters = s.clusters ∧ taskBecomes s t tid (fun c c' =>
      c.pends.any (fun p => p.kind == .fifo g && p.dest == d) = true → replied d (BitVec.ofNat 64 (s.fifo g).entries.length) c c')) ∧
  (∀ (g : Nat) (s : State) (o : Origin) (v : Word) (r : List (Origin × Word)), (s.fifo g).pushes = (o, v) :: r →
    (s.fifo g).entries.length < 8192 →
    ∃ t, exec (.fifoHeldPushDone g) s = .next t ∧ (t.fifo g).entries = (s.fifo g).entries ++ [v] ∧ (t.fifo g).pushes = r) ∧
  (∀ (g n : Nat) (s : State) (v : Word) (es : List Word) (ps : List Popper),
    (s.fifo g).pops = .device n :: ps → (s.fifo g).entries = v :: es → (s.fifo g).headBad ≠ some true →
    ∃ t, exec (.fifoHeldPopDone g) s = .next t ∧ (t.fifo g).entries = es ∧ (t.fifo g).pops = ps ∧
      t.outbox = s.outbox ++ [.response n (bytesOf v.toNat 8)]) ∧
  (∀ (g : Nat) (s : State) (tid : Word) (d : Reg) (v : Word) (es : List Word) (ps : List Popper),
    (s.fifo g).pops = .task tid d :: ps → (s.fifo g).entries = v :: es → (s.fifo g).headBad ≠ some true →
    ∃ t, exec (.fifoHeldPopDone g) s = .next t ∧ (t.fifo g).entries = es ∧ (t.fifo g).pops = ps ∧ taskBecomes s t tid (fun c c' =>
      c.pends.any (fun p => p.kind == .fifo g && p.dest == d) = true → replied d v c c')) ∧
  (∀ (o : Origin) (tid : Word) (g : Nat) (v : Word) (d : Reg) (s : State), bankBusy (s.bank g) = true →
    exec (.fifoPush o g v) s = .next (s.sendFirst (.fifoPush o g v)) ∧
      exec (.fifoPop tid g d) s = .next (s.sendFirst (.fifoPop tid g d)) ∧
      exec (.fifoCount tid g d) s = .next (s.sendFirst (.fifoCount tid g d)))

/-- R337, R340, R341, R357, R362, R363: a wait on an address completes with the value that satisfied it, as a boundary, or starved, as
none; WAITAT's limit ends it with its expected value; an update is kept by its subscription, and one of a subscription that has ended is
dropped. -/
def Sys2Proof.Claims.WakesAndUpdatesArrive : Prop :=
  (∀ (pa : Nat) (v : Word) (l : Bool) (s : State) (p : Pend), s.cx.run ≠ .idle → s.cx.pends.find? (fun p => p.wakes pa v) = some p →
    wokenEntry p pa l → ¬ (l = true ∧ v = BitVec.allOnes 64) →
    ∃ t, exec (.waitEntryWake s.cx.tid pa v) s = .next t ∧ (p.dest ≠ 0 → t.cx.rawX p.dest = v) ∧ t.cx.pcnt = s.cx.pcnt + 1) ∧
  (∀ (pa : Nat) (s : State) (p : Pend), s.cx.run ≠ .idle →
    s.cx.pends.find? (fun p => p.wakes pa (BitVec.allOnes 64)) = some p → wokenEntry p pa true →
    ∃ t, exec (.waitEntryWake s.cx.tid pa (BitVec.allOnes 64)) s = .next t ∧ (p.dest ≠ 0 → t.cx.rawX p.dest = BitVec.allOnes 64) ∧
      t.cx.pcnt = s.cx.pcnt ∧ t.mem = s.mem) ∧
  (∀ (tid : Word) (pa : Nat) (s : State) (c : Ctx) (p : Pend) (e : Word) (lim : Nat), s.taskOf tid = some c →
    c.pends.find? (fun p => (p.timed pa).any (fun t => decide (t.1 ≤ s.clock))) = some p → p.timed pa = some (lim, e) →
    ∃ t, exec (.waitatTimeout tid pa) s = .next t ∧ t.mem = s.mem ∧ taskBecomes s t tid (replied p.dest e)) ∧
  (∀ (n : Nat) (u : Update) (s : State) (b : Sub), s.subs.find? (fun b => b.num == n) = some b → b.end_ = 0 →
    ∃ t b', exec (.subscriptionUpdate n u.cells u.sent u.release) s = .next t ∧ t.mem = s.mem ∧ t.subs.find? (fun b => b.num == n) = some b' ∧
      b'.received = b.received ++ [u]) ∧
  (∀ (n : Nat) (u : Update) (s : State) (b : Sub), s.subs.find? (fun b => b.num == n) = some b → b.end_ ≠ 0 →
    ∃ t, exec (.subscriptionUpdate n u.cells u.sent u.release) s = .next t ∧ t.mem = s.mem ∧ t.subs = s.subs)

/-- R344 to R346, R374, R534: an objection in time fails its claim and a late one is answered with a record; a decision stores the value
of a claim that has not failed, and tells its task; a claim of another device enters the conflicts of its address's home, and is stored when
won; a member's record ends once its time has passed. -/
def Obligations.ClaimsAreObjectedToAndDecided : Prop :=
  (∀ (addr : Word) (claimer : BitVec 26) (cause : Byte) (k : Nat) (tid : Word) (tag : Tag) (s : State) (c : Claim),
    (s.claims.filter (fun c => c.addr == addr && c.claimer == claimer)).getLast? = some c →
    s.claims.find? (fun k => k.num == c.num) = some c →
    (c.decided = false → s.clock < c.decideAt →
      ∃ t c', exec (.objectionArrival addr claimer cause ⟨k, tid⟩ tag none) s = .next t ∧ t.claims.find? (fun k => k.num == c.num) = some c' ∧
        c' = { c with failed := some (c.failed.getD cause.toNat) } ∧ t.mem = s.mem ∧ t.cx = s.cx) ∧
    (c.decided = true ∨ c.decideAt ≤ s.clock → tid.toNat / 2 ^ 48 = s.dev.toNat →
      ∃ t, exec (.objectionArrival addr claimer cause ⟨k, tid⟩ tag none) s = .next t ∧ t.claims = s.claims ∧ taskBecomes s t tid (fun o o' =>
        ∃ h, o'.records = o.records ++ [h] ∧ rfield h.record 0 1 = 16 ∧ rfield h.record 24 8 = addr.toNat ∧ h.unack = false))) ∧
  (∀ (addr : Word) (claimer : BitVec 26) (cause : Byte) (k : Nat) (tid : Word) (tag : Tag) (late : Nat × Nat) (s : State),
    tid.toNat / 2 ^ 48 = s.dev.toNat →
    ∃ t, exec (.objectionArrival addr claimer cause ⟨k, tid⟩ tag (some late)) s = .next t ∧ t.claims = s.claims ∧
      taskBecomes s t tid (fun o o' => ∃ h, o'.records = o.records ++ [h] ∧ rfield h.record 0 1 = 16 ∧ rfield h.record 24 8 = addr.toNat ∧
        h.unack = false)) ∧
  (∀ (n : Nat) (s : State) (c : Claim), s.claims.find? (fun c => c.num == n && !c.decided) = some c →
    (c.decideAt ≤ s.clock → deviceOfCore c.claimer = s.dev.toNat → deviceOf c.pa = s.dev.toNat →
      ∃ t, exec (.claimDecision (.decide n)) s = .next t ∧
        t.mem = (if c.failed = none then Memory.writeCells s.mem (cellsHere c.pa (bytesOf c.value.toNat 8)) else s.mem) ∧
        taskBecomes s t c.tid (fun k k' => k'.decisions = k.decisions ++ [(c.addr, c.failed.getD 0)])) ∧
    (s.clock < c.decideAt → exec (.claimDecision (.decide n)) s = .next (s.send (.claimDecision (.decide n))))) ∧
  (∀ (device pa part ta window decideAt : Nat) (value : Word) (claimer : BitVec 26) (s : State), s.farClaimer device pa = some part →
    (∃ t, exec (.claimDecision (.won device pa value)) s = .next t ∧
      t.mem = Memory.writeCells s.mem (cellsHere pa (bytesOf value.toNat 8))) ∧
    (∃ t c, exec (.claimDecision (.enter device pa value claimer ta window decideAt)) s = .next t ∧ c ∈ t.claims ∧ c.num = s.serial ∧
      c.pa = pa ∧ c.claimer = claimer ∧ c.decided = false ∧ t.inflight.getLast? = some (.claimDecision (.decide s.serial)))) ∧
  (∀ (part : Nat) (actor addr : Word) (claimer : BitVec 26) (s : State),
    ∃ t, exec (.claimRecordExpiry part actor addr claimer) s = .next t ∧ t.mem = s.mem ∧ t.cx = s.cx ∧
      (t.actorOf part actor).claims = (s.actorOf part actor).claims.filter (fun r => !expired s addr claimer r))

/-- R197, R202, R209, R253, R276, R355: an event goes to its actor's current home and joins its queue there; it becomes safe; an actor
that runs nothing moves with its events; a raise lifts its task's class; a reservation ends. -/
def Sys2Proof.Claims.EventsReachTheirActors : Prop :=
  (∀ (e : Event) (s : State), s.homeCore e.part (actorAddr e.target) = s.hashHome e.part (actorAddr e.target) → takesEvents s e.part →
    comesLate s e = false → roomAt s (s.homeCore e.part (actorAddr e.target)) →
    ∃ t, exec (.eventArrival e) s = .next t ∧ queuedAtHome s t e) ∧
  (∀ (e : Event) (s : State), s.homeCore e.part (actorAddr e.target) ≠ s.hashHome e.part (actorAddr e.target) →
    exec (.eventArrival e) s = .next (s.send (.eventForward e))) ∧
  (∀ (e : Event) (s : State), takesEvents s e.part → comesLate s e = false → roomAt s (s.homeCore e.part (actorAddr e.target)) →
    ∃ t, exec (.eventForward e) s = .next t ∧ queuedAtHome s t e) ∧
  (∀ (part : Nat) (actor : Word) (s : State) (q : Queued), s.firstEvent part actor = some q →
    (s.isSafe q = true → ∃ t, exec (.eventSafe part actor) s = .next t ∧ { q with safe := true } ∈ t.events ∧
      t.events.length = s.events.length) ∧
    (s.isSafe q = false → exec (.eventSafe part actor) s = .next (s.send (.eventSafe part actor)))) ∧
  (∀ (part : Nat) (actor : Word) (core : Nat) (s : State), (s.actorOf part actor).running = false →
    s.gangPlaced (s.actorOf part actor) = false → s.partOfCore core = some part →
    (s.events.filter (fun q => forActor part actor q && !q.spilled)).length +
      (s.events.filter (fun q => q.core == core && !q.spilled && !forActor part actor q)).length ≤ 128 →
    ∃ t, exec (.actorMove part actor core) s = .next t ∧ t.homeCore part actor = core ∧ t.cx = s.cx ∧ t.mem = s.mem ∧
      t.events.map (·.event) = s.events.map (·.event) ∧ ∀ q, q ∈ t.events → forActor part actor q = true → q.core = core) ∧
  (∀ (part : Nat) (actor : Word) (core : Nat) (s : State),
    (s.actorOf part actor).running = true ∨ s.gangPlaced (s.actorOf part actor) = true → exec (.actorMove part actor core) s = .next s) ∧
  (∀ (tid : Word) (cls : BitVec 2) (s : State) (c : Ctx), s.taskOf tid = some c → cls.toNat ≤ (s.raiseOf tid).toNat →
    ∃ t, exec (.priorityRaise tid ⟨cls, false⟩) s = .next t ∧ t.mem = s.mem ∧ taskBecomes s t tid (fun c c' =>
      c'.raised = s.raiseOf tid ∧ c'.eff.toNat = Nat.max c.cls.toNat (Nat.max (s.floorOf c).toNat (s.raiseOf tid).toNat) ∧
      c'.x = c.x)) ∧
  (∀ (core : Nat) (actor : Word) (s : State), ∃ t, exec (.phintExpiry core actor) s = .next t ∧ t.cx = s.cx ∧ t.mem = s.mem ∧
    (tget t.cores core Core.reset).hints =
      (tget s.cores core Core.reset).hints.filter (fun h => !(h.actor == actor && decide (h.until_ ≤ s.clock))))

/-- R37, R61, R213, R220, R221, R249, R251, R265, R484: an idle context starts the reaction that the dispatcher chooses, or the task at
its own deque's tail; a victim gives the oldest entry that the thief may run; a switch-out that R251 asks for makes room; a thread without
its extension moves. -/
def Sys2Proof.Claims.ContextsTakeTheirWork : Prop :=
  (∀ (key part n : Nat) (s : State) (c : Cand) (q : Queued), (∀ e, e ∈ s.queues → e.2.gang = none) → s.idleAt key = true →
    s.partOfCore (coreOf key) = some part → s.tailFor (coreOf key) (coreOf key) = none →
    choose s.clock (tget s.cores (coreOf key) Core.reset).pickCount (s.candidates (coreOf key)) (s.candidatesFor key) = some (c, n) → c.work = .reaction q →
    q.late = false →
    ∃ t k, exec (.dispatchPick key) s = .next t ∧ t.ctxAt key = some k ∧ k.run = .running ∧ k.root = true ∧ k.pl = 0 ∧
      k.tid = s.newTid ∧ k.pc = (q.event.handler &&& ~~~1) ∧ k.rawX 10 = q.event.payload ∧ k.rawX 11 = q.event.target ∧
      k.rawX 12 = zext q.event.sender ∧ k.tag = q.event.tag ∧ k.dline = q.event.deadline ∧ k.cls = q.event.cls ∧
      (t.actorOf q.event.part (actorAddr q.event.target)).running = true) ∧
  (∀ (key part : Nat) (s : State) (e : DequeEntry), (∀ e, e ∈ s.queues → e.2.gang = none) → s.idleAt key = true → s.partOfCore (coreOf key) = some part →
    s.gangReserved.contains key = false → s.hintOf key = none → s.tailFor (coreOf key) (coreOf key) = some e →
    s.candidatesFor key = [] →
    ∃ t k, exec (.dispatchPick key) s = .next t ∧ t.ctxAt key = some k ∧ k.run = .running ∧ k.tid = e.task.tid ∧ k.pc = e.task.pc ∧
      k.rawX 10 = e.task.rawX 10 ∧ k.parent = e.task.parent) ∧
  (∀ (key : Nat) (s : State), s.idleAt key = false → exec (.dispatchPick key) s = .next s) ∧
  (∀ (key part : Nat) (s : State), s.partOfCore (coreOf key) = some part → s.idleAt key = true → s.victims part (coreOf key) ≠ [] →
    ∃ q, exec (.stealRequest key) s = .next (s.send (.stealAnswer q)) ∧ q.thiefCtx = key ∧ q.victim ∈ s.victims part (coreOf key)) ∧
  (∀ (q : StealReq) (s : State) (e : DequeEntry), s.tailFor q.victim (coreOf q.thiefCtx) = some e → s.idleAt q.thiefCtx = true →
    s.gangReserved.contains q.thiefCtx = false → s.hintOf q.thiefCtx = none →
    ∃ t k, exec (.stealAnswer q) s = .next t ∧ t.ctxAt q.thiefCtx = some k ∧ k.run = .running ∧ k.tid = e.task.tid ∧ k.pc = e.task.pc ∧
      k.rawX 10 = e.task.rawX 10) ∧
  (∀ (q : StealReq) (s : State), s.tailFor q.victim (coreOf q.thiefCtx) = none → exec (.stealAnswer q) s = .next s) ∧
  (∀ (key : Nat) (s s1 : State) (c : Cand), best Cand.before (s.candidates (coreOf key)) = some c → s.pushedOut (coreOf key) = some key →
    s.switchOut key (coreOf key) = some s1 → exec (.switchOut key) s = .next ((s1.makeWay key).begin c.work key)) ∧
  (∀ (key : Nat) (s : State), s.pushedOut (coreOf key) ≠ some key →
    exec (.switchOut key) s = .next (if s.joinFreed key then (s.switchOut key (coreOf key)).getD s else s)) ∧
  (∀ (xf64 : Bool) (s : State) (k : Nat), s.cx.run ≠ .idle → s.cx.hasExtension xf64 = false → s.cx.firstFault true = none →
    s.cx.open_ = false → s.engineBusy s.cx.tid = false → s.directedTo s.cx.tid = false →
    let s1 := (closed s).release s.cx.key 2
    s1.cx.unack = 0 → s1.idleContext (migrationTarget xf64 (coreOf s.cx.key)) = some k → k ≠ s.cx.key →
    ∃ t c, exec (.extensionMigration xf64) s = .next t ∧ t.ctxAt k = some c ∧ c.key = k ∧ c.tid = s.cx.tid ∧ c.pc = s.cx.pc ∧
      c.x = s.cx.x ∧ c.v = s.cx.v ∧ c.m = s.cx.m ∧ c.ox = s.cx.ox ∧ c.run = .running) ∧
  (∀ (xf64 : Bool) (s : State), s.cx.hasExtension xf64 = true → exec (.extensionMigration xf64) s = .next s)

/-- R230 to R234, R287, R371: a message that reaches the place of its endpoint's task joins its receive queue, or the mailbox of a task that is
switched out, and its SEND completes; with neither room it is refused, and sent again.  At a place that the task has left a stub forwards it,
three times at most, until the stub ends; elsewhere the directory says where the task is, or that there is none.  The directory answers this
device's tasks and, in a record, another device's. -/
def Obligations.MessagesReachTheirEndpoints : Prop :=
  (∀ (m : Message) (s : State) (e : Endpoint), field m.place 16 10 = s.dev.toNat → m.fromTid.toNat / 2 ^ 48 = s.dev.toNat →
    s.endpoint m.part m.endpoint = some e → s.placeWord e.part e.ctx = m.place →
    s.endpoints.find? (fun k => k.name == e.name && k.tid == e.tid) = some e →
    (s.ready.any (fun r => r.2.2.tid == e.tid) = false → e.queue.length < 32 →
      (∀ c, s.taskOf e.tid = some c → ∀ p, p ∈ c.pends → p.receives = none) →
      ∃ t, exec (.messageArrival m) s = .next t ∧
        t.endpoint m.part m.endpoint = some { e with queue := e.queue ++ [(m.word, m.sender)] } ∧
        taskBecomes s t m.fromTid (fun c c' => ∀ p, c.pends.find? (fun p => p.kind == .sending m.endpoint) = some p → replied p.dest 0 c c')) ∧
    (s.ready.any (fun r => r.2.2.tid == e.tid) = false → 32 ≤ e.queue.length →
      exec (.messageArrival m) s = .next (s.sendFirst (.messageRefused m))) ∧
    (s.ready.any (fun r => r.2.2.tid == e.tid) = true →
      ((s.endpoints.filter (fun k => k.tid == e.tid)).map (fun k => k.mailbox.length)).sum < 32 →
      ∃ t, exec (.messageArrival m) s = .next t ∧
        t.endpoint m.part m.endpoint = some { e with mailbox := e.mailbox ++ [(m.word, m.sender)] }) ∧
    (s.ready.any (fun r => r.2.2.tid == e.tid) = true →
      32 ≤ ((s.endpoints.filter (fun k => k.tid == e.tid)).map (fun k => k.mailbox.length)).sum →
      exec (.messageArrival m) s = .next (s.sendFirst (.messageRefused m)))) ∧
  (∀ (m : Message) (s : State) (e : Endpoint) (k : Stub), field m.place 16 10 = s.dev.toNat → s.endpoint m.part m.endpoint = some e →
    s.stubAt e m.place = some k →
    (s.placeWord e.part e.ctx ≠ m.place → exec (.messageArrival m) s = .next (s.sendFirst (.messageForward m))) ∧
    (m.count < 3 → exec (.messageForward m) s =
      .next (s.sendFirst (.messageArrival { m with place := s.placeWord e.part k.target, count := m.count + 1 })))) ∧
  (∀ (m : Message) (s : State) (i : Instr), s.directoryOf m.part m.endpoint.toNat = s.dev.toNat →
    (i = .messageArrival m ∧ field m.place 16 10 = s.dev.toNat ∧
        ∀ e, s.endpoint m.part m.endpoint = some e → s.placeWord e.part e.ctx ≠ m.place ∧ s.stubAt e m.place = none) ∨
      (i = .messageForward m ∧ (3 ≤ m.count ∨ ∀ e, s.endpoint m.part m.endpoint = some e → s.stubAt e m.place = none)) →
    (∀ w, s.foundAt m.part m.endpoint = some w →
      exec i s = .next (s.sendFirst (.messageArrival { m with place := w, count := 0, directed := true }))) ∧
    (s.foundAt m.part m.endpoint = none → m.fromTid.toNat / 2 ^ 48 = s.dev.toNat →
      ∃ t, exec i s = .next t ∧ t.endpoints = s.endpoints ∧ taskBecomes s t m.fromTid (fun c c' =>
        ∀ p, c.pends.find? (fun p => p.kind == .sending m.endpoint) = some p → replied p.dest 1 c c'))) ∧
  (∀ (m : Message) (s : State), field m.place 16 10 ≠ s.dev.toNat →
    ∃ t, exec (.messageArrival m) s = .next t ∧ Sent.message (field m.place 16 10) m ∈ t.outbox ∧ t.endpoints = s.endpoints) ∧
  (∀ (m : Message) (s : State) (w : Word), (s.locate (coreOf m.fromCtx) m.part m.endpoint).1 = some w →
    ∃ t, exec (.messageRefused m) s = .next t ∧ t.cx = s.cx ∧
      t.inflight = .messageArrival { m with place := w, count := 0, directed := false } :: s.inflight) ∧
  (∀ (tid : Word) (d : Reg) (name : BitVec 32) (who place : Word) (c : Ctx) (s : State), s.taskOf tid = some c → name ≠ 0 →
    s.endpoint c.part name = none → s.heldFar c.part name = false → (s.endpoints.filter (fun e => e.tid == who)).length < 4 →
    (s.endpoints.filter (fun e => e.part == c.part)).length < rfield (s.partition c.part).config 32 4 →
    ∃ t, exec (.directoryRequest ⟨s.dev.toNat, tid⟩ d (.bind name who place)) s = .next t ∧
      t.endpoints = s.endpoints ++ [⟨name, c.part, who, s.contextOf c.part place, [], [], []⟩] ∧ taskBecomes s t tid (fun c c' =>
        c.pends.any (fun p => p.kind == .reply false && p.dest == d) = true → replied d 0 c c')) ∧
  (∀ (tid : Word) (d : Reg) (name : BitVec 32) (who : Word) (s : State) (e : Endpoint),
    s.endpoints.find? (fun e => e.name == name && e.tid == who) = some e →
    ∃ t, exec (.directoryRequest ⟨s.dev.toNat, tid⟩ d (.free name who)) s = .next t ∧ s.holds who name = true ∧ t.holds who name = false ∧
      taskBecomes s t tid (fun c c' => c.pends.any (fun p => p.kind == .reply false && p.dest == d) = true →
        replied d (BitVec.ofNat 64 (e.queue.length + e.mailbox.length)) c c')) ∧
  (∀ (tid : Word) (d : Reg) (name : BitVec 32) (c : Ctx) (e : Endpoint) (s : State), s.taskOf tid = some c →
    s.endpoint c.part name = some e →
    ∃ t, exec (.directoryRequest ⟨s.dev.toNat, tid⟩ d (.lookup name)) s = .next t ∧ t.endpoints = s.endpoints ∧
      taskBecomes s t tid (fun c c' => c.pends.any (fun p => p.kind == .reply false && p.dest == d) = true →
        replied d (s.placeWord e.part e.ctx) c c')) ∧
  (∀ (device part : Nat) (tid : Word) (d : Reg) (name : BitVec 32) (place : Word) (s : State), device ≠ s.dev.toNat →
    s.stationPart device = some part → s.endpoint part name = none → (∀ b, b ∈ s.farBindings → ¬ (b.name = name ∧ b.part = part)) →
    exec (.directoryRequest ⟨device, tid⟩ d (.bind name tid place)) s =
      .next ({ s with farBindings := s.farBindings ++ [(⟨name, part, tid, place⟩ : FarBinding)] }.emit
        (.mailbox device 2 (bytesOf tid.toNat 8 ++ bytesOf 0 8)))) ∧
  (∀ (device part : Nat) (tid : Word) (d : Reg) (actor : Word) (grp : BitVec 16) (s : State), device ≠ s.dev.toNat →
    s.stationPart device = some part →
    ∃ t, exec (.directoryRequest ⟨device, tid⟩ d (.groups actor 0 grp)) s = .next t ∧
      ∀ m, m ∈ t.farMembers → m.group < 16 → ¬ (m.part = part ∧ m.device = device ∧ m.actor = actor)) ∧
  (∀ (name : BitVec 32) (s : State), ∃ t, exec (.stubExpiry name) s = .next t ∧ t.endpoints.length = s.endpoints.length ∧
    (∀ e, e ∈ t.endpoints → e.name = name → ∀ k, k ∈ e.stubs → s.clock < k.until_) ∧
    ∀ e, e ∈ s.endpoints → ∃ e', e' ∈ t.endpoints ∧ e' = { e with stubs := e'.stubs } ∧
      ∀ k, k ∈ e.stubs → s.clock < k.until_ → k ∈ e'.stubs ∧ (e.name = name → t.inflight = s.inflight ++ [.stubExpiry name]))

/-- R114, R219, R267, R272, R273, R279, R452: what ends a wait of a context: a due trap, a held wake, a clock limit, children that have
all ended, tags that are set. -/
def Sys2Proof.Claims.WaitsOfContextsEnd : Prop :=
  (∀ (key : Nat) (d : Reg) (limit : Word) (s : State) (c : Ctx), s.ctxAt key = some c → c.run = .waiting (.waiti d limit) →
    (c.asyncDue = true → ∃ t c', exec (.waitiWake key) s = .next t ∧ t.ctxAt key = some c' ∧ wentOn d 1 c c') ∧
    (∀ f, c.asyncDue = false → c.pl = 2 → s.firmware.cores[fwIndex key]? = some f → f.wake = true →
      ∃ t c', exec (.waitiWake key) s = .next t ∧ t.ctxAt key = some c' ∧ wentOn d 2 c c' ∧
        t.firmware.cores[fwIndex key]? = some { f with wake := false }) ∧
    (c.asyncDue = false → c.pl ≠ 2 → limit ≠ 0 → limit.toNat ≤ s.clock →
      ∃ t c', exec (.waitiTimeout key) s = .next t ∧ t.ctxAt key = some c' ∧ wentOn d 0 c c')) ∧
  (∀ (key : Nat) (d : Reg) (s : State) (c : Ctx), s.ctxAt key = some c → c.run = .waiting (.join (some d)) → c.children = 0 →
    ∃ t c', exec (.joinComplete key) s = .next t ∧ t.ctxAt key = some c' ∧ wentOn d (BitVec.ofNat 64 c.joinable.length) c c' ∧
      c'.joinable = [] ∧ c'.pcnt = c.pcnt + 1) ∧
  (∀ (key : Nat) (d : Reg) (target : Nat) (s : State) (c : Ctx), s.ctxAt key = some c → c.run = .waiting (.safew d target) →
    target ≤ s.clock →
    ∃ t c', exec (.safewComplete key) s = .next t ∧ t.ctxAt key = some c' ∧ wentOn d (BitVec.ofNat 64 s.clock) c c') ∧
  (∀ (key n : Nat) (d : Reg) (limit : Word) (joined : List Nat) (s : State) (c : Ctx), limit ≠ 0 → limit.toNat ≤ s.clock →
    s.ctxAt key = some c → c.run = .waiting (.lead n limit d joined) →
    ∃ t c', exec (.leadTimeout key) s = .next t ∧ t.ctxAt key = some c' ∧ wentOn d 2 c c') ∧
  (∀ (key core : Nat) (d : Reg) (limit : Word) (s : State) (c : Ctx), limit ≠ 0 → limit.toNat ≤ s.clock →
    s.ctxAt key = some c → c.run = .waiting (.follow core limit d false) →
    (∀ l, l = s.cx ∨ l ∈ s.others → coreOf l.key = 16 * clusterOf key + core → l.leads = false) →
    ∃ t c', exec (.followTimeout key) s = .next t ∧ t.ctxAt key = some c' ∧ wentOn d 3 c c') ∧
  (∀ (key : Nat) (d : Reg) (mask limit : Word) (all : Bool) (s : State) (c : Ctx), limit ≠ 0 → limit.toNat ≤ s.clock →
    s.ctxAt key = some c → c.run = .waiting (.twait d mask all limit) →
    let tags := (tget s.cores (coreOf key) Core.reset).ctags &&& mask
    (if all then tags ≠ mask else tags = 0) →
    ∃ t c', exec (.twaitLimit key) s = .next t ∧ t.ctxAt key = some c' ∧ wentOn d tags c c' ∧ c'.pcnt = c.pcnt)

/-- R384, R385, R387, R391: a write to a command port queues a command, is held while the port is full, or is refused; staged stores make
one up; an engine program's next record is read. -/
def Sys2Proof.Claims.PortsAndProgramsQueueCommands : Prop :=
  (∀ (o : Origin) (engine : Nat) (cmd : Record) (s : State), engine = 1 ∨ engine = 2 →
    s.grantsWindow (coreOf o.ctx / 16) o.part o.cls rightCommand = true → (tget s.cores (coreOf o.ctx) Core.reset).heldPushes = [] →
    s.pushRoom o engine cmd = true → s.pushed o engine cmd = none → s.cmds.all (fun c => c.num != s.serial) = true →
    (pushedCmd s o engine cmd).headerOk = true → (pushedCmd s o engine cmd).fieldsOk = true →
    ∃ t k, exec (.commandPortWrite o engine cmd) s = .next t ∧ t.cmds.getLast? = some k ∧ k.num = s.serial ∧ k.record = cmd ∧ k.state = 1 ∧
      k.tid = o.tid ∧ k.core = coreOf o.ctx ∧ t.inflight = s.inflight ++ [.storeAck o.tid o.part none 43, k.happening]) ∧
  (∀ (o : Origin) (engine : Nat) (cmd : Record) (s : State),
    s.grantsWindow (coreOf o.ctx / 16) o.part o.cls rightCommand = true → s.pushRoom o engine cmd = false →
    ∃ t, exec (.commandPortWrite o engine cmd) s = .next t ∧ (tget t.cores (coreOf o.ctx) Core.reset).heldPushes =
      (tget s.cores (coreOf o.ctx) Core.reset).heldPushes ++ [(engine, o, cmd)] ∧ t.cmds = s.cmds) ∧
  (∀ (o : Origin) (engine : Nat) (cmd : Record) (s : State),
    s.grantsWindow (coreOf o.ctx / 16) o.part o.cls rightCommand = false → s.pushed o engine cmd = none →
    ∃ r, exec (.commandPortWrite o engine cmd) s = .next (s.send (.storeAck o.tid o.part (some r) 43)) ∧ rfield r 0 1 = 9) ∧
  (∀ (core engine : Nat) (o : Origin) (cmd : Record) (s : State),
    (tget s.cores core Core.reset).heldPushes.find? (fun h => h.1 == engine) = some (engine, o, cmd) →
    (s.pushRoom o engine cmd = true → engine = 1 ∨ engine = 2 → s.pushed o engine cmd = none →
      s.cmds.all (fun c => c.num != s.serial) = true → (pushedCmd s o engine cmd).headerOk = true →
      (pushedCmd s o engine cmd).fieldsOk = true →
      ∃ t k, exec (.pushHeldAccept core engine) s = .next t ∧ t.cmds.getLast? = some k ∧ k.num = s.serial ∧ k.record = cmd ∧ k.state = 1 ∧
        (tget t.cores core Core.reset).heldPushes.length + 1 = (tget s.cores core Core.reset).heldPushes.length) ∧
    (s.pushRoom o engine cmd = false → exec (.pushHeldAccept core engine) s = .next (s.send (.pushHeldAccept core engine)))) ∧
  (∀ (o : Origin) (engine off : Nat) (bytes : List Byte) (s : State) (h : engine < 4), off + bytes.length ≤ 56 →
    ∃ t, exec (.stagingStore o engine off bytes) s = .next t ∧ t.inflight = s.inflight ++ [.storeAck o.tid o.part none 43] ∧
      taskBecomes s t o.tid (fun c c' => ∀ i, i < 64 → rfield c'.staging[engine] i 1 =
        if off ≤ i ∧ i < off + bytes.length then ((bytes[i - off]?).getD 0).toNat else rfield c.staging[engine] i 1)) ∧
  (∀ (o : Origin) (engine : Nat) (v : Word) (s : State) (c : Ctx) (h : engine < 4), s.taskOf o.tid = some c →
    ∃ t r, exec (.stagingCommit o engine v) s = .next t ∧ t.inflight = .commandPortWrite o engine r :: s.inflight ∧
      rfield r 56 8 = v.toNat ∧ (∀ i, i < 56 → rfield r i 1 = rfield c.staging[engine] i 1) ∧
      taskBecomes s t o.tid (fun _ c' => c'.staging[engine] = 0)) ∧
  (∀ (n : Nat) (s : State) (p : Program) (c : Ctx) (r : List Byte × Job), s.programs.find? (fun p => p.num == n) = some p →
    p.ended = false → p.aborted = 0 → p.next < p.count → s.cmds.any (fun k => k.program == n && k.state == 4) = false →
    s.taskOf p.tid = some c → c.ringFull = false → p.engine < 3 → s.programsBefore p < 16 →
    r = (Job.start s).read { cmdOf s.serial p.engine p.num 0 { s.programOrigin p c with pc := p.pc, word := p.word } c.nextSeq c.pl 1 with
      addr := p.addr + BitVec.ofNat 64 (64 * p.next) } (p.addr + BitVec.ofNat 64 (64 * p.next)).toNat 64 → r.2.ok = true →
    ∃ t p', exec (.programRecordRead n) s = .next t ∧ t.serial = s.serial + 1 ∧ t.programs.find? (fun p => p.num == n) = some p' ∧
      p'.next = p.next + 1) ∧
  (∀ (n : Nat) (s : State) (p : Program), s.programs.find? (fun p => p.num == n) = some p →
    p.ended = true ∨ p.aborted ≠ 0 ∨ p.count ≤ p.next → exec (.programRecordRead n) s = .next s)

/-- R388, R389, R393, R400, R407, R442, R443: a completion sets its tag, adds to its counter and leaves; a carry reaches its position; a
collective partial is taken by the first command that may take it, and else waits. -/
def Sys2Proof.Claims.CommandsCompleteAndDeliver : Prop :=
  (∀ (s : State) (k : Cmd), s.cmds.find? (fun c => c.num == k.num) = some k → k.written = true → k.counts = false → k.program = 0 →
    ∃ t, exec (.commandComplete k.num) s = .next t ∧ t.mem = s.mem ∧ (∀ c, c ∈ t.cmds → c.num ≠ k.num) ∧
      (k.tagged = true → k.code ≠ 2 → k.code ≠ 3 → k.byte 2 < 64 → (coreAt t k).ctags.getLsbD (k.byte 2) = true) ∧
      taskBecomes s t k.tid (fun c c' => (∀ e, e ∈ c'.ring → e.seq = k.seq → e.state = 3) ∧ c'.x = c.x)) ∧
  (∀ (s : State) (k : Cmd) (pa : Nat), s.cmds.find? (fun c => c.num == k.num) = some k → k.written = true → k.counts = true →
    s.engineCounter k (k.num_ 8 8) = (0, pa) → deviceOf pa = s.dev.toNat → s.placeBusy (s.commandPa k (k.num_ 8 8)) = false →
    ∃ t, exec (.commandComplete k.num) s = .next t ∧ (∀ c, c ∈ t.cmds → c.num ≠ k.num) ∧
      t.mem = Memory.writeCells s.mem (cellsHere pa (bytesOf (counted (BitVec.ofNat 64 (ofBytes (s.peek pa 8))) 1).toNat 8))) ∧
  (∀ (s : State) (k : Cmd), s.cmds.find? (fun c => c.num == k.num) = some k → k.written = false →
    exec (.commandComplete k.num) s = .next s) ∧
  (∀ (key p : Nat) (s : State) (c : Chain), s.chain key = some c →
    ∃ t c', exec (.carryDelivery key p) s = .next t ∧ t.chain key = some c' ∧ c' = { c with carries := c'.carries } ∧
      c'.carries.map (fun e => (e.1, e.2.2)) = c.carries.map (fun e => (e.1, e.2.2)) ∧
      ∀ e, e ∈ c'.carries → e.1 = p → e.2.1 = true) ∧
  (∀ (p : Partial) (s : State) (m : Cmd), s.cmds.find? (s.takes p) = some m → m.grp.ranks = p.ranks →
    (p.code = 0xC2 → s.misfits p m = false) →
    (∀ q, .collectivePartial q ∈ s.inflight → p.cmd ≤ q.cmd) →
    ∃ t, exec (.collectivePartial p) s = .next t ∧ (t.cluster m.cluster).arrived = (s.cluster m.cluster).arrived ++ [(m.num, p)] ∧
      t.mem = s.mem ∧ t.cmds = s.cmds) ∧
  (∀ (p : Partial) (s : State), s.cmds.find? (s.takes p) = none →
    exec (.collectivePartial p) s = .next (s.send (.collectivePartial p)))

/-- R396 to R402, R425 to R432: each matrix command, at its last unit: a row filled, a native operation, tiles zeroed, a row of sums
written, an output row written; a joint operation runs at its four members together, and else waits. -/
def Sys2Proof.Claims.MatrixCommandsRun : Prop :=
  (∀ (s : State) (k : Cmd) (b0 b1 : Record) (j0 j1 : Job), starts s k → k.byte 26 = k.pidx + 1 →
    let va := (k.num_ 16 8 + k.pidx * k.num_ 28 4) % 2 ^ 64
    (Job.start s).readBlock k va = (b0, j0) → j0.readBlock k (va + 64) = (b1, j1) → j1.ok = true →
    ∃ t, exec (.mxFill k.num) s = .next t ∧ finished t k (k.pidx + 1) ∧ t.mem = s.mem ∧
      rowBlock ((t.cluster k.cluster).slotRow (k.byte 24) (k.byte 25 + k.pidx)) 0 = b0 ∧
      rowBlock ((t.cluster k.cluster).slotRow (k.byte 24) (k.byte 25 + k.pidx)) 1 = b1) ∧
  (∀ (s : State) (k : Cmd), starts s k → k.byte 20 = k.pidx + 1 →
    let c := s.cluster k.cluster
    let a := k.byte 16 + k.pidx
    let b := k.byte 17 + k.pidx
    let f := k.byte 19
    (c.native f a b (k.byte 18)).isSome = true →
    ∃ t, exec (.mxMma k.num) s = .next t ∧ finished t k (k.pidx + 1) ∧ t.mem = s.mem ∧ ∀ i j, i < 128 → j < 128 →
      tget (t.cluster k.cluster).tiles (16384 * k.byte 18 + 128 * i + j) 0 = wordOfInt
        (addPair f (rowBlock (c.slotRow a i) 1) (rowBlock (c.slotRow b j) 1)
          (addPair f (rowBlock (c.slotRow a i) 0) (rowBlock (c.slotRow b j) 0) (c.tileVal (k.byte 18) i j, false))).1) ∧
  (∀ (s : State) (k : Cmd), starts s k → k.pidx = 0 →
    ∃ t, exec (.mxZero k.num) s = .next t ∧ finished t k 1 ∧ t.mem = s.mem ∧ ∀ n i j, n < 2 → (k.byte 16).testBit n = true →
      i < 128 → j < 128 → (t.cluster k.cluster).tileVal n i j = 0 ∧ (t.cluster k.cluster).status n = 0) ∧
  (∀ (s : State) (k : Cmd), starts s k → k.byte 18 = k.pidx + 1 → k.num_ 40 8 = 0 →
    let bytes := (List.range 128).flatMap (fun col =>
      bytesOf (tget (s.cluster k.cluster).tiles (16384 * k.byte 16 + 128 * (k.byte 17 + k.pidx) + col) 0).toNat 8)
    let j := (Job.start s).write k ((k.num_ 24 8 + k.pidx * k.num_ 32 4) % 2 ^ 64) bytes
    j.ok = true → ∃ t, exec (.mxRdacc k.num) s = .next t ∧ finished t k (k.pidx + 1) ∧ t.mem = j.s.mem ∧
      ∀ n, (t.cluster n).tiles = (s.cluster n).tiles ∧ (t.cluster n).slots = (s.cluster n).slots) ∧
  (∀ (s : State) (k : Cmd) (g off : Nat), starts s k → k.byte 21 = k.pidx + 1 →
    let r := k.byte 20 + k.pidx
    let map := k.map.getD (s.cluster k.cluster).wholeMap
    let vals := (if k.byte 16 = 2 then [0, 1] else [k.byte 16]).flatMap (fun t => (List.range 128).map ((s.cluster k.cluster).tileVal t r))
    let out := (outForm k).convert vals
      ⟨(outForm k).mode, matrixStream (BitVec.ofNat 64 (rfield (s.partition k.part).config 0 8)) (k.num_ 28 4) r, {}⟩
    let pa := s.dev.toNat * 2 ^ 48 + windowAddr (16 * k.cluster + mapCore map r) (field (tget map r 0) 0 15 * 64 + k.num_ 24 4)
    s.placeBusy pa = false → s.placeOf pa = .scratchpad g off → off + out.1.length ≤ 65536 →
    s.grantsWindow (g / 32) k.part 2 rightWrite = true →
    ∃ t, exec (.mxOut k.num) s = .next t ∧ finished t k (k.pidx + 1) ∧ t.mem = Memory.writeCells s.mem (cellsHere pa out.1) ∧
      (k.tagged = true → k.byte 2 < 64 →
        (tget t.cores (16 * k.cluster + mapCore map r) Core.reset).ctags.getLsbD (k.byte 2) = true)) ∧
  (∀ (s : State) (k : Cmd), starts s k → (s.cluster k.cluster).quad = [] → s.taskOf k.tid = none →
    ∃ t, exec (.mxJoint k.num) s = .next t ∧ ∀ c, c ∈ t.cmds → c.num ≠ k.num) ∧
  (∀ (s : State) (k : Cmd) (q : Quad), starts s k → (s.cluster k.cluster).quad.find? (fun q => q.tid == k.tid && !q.members.isEmpty) = some q →
    k.broken = false → k.map.isSome = true → k.state = 2 → s.jointGone k q.members = false →
    let found := (s.jointMembers k q.members).filterMap (fun m => m)
    (found.length ≠ 4 ∨ found.any (fun m => !(m.state == 2 && m.waiting)) = true →
      ∃ t, exec (.mxJoint k.num) s = .next t ∧ waitsOn t k ∧ t.mem = s.mem) ∧
    (found.length = 4 → found.any (fun m => !(m.state == 2 && m.waiting)) = false →
      found.any (fun m => m.byte 18 != k.byte 18 || m.byte 20 != k.byte 20) = false →
      let first := found.foldl (fun (a : Nat) m => Nat.min a m.pidx) (4 * k.byte 18)
      let r := JointRun.run (k.byte 18) (4 * k.byte 18 - first) first ⟨s.putCmd k, found, none⟩
      r.stop = none →
      ∃ t, exec (.mxJoint k.num) s = .next t ∧ t.mem = r.s.mem ∧ ∀ m, m ∈ r.members → .commandComplete m.num ∈ t.inflight))

/-- R405, R418, R434 to R437: a scan's last output is written from its carry-in and the prefix of its step; SC.SEED loads the carry
register. -/
def Sys2Proof.Claims.ScanCommandsRun : Prop :=
  (∀ (i : Instr) (s : State) (k : Cmd) (cin : VWord) (p : VWord × VWord × Bool), i ∈ [.scLin k.num, .scPfx k.num, .scSeg k.num] → starts s k →
    k.broken = false → (commandChain k).all (fun key => (s.positionOn key k.tid).isSome) = true → 2 ≤ k.num_ 20 4 →
    k.pidx + 1 = 2 * k.num_ 20 4 → k.carryIn = some cin → k.kept.length = k.num_ 20 4 → k.kept[k.num_ 20 4 - 2]? = some p →
    let r := scanOutput (k.byte 16) (k.byte 18) cin p
    let j := (Job.start s).write k ((k.num_ 40 8 + 512 * (k.num_ 20 4 - 2)) % 2 ^ 64) (bytesOf r.1.toNat 512)
    j.ok = true → ∃ t, exec i s = .next t ∧ finished t k (k.pidx + 1) ∧ t.mem = j.s.mem) ∧
  (∀ (s : State) (k : Cmd) (bytes : List Byte) (j : Job), starts s k → commandChain k = none → k.pidx = 0 →
    engineReads s k (k.num_ 24 8) 512 bytes j →
    ∃ t, exec (.scSeed k.num) s = .next t ∧ finished t k 1 ∧ t.mem = s.mem ∧ (coreAt t k).carry = BitVec.ofNat 4096 (ofBytes bytes) ∧
      (coreAt t k).seeded = true) ∧
  (∀ (s : State) (k : Cmd) (key : Nat) (c : Chain), starts s k → commandChain k = some key → k.broken = false → k.pidx = 0 →
    s.positionOn key k.tid = some 0 → s.chain key = some c → c.seed.isSome = true →
    ∃ t, exec (.scSeed k.num) s = .next t ∧ waitsOn t k ∧ t.mem = s.mem ∧ t.chains = s.chains)

/-- R410 to R412, R438 to R440: CP.COPY and CP.FILL of one beat move it, CP.GATHER and CP.SCATTER move their last element, CP.CADD adds,
and CP.WAIT ends once its counter has its value. -/
def Sys2Proof.Claims.CopyCommandsRun : Prop :=
  (∀ (s : State) (k : Cmd) (bytes : List Byte) (j : Job), starts s k → k.pidx = 0 → 1 ≤ k.num_ 32 8 → k.num_ 32 8 ≤ 256 →
    engineReads s k (k.num_ 16 8) (k.num_ 32 8) bytes j → (j.write k (k.num_ 24 8 % 2 ^ 64) bytes).ok = true →
    ∃ t, exec (.cpCopy k.num) s = .next t ∧ finished t k 1 ∧ t.mem = (j.write k (k.num_ 24 8 % 2 ^ 64) bytes).s.mem) ∧
  (∀ (s : State) (k : Cmd) (m : Nat), starts s k → k.pidx = 0 → k.num_ 32 8 = 8 * m → 1 ≤ m → m ≤ 32 →
    let j := (Job.start s).write k (k.num_ 24 8 % 2 ^ 64) ((List.replicate m (bytesOf (k.num_ 16 8) 8)).flatten)
    j.ok = true → ∃ t, exec (.cpFill k.num) s = .next t ∧ finished t k 1 ∧ t.mem = j.s.mem) ∧
  (∀ (gather : Bool) (s : State) (k : Cmd) (ib bytes : List Byte) (j1 j2 : Job), starts s k → k.num_ 40 4 = k.pidx + 1 →
    let size : Nat := 2 ^ k.byte 44
    let isz : Nat := 2 ^ k.byte 45
    engineReads s k (k.num_ 24 8 + k.pidx * isz) isz ib j1 →
    let place := fun (base : Nat) => (BitVec.ofInt 64 (base + signed (8 * isz) (ofBytes ib) * size)).toNat
    let here := fun (base : Nat) => (BitVec.ofInt 64 (base + (k.pidx : Int) * size)).toNat
    let src := if gather then place (k.num_ 16 8) else here (k.num_ 16 8)
    let dst := if gather then here (k.num_ 32 8) else place (k.num_ 32 8)
    src % Nat.min size 64 = 0 → dst % Nat.min size 64 = 0 → j1.read k src size = (bytes, j2) → j2.ok = true →
    (j2.write k dst bytes).ok = true →
    ∃ t, exec (if gather then .cpGather k.num else .cpScatter k.num) s = .next t ∧ finished t k (k.pidx + 1) ∧
      t.mem = (j2.write k dst bytes).s.mem) ∧
  (∀ (s : State) (k : Cmd) (pa : Nat), starts s k → k.pidx = 0 → s.engineCounter k (k.num_ 16 8) = (0, pa) → s.placeBusy pa = false →
    deviceOf pa = s.dev.toNat →
    (∃ t, exec (.cpCadd k.num) s = .next t ∧ finished t k 1 ∧
      t.mem = Memory.writeCells s.mem (cellsHere pa (bytesOf (counted (BitVec.ofNat 64 (ofBytes (s.peek pa 8))) (k.num_ 24 8)).toNat 8))) ∧
    (k.entry = none → k.num_ 24 8 ≤ (s.wordAt pa).toNat → ∃ t, exec (.cpWait k.num) s = .next t ∧ finished t k 1 ∧ t.mem = s.mem) ∧
    (k.entry = none → (s.wordAt pa).toNat < k.num_ 24 8 → ∃ t k', exec (.cpWait k.num) s = .next t ∧ waitsOn t k ∧ t.mem = s.mem ∧
      t.cmds.find? (fun c => c.num == k.num) = some k' ∧ k'.entry = some (s.locationKey pa, false))) ∧
  (∀ (s : State) (k : Cmd) (key : Nat), starts s k → k.entry = some (key, true) →
    ∃ t, exec (.cpWait k.num) s = .next t ∧ finished t k 1 ∧ t.mem = s.mem) ∧
  (∀ (s : State) (k : Cmd) (key : Nat), starts s k → k.entry = some (key, false) →
    ∃ t, exec (.cpWait k.num) s = .next t ∧ waitsOn t k ∧ t.mem = s.mem)

/-- R414 to R416, R441 to R444, R538: a ring step whose set has come merges and keeps or writes it; CL.SEND sends its partial and ends once
it is taken; CL.RECVA writes what merges to the node it wants; CL.RATE sets the cluster's share. -/
def Sys2Proof.Claims.CollectiveCommandsRun : Prop :=
  (∀ (i : Instr) (s : State) (k : Cmd), i ∈ [.clRss k.num, .clAgs k.num] → starts s k → k.pidx = 0 → k.sent = true →
    s.ranksDiffer k ((k.grp.rank + 1) % k.grp.ranks) = false →
    (if k.code = 0xC1 then k.grp.ranks else k.ringStep + 1) ≤ ((s.got k).map (fun p => p.hi - p.lo)).sum →
    s.partsTaken k ((k.grp.rank + 1) % k.grp.ranks) = true →
    let j := (Job.start s).ringTake k
    j.ok = true → ∃ t, exec i s = .next t ∧ finished t k 1 ∧ t.mem = j.s.mem ∧ t.clusters = j.s.clusters) ∧
  (∀ (s : State) (k : Cmd) (p : Partial), starts s k → k.code = 0xC1 → k.pidx = 0 → k.sent = true → s.got k = [p] →
    k.grp.ranks ≤ p.hi - p.lo → s.ranksDiffer k ((k.grp.rank + 1) % k.grp.ranks) = false →
    s.partsTaken k ((k.grp.rank + 1) % k.grp.ranks) = true →
    let j := (Job.start s).write k (k.chunkAt ((k.grp.rank + k.grp.ranks - k.ringStep) % k.grp.ranks)) p.bytes
    j.ok = true → ∃ t, exec (.clAgs k.num) s = .next t ∧ finished t k 1 ∧ t.mem = j.s.mem) ∧
  (∀ (s : State) (k : Cmd) (bytes : List Byte) (j : Job), starts s k → k.pidx = 0 → k.sent = false → (s.cluster k.cluster).share ≠ 0 →
    (Job.start s).read k k.buf k.len = (bytes, j) → j.ok = true → (k.grp.places[k.ringStep]?).map (·.1) = some s.dev.toNat →
    ∃ t q, exec (.clSend k.num) s = .next t ∧ waitsOn t k ∧ .collectivePartial q ∈ t.inflight ∧ q.bytes = bytes ∧ q.lo = k.num_ 44 2 ∧
      q.hi = k.num_ 46 2 ∧ q.key.toNat = k.num_ 40 4 ∧ q.rank = k.grp.rank ∧ t.mem = s.mem) ∧
  (∀ (s : State) (k : Cmd), starts s k → k.pidx = 0 → k.sent = true → s.ranksDiffer k k.ringStep = false → s.partsTaken k k.ringStep = true →
    ∃ t, exec (.clSend k.num) s = .next t ∧ finished t k 1 ∧ t.mem = s.mem) ∧
  (∀ (s : State) (k : Cmd) (p : Part) (f : Flags), starts s k → k.pidx = 0 → k.ownPart = false →
    mergeSet k.isF32 k.grp.ranks ((s.got k).map (fun p => (⟨p.lo, p.hi, p.bytes⟩ : Part))) = ([p], f) → p.lo = k.num_ 44 2 → p.hi = k.num_ 46 2 →
    let j := ((Job.start s).raise f).write k k.buf p.bytes
    j.ok = true → ∃ t, exec (.clRecva k.num) s = .next t ∧ finished t k 1 ∧ t.mem = j.s.mem) ∧
  (∀ (s : State) (k : Cmd), starts s k → k.pidx = 0 →
    ∃ t, exec (.clRate k.num) s = .next t ∧ finished t k 1 ∧ (t.cluster k.cluster).share = k.byte 16 ∧ t.mem = s.mem)

/-- R207, R370, R393, R505, R506, R511, R514: what writes of system registers do between instructions: tags cleared, a bound declared,
memberships ended, a shoot-down started, answered and limited, the window read and written, a firmware core woken. -/
def Sys2Proof.Claims.RegisterEffectsHappen : Prop :=
  (∀ (core : Nat) (mask : Word) (s : State), ∃ t, exec (.ctagsClear core mask) s = .next t ∧ t.mem = s.mem ∧
    (tget t.cores core Core.reset).ctags = (tget s.cores core Core.reset).ctags &&& ~~~mask) ∧
  (∀ (key : Nat) (v : Word) (s : State) (c : Ctx), s.ctxAt key = some c → c.run ≠ .idle →
    ∃ t, exec (.boundWrite key v) s = .next t ∧ t.ctxAt key = some { c with bound := v.setWidth 33 } ∧
      (t.actorOf c.part c.actor).nextBound = some (v.setWidth 33) ∧ (t.actorOf c.part c.actor).bound = (s.actorOf c.part c.actor).bound) ∧
  (∀ (key : Nat) (v : Word) (s : State) (c : Ctx), s.ctxAt key = some c → c.run ≠ .idle → field v 18 46 = 0 →
    ∃ t, exec (.qgrpWrite key v) s = .next t ∧ t.ctxAt key = some { c with haddr := 0, grp := 0 } ∧ (t.actorOf c.part c.actor).grp = 0) ∧
  (∀ (key : Nat) (v : Word) (s : State) (c : Ctx), s.ctxAt key = some c → c.run ≠ .idle → field v 18 46 ≠ 0 →
    (∀ g, g < 16 → s.directoryOf c.part g = s.dev.toNat ∧ s.groupSize c.part g < 64) →
    ∃ t, exec (.qgrpWrite key v) s = .next t ∧
      t.ctxAt key = some { c with haddr := BitVec.ofNat 46 (field v 18 46), grp := v.setWidth 16 } ∧
      (t.actorOf c.part c.actor).grp = v.setWidth 16) ∧
  (∀ (part : Nat) (v : Word) (s : State), (s.partition part).sdBusy = false → v.getLsbD 0 = true →
    ∃ t, exec (.sdownGo part v) s = .next t ∧ (t.partition part).sdBusy = true ∧ (t.partition part).sdFrame.toNat = field v 16 42 ∧
      t.inflight.getLast? = some (.shootdownTimeout part) ∧
      .shootdownRequest s.dev.toNat (field v 16 42) (t.partition part).sdSize part ∈ t.inflight) ∧
  (∀ (part : Nat) (v : Word) (s : State), (s.partition part).sdBusy = true → exec (.sdownGo part v) s = .next s) ∧
  (∀ (d frame : Nat) (size : BitVec 2) (part : Nat) (s : State), ∃ t, exec (.shootdownRequest d frame size part) s = .next t ∧
    t.mem = s.mem ∧ (d = s.dev.toNat → t.inflight.getLast? = some (.shootdownAck part d)) ∧
    (d ≠ s.dev.toNat → t.outbox.getLast? = some (.mailbox d 7 (bytesOf s.dev.toNat 2))) ∧
    ∀ core l, (core, l) ∈ s.cores → ∀ k, k ∈ (tget t.cores core Core.reset).lines → inFrame frame size (32 * k.num) = false) ∧
  (∀ (part d : Nat) (s : State), (s.partition part).sdBusy = true → (s.shootDevices part).all (d :: (s.partition part).sdSeen).contains = true →
    ∃ t, exec (.shootdownAck part d) s = .next t ∧ (t.partition part).sdBusy = false ∧ (t.partition part).sdErr = false ∧ t.cx = s.cx) ∧
  (∀ (part : Nat) (s : State), (s.partition part).sdBusy = true →
    (s.partition part).sdAt + 2 * (s.partition part).dfab.toNat + 20000 ≤ s.clock →
    ∃ t, exec (.shootdownTimeout part) s = .next t ∧ (t.partition part).sdBusy = false ∧ (t.partition part).sdErr = true ∧ t.cx = s.cx) ∧
  (∀ (key : Nat) (off : BitVec 24) (s : State) (c : Ctx), s.ctxAt key = some c → c.run ≠ .idle →
    ∃ t, exec (.mcmdRead key off) s = .next t ∧ t.mem = s.mem ∧ t.ctxAt key = some { c with
      mcmdOff := BitVec.ofNat 21 (off.toNat / 8), mdat := s.windowRead c.part (off.toNat / 8 * 8), mcmdErr := false }) ∧
  (∀ (key : Nat) (off : BitVec 24) (s : State) (c : Ctx), s.ctxAt key = some c → c.run ≠ .idle → off.toNat / 8 * 8 = 0x1018 →
    ∃ t, exec (.mcmdWrite key off) s = .next t ∧ (t.partition c.part).fqNotify = c.mdat ∧
      t.ctxAt key = some { c with mcmdOff := BitVec.ofNat 21 (off.toNat / 8), mcmdErr := false }) ∧
  (∀ (key : Nat) (off : BitVec 24) (s : State) (c : Ctx), s.ctxAt key = some c → c.run ≠ .idle →
    s.windowWrite c.part (off.toNat / 8 * 8) c.mdat = none →
    ∃ t, exec (.mcmdWrite key off) s = .next t ∧ t.parts = s.parts ∧ t.queues = s.queues ∧
      t.ctxAt key = some { c with mcmdOff := BitVec.ofNat 21 (off.toNat / 8), mcmdErr := true }) ∧
  (∀ (complex : Nat) (core : BitVec 2) (s : State) (f : FwCore), s.firmware.cores[4 * complex + core.toNat]? = some f →
    ∃ t, exec (.fwwakeWrite complex core) s = .next t ∧ t.firmware.cores[4 * complex + core.toNat]? = some { f with wake := true } ∧
      t.cx = s.cx ∧ t.mem = s.mem)

/-- R237 to R240, R244, R260, R509, R510: what the host writes: the launch configuration, a queue's ENABLE, CLEAR, PROD and fields, the
fault queue's HEAD; and its accesses through the aperture. -/
def Sys2Proof.Claims.HostWritesTakeEffect : Prop :=
  (∀ (part : Nat) (r : Record) (s : State), configLegal r = true → s.quiet part = true →
    ∃ t, exec (.launchConfigWrite part r) s = .next t ∧ (t.partition part).config = r ∧ t.cx = s.cx ∧ t.mem = s.mem) ∧
  (∀ (part : Nat) (r : Record) (s : State), configLegal r = false ∨ s.quiet part = false → exec (.launchConfigWrite part r) s = .next s) ∧
  (∀ (q : Nat) (s : State), (s.queue q).enable = false → (s.queue q).state = 0 → s.shares.1 + (s.queue q).hshare.toNat ≤ 48 →
    s.shares.2 + (s.queue q).fshare.toNat ≤ 48 →
    ∃ t, exec (.queueEnable q) s = .next t ∧ queueOnly s t q ∧
      t.queue q = { s.queue q with enable := true, state := 1, cons := (s.queue q).prod, done := (s.queue q).prod } ∧
      t.inflight = s.inflight ++ [.packetIssue q]) ∧
  (∀ (q : Nat) (s : State), 48 < s.shares.1 + (s.queue q).hshare.toNat ∨ 48 < s.shares.2 + (s.queue q).fshare.toNat →
    exec (.queueEnable q) s = .next s) ∧
  (∀ (q : Nat) (s : State), (s.queue q).enable = true → ∃ t, exec (.queueDisable q) s = .next t ∧ queueOnly s t q ∧
    t.queue q = { s.queue q with enable := false, state := if (s.queue q).done = (s.queue q).cons then 0 else (s.queue q).state }) ∧
  (∀ (q : Nat) (s : State), (s.queue q).state = 2 → ∃ t, exec (.queueClear q) s = .next t ∧ queueOnly s t q ∧
    t.queue q = { s.queue q with state := 1 } ∧ t.inflight = s.inflight ++ [.packetIssue q]) ∧
  (∀ (q : Nat) (s : State), (s.queue q).state ≠ 2 → exec (.queueClear q) s = .next s) ∧
  (∀ (q : Nat) (prod : Word) (s : State), ∃ t, exec (.prodWrite q prod) s = .next t ∧ queueOnly s t q ∧ (t.queue q).prod = prod ∧
    ((s.queue q).state = 1 → 2 ^ (s.queue q).logslots < (prod - (s.queue q).cons).toNat → (t.queue q).state = 2 ∧ (t.queue q).err = 6) ∧
    ((prod - (s.queue q).cons).toNat ≤ 2 ^ (s.queue q).logslots → t.queue q = { s.queue q with prod := prod })) ∧
  (∀ (q : Nat) (v : Word) (s : State), (s.queue q).stopped = true → v.toNat % 64 = 0 →
    ∃ t, exec (.registerWrite (.queue q .ring) v) s = .next t ∧ queueOnly s t q ∧ t.queue q = { s.queue q with ring := v }) ∧
  (∀ (q : Nat) (v : Word) (s : State), (s.queue q).stopped = false → exec (.registerWrite (.queue q .ring) v) s = .next s) ∧
  (∀ (part : Nat) (v : Word) (s : State), ∃ t, exec (.registerWrite (.notify part) v) s = .next t ∧
    (t.partition part).fqNotify = v ∧ t.cx = s.cx) ∧
  (∀ (part : Nat) (head : Word) (s : State), (head - (s.partition part).fqHead).toNat ≤ (s.partition part).faultQueue.length →
    ∃ t, exec (.faultQueueHeadWrite part head) s = .next t ∧ (t.partition part).fqHead = head ∧ t.cx = s.cx ∧
      (t.partition part).faultQueue = (s.partition part).faultQueue.drop (head - (s.partition part).fqHead).toNat) ∧
  (∀ (part dev off : Nat) (va : Word) (s : State) (l : Leaf), s.walk part va.toNat = some l → va.toNat % 8 = 0 →
    l.check 1 true = 0 → s.placeBusy (l.addr va.toNat) = false → s.placeOf (l.addr va.toNat) = .hbm dev off → dev = s.dev.toNat →
    s.grantsHbm ((s.partition part).homeOf off) part 6 rightWrite (l.addr va.toNat) = true →
    ∀ v, ∃ t, exec (.hostApertureAccess part va (some v)) s = .next t ∧ t.outbox.getLast? = some (.reply 0 []) ∧
      t.mem = Memory.writeCells s.mem (cellsHere (l.addr va.toNat) (bytesOf v.toNat 8))) ∧
  (∀ (part dev off : Nat) (va : Word) (s : State) (l : Leaf), s.walk part va.toNat = some l → va.toNat % 8 = 0 →
    l.check 1 false = 0 → s.placeBusy (l.addr va.toNat) = false → s.placeOf (l.addr va.toNat) = .hbm dev off → dev = s.dev.toNat →
    s.grantsHbm ((s.partition part).homeOf off) part 6 rightRead (l.addr va.toNat) = true →
    s.spoiledFor part (l.addr va.toNat) 8 = false →
    ∃ t, exec (.hostApertureAccess part va none) s = .next t ∧ t.mem = s.mem ∧
      t.outbox = s.outbox ++ [.hostRead (s.wordAt (l.addr va.toNat))]) ∧
  (∀ (part : Nat) (va : Word) (data : Option Word) (s : State), s.walk part va.toNat = none ∨ va.toNat % 8 ≠ 0 →
    exec (.hostApertureAccess part va data) s = .next (s.emit (.reply 1 [])))

/-- R240, R243, R246 to R248, R254, R259, R487: a queue issues the packet at its head once it may, waits with none, and stops at an error;
cleaning changes the phase; a gang that has no place waits, and ages. -/
def Obligations.PacketsAreIssuedInOrder : Prop :=
  (∀ (q : Nat) (s : State) (p : Packet), issuing s q → 0 < ((s.queue q).prod - (s.queue q).cons).toNat →
    ((s.queue q).prod - (s.queue q).cons).toNat ≤ 2 ^ (s.queue q).logslots → s.packetAt (s.queue q) (s.queue q).cons.toNat = some p →
    p.gang = false → s.packetError (s.queue q) (s.queue q).cons.toNat [p] = 0 → p.phase = (s.queue q).phase →
    (p.barrier = true → (s.queue q).done = (s.queue q).cons) → s.targetDevice (s.queue q).part p.target = s.dev.toNat →
    takesEvents s (s.queue q).part →
    let e := s.packetEvent q (s.queue q) (s.queue q).cons.toNat p none
    comesLate s e = false → roomAt s (s.homeCore e.part (actorAddr e.target)) →
    ∃ t, exec (.packetIssue q) s = .next t ∧ (t.queue q).cons = (s.queue q).cons + 1 ∧ (∃ d, t.events = s.events ++ [d] ∧ d.event = e) ∧
      t.inflight.getLast? = some (.packetIssue q)) ∧
  (∀ (q : Nat) (s : State), issuing s q → (s.queue q).prod = (s.queue q).cons → ∃ t, exec (.packetIssue q) s = .next t ∧
    queueOnly s t q ∧ t.queue q = s.queue q ∧ t.inflight.getLast? = some (.packetIssue q)) ∧
  (∀ (q : Nat) (s : State) (p : Packet), issuing s q → 0 < ((s.queue q).prod - (s.queue q).cons).toNat →
    ((s.queue q).prod - (s.queue q).cons).toNat ≤ 2 ^ (s.queue q).logslots → s.packetAt (s.queue q) (s.queue q).cons.toNat = some p →
    p.gang = false → s.packetError (s.queue q) (s.queue q).cons.toNat [p] ≠ 0 → ∃ t, exec (.packetIssue q) s = .next t ∧
      queueOnly s t q ∧ (t.queue q).state = 2 ∧
      (t.queue q).err = BitVec.ofNat 8 (s.packetError (s.queue q) (s.queue q).cons.toNat [p]) ∧ (t.queue q).cons = (s.queue q).cons) ∧
  (∀ (q : Nat) (s : State), (s.queue q).state ≠ 1 → ∃ t, exec (.packetIssue q) s = .next t ∧ queueOnly s t q ∧ t.queue q = s.queue q) ∧
  (∀ (q : Nat) (phase : Byte) (s : State), (s.queue q).done = (s.queue q).cons → ∃ t, exec (.phaseClean q phase) s = .next t ∧
    t.queue q = { s.queue q with phase := phase, cores := [] } ∧ t.inflight.getLast? = some (.packetIssue q) ∧
    (∀ a, noStoreTo s (s.queue q).cores a → Memory.read t.mem a = Memory.read s.mem a) ∧
    ∀ c, c ∈ (s.queue q).cores → (tget t.cores c Core.reset).icache = [] ∧ ∀ l, l ∈ (tget t.cores c Core.reset).lines → l.held ≠ 0) ∧
  (∀ (q : Nat) (phase : Byte) (s : State), (s.queue q).done ≠ (s.queue q).cons →
    exec (.phaseClean q phase) s = .next (s.send (.phaseClean q phase))) ∧
  (∀ (q : Nat) (s : State) (g : Gang), (s.queue q).gang = some g → (s.gangUnits q (s.queue q) g).isNone = true →
    exec (.gangPlace q) s = .next (s.send (.gangPlace q))) ∧
  (∀ (q : Nat) (s t : State) (g : Gang), (s.queue q).gang = some g → s.placeGang q = some t → exec (.gangPlace q) s = .next t) ∧
  (∀ (q : Nat) (s : State) (g : Gang), (s.queue q).gang = some g →
    (g.since + (s.queue q).age.toNat ≤ s.clock → ∃ t h, exec (.gangAge q) s = .next t ∧ (t.queue q).gang = some h ∧ h.aged = true) ∧
    (s.clock < g.since + (s.queue q).age.toNat → g.aged = false → s.queues.length = 1 →
      exec (.gangAge q) s = .next (s.send (.gangAge q))))

/-- R118, R320, R321, R493 to R503, R520 to R523: die links accept flits in their order, ask again for one that does not check, and end
after three failures; stations, mailboxes, errors in memory and the clock. -/
def Obligations.LinksClocksAndErrorsAreKept : Prop :=
  (∀ (n : Nat) (f : Flit) (s : State), (s.link n).down = false → f.crc = flitCrc f (s.link n).expected →
    ∃ t, exec (.flitReceive n f) s = .next t ∧ (t.link n).expected = (s.link n).expected + 1 ∧ (t.link n).nakSince = none ∧
      (t.link n).accepted = (if f.ctl.getLsbD 1 then (s.link n).accepted else (s.link n).accepted ++ [f])) ∧
  (∀ (n : Nat) (f : Flit) (s : State), (s.link n).down = false → f.crc ≠ flitCrc f (s.link n).expected → (s.link n).nakSince = none →
    ∃ t, exec (.flitReceive n f) s = .next t ∧ (t.link n).expected = (s.link n).expected ∧ (t.link n).accepted = (s.link n).accepted ∧
      t.outbox = s.outbox ++ [.nak n (BitVec.ofNat 16 (s.link n).expected)] ∧ t.inflight = s.inflight ++ [.nakRepeat n]) ∧
  (∀ (n : Nat) (s : State) (since : Nat), (s.link n).down = false → (s.link n).nakSince = some since → since + 2000 ≤ s.clock →
    ∃ t, exec (.nakRepeat n) s = .next t ∧ t.outbox = s.outbox ++ [.nak n (BitVec.ofNat 16 (s.link n).expected)] ∧
      (t.link n).nakSince = some s.clock) ∧
  (∀ (n : Nat) (s : State), (s.link n).nakSince = none → exec (.nakRepeat n) s = .next s) ∧
  (∀ (n : Nat) (ack : BitVec 16) (s : State), (s.link n).down = false → (s.link n).retraining = false →
    (s.link n).named ack ≤ (s.link n).sendNext → (s.link n).naks = 0 →
    ∃ t, exec (.nakReceive n ack) s = .next t ∧ (t.link n).unacked = (s.link n).keepFrom ((s.link n).named ack) ∧
      t.outbox = s.outbox ++ ((s.link n).keepFrom ((s.link n).named ack)).map (fun f => Sent.resend n f)) ∧
  (∀ (n : Nat) (ack : BitVec 16) (s : State), (s.link n).down = false → (s.link n).retraining = false →
    (s.link n).named ack ≤ (s.link n).sendNext → (s.link n).naks = 7 → (s.link n).nakFor = (s.link n).named ack →
    ∃ t ok, exec (.nakReceive n ack) s = .next t ∧ (t.link n).retraining = true ∧ t.inflight = s.inflight ++ [.linkRetrainDone n ok] ∧
      t.outbox = s.outbox) ∧
  (∀ (n : Nat) (s : State), (s.link n).retraining = true → ∃ t, exec (.linkRetrainDone n true) s = .next t ∧
    (t.link n).retraining = false ∧ (t.link n).failures = 0 ∧
    t.outbox = s.outbox ++ (s.link n).unacked.map (fun f => Sent.resend n f)) ∧
  (∀ (n : Nat) (s : State), (s.link n).retraining = true → (s.link n).failures + 1 < 3 → ∃ t ok,
    exec (.linkRetrainDone n false) s = .next t ∧ (t.link n).failures = (s.link n).failures + 1 ∧
      t.inflight = s.inflight ++ [.linkRetrainDone n ok]) ∧
  (∀ (n : Nat) (s : State), n < 8 → (s.link n).retraining = true → (s.link n).failures = 2 → ∃ t,
    exec (.linkRetrainDone n false) s = .next t ∧ (t.link n).down = true ∧ (t.link (farEnd n)).down = true) ∧
  (∀ (n : Nat) (s : State), n < 24 → ∃ t, exec (.stationDown n) s = .next t ∧ t.stationsDown.getLsbD n = true ∧
    (∀ m, m ≠ n → t.stationsDown.getLsbD m = s.stationsDown.getLsbD m) ∧ t.cx = s.cx ∧ t.mem = s.mem) ∧
  (∀ (d : Nat) (s : State), exec (.fabricAtomicRefused d) s = .next (s.emit (.error d))) ∧
  (∀ (r : Record) (s : State), 9 < rfield r 0 1 → ∃ t, exec (.mailboxUnknownKind r) s = .next t ∧
    tget t.errors 64 0 = tget s.errors 64 0 + 1 ∧ t.cx = s.cx ∧ t.mem = s.mem) ∧
  (∀ (s : State), s.clock < s.sync.due ∨ s.firmware.started = false → exec .clockSyncRead s = .next (s.send .clockSyncRead)) ∧
  (∀ (s : State), s.sync.due ≤ s.clock → s.firmware.started = true → s.timeMaster = none →
    ∃ t, exec .clockSyncRead s = .next t ∧ t.sync.due = s.clock + 125000 ∧ t.clock = s.clock) ∧
  (∀ (t2 t1 m : Nat) (s : State), s.sync.readAt = some t1 → s.timeMaster = some m → s.sync.begun = true →
    ∃ t, exec (.clockSyncReply t2) s = .next t ∧ t.clock = s.clock ∧ t.sync.begun = true ∧ t.sync.readAt = none ∧
      t.sync.offset = (t2 : Int) - ((t1 + s.clock) / 2 : Nat) ∧
      t.sync.err.toNat = Nat.min ((s.clock - t1) / 2 + 5) 65535) ∧
  (∀ (s : State), s.clock < s.sync.exchanged + 1000000 → exec .clockSyncStale s = .next (s.send .clockSyncStale)) ∧
  (∀ (s : State), s.sync.exchanged + 1000000 ≤ s.clock → ∃ t, exec .clockSyncStale s = .next t ∧ t.sync.bad = true ∧
    t.inflight.getLast? = some .clockSyncStale) ∧
  (∀ (complex : Nat) (core : BitVec 2) (s : State) (f : FwCore), s.firmware.cores[4 * complex + core.toNat]? = some f →
    f.ctx.run = .halted → ∃ t g, exec (.coreRestart complex core) s = .next t ∧ t.firmware.cores[4 * complex + core.toNat]? = some g ∧
      g.ctx = { f.ctx with run := .running } ∧ t.mem = s.mem) ∧
  (∀ (pa : Nat) (s : State), ∃ t, exec (.memoryError pa true .word) s = .next t ∧ t.mem = s.mem ∧ t.cx = s.cx ∧
    (pa % 2 ^ 48 / 8, true) ∈ t.badWords)

/-- R487, R489, R496 to R498, R502, R508, R512 to R519: the commands of the management block, each with its reply; one that is refused
changes nothing. -/
def Obligations.ManagementCommandsTakeEffect : Prop :=
  (∀ (part : Nat) (l : List Nat) (base limit : BitVec 23) (s : State), s.firmware.failed = false → part < 96 → (s.partition part).exists_ = false →
    l ≠ [] →
    l.Nodup → l.all s.clusterFree = true → base.toNat ≤ limit.toNat → limit.toNat ≤ Config.hbmBytes / 65536 →
    ∃ t, exec (.partCreate part l base limit) s = .next t ∧ repliesWith s t 0 ∧ (t.partition part).exists_ = true ∧
      (t.partition part).clusters = dieByDie l ∧ (t.partition part).base = base ∧ (t.partition part).limit = limit ∧ t.cx = s.cx) ∧
  (∀ (part : Nat) (l : List Nat) (base limit : BitVec 23) (s : State), 96 ≤ part ∨ (s.partition part).exists_ = true ∨ l = [] ∨
    limit.toNat < base.toNat → exec (.partCreate part l base limit) s = .next (s.emit (.reply 1 []))) ∧
  (∀ (part : Nat) (s : State), s.firmware.failed = false → (s.partition part).exists_ = true → ∃ t, exec (.teardown part) s = .next t ∧
    t.outbox.getLast? = some (.reply 0 []) ∧ (t.partition part).gone = true ∧ (∀ q, q ∈ t.events → q.event.part ≠ part) ∧
    (∀ c, c ∈ t.others → c.part ≠ part) ∧ (s.cx.part = part → t.cx.run = .idle)) ∧
  (∀ (part : Nat) (s : State), s.firmware.failed = false → (s.partition part).exists_ = true → ∃ t, exec (.partDestroy part) s = .next t ∧
    t.outbox.getLast? = some (.reply 0 []) ∧ (t.parts.any (fun e => e.1 == part)) = false ∧
    (∀ e, e ∈ t.access → e.1.2.1 ≠ part) ∧
    ∀ a, (s.partition part).base.toNat * 65536 ≤ a → a < (s.partition part).limit.toNat * 65536 → Memory.read t.mem a = Config.unwritten) ∧
  (∀ (part : Nat) (s : State), (s.partition part).exists_ = false → exec (.teardown part) s = .next (s.emit (.reply 1 [])) ∧
    exec (.partDestroy part) s = .next (s.emit (.reply 1 []))) ∧
  (∀ (target : AccessTarget) (part cls : Nat) (e : Word) (s : State), s.firmware.failed = false → part < 96 → cls < 7 → targetExists target = true →
    ∃ t, exec (.accessWrite target part cls e) s = .next t ∧ repliesWith s t 0 ∧
      t.access.find? (fun x => x.1 == (target, part, cls)) =
        some ((target, part, cls), if targetBounds target then e &&& 0x3FFFFFFFFFFFF else e &&& 15) ∧
      ∀ k, k ≠ (target, part, cls) → t.access.find? (fun x => x.1 == k) = s.access.find? (fun x => x.1 == k)) ∧
  (∀ (station device p : Nat) (s : State), s.firmware.failed = false → station < 24 → device < 1024 → p < 96 →
    ∃ t, exec (.stationMap station device (some p)) s = .next t ∧ repliesWith s t 0 ∧
      t.stations.find? (fun e => e.1 == (station, device)) = some ((station, device), p)) ∧
  (∀ (q part : Nat) (hs fs : Byte) (s : State), s.firmware.failed = false → q < 4096 → part < 96 → (s.queue q).state = 0 → (s.queue q).enable = false →
    ∃ t, exec (.queueAssign q part hs fs) s = .next t ∧ repliesWith s t 0 ∧ queueOnly s t q ∧
      t.queue q = { s.queue q with part := part, hshare := hs, fshare := fs }) ∧
  (∀ (q part : Nat) (hs fs : Byte) (s : State), (s.queue q).state ≠ 0 →
    exec (.queueAssign q part hs fs) s = .next (s.emit (.reply 1 []))) ∧
  (∀ (n : Nat) (actor tid : Option Word) (ss : Bool) (bpa wpa : Word) (s : State), s.firmware.failed = false → n < 16 →
    ∃ t e, exec (.debugWrite n actor tid ss bpa wpa) s = .next t ∧ repliesWith s t 0 ∧ (n, e) ∈ t.debugTable ∧ e.actor = actor ∧
      e.tid = tid ∧ e.ss = ss ∧ e.bpa = bpa ∧ e.wpa = wpa &&& ~~~4) ∧
  (∀ (part l c spare : Nat) (s : State), s.firmware.failed = false → (s.partition part).clusters[l]? = some c →
    s.spares.find? (fun x => dieOf x == dieOf c) = some spare →
    s.threadsIn c = [] → ∃ t, exec (.retire part l) s = .next t ∧ t.outbox.getLast? = some (.reply 0 []) ∧ tget t.routes c 0 = spare ∧
      spare ∉ t.spares ∧ t.retiring.contains c = false ∧ t.mem = s.mem) ∧
  (∀ (part l : Nat) (s : State), (s.partition part).clusters[l]? = none → exec (.retire part l) s = .next (s.emit (.reply 1 []))) ∧
  (∀ (s : State), s.firmware.failed = false → exec .counters s = .next (s.emit (.reply 0 (counterBytes s)))) ∧
  (∀ (s : State), ∃ t, exec .reset s = .next t ∧ repliesWith s t 0 ∧ t.cx = Ctx.idle 0 ∧ t.others = [] ∧ t.mem = [] ∧ t.parts = [] ∧
    t.queues = [] ∧ t.firmware.image = s.firmware.image ∧ t.firmware.config = s.firmware.config) ∧
  (∀ (s : State), s.firmware.started = true → s.clock < s.firmware.watchdogAt → exec .watchdogExpiry s = .next (s.send .watchdogExpiry)) ∧
  (∀ (s : State), s.firmware.started = true → s.firmware.watchdogAt ≤ s.clock → ∃ t, exec .watchdogExpiry s = .next t ∧
    t.firmware.active = 1 - s.firmware.active ∧
    t.queues = s.queues ∧ t.cx = s.cx ∧ t.mem = s.mem) ∧
  (∀ (i : Image) (s : State), s.firmware.config.minVersion ≤ i.version →
    (s.firmware.started = true → i.tableFormat = s.firmware.image.tableFormat) →
    ∃ t, exec (.fwUpdate i) s = .next t ∧ t.queues = s.queues ∧ t.cx = s.cx ∧ t.mem = s.mem ∧
      if Config.verifies i.bytes i.signature = true then repliesWith s t 0 ∧ t.firmware.image = i else t = s.emit (.reply 1 [])) ∧
  (∀ (i : Image) (s : State), i.version < s.firmware.config.minVersion → exec (.fwUpdate i) s = .next (s.emit (.reply 1 []))) ∧
  (∀ (i : Image) (s : State), s.firmware.config.version ≤ i.version →
    ∃ t, exec (.configWrite i) s = .next t ∧ t.cx = s.cx ∧ t.mem = s.mem ∧
      if Config.verifies i.bytes i.signature = true
      then repliesWith s t 0 ∧ t.firmware.config = i ∧ t.firmware.image = s.firmware.image else t = s.emit (.reply 1 [])) ∧
  (∀ (i : Image) (s : State), i.version < s.firmware.config.version → exec (.configWrite i) s = .next (s.emit (.reply 1 []))) ∧
  (∀ (i : Image) (s : State), s.firmware.config.minVersion ≤ i.version → s.firmware.started = true →
    i.tableFormat ≠ s.firmware.image.tableFormat →
    exec (.fwUpdate i) s = .next (s.emit (.reply (if Config.verifies i.bytes i.signature = true then 2 else 1) []))) ∧
  (∀ (nonce : BitVec 256) (s : State), s.firmware.failed = false → ∃ t b, exec (.attest nonce) s = .next t ∧ t = s.emit (.reply 0 b) ∧ b.take 4 = bytesOf 1 4 ∧
    (b.drop 4).take 32 = bytesOf nonce.toNat 32 ∧ (b.drop 232).take 2 = bytesOf s.dev.toNat 2) ∧
  (∀ (i : Instr) (s : State), s.firmware.failed = true → (∃ part, i = .teardown part) ∨ (∃ q part hs fs, i = .queueAssign q part hs fs) ∨
      i = .counters ∨ (∃ n, i = .attest n) → exec i s = .next (s.emit (.reply 1 []))) ∧
  (∀ (m : List Byte) (s : State), exec (.mctpControl m) s = .next (s.emit (.reply 0 (Config.mctpReply m))))

/-- Every well-formed instruction's bytes, whatever follows them, decode to it, with its length (R39 to R43, R54, R57). -/
def Obligations.InstructionsDecodeFromTheirBytes : Prop := ∀ (i : Instr), i.wf = true → i.isWord = true →
  ∀ r : List Byte, decodeBytes (i.bytes ++ r) = .word i i.bytes.length

/-- What decodes to an instruction is that instruction's bytes: a word has one meaning, none of its bits is without one, and only words
of accepted values are instructions (R43, R59). -/
def Obligations.OnlyItsBytesDecodeToAnInstruction : Prop := ∀ (l : List Byte) (i : Instr) (n : Nat), decodeBytes l = .word i n →
  i.wf = true ∧ i.isWord = true ∧ n = i.bytes.length ∧ l.take n = i.bytes

/-- Words written out bit by bit from the encodings of R41 and R54 decode to the instructions they stand for. -/
def Obligations.WrittenOutWordsDecode : Prop :=
  decodeTableWord 32 0x004E6283 = some (.sub 5 6 7) ∧
  decodeTableWord 32 0x00015A05 = some (.clz 20 21) ∧
  decodeTableWord 32 0x1140B505 = some (.sext 1 10 11) ∧
  decodeTableWord 32 0x00D8B507 = some (.div 0 10 11 12) ∧
  decodeTableWord 32 0xFDA80289 = some (.addi 5 0 (BitVec.ofInt 15 (-300))) ∧
  decodeTableWord 32 0x40067311 = some (.srai 6 7 3) ∧
  decodeTableWord 32 0x1FE8239D = some (.ld 1 7 2 (BitVec.ofInt 8 (-2)) 4) ∧
  decodeTableWord 32 0xFFC4B521 = some (.blt 10 11 (BitVec.ofInt 12 (-4))) ∧
  decodeTableWord 32 0x100C5027 = some (.mts 6 5) ∧
  decodeTableWord 32 0x128A3B2D = some (.vgather 1 5 0 20 7 6) ∧
  decodeTableWord 32 0x30000027 = some .eret

/-- R59, R43: a word of a major or op5 code that no row has is no instruction; a word that is none, or holds a value that its instruction
does not accept, takes the precise illegal-instruction trap, and changes nothing else. -/
def Obligations.UnassignedWordsAreIllegal : Prop :=
  (∀ (b0 b1 b2 b3 : Byte) (r : List Byte), b0.toNat % 2 = 1 → (b0.toNat / 2 % 64 = 0 ∨ 60 ≤ b0.toNat / 2 % 64) →
    decodeBytes (b0 :: b1 :: b2 :: b3 :: r) = .noInstruction) ∧
  (∀ (b0 b1 : Byte) (r : List Byte), b0.toNat % 2 = 0 → (b0.toNat / 2 % 32 = 0 ∨ 20 ≤ b0.toNat / 2 % 32) →
    decodeBytes (b0 :: b1 :: r) = .noInstruction) ∧
  (∀ (s : State) (w : BitVec 32) (d : Decoded), (∀ i n, d ≠ .word i n) → s.runDecoded w d = .next (s.precise 1 0)) ∧
  (∀ (s : State), exec .illegalInstruction s = .next (s.precise 1 0))

/-- A step runs the decoded instruction: when no happening lands, nothing is due before it, and the bytes at the running context's pc
decode to it, the step is that instruction, with what follows every step; outside a follow group and single step it is exec alone; a
follower's forwarded word (R225) likewise.  A happening that lands is exec of the operation it is; a word whose fetch fails takes the
fetch's fault. -/
def Obligations.StepRunsTheDecodedInstruction : Prop :=
  (∀ (s s1 : State) (l : List Byte) (i : Instr) (n : Nat),
    issues s s.beginTurn → s.beginTurn.cx.forwarded = none → s.beginTurn.fetchWord = .bytes l s1 → decodeBytes l = .word i n →
    mayRun s1 i →
      step s = outcomeAfter s (s1.runInstr i (BitVec.ofNat 32 (ofBytes l))) ∧
      (s1.cx.role ≠ 1 → s1.followers s1.cx = [] → s1.cx.ss = false → step s = outcomeAfter s (exec i s1))) ∧
  (∀ (s s1 : State) (w : BitVec 32) (i : Instr) (n : Nat),
    issues s s.beginTurn → s.beginTurn.cx.forwarded = some w → s1 = s.beginTurn.withCx (fun c => { c with forwarded := none }) →
    decodeBytes (bytesOf w.toNat 4) = .word i n → mayRun s1 i → step s = outcomeAfter s (s1.runInstr i w)) ∧
  (∀ (s : State), step s = match s.landing with
    | some (h, s1) => outcomeAfter s (exec (happeningInstr h) s1)
    | none => outcomeAfter s (match s.fwTurn with | some k => s.firmwareTurn k | none => s.turnOf)) ∧
  (∀ (s : State) (code : Nat) (va : Word) (pa : Nat),
    issues s s.beginTurn → s.beginTurn.cx.forwarded = none → s.beginTurn.fetchWord = .fault code va pa →
    step s = outcomeAfter s (.next (s.beginTurn.fetchFault code va pa)))

/-- After every step, the turn is that of a context of the compute dies (R11, R36). -/
def Obligations.TheTurnIsAlwaysAContexts : Prop := ∀ (s t : State), step s = .next t → t.cx.key < contextCount

/-- Every step keeps memory in its canonical form: addresses strictly rising, no entry equal to what an unlisted address reads as. -/
def Obligations.MemoryStaysCanonical : Prop := ∀ (s t : State), Memory.wf s.mem = true → step s = .next t → Memory.wf t.mem = true

/-- The state at reset meets both. -/
def Obligations.ResetMeetsTheInvariants : Prop := Memory.wf State.reset.mem = true ∧ State.reset.cx.key < contextCount

/-- A byte reads as what was written to it, every other byte as before; memories in canonical form that read alike are equal. -/
def Obligations.MemoryReadsWhatWasWritten : Prop :=
  (∀ (m : List Cell) (a : Nat) (b : Byte), Memory.wf m = true → Memory.read (Memory.write m a b) a = b) ∧
  (∀ (m : List Cell) (a c : Nat) (b : Byte), c ≠ a → Memory.read (Memory.write m a b) c = Memory.read m c) ∧
  (∀ (m : List Cell) (a : Nat) (l : List Byte), Memory.wf m = true → Memory.readBytes (Memory.writeBytes m a l) a l.length = l) ∧
  (∀ (m k : List Cell), Memory.wf m = true → Memory.wf k = true → (∀ a, Memory.read m a = Memory.read k a) → m = k)

/-- R36, R303, R513: what reset leaves.  Every context is idle and holds no thread, with its registers and its pc zero and its system
registers at their Reset values; each bank has its mode and owner; core 0 of each firmware complex starts at level 2 and address 0. -/
def Obligations.ResetIsAsStated : Prop :=
  (∀ key, key < contextCount →
    (resetAt key).cx.key = key ∧ (resetAt key).cx.run = .idle ∧ (∀ r, (resetAt key).cx.rawX r = 0) ∧
    (∀ r, (resetAt key).cx.readOx r = 0) ∧ (∀ r, (resetAt key).cx.rawV r = 0) ∧ (∀ r, (resetAt key).cx.rawM r = 0) ∧
    (resetAt key).cx.pc = 0 ∧ (resetAt key).readSys 0 = 8 ∧ (resetAt key).readSys 0x500 = 2500 ∧ (resetAt key).readSys 0x501 = 100 ∧
    (resetAt key).readSys 0x503 = 65535 ∧
    (∀ i : BitVec 7, (resetAt key).readSys (0x380 + i.zeroExtend 11) =
      BitVec.ofNat 64 (i.toNat / 8 * 2 ^ 16 + i.toNat / 8 * 0x400 + i.toNat % 8 * 0x10)) ∧
    (∀ sel : BitVec 11, sel ≠ 0 → sel ≠ 2 → sel ≠ 0x500 → sel ≠ 0x501 → sel ≠ 0x503 → (sel.toNat < 0x380 ∨ 0x400 ≤ sel.toNat) →
      (resetAt key).readSys sel = 0)) ∧
  (∀ c b, b < 32 → State.reset.bank (32 * c + b) =
    if b < 16 then BitVec.ofNat 9 (16 * b + 1) else if b < 30 then 0 else 2) ∧
  (State.reset.firmware.cores.map (fun f => (f.ctx.run == .running, f.ctx.pl, f.ctx.pc, f.ctx.x)) =
    (List.range 8).map (fun k => (decide (k % 4 = 0), (2 : BitVec 2), (0 : Word), Vector.replicate 32 (0 : Word))))

/-- R11, R45, R46: x0 reads zero and m0 all ones, and what is written to them is discarded; a pending destination keeps its old value
for the la instructions after the one that writes it. -/
def Obligations.ConstantAndPendingRegistersRead : Prop :=
  (∀ (c : Ctx) (v : Word), c.readX 0 = 0 ∧ c.writeX 0 v = c) ∧
  (∀ (c : Ctx) (v : MWord), c.readM 0 = BitVec.allOnes 1024 ∧ c.writeM 0 v = c) ∧
  (∀ (s t : State) (la : BitVec 4) (d a b : Reg), d ≠ 0 → la ≠ 0 → s.admits la ⟨[d], [], []⟩ → exec (.mul la d a b) s = .next t →
    t.cx.readX d = s.cx.rawX d ∧ t.cx.rawX d = s.x a * s.x b) ∧
  (∀ (w : Window) (n : Nat), w.left ≠ 0 →
    Nat.rec (motive := fun _ => List Window) [w] (fun _ ws => tickWindows ws) n =
      if n < w.left then [{ w with left := w.left - n }] else [])

/-- What a data access touches, and what it leaves (R99, R100, R299 to R301, R326).  A load that is answered reads the copy that serves
its context, else the home with the core's own stores on their way or in its lines, else the scratchpad, or another device's memory, after them; a
byte of memory differs after it only where such a store has arrived.  A store that is taken stands in every copy of its line in its core, or in
its core's own scratchpad, or is on its way to its home with exactly its bytes; no other line's data changes, and no other byte of memory but
where an earlier store arrives. -/
def Obligations.AccessesReadAndWriteTheirBytes : Prop :=
  (∀ (s s1 : State) (va n pa : Nat) (level : BitVec 2) (bytes : List Byte) (leaf : Leaf),
    s.translate (coreOf s.cx.key) s.cx.part level va false = .ok leaf pa → s.dataRead va n level = .value bytes s1 →
    sameThread s.cx s1.cx ∧ storesLandAtMost s s1 ∧
    (∀ dev off l, s.placeOf pa = .hbm dev off → leaf.ros = true ∨ dev = s.dev.toNat → s.lineFor s.cx.key (pa / 32) = some l →
      bytes = lineBytes l.data (pa % 32) n) ∧
    (∀ dev off, s.placeOf pa = .hbm dev off → leaf.ros = true ∨ dev = s.dev.toNat → s.lineFor s.cx.key (pa / 32) = none → leaf.blk = false →
      (∀ l, l ∈ linesOf s → l.num = pa / 32 → l.held.getLsbD (s.cx.key % 4) = false) → pa % 32 + n ≤ 32 →
      bytes = s.peekFrom (coreOf s.cx.key) pa n) ∧
    (∀ g off, s.placeOf pa = .scratchpad g off →
      bytes = ((s.tlbFill (coreOf s.cx.key) s.cx.part va leaf).drainHome (coreOf s.cx.key) pa).peek pa n) ∧
    (∀ dev, s.placeOf pa = .farWindow dev ∨ (leaf.ros = false ∧ dev ≠ s.dev.toNat ∧ ∃ off, s.placeOf pa = .hbm dev off) →
      bytes = ((s.tlbFill (coreOf s.cx.key) s.cx.part va leaf).drainHome (coreOf s.cx.key) pa).farPeek pa n)) ∧
  (∀ (s s1 : State) (va pa : Nat) (bytes : List Byte) (level : BitVec 2) (word : BitVec 32) (leaf : Leaf),
    s.translate (coreOf s.cx.key) s.cx.part level va true = .ok leaf pa → s.dataWrite va bytes level word = .done s1 →
    sameThread s.cx s1.cx ∧
    (∀ a, (∀ j, j < bytes.length → (pa + j) % 2 ^ 48 ≠ a) → noStoreTo s [coreHere s] a → Memory.read s1.mem a = Memory.read s.mem a) ∧
    (s.leavesCore leaf pa = true → storesLandAtMost s s1 ∧ ∃ o, s1.inflight.getLast? = some (.homeRequest (.store o (cellsOf pa bytes)))) ∧
    (∀ g off, s.placeOf pa = .scratchpad g off → s.leavesCore leaf pa = false → s.grantsWindow (g / 32) s.cx.part 0 rightWrite = true →
      Memory.wf s.mem = true → pa % 2 ^ 48 + bytes.length ≤ 2 ^ 48 → s1.peek pa bytes.length = bytes) ∧
    (∀ off, s.placeOf pa = .hbm s.dev.toNat off → pa % 32 + bytes.length ≤ 32 →
      storesLandAtMost s s1 ∧ (∃ l, l ∈ linesOf s1 ∧ l.num = pa / 32) ∧
      (∀ l, l ∈ linesOf s1 → l.num = pa / 32 → lineBytes l.data (pa % 32) bytes.length = bytes ∧
        ((∃ k, k ∈ linesOf s ∧ k.num = pa / 32 ∧ sameBut (pa % 32) bytes.length k.data l.data) ∨
          ((∀ k, k ∈ linesOf s → k.num ≠ pa / 32) ∧ sameBut (pa % 32) bytes.length
            (BitVec.ofNat 256 (ofBytes (s.peekFrom (coreOf s.cx.key) (pa / 32 * 32) 32))) l.data))) ∧
      (∀ l, l ∈ linesOf s1 → l.num ≠ pa / 32 → ∃ k, k ∈ linesOf s ∧ k.num = l.num ∧ k.data = l.data)))

/-- The register-to-register instructions write their results: arithmetic and logic (R89), bit fields (R90, R91), multiplies and divides
(R92, R93). -/
def Obligations.ScalarResultsAreWritten : Prop :=
  Claims.RegisterArithmeticWritesResult ∧
  Claims.BitFieldsWriteResult ∧
  Claims.MultiplyDivideWriteResult

/-- The immediate forms, LIH and SOX (R94 to R97), the 16-bit forms (R57) and LOX (R97, R98) write their results. -/
def Obligations.ImmediateAndCompressedResultsAreWritten : Prop :=
  Claims.ImmediatesWriteResult ∧
  Claims.CompressedFormsWriteResult ∧
  Claims.LoxWritesExtensionRegister

/-- Branches (R106, R58) and jumps (R107, R58) go to their targets. -/
def Obligations.BranchesAndJumpsGoToTheirTargets : Prop :=
  Claims.BranchesGoWhereTheConditionSays ∧
  Claims.JumpsWriteReturnAddress

/-- R466: a precise trap enters the handler, or, without a vector base, ends the task with a record of its cause. -/
def Obligations.TrapsEnterTheHandlerOrEndTheTask : Prop :=
  Claims.PreciseTrapEntersHandler ∧
  Claims.TrapWithoutVectorEndsTask

/-- The integer instructions (R172, R170), the permutations (R185) and the moves (R174, R186) write their lanes. -/
def Obligations.VectorLanesAreComputed : Prop :=
  Claims.VectorIntegerLanesAreComputed ∧
  Claims.PermutationsMoveLanes ∧
  Claims.VectorMovesWriteLanes

/-- VMIN, VMAX, conversions and extensions round once (R171, R176, R177, R456 to R458); on a core without its extension an extension
instruction makes its thread migrate first (R61). -/
def Obligations.ConversionsAndExtensionsRoundOnceOrMigrate : Prop :=
  Claims.ConversionsAndExtensionsAreRoundedOnce ∧
  Claims.ExtensionInstructionsMigrateFirst

/-- Compares (R173), mask operations (R187) and moves of vectors and masks to scalar registers (R186, R187) write their results. -/
def Obligations.MasksAndScalarsAreWritten : Prop :=
  Claims.ComparesWriteMasks ∧
  Claims.MaskOperationsWriteMasks ∧
  Claims.VectorToScalarMovesWriteRegister

/-- Integer reductions are exact (R182); floating-point reductions round once (R182, R183). -/
def Obligations.ReductionsRoundAtMostOnce : Prop :=
  Claims.IntegerReductionsAreExact ∧
  Claims.FloatReductionsRoundOnce

/-- A memory-accessing vector instruction completes, or is kept at its fault (R163 to R169, R188 to R190, R471), or waits for the replay
slot (R474). -/
def Obligations.VectorAccessesIssue : Prop :=
  Claims.VectorAccessesComplete ∧
  Claims.VectorAccessesWaitForTheReplaySlot

/-- A span access that faults leaves everything as it was (R164, R168); a gather keeps the elements from its fault on (R154, R165, R169).
-/
def Obligations.FaultedVectorAccessesKeepWhatTheyMust : Prop :=
  Claims.FaultedSpanAccessesLeaveEverything ∧
  Claims.GatherKeepsElementsFromItsFaultOn

/-- FORK (R216, R264 to R266), JOIN, EXIT and REND (R214, R219, R266 to R268, R278), YIELD, DOMAIN and SPAWNQ (R269 to R271). -/
def Obligations.TasksAreForkedJoinedAndEnded : Prop :=
  Claims.ForkPushesATask ∧
  Claims.JoinExitAndRendEndTasks ∧
  Claims.YieldDomainAndSpawnqTakeEffect

/-- POST and POSTD send an event with the tag that their operands give (R201, R276). -/
def Obligations.PostsSendTaggedEvents : Prop :=
  Claims.PostsSendEvents ∧
  Claims.PostTagsFollowTheirRules

/-- An atomic operation acts in place (R349, R350, R356, R358, R364) where its location allows it (R101, R349). -/
def Obligations.AtomicsActInPlaceWhereAllowed : Prop :=
  Claims.AtomicsActInPlace ∧
  Claims.AtomicsCheckTheirLocation

/-- Waits on addresses complete or enter (R337, R357, R363); registrations are made and ended (R359, R360). -/
def Obligations.WaitsAndRegistrationsAreMade : Prop :=
  Claims.WaitsOnAddressesCompleteOrEnter ∧
  Claims.RegistrationsAreMadeAndEnded

/-- The cache instructions (R377, R379), bank switches (R306, R369, R378) and multicast stores (R101, R331, R380). -/
def Obligations.CachesBanksAndMulticastTakeEffect : Prop :=
  Claims.CacheInstructionsTakeEffect ∧
  Claims.BankSwitchesZeroTheirBank ∧
  Claims.MulticastStoresSendACopyEach

/-- Engine pushes make commands (R445, R448); they are joined, read and aborted (R392, R446, R447, R449). -/
def Obligations.EngineInstructionsMakeAndJoinCommands : Prop :=
  Claims.EnginePushesMakeCommands ∧
  Claims.EngineCommandsAreJoinedReadAndAborted

/-- Matrix resources (R401, R450, R451), copy tags (R393, R394, R452, R453) and splice chains (R408, R454, R455). -/
def Obligations.EngineResourcesAreClaimedWaitedForAndGivenUp : Prop :=
  Claims.MatrixResourcesAreClaimedAndReleased ∧
  Claims.CopyTagsAreWaitedForAndCleared ∧
  Claims.SpliceChainsAreJoinedAndLeft

/-- Requests and replies land (R301, R307, R315, R317, R318, R349, R479, R504); FIFO banks deliver in order (R304 to R306). -/
def Obligations.RequestsRepliesAndFifosAreServed : Prop :=
  Claims.RequestsAndRepliesLand ∧
  Claims.FifosDeliverInOrder

/-- Waits on addresses and updates (R337, R340, R341, R357, R362, R363), and waits of contexts (R114, R219, R267, R272, R273, R279, R452),
end. -/
def Obligations.WaitsEndWhenTheirReasonComes : Prop :=
  Claims.WakesAndUpdatesArrive ∧
  Claims.WaitsOfContextsEnd

/-- Events reach their actors (R197, R202, R209, R253, R276, R355), and contexts take their work (R37, R61, R213, R220, R221, R249, R251,
R265, R484). -/
def Obligations.EventsReachActorsAndContextsTakeWork : Prop :=
  Claims.EventsReachTheirActors ∧
  Claims.ContextsTakeTheirWork

/-- Ports and programs queue commands (R384, R385, R387, R391), and commands complete and deliver (R388, R389, R393, R400, R407, R442,
R443). -/
def Obligations.EngineCommandsAreQueuedAndCompleted : Prop :=
  Claims.PortsAndProgramsQueueCommands ∧
  Claims.CommandsCompleteAndDeliver

/-- The matrix commands (R396 to R402, R425 to R432) and the scan commands (R405, R418, R434 to R437) run. -/
def Obligations.MatrixAndScanCommandsRun : Prop :=
  Claims.MatrixCommandsRun ∧
  Claims.ScanCommandsRun

/-- The copy commands (R410 to R412, R438 to R440) and the collective commands (R414 to R416, R441 to R444, R538) run. -/
def Obligations.CopyAndCollectiveCommandsRun : Prop :=
  Claims.CopyCommandsRun ∧
  Claims.CollectiveCommandsRun

/-- What writes of system registers do between instructions (R207, R370, R393, R505, R506, R511, R514), and what the host writes (R237 to
R240, R244, R260, R509, R510). -/
def Obligations.RegisterAndHostWritesTakeEffect : Prop :=
  Claims.RegisterEffectsHappen ∧
  Claims.HostWritesTakeEffect

/-- R111, R4, R6, R16, R17, R365: MFS writes the fields of the register that its selector names, with zeros in the others' places; MTS sets the
fields that its level may set, changes no other system register and no other register of the thread, and goes on; SUBS of regions that R365 allows
returns the lowest number that neither the core nor the task uses and makes the subscription, and refuses others with the code that R365 gives. -/
def Obligations.RegistersMoveFieldByFieldAndSubscriptionsAreMade : Prop :=
  (∀ (d : Reg) (sel : BitVec 11) (s : State) (fs : List (Nat × Nat × Nat)), registerFields s sel.toNat = some fs →
    s.admits 0 ⟨[d], [], []⟩ → sysLevel sel ≤ s.cx.pl.toNat → (sel = 5 → s.cx.earlierOpen = false) →
    ∃ t v, exec (.mfs d sel) s = .next t ∧ hasFields v fs ∧ s.wroteX t d v (s.nextPc 4) []) ∧
  (∀ (sel : BitVec 11) (a : Reg) (s : State), sysLevel sel ≤ s.cx.pl.toNat → (sel = 5 → s.cx.earlierOpen = false) →
    (sel = 0x605 → field (s.x a) 0 2 ≠ 2) →
    ∃ t, exec (.mts sel a) s = .next t ∧ t.cx.pc = s.nextPc 4 &&& ~~~1 ∧ t.cx.x = s.cx.x ∧ t.cx.v = s.cx.v ∧ t.cx.m = s.cx.m ∧
      t.cx.ox = s.cx.ox ∧ t.mem = s.mem ∧
      (∀ fs, fieldsWritten s sel.toNat (s.x a) = some fs → registerFields t sel.toNat = some fs) ∧
      ∀ n, n ≠ sel.toNat → ¬ alsoChanges sel.toNat n → registerFields t n = registerFields s n) ∧
  (∀ (d a b : Reg) (s : State) (pa pb k : Nat), s.admits 0 ⟨[d], [], []⟩ →
    Subscribable s (s.x a).toNat (s.cx.readOx 3).toNat (s.x b).toNat pa pb →
    (s.subs.filter (fun b => b.end_ == 0 && b.pubCore == windowCore pb)).length < 32 → k < 32 →
    (∀ b, b ∈ s.subs → b.slot = k → b.end_ ≠ 1 → b.core ≠ coreHere s ∧ b.tid ≠ s.cx.tid) →
    (∀ j, j < k → ∃ b, b ∈ s.subs ∧ b.slot = j ∧ b.end_ ≠ 1 ∧ (b.core = coreHere s ∨ b.tid = s.cx.tid)) →
    ∃ t b', exec (.subs d a b) s = .next t ∧ (d ≠ 0 → t.cx.rawX d = BitVec.ofNat 64 k) ∧ t.subs.getLast? = some b' ∧ b'.slot = k ∧
      b'.tid = s.cx.tid ∧ b'.core = coreHere s ∧ b'.dest = pa % 2 ^ 48 ∧ b'.source = pb % 2 ^ 48 ∧ b'.size = (s.x b).toNat ∧
      b'.pubCore = windowCore pb ∧ b'.end_ = 0 ∧ b'.received = [] ∧ t.mem = s.mem ∧
      ∀ c, c ∈ s.subs → c.end_ ≠ 1 → c ∈ t.subs) ∧
  (∀ (d a b : Reg) (s : State), s.admits 0 ⟨[d], [], []⟩ →
    ((s.x a).toNat % 32 ≠ 0 ∨ (s.cx.readOx 3).toNat % 32 ≠ 0 ∨ (s.x b).toNat % 32 ≠ 0 ∨ (s.x b).toNat < 32 ∨ 2097152 < (s.x b).toNat) →
    ∃ t, exec (.subs d a b) s = .next t ∧ s.wroteX t d 0x8000000000000002 (s.nextPc 4) []) ∧
  (∀ (d a b : Reg) (s : State) (pa pb : Nat), s.admits 0 ⟨[d], [], []⟩ →
    Subscribable s (s.x a).toNat (s.cx.readOx 3).toNat (s.x b).toNat pa pb →
    32 ≤ (s.subs.filter (fun b => b.end_ == 0 && b.pubCore == windowCore pb)).length →
    ∃ t, exec (.subs d a b) s = .next t ∧ s.wroteX t d 0x8000000000000001 (s.nextPc 4) [])

/-- R61, R197, R202, R209, R213, R220, R251, R253, R254, R355, R476, R484: each happening of events, tasks and gangs has its effect, in a machine
that has nothing else to choose from: an event joins its actor's queue and becomes safe, its reaction starts on an idle context, in the place of a
task of lower class, or as a gang's one member; an actor moves; an idle context asks the one core that has a task for it, and gets that task; a
raise lifts a task's class; a reservation ends; and a thread without its extension moves to a context that has it. -/
def Obligations.EachDispatcherHappeningHasItsEffect : Prop :=
  (∀ (e : Event) (s : State), takesEvents s e.part → comesLate s e = false → roomAt s (s.homeCore e.part (actorAddr e.target)) →
    (∃ t q, exec (.eventForward e) s = .next t ∧ t.events = s.events ++ [q] ∧ q.event = e ∧
      q.core = s.homeCore e.part (actorAddr e.target)) ∧
    (s.homeCore e.part (actorAddr e.target) = s.hashHome e.part (actorAddr e.target) →
      ∃ t q, exec (.eventArrival e) s = .next t ∧ t.events = s.events ++ [q] ∧ q.event = e ∧
        q.core = s.hashHome e.part (actorAddr e.target))) ∧
  (∀ (part : Nat) (actor : Word) (s : State) (q : Queued), s.firstEvent part actor = some q →
    Nat.min (2 ^ 64 - 1) (q.event.tag.time.toNat + s.inputBound part actor) ≤ s.clock →
    ∃ t, exec (.eventSafe part actor) s = .next t ∧ { q with safe := true } ∈ t.events ∧ t.cx = s.cx ∧ t.mem = s.mem) ∧
  (∀ (key part : Nat) (s : State) (q : Queued), noGangs s → bareCore s (coreOf key) → s.idleAt key = true →
    s.partOfCore (coreOf key) = some part → s.ready = [] → s.events = [q] → q.core = coreOf key → q.late = false → q.safe = true →
    q.event.gang = none → q.event.packet = none → (s.actorOf q.event.part (actorAddr q.event.target)).running = false →
    ∃ t k, exec (.dispatchPick key) s = .next t ∧ t.ctxAt key = some k ∧ runsReaction k q.event ∧ t.events = [] ∧
      (t.actorOf q.event.part (actorAddr q.event.target)).running = true) ∧
  (∀ (key : Nat) (s s1 : State) (c : Cand) (q : Queued) (v : Ctx), best Cand.before (s.candidates (coreOf key)) = some c →
    c.work = .reaction q → q.late = false → 4 ≤ (s.threadsOn (coreOf key)).length →
    best Ctx.goesFirst (s.threadsOn (coreOf key)) = some v → v.key = key → v.eff.toNat < c.cls → v.removable = true →
    (∀ b, b ∈ s.beneath → b.key ≠ key) → s.switchOut key (coreOf key) = some s1 →
    ∃ t k, exec (.switchOut key) s = .next t ∧ t.ctxAt key = some k ∧ runsReaction k q.event ∧ t.ready = s1.ready) ∧
  (∀ (part : Nat) (actor : Word) (core : Nat) (s : State), (s.actorOf part actor).running = false →
    s.gangPlaced (s.actorOf part actor) = false → s.partOfCore core = some part → s.events.length ≤ 128 →
    ∃ t, exec (.actorMove part actor core) s = .next t ∧ t.homeCore part actor = core ∧ t.cx = s.cx ∧ t.mem = s.mem ∧
      ∀ q, q ∈ t.events → forActor part actor q = true → q.core = core) ∧
  (∀ (key part v : Nat) (s : State), s.partOfCore (coreOf key) = some part → s.idleAt key = true → s.victims part (coreOf key) = [v] →
    ∃ t, exec (.stealRequest key) s = .next t ∧ t = { s with inflight := s.inflight ++ [.stealAnswer ⟨key, v⟩] }) ∧
  (∀ (q : StealReq) (s : State) (e : DequeEntry), noGangs s → (tget s.cores q.victim Core.reset).deque = [e] →
    withinDomain e.level e.core (coreOf q.thiefCtx) = true → s.childReady e = true → s.retiring.contains (coreOf q.thiefCtx / 16) = false →
    s.idleAt q.thiefCtx = true → s.hintOf q.thiefCtx = none →
    ∃ t k, exec (.stealAnswer q) s = .next t ∧ t.ctxAt q.thiefCtx = some k ∧ k.run = .running ∧ k.tid = e.task.tid ∧ k.pc = e.task.pc ∧
      (∀ r, r ≠ 2 → r ≠ 3 → k.rawX r = e.task.rawX r) ∧ (tget t.cores q.victim Core.reset).deque = []) ∧
  (∀ (tid : Word) (cls : BitVec 2) (s : State) (c : Ctx), s.taskOf tid = some c → c.pends = [] → cls.toNat ≤ (s.raiseOf tid).toNat →
    ∃ t k, exec (.priorityRaise tid ⟨cls, false⟩) s = .next t ∧ t.taskOf tid = some k ∧ keepsItsThread c k ∧ k.raised = s.raiseOf tid ∧
      k.eff.toNat = Nat.max c.cls.toNat (Nat.max (s.floorOf c).toNat (s.raiseOf tid).toNat)) ∧
  (∀ (core : Nat) (actor : Word) (s : State), ∃ t, exec (.phintExpiry core actor) s = .next t ∧ t.cx = s.cx ∧ t.mem = s.mem ∧
    ∀ h, h ∈ (tget t.cores core Core.reset).hints ↔ (h ∈ (tget s.cores core Core.reset).hints ∧ (h.actor = actor → s.clock < h.until_))) ∧
  (∀ (n key : Nat) (s : State) (g : Gang) (q : Queued), (s.queue n).gang = some g → g.size = 1 → s.memberEvent n g 0 = some q →
    s.memberReady n g 0 = true → s.gangUnits n (s.queue n) g = some [key] → s.events.length ≤ 128 →
    ∃ t k, exec (.gangPlace n) s = .next t ∧ t.ctxAt key = some k ∧ runsReaction k q.event ∧ (t.queue n).gang = none ∧
      t.homeCore q.event.part (actorAddr q.event.target) = coreOf key ∧ t.inflight.getLast? = some (.packetIssue n)) ∧
  (∀ (xf64 : Bool) (s : State) (k : Nat), s.cx.run ≠ .idle → s.cx.hasExtension xf64 = false → s.cx.firstFault true = none →
    s.cx.open_ = false → s.engineBusy s.cx.tid = false → s.directedTo s.cx.tid = false → s.cx.unack = 0 → s.core.lines = [] →
    s.subs = [] → s.idleContext (migrationTarget xf64 (coreOf s.cx.key)) = some k → k ≠ s.cx.key →
    ∃ t c, exec (.extensionMigration xf64) s = .next t ∧ t.ctxAt k = some c ∧ c.run = .running ∧ c.key = k ∧ keepsItsThread s.cx c ∧
      c.hasExtension xf64 = true)
end

