-- ==== Sys2Proof/Laws/State.lean ====
section
/-!
SUPPORT. What each update of the state and of a context leaves: one lemma for each field of each update.
-/

namespace Sys2Proof.Machine

@[simp] theorem State.withCx_others (s : State) (f : Ctx → Ctx) : (s.withCx f).others = s.others := rfl
@[simp] theorem State.withCx_ready (s : State) (f : Ctx → Ctx) : (s.withCx f).ready = s.ready := rfl
@[simp] theorem State.withCx_beneath (s : State) (f : Ctx → Ctx) : (s.withCx f).beneath = s.beneath := rfl
@[simp] theorem State.withCx_cores (s : State) (f : Ctx → Ctx) : (s.withCx f).cores = s.cores := rfl
@[simp] theorem State.withCx_clusters (s : State) (f : Ctx → Ctx) : (s.withCx f).clusters = s.clusters := rfl
@[simp] theorem State.withCx_parts (s : State) (f : Ctx → Ctx) : (s.withCx f).parts = s.parts := rfl
@[simp] theorem State.withCx_mem (s : State) (f : Ctx → Ctx) : (s.withCx f).mem = s.mem := rfl
@[simp] theorem State.withCx_far (s : State) (f : Ctx → Ctx) : (s.withCx f).far = s.far := rfl
@[simp] theorem State.withCx_badWords (s : State) (f : Ctx → Ctx) : (s.withCx f).badWords = s.badWords := rfl
@[simp] theorem State.withCx_errors (s : State) (f : Ctx → Ctx) : (s.withCx f).errors = s.errors := rfl
@[simp] theorem State.withCx_clock (s : State) (f : Ctx → Ctx) : (s.withCx f).clock = s.clock := rfl
@[simp] theorem State.withCx_actors (s : State) (f : Ctx → Ctx) : (s.withCx f).actors = s.actors := rfl
@[simp] theorem State.withCx_events (s : State) (f : Ctx → Ctx) : (s.withCx f).events = s.events := rfl
@[simp] theorem State.withCx_endpoints (s : State) (f : Ctx → Ctx) : (s.withCx f).endpoints = s.endpoints := rfl
@[simp] theorem State.withCx_farBindings (s : State) (f : Ctx → Ctx) : (s.withCx f).farBindings = s.farBindings := rfl
@[simp] theorem State.withCx_farMembers (s : State) (f : Ctx → Ctx) : (s.withCx f).farMembers = s.farMembers := rfl
@[simp] theorem State.withCx_registrations (s : State) (f : Ctx → Ctx) : (s.withCx f).registrations = s.registrations := rfl
@[simp] theorem State.withCx_farWaits (s : State) (f : Ctx → Ctx) : (s.withCx f).farWaits = s.farWaits := rfl
@[simp] theorem State.withCx_farRaises (s : State) (f : Ctx → Ctx) : (s.withCx f).farRaises = s.farRaises := rfl
@[simp] theorem State.withCx_subs (s : State) (f : Ctx → Ctx) : (s.withCx f).subs = s.subs := rfl
@[simp] theorem State.withCx_claims (s : State) (f : Ctx → Ctx) : (s.withCx f).claims = s.claims := rfl
@[simp] theorem State.withCx_cmds (s : State) (f : Ctx → Ctx) : (s.withCx f).cmds = s.cmds := rfl
@[simp] theorem State.withCx_programs (s : State) (f : Ctx → Ctx) : (s.withCx f).programs = s.programs := rfl
@[simp] theorem State.withCx_savedScans (s : State) (f : Ctx → Ctx) : (s.withCx f).savedScans = s.savedScans := rfl
@[simp] theorem State.withCx_chains (s : State) (f : Ctx → Ctx) : (s.withCx f).chains = s.chains := rfl
@[simp] theorem State.withCx_queues (s : State) (f : Ctx → Ctx) : (s.withCx f).queues = s.queues := rfl
@[simp] theorem State.withCx_access (s : State) (f : Ctx → Ctx) : (s.withCx f).access = s.access := rfl
@[simp] theorem State.withCx_stations (s : State) (f : Ctx → Ctx) : (s.withCx f).stations = s.stations := rfl
@[simp] theorem State.withCx_stationsDown (s : State) (f : Ctx → Ctx) : (s.withCx f).stationsDown = s.stationsDown := rfl
@[simp] theorem State.withCx_debugTable (s : State) (f : Ctx → Ctx) : (s.withCx f).debugTable = s.debugTable := rfl
@[simp] theorem State.withCx_links (s : State) (f : Ctx → Ctx) : (s.withCx f).links = s.links := rfl
@[simp] theorem State.withCx_routeGen (s : State) (f : Ctx → Ctx) : (s.withCx f).routeGen = s.routeGen := rfl
@[simp] theorem State.withCx_routes (s : State) (f : Ctx → Ctx) : (s.withCx f).routes = s.routes := rfl
@[simp] theorem State.withCx_retired (s : State) (f : Ctx → Ctx) : (s.withCx f).retired = s.retired := rfl
@[simp] theorem State.withCx_retiring (s : State) (f : Ctx → Ctx) : (s.withCx f).retiring = s.retiring := rfl
@[simp] theorem State.withCx_spares (s : State) (f : Ctx → Ctx) : (s.withCx f).spares = s.spares := rfl
@[simp] theorem State.withCx_dev (s : State) (f : Ctx → Ctx) : (s.withCx f).dev = s.dev := rfl
@[simp] theorem State.withCx_sync (s : State) (f : Ctx → Ctx) : (s.withCx f).sync = s.sync := rfl
@[simp] theorem State.withCx_firmware (s : State) (f : Ctx → Ctx) : (s.withCx f).firmware = s.firmware := rfl
@[simp] theorem State.withCx_nextTid (s : State) (f : Ctx → Ctx) : (s.withCx f).nextTid = s.nextTid := rfl
@[simp] theorem State.withCx_inflight (s : State) (f : Ctx → Ctx) : (s.withCx f).inflight = s.inflight := rfl
@[simp] theorem State.withCx_outbox (s : State) (f : Ctx → Ctx) : (s.withCx f).outbox = s.outbox := rfl
@[simp] theorem State.withCx_turn (s : State) (f : Ctx → Ctx) : (s.withCx f).turn = s.turn := rfl
@[simp] theorem State.withCx_fwTurn (s : State) (f : Ctx → Ctx) : (s.withCx f).fwTurn = s.fwTurn := rfl
@[simp] theorem State.withCx_serial (s : State) (f : Ctx → Ctx) : (s.withCx f).serial = s.serial := rfl
@[simp] theorem State.withCx_cx (s : State) (f : Ctx → Ctx) : (s.withCx f).cx = f s.cx := rfl

@[simp] theorem State.withCore_cx (s : State) (k : Nat) (f : Core → Core) : (s.withCore k f).cx = s.cx := rfl
@[simp] theorem State.withCore_others (s : State) (k : Nat) (f : Core → Core) : (s.withCore k f).others = s.others := rfl
@[simp] theorem State.withCore_ready (s : State) (k : Nat) (f : Core → Core) : (s.withCore k f).ready = s.ready := rfl
@[simp] theorem State.withCore_beneath (s : State) (k : Nat) (f : Core → Core) : (s.withCore k f).beneath = s.beneath := rfl
@[simp] theorem State.withCore_clusters (s : State) (k : Nat) (f : Core → Core) : (s.withCore k f).clusters = s.clusters := rfl
@[simp] theorem State.withCore_parts (s : State) (k : Nat) (f : Core → Core) : (s.withCore k f).parts = s.parts := rfl
@[simp] theorem State.withCore_mem (s : State) (k : Nat) (f : Core → Core) : (s.withCore k f).mem = s.mem := rfl
@[simp] theorem State.withCore_far (s : State) (k : Nat) (f : Core → Core) : (s.withCore k f).far = s.far := rfl
@[simp] theorem State.withCore_badWords (s : State) (k : Nat) (f : Core → Core) : (s.withCore k f).badWords = s.badWords := rfl
@[simp] theorem State.withCore_errors (s : State) (k : Nat) (f : Core → Core) : (s.withCore k f).errors = s.errors := rfl
@[simp] theorem State.withCore_clock (s : State) (k : Nat) (f : Core → Core) : (s.withCore k f).clock = s.clock := rfl
@[simp] theorem State.withCore_actors (s : State) (k : Nat) (f : Core → Core) : (s.withCore k f).actors = s.actors := rfl
@[simp] theorem State.withCore_events (s : State) (k : Nat) (f : Core → Core) : (s.withCore k f).events = s.events := rfl
@[simp] theorem State.withCore_endpoints (s : State) (k : Nat) (f : Core → Core) : (s.withCore k f).endpoints = s.endpoints := rfl
@[simp] theorem State.withCore_farBindings (s : State) (k : Nat) (f : Core → Core) : (s.withCore k f).farBindings = s.farBindings := rfl
@[simp] theorem State.withCore_farMembers (s : State) (k : Nat) (f : Core → Core) : (s.withCore k f).farMembers = s.farMembers := rfl
@[simp] theorem State.withCore_registrations (s : State) (k : Nat) (f : Core → Core) : (s.withCore k f).registrations = s.registrations := rfl
@[simp] theorem State.withCore_farWaits (s : State) (k : Nat) (f : Core → Core) : (s.withCore k f).farWaits = s.farWaits := rfl
@[simp] theorem State.withCore_farRaises (s : State) (k : Nat) (f : Core → Core) : (s.withCore k f).farRaises = s.farRaises := rfl
@[simp] theorem State.withCore_subs (s : State) (k : Nat) (f : Core → Core) : (s.withCore k f).subs = s.subs := rfl
@[simp] theorem State.withCore_claims (s : State) (k : Nat) (f : Core → Core) : (s.withCore k f).claims = s.claims := rfl
@[simp] theorem State.withCore_cmds (s : State) (k : Nat) (f : Core → Core) : (s.withCore k f).cmds = s.cmds := rfl
@[simp] theorem State.withCore_programs (s : State) (k : Nat) (f : Core → Core) : (s.withCore k f).programs = s.programs := rfl
@[simp] theorem State.withCore_savedScans (s : State) (k : Nat) (f : Core → Core) : (s.withCore k f).savedScans = s.savedScans := rfl
@[simp] theorem State.withCore_chains (s : State) (k : Nat) (f : Core → Core) : (s.withCore k f).chains = s.chains := rfl
@[simp] theorem State.withCore_queues (s : State) (k : Nat) (f : Core → Core) : (s.withCore k f).queues = s.queues := rfl
@[simp] theorem State.withCore_access (s : State) (k : Nat) (f : Core → Core) : (s.withCore k f).access = s.access := rfl
@[simp] theorem State.withCore_stations (s : State) (k : Nat) (f : Core → Core) : (s.withCore k f).stations = s.stations := rfl
@[simp] theorem State.withCore_stationsDown (s : State) (k : Nat) (f : Core → Core) : (s.withCore k f).stationsDown = s.stationsDown := rfl
@[simp] theorem State.withCore_debugTable (s : State) (k : Nat) (f : Core → Core) : (s.withCore k f).debugTable = s.debugTable := rfl
@[simp] theorem State.withCore_links (s : State) (k : Nat) (f : Core → Core) : (s.withCore k f).links = s.links := rfl
@[simp] theorem State.withCore_routeGen (s : State) (k : Nat) (f : Core → Core) : (s.withCore k f).routeGen = s.routeGen := rfl
@[simp] theorem State.withCore_routes (s : State) (k : Nat) (f : Core → Core) : (s.withCore k f).routes = s.routes := rfl
@[simp] theorem State.withCore_retired (s : State) (k : Nat) (f : Core → Core) : (s.withCore k f).retired = s.retired := rfl
@[simp] theorem State.withCore_retiring (s : State) (k : Nat) (f : Core → Core) : (s.withCore k f).retiring = s.retiring := rfl
@[simp] theorem State.withCore_spares (s : State) (k : Nat) (f : Core → Core) : (s.withCore k f).spares = s.spares := rfl
@[simp] theorem State.withCore_dev (s : State) (k : Nat) (f : Core → Core) : (s.withCore k f).dev = s.dev := rfl
@[simp] theorem State.withCore_sync (s : State) (k : Nat) (f : Core → Core) : (s.withCore k f).sync = s.sync := rfl
@[simp] theorem State.withCore_firmware (s : State) (k : Nat) (f : Core → Core) : (s.withCore k f).firmware = s.firmware := rfl
@[simp] theorem State.withCore_nextTid (s : State) (k : Nat) (f : Core → Core) : (s.withCore k f).nextTid = s.nextTid := rfl
@[simp] theorem State.withCore_inflight (s : State) (k : Nat) (f : Core → Core) : (s.withCore k f).inflight = s.inflight := rfl
@[simp] theorem State.withCore_outbox (s : State) (k : Nat) (f : Core → Core) : (s.withCore k f).outbox = s.outbox := rfl
@[simp] theorem State.withCore_turn (s : State) (k : Nat) (f : Core → Core) : (s.withCore k f).turn = s.turn := rfl
@[simp] theorem State.withCore_fwTurn (s : State) (k : Nat) (f : Core → Core) : (s.withCore k f).fwTurn = s.fwTurn := rfl
@[simp] theorem State.withCore_serial (s : State) (k : Nat) (f : Core → Core) : (s.withCore k f).serial = s.serial := rfl

@[simp] theorem State.withCluster_cx (s : State) (k : Nat) (f : Cluster → Cluster) : (s.withCluster k f).cx = s.cx := rfl
@[simp] theorem State.withCluster_others (s : State) (k : Nat) (f : Cluster → Cluster) : (s.withCluster k f).others = s.others := rfl
@[simp] theorem State.withCluster_ready (s : State) (k : Nat) (f : Cluster → Cluster) : (s.withCluster k f).ready = s.ready := rfl
@[simp] theorem State.withCluster_beneath (s : State) (k : Nat) (f : Cluster → Cluster) : (s.withCluster k f).beneath = s.beneath := rfl
@[simp] theorem State.withCluster_cores (s : State) (k : Nat) (f : Cluster → Cluster) : (s.withCluster k f).cores = s.cores := rfl
@[simp] theorem State.withCluster_parts (s : State) (k : Nat) (f : Cluster → Cluster) : (s.withCluster k f).parts = s.parts := rfl
@[simp] theorem State.withCluster_mem (s : State) (k : Nat) (f : Cluster → Cluster) : (s.withCluster k f).mem = s.mem := rfl
@[simp] theorem State.withCluster_far (s : State) (k : Nat) (f : Cluster → Cluster) : (s.withCluster k f).far = s.far := rfl
@[simp] theorem State.withCluster_badWords (s : State) (k : Nat) (f : Cluster → Cluster) : (s.withCluster k f).badWords = s.badWords := rfl
@[simp] theorem State.withCluster_errors (s : State) (k : Nat) (f : Cluster → Cluster) : (s.withCluster k f).errors = s.errors := rfl
@[simp] theorem State.withCluster_clock (s : State) (k : Nat) (f : Cluster → Cluster) : (s.withCluster k f).clock = s.clock := rfl
@[simp] theorem State.withCluster_actors (s : State) (k : Nat) (f : Cluster → Cluster) : (s.withCluster k f).actors = s.actors := rfl
@[simp] theorem State.withCluster_events (s : State) (k : Nat) (f : Cluster → Cluster) : (s.withCluster k f).events = s.events := rfl
@[simp] theorem State.withCluster_endpoints (s : State) (k : Nat) (f : Cluster → Cluster) : (s.withCluster k f).endpoints = s.endpoints := rfl
@[simp] theorem State.withCluster_farBindings (s : State) (k : Nat) (f : Cluster → Cluster) : (s.withCluster k f).farBindings = s.farBindings := rfl
@[simp] theorem State.withCluster_farMembers (s : State) (k : Nat) (f : Cluster → Cluster) : (s.withCluster k f).farMembers = s.farMembers := rfl
@[simp] theorem State.withCluster_registrations (s : State) (k : Nat) (f : Cluster → Cluster) : (s.withCluster k f).registrations = s.registrations := rfl
@[simp] theorem State.withCluster_farWaits (s : State) (k : Nat) (f : Cluster → Cluster) : (s.withCluster k f).farWaits = s.farWaits := rfl
@[simp] theorem State.withCluster_farRaises (s : State) (k : Nat) (f : Cluster → Cluster) : (s.withCluster k f).farRaises = s.farRaises := rfl
@[simp] theorem State.withCluster_subs (s : State) (k : Nat) (f : Cluster → Cluster) : (s.withCluster k f).subs = s.subs := rfl
@[simp] theorem State.withCluster_claims (s : State) (k : Nat) (f : Cluster → Cluster) : (s.withCluster k f).claims = s.claims := rfl
@[simp] theorem State.withCluster_cmds (s : State) (k : Nat) (f : Cluster → Cluster) : (s.withCluster k f).cmds = s.cmds := rfl
@[simp] theorem State.withCluster_programs (s : State) (k : Nat) (f : Cluster → Cluster) : (s.withCluster k f).programs = s.programs := rfl
@[simp] theorem State.withCluster_savedScans (s : State) (k : Nat) (f : Cluster → Cluster) : (s.withCluster k f).savedScans = s.savedScans := rfl
@[simp] theorem State.withCluster_chains (s : State) (k : Nat) (f : Cluster → Cluster) : (s.withCluster k f).chains = s.chains := rfl
@[simp] theorem State.withCluster_queues (s : State) (k : Nat) (f : Cluster → Cluster) : (s.withCluster k f).queues = s.queues := rfl
@[simp] theorem State.withCluster_access (s : State) (k : Nat) (f : Cluster → Cluster) : (s.withCluster k f).access = s.access := rfl
@[simp] theorem State.withCluster_stations (s : State) (k : Nat) (f : Cluster → Cluster) : (s.withCluster k f).stations = s.stations := rfl
@[simp] theorem State.withCluster_stationsDown (s : State) (k : Nat) (f : Cluster → Cluster) : (s.withCluster k f).stationsDown = s.stationsDown := rfl
@[simp] theorem State.withCluster_debugTable (s : State) (k : Nat) (f : Cluster → Cluster) : (s.withCluster k f).debugTable = s.debugTable := rfl
@[simp] theorem State.withCluster_links (s : State) (k : Nat) (f : Cluster → Cluster) : (s.withCluster k f).links = s.links := rfl
@[simp] theorem State.withCluster_routeGen (s : State) (k : Nat) (f : Cluster → Cluster) : (s.withCluster k f).routeGen = s.routeGen := rfl
@[simp] theorem State.withCluster_routes (s : State) (k : Nat) (f : Cluster → Cluster) : (s.withCluster k f).routes = s.routes := rfl
@[simp] theorem State.withCluster_retired (s : State) (k : Nat) (f : Cluster → Cluster) : (s.withCluster k f).retired = s.retired := rfl
@[simp] theorem State.withCluster_retiring (s : State) (k : Nat) (f : Cluster → Cluster) : (s.withCluster k f).retiring = s.retiring := rfl
@[simp] theorem State.withCluster_spares (s : State) (k : Nat) (f : Cluster → Cluster) : (s.withCluster k f).spares = s.spares := rfl
@[simp] theorem State.withCluster_dev (s : State) (k : Nat) (f : Cluster → Cluster) : (s.withCluster k f).dev = s.dev := rfl
@[simp] theorem State.withCluster_sync (s : State) (k : Nat) (f : Cluster → Cluster) : (s.withCluster k f).sync = s.sync := rfl
@[simp] theorem State.withCluster_firmware (s : State) (k : Nat) (f : Cluster → Cluster) : (s.withCluster k f).firmware = s.firmware := rfl
@[simp] theorem State.withCluster_nextTid (s : State) (k : Nat) (f : Cluster → Cluster) : (s.withCluster k f).nextTid = s.nextTid := rfl
@[simp] theorem State.withCluster_inflight (s : State) (k : Nat) (f : Cluster → Cluster) : (s.withCluster k f).inflight = s.inflight := rfl
@[simp] theorem State.withCluster_outbox (s : State) (k : Nat) (f : Cluster → Cluster) : (s.withCluster k f).outbox = s.outbox := rfl
@[simp] theorem State.withCluster_turn (s : State) (k : Nat) (f : Cluster → Cluster) : (s.withCluster k f).turn = s.turn := rfl
@[simp] theorem State.withCluster_fwTurn (s : State) (k : Nat) (f : Cluster → Cluster) : (s.withCluster k f).fwTurn = s.fwTurn := rfl
@[simp] theorem State.withCluster_serial (s : State) (k : Nat) (f : Cluster → Cluster) : (s.withCluster k f).serial = s.serial := rfl

@[simp] theorem State.withPart_cx (s : State) (k : Nat) (f : Partition → Partition) : (s.withPart k f).cx = s.cx := rfl
@[simp] theorem State.withPart_others (s : State) (k : Nat) (f : Partition → Partition) : (s.withPart k f).others = s.others := rfl
@[simp] theorem State.withPart_ready (s : State) (k : Nat) (f : Partition → Partition) : (s.withPart k f).ready = s.ready := rfl
@[simp] theorem State.withPart_beneath (s : State) (k : Nat) (f : Partition → Partition) : (s.withPart k f).beneath = s.beneath := rfl
@[simp] theorem State.withPart_cores (s : State) (k : Nat) (f : Partition → Partition) : (s.withPart k f).cores = s.cores := rfl
@[simp] theorem State.withPart_clusters (s : State) (k : Nat) (f : Partition → Partition) : (s.withPart k f).clusters = s.clusters := rfl
@[simp] theorem State.withPart_mem (s : State) (k : Nat) (f : Partition → Partition) : (s.withPart k f).mem = s.mem := rfl
@[simp] theorem State.withPart_far (s : State) (k : Nat) (f : Partition → Partition) : (s.withPart k f).far = s.far := rfl
@[simp] theorem State.withPart_badWords (s : State) (k : Nat) (f : Partition → Partition) : (s.withPart k f).badWords = s.badWords := rfl
@[simp] theorem State.withPart_errors (s : State) (k : Nat) (f : Partition → Partition) : (s.withPart k f).errors = s.errors := rfl
@[simp] theorem State.withPart_clock (s : State) (k : Nat) (f : Partition → Partition) : (s.withPart k f).clock = s.clock := rfl
@[simp] theorem State.withPart_actors (s : State) (k : Nat) (f : Partition → Partition) : (s.withPart k f).actors = s.actors := rfl
@[simp] theorem State.withPart_events (s : State) (k : Nat) (f : Partition → Partition) : (s.withPart k f).events = s.events := rfl
@[simp] theorem State.withPart_endpoints (s : State) (k : Nat) (f : Partition → Partition) : (s.withPart k f).endpoints = s.endpoints := rfl
@[simp] theorem State.withPart_farBindings (s : State) (k : Nat) (f : Partition → Partition) : (s.withPart k f).farBindings = s.farBindings := rfl
@[simp] theorem State.withPart_farMembers (s : State) (k : Nat) (f : Partition → Partition) : (s.withPart k f).farMembers = s.farMembers := rfl
@[simp] theorem State.withPart_registrations (s : State) (k : Nat) (f : Partition → Partition) : (s.withPart k f).registrations = s.registrations := rfl
@[simp] theorem State.withPart_farWaits (s : State) (k : Nat) (f : Partition → Partition) : (s.withPart k f).farWaits = s.farWaits := rfl
@[simp] theorem State.withPart_farRaises (s : State) (k : Nat) (f : Partition → Partition) : (s.withPart k f).farRaises = s.farRaises := rfl
@[simp] theorem State.withPart_subs (s : State) (k : Nat) (f : Partition → Partition) : (s.withPart k f).subs = s.subs := rfl
@[simp] theorem State.withPart_claims (s : State) (k : Nat) (f : Partition → Partition) : (s.withPart k f).claims = s.claims := rfl
@[simp] theorem State.withPart_cmds (s : State) (k : Nat) (f : Partition → Partition) : (s.withPart k f).cmds = s.cmds := rfl
@[simp] theorem State.withPart_programs (s : State) (k : Nat) (f : Partition → Partition) : (s.withPart k f).programs = s.programs := rfl
@[simp] theorem State.withPart_savedScans (s : State) (k : Nat) (f : Partition → Partition) : (s.withPart k f).savedScans = s.savedScans := rfl
@[simp] theorem State.withPart_chains (s : State) (k : Nat) (f : Partition → Partition) : (s.withPart k f).chains = s.chains := rfl
@[simp] theorem State.withPart_queues (s : State) (k : Nat) (f : Partition → Partition) : (s.withPart k f).queues = s.queues := rfl
@[simp] theorem State.withPart_access (s : State) (k : Nat) (f : Partition → Partition) : (s.withPart k f).access = s.access := rfl
@[simp] theorem State.withPart_stations (s : State) (k : Nat) (f : Partition → Partition) : (s.withPart k f).stations = s.stations := rfl
@[simp] theorem State.withPart_stationsDown (s : State) (k : Nat) (f : Partition → Partition) : (s.withPart k f).stationsDown = s.stationsDown := rfl
@[simp] theorem State.withPart_debugTable (s : State) (k : Nat) (f : Partition → Partition) : (s.withPart k f).debugTable = s.debugTable := rfl
@[simp] theorem State.withPart_links (s : State) (k : Nat) (f : Partition → Partition) : (s.withPart k f).links = s.links := rfl
@[simp] theorem State.withPart_routeGen (s : State) (k : Nat) (f : Partition → Partition) : (s.withPart k f).routeGen = s.routeGen := rfl
@[simp] theorem State.withPart_routes (s : State) (k : Nat) (f : Partition → Partition) : (s.withPart k f).routes = s.routes := rfl
@[simp] theorem State.withPart_retired (s : State) (k : Nat) (f : Partition → Partition) : (s.withPart k f).retired = s.retired := rfl
@[simp] theorem State.withPart_retiring (s : State) (k : Nat) (f : Partition → Partition) : (s.withPart k f).retiring = s.retiring := rfl
@[simp] theorem State.withPart_spares (s : State) (k : Nat) (f : Partition → Partition) : (s.withPart k f).spares = s.spares := rfl
@[simp] theorem State.withPart_dev (s : State) (k : Nat) (f : Partition → Partition) : (s.withPart k f).dev = s.dev := rfl
@[simp] theorem State.withPart_sync (s : State) (k : Nat) (f : Partition → Partition) : (s.withPart k f).sync = s.sync := rfl
@[simp] theorem State.withPart_firmware (s : State) (k : Nat) (f : Partition → Partition) : (s.withPart k f).firmware = s.firmware := rfl
@[simp] theorem State.withPart_nextTid (s : State) (k : Nat) (f : Partition → Partition) : (s.withPart k f).nextTid = s.nextTid := rfl
@[simp] theorem State.withPart_inflight (s : State) (k : Nat) (f : Partition → Partition) : (s.withPart k f).inflight = s.inflight := rfl
@[simp] theorem State.withPart_outbox (s : State) (k : Nat) (f : Partition → Partition) : (s.withPart k f).outbox = s.outbox := rfl
@[simp] theorem State.withPart_turn (s : State) (k : Nat) (f : Partition → Partition) : (s.withPart k f).turn = s.turn := rfl
@[simp] theorem State.withPart_fwTurn (s : State) (k : Nat) (f : Partition → Partition) : (s.withPart k f).fwTurn = s.fwTurn := rfl
@[simp] theorem State.withPart_serial (s : State) (k : Nat) (f : Partition → Partition) : (s.withPart k f).serial = s.serial := rfl

@[simp] theorem State.withQueue_cx (s : State) (k : Nat) (f : Queue → Queue) : (s.withQueue k f).cx = s.cx := rfl
@[simp] theorem State.withQueue_others (s : State) (k : Nat) (f : Queue → Queue) : (s.withQueue k f).others = s.others := rfl
@[simp] theorem State.withQueue_ready (s : State) (k : Nat) (f : Queue → Queue) : (s.withQueue k f).ready = s.ready := rfl
@[simp] theorem State.withQueue_beneath (s : State) (k : Nat) (f : Queue → Queue) : (s.withQueue k f).beneath = s.beneath := rfl
@[simp] theorem State.withQueue_cores (s : State) (k : Nat) (f : Queue → Queue) : (s.withQueue k f).cores = s.cores := rfl
@[simp] theorem State.withQueue_clusters (s : State) (k : Nat) (f : Queue → Queue) : (s.withQueue k f).clusters = s.clusters := rfl
@[simp] theorem State.withQueue_parts (s : State) (k : Nat) (f : Queue → Queue) : (s.withQueue k f).parts = s.parts := rfl
@[simp] theorem State.withQueue_mem (s : State) (k : Nat) (f : Queue → Queue) : (s.withQueue k f).mem = s.mem := rfl
@[simp] theorem State.withQueue_far (s : State) (k : Nat) (f : Queue → Queue) : (s.withQueue k f).far = s.far := rfl
@[simp] theorem State.withQueue_badWords (s : State) (k : Nat) (f : Queue → Queue) : (s.withQueue k f).badWords = s.badWords := rfl
@[simp] theorem State.withQueue_errors (s : State) (k : Nat) (f : Queue → Queue) : (s.withQueue k f).errors = s.errors := rfl
@[simp] theorem State.withQueue_clock (s : State) (k : Nat) (f : Queue → Queue) : (s.withQueue k f).clock = s.clock := rfl
@[simp] theorem State.withQueue_actors (s : State) (k : Nat) (f : Queue → Queue) : (s.withQueue k f).actors = s.actors := rfl
@[simp] theorem State.withQueue_events (s : State) (k : Nat) (f : Queue → Queue) : (s.withQueue k f).events = s.events := rfl
@[simp] theorem State.withQueue_endpoints (s : State) (k : Nat) (f : Queue → Queue) : (s.withQueue k f).endpoints = s.endpoints := rfl
@[simp] theorem State.withQueue_farBindings (s : State) (k : Nat) (f : Queue → Queue) : (s.withQueue k f).farBindings = s.farBindings := rfl
@[simp] theorem State.withQueue_farMembers (s : State) (k : Nat) (f : Queue → Queue) : (s.withQueue k f).farMembers = s.farMembers := rfl
@[simp] theorem State.withQueue_registrations (s : State) (k : Nat) (f : Queue → Queue) : (s.withQueue k f).registrations = s.registrations := rfl
@[simp] theorem State.withQueue_farWaits (s : State) (k : Nat) (f : Queue → Queue) : (s.withQueue k f).farWaits = s.farWaits := rfl
@[simp] theorem State.withQueue_farRaises (s : State) (k : Nat) (f : Queue → Queue) : (s.withQueue k f).farRaises = s.farRaises := rfl
@[simp] theorem State.withQueue_subs (s : State) (k : Nat) (f : Queue → Queue) : (s.withQueue k f).subs = s.subs := rfl
@[simp] theorem State.withQueue_claims (s : State) (k : Nat) (f : Queue → Queue) : (s.withQueue k f).claims = s.claims := rfl
@[simp] theorem State.withQueue_cmds (s : State) (k : Nat) (f : Queue → Queue) : (s.withQueue k f).cmds = s.cmds := rfl
@[simp] theorem State.withQueue_programs (s : State) (k : Nat) (f : Queue → Queue) : (s.withQueue k f).programs = s.programs := rfl
@[simp] theorem State.withQueue_savedScans (s : State) (k : Nat) (f : Queue → Queue) : (s.withQueue k f).savedScans = s.savedScans := rfl
@[simp] theorem State.withQueue_chains (s : State) (k : Nat) (f : Queue → Queue) : (s.withQueue k f).chains = s.chains := rfl
@[simp] theorem State.withQueue_access (s : State) (k : Nat) (f : Queue → Queue) : (s.withQueue k f).access = s.access := rfl
@[simp] theorem State.withQueue_stations (s : State) (k : Nat) (f : Queue → Queue) : (s.withQueue k f).stations = s.stations := rfl
@[simp] theorem State.withQueue_stationsDown (s : State) (k : Nat) (f : Queue → Queue) : (s.withQueue k f).stationsDown = s.stationsDown := rfl
@[simp] theorem State.withQueue_debugTable (s : State) (k : Nat) (f : Queue → Queue) : (s.withQueue k f).debugTable = s.debugTable := rfl
@[simp] theorem State.withQueue_links (s : State) (k : Nat) (f : Queue → Queue) : (s.withQueue k f).links = s.links := rfl
@[simp] theorem State.withQueue_routeGen (s : State) (k : Nat) (f : Queue → Queue) : (s.withQueue k f).routeGen = s.routeGen := rfl
@[simp] theorem State.withQueue_routes (s : State) (k : Nat) (f : Queue → Queue) : (s.withQueue k f).routes = s.routes := rfl
@[simp] theorem State.withQueue_retired (s : State) (k : Nat) (f : Queue → Queue) : (s.withQueue k f).retired = s.retired := rfl
@[simp] theorem State.withQueue_retiring (s : State) (k : Nat) (f : Queue → Queue) : (s.withQueue k f).retiring = s.retiring := rfl
@[simp] theorem State.withQueue_spares (s : State) (k : Nat) (f : Queue → Queue) : (s.withQueue k f).spares = s.spares := rfl
@[simp] theorem State.withQueue_dev (s : State) (k : Nat) (f : Queue → Queue) : (s.withQueue k f).dev = s.dev := rfl
@[simp] theorem State.withQueue_sync (s : State) (k : Nat) (f : Queue → Queue) : (s.withQueue k f).sync = s.sync := rfl
@[simp] theorem State.withQueue_firmware (s : State) (k : Nat) (f : Queue → Queue) : (s.withQueue k f).firmware = s.firmware := rfl
@[simp] theorem State.withQueue_nextTid (s : State) (k : Nat) (f : Queue → Queue) : (s.withQueue k f).nextTid = s.nextTid := rfl
@[simp] theorem State.withQueue_inflight (s : State) (k : Nat) (f : Queue → Queue) : (s.withQueue k f).inflight = s.inflight := rfl
@[simp] theorem State.withQueue_outbox (s : State) (k : Nat) (f : Queue → Queue) : (s.withQueue k f).outbox = s.outbox := rfl
@[simp] theorem State.withQueue_turn (s : State) (k : Nat) (f : Queue → Queue) : (s.withQueue k f).turn = s.turn := rfl
@[simp] theorem State.withQueue_fwTurn (s : State) (k : Nat) (f : Queue → Queue) : (s.withQueue k f).fwTurn = s.fwTurn := rfl
@[simp] theorem State.withQueue_serial (s : State) (k : Nat) (f : Queue → Queue) : (s.withQueue k f).serial = s.serial := rfl

@[simp] theorem State.send_cx (s : State) (i : Happening) : (s.send i).cx = s.cx := rfl
@[simp] theorem State.send_others (s : State) (i : Happening) : (s.send i).others = s.others := rfl
@[simp] theorem State.send_ready (s : State) (i : Happening) : (s.send i).ready = s.ready := rfl
@[simp] theorem State.send_beneath (s : State) (i : Happening) : (s.send i).beneath = s.beneath := rfl
@[simp] theorem State.send_cores (s : State) (i : Happening) : (s.send i).cores = s.cores := rfl
@[simp] theorem State.send_clusters (s : State) (i : Happening) : (s.send i).clusters = s.clusters := rfl
@[simp] theorem State.send_parts (s : State) (i : Happening) : (s.send i).parts = s.parts := rfl
@[simp] theorem State.send_mem (s : State) (i : Happening) : (s.send i).mem = s.mem := rfl
@[simp] theorem State.send_far (s : State) (i : Happening) : (s.send i).far = s.far := rfl
@[simp] theorem State.send_badWords (s : State) (i : Happening) : (s.send i).badWords = s.badWords := rfl
@[simp] theorem State.send_errors (s : State) (i : Happening) : (s.send i).errors = s.errors := rfl
@[simp] theorem State.send_clock (s : State) (i : Happening) : (s.send i).clock = s.clock := rfl
@[simp] theorem State.send_actors (s : State) (i : Happening) : (s.send i).actors = s.actors := rfl
@[simp] theorem State.send_events (s : State) (i : Happening) : (s.send i).events = s.events := rfl
@[simp] theorem State.send_endpoints (s : State) (i : Happening) : (s.send i).endpoints = s.endpoints := rfl
@[simp] theorem State.send_farBindings (s : State) (i : Happening) : (s.send i).farBindings = s.farBindings := rfl
@[simp] theorem State.send_farMembers (s : State) (i : Happening) : (s.send i).farMembers = s.farMembers := rfl
@[simp] theorem State.send_registrations (s : State) (i : Happening) : (s.send i).registrations = s.registrations := rfl
@[simp] theorem State.send_farWaits (s : State) (i : Happening) : (s.send i).farWaits = s.farWaits := rfl
@[simp] theorem State.send_farRaises (s : State) (i : Happening) : (s.send i).farRaises = s.farRaises := rfl
@[simp] theorem State.send_subs (s : State) (i : Happening) : (s.send i).subs = s.subs := rfl
@[simp] theorem State.send_claims (s : State) (i : Happening) : (s.send i).claims = s.claims := rfl
@[simp] theorem State.send_cmds (s : State) (i : Happening) : (s.send i).cmds = s.cmds := rfl
@[simp] theorem State.send_programs (s : State) (i : Happening) : (s.send i).programs = s.programs := rfl
@[simp] theorem State.send_savedScans (s : State) (i : Happening) : (s.send i).savedScans = s.savedScans := rfl
@[simp] theorem State.send_chains (s : State) (i : Happening) : (s.send i).chains = s.chains := rfl
@[simp] theorem State.send_queues (s : State) (i : Happening) : (s.send i).queues = s.queues := rfl
@[simp] theorem State.send_access (s : State) (i : Happening) : (s.send i).access = s.access := rfl
@[simp] theorem State.send_stations (s : State) (i : Happening) : (s.send i).stations = s.stations := rfl
@[simp] theorem State.send_stationsDown (s : State) (i : Happening) : (s.send i).stationsDown = s.stationsDown := rfl
@[simp] theorem State.send_debugTable (s : State) (i : Happening) : (s.send i).debugTable = s.debugTable := rfl
@[simp] theorem State.send_links (s : State) (i : Happening) : (s.send i).links = s.links := rfl
@[simp] theorem State.send_routeGen (s : State) (i : Happening) : (s.send i).routeGen = s.routeGen := rfl
@[simp] theorem State.send_routes (s : State) (i : Happening) : (s.send i).routes = s.routes := rfl
@[simp] theorem State.send_retired (s : State) (i : Happening) : (s.send i).retired = s.retired := rfl
@[simp] theorem State.send_retiring (s : State) (i : Happening) : (s.send i).retiring = s.retiring := rfl
@[simp] theorem State.send_spares (s : State) (i : Happening) : (s.send i).spares = s.spares := rfl
@[simp] theorem State.send_dev (s : State) (i : Happening) : (s.send i).dev = s.dev := rfl
@[simp] theorem State.send_sync (s : State) (i : Happening) : (s.send i).sync = s.sync := rfl
@[simp] theorem State.send_firmware (s : State) (i : Happening) : (s.send i).firmware = s.firmware := rfl
@[simp] theorem State.send_nextTid (s : State) (i : Happening) : (s.send i).nextTid = s.nextTid := rfl
@[simp] theorem State.send_outbox (s : State) (i : Happening) : (s.send i).outbox = s.outbox := rfl
@[simp] theorem State.send_turn (s : State) (i : Happening) : (s.send i).turn = s.turn := rfl
@[simp] theorem State.send_fwTurn (s : State) (i : Happening) : (s.send i).fwTurn = s.fwTurn := rfl
@[simp] theorem State.send_serial (s : State) (i : Happening) : (s.send i).serial = s.serial := rfl
@[simp] theorem State.send_inflight (s : State) (i : Happening) : (s.send i).inflight = s.inflight ++ [i] := rfl

@[simp] theorem State.emit_cx (s : State) (x : Sent) : (s.emit x).cx = s.cx := rfl
@[simp] theorem State.emit_others (s : State) (x : Sent) : (s.emit x).others = s.others := rfl
@[simp] theorem State.emit_ready (s : State) (x : Sent) : (s.emit x).ready = s.ready := rfl
@[simp] theorem State.emit_beneath (s : State) (x : Sent) : (s.emit x).beneath = s.beneath := rfl
@[simp] theorem State.emit_cores (s : State) (x : Sent) : (s.emit x).cores = s.cores := rfl
@[simp] theorem State.emit_clusters (s : State) (x : Sent) : (s.emit x).clusters = s.clusters := rfl
@[simp] theorem State.emit_parts (s : State) (x : Sent) : (s.emit x).parts = s.parts := rfl
@[simp] theorem State.emit_mem (s : State) (x : Sent) : (s.emit x).mem = s.mem := rfl
@[simp] theorem State.emit_far (s : State) (x : Sent) : (s.emit x).far = s.far := rfl
@[simp] theorem State.emit_badWords (s : State) (x : Sent) : (s.emit x).badWords = s.badWords := rfl
@[simp] theorem State.emit_errors (s : State) (x : Sent) : (s.emit x).errors = s.errors := rfl
@[simp] theorem State.emit_clock (s : State) (x : Sent) : (s.emit x).clock = s.clock := rfl
@[simp] theorem State.emit_actors (s : State) (x : Sent) : (s.emit x).actors = s.actors := rfl
@[simp] theorem State.emit_events (s : State) (x : Sent) : (s.emit x).events = s.events := rfl
@[simp] theorem State.emit_endpoints (s : State) (x : Sent) : (s.emit x).endpoints = s.endpoints := rfl
@[simp] theorem State.emit_farBindings (s : State) (x : Sent) : (s.emit x).farBindings = s.farBindings := rfl
@[simp] theorem State.emit_farMembers (s : State) (x : Sent) : (s.emit x).farMembers = s.farMembers := rfl
@[simp] theorem State.emit_registrations (s : State) (x : Sent) : (s.emit x).registrations = s.registrations := rfl
@[simp] theorem State.emit_farWaits (s : State) (x : Sent) : (s.emit x).farWaits = s.farWaits := rfl
@[simp] theorem State.emit_farRaises (s : State) (x : Sent) : (s.emit x).farRaises = s.farRaises := rfl
@[simp] theorem State.emit_subs (s : State) (x : Sent) : (s.emit x).subs = s.subs := rfl
@[simp] theorem State.emit_claims (s : State) (x : Sent) : (s.emit x).claims = s.claims := rfl
@[simp] theorem State.emit_cmds (s : State) (x : Sent) : (s.emit x).cmds = s.cmds := rfl
@[simp] theorem State.emit_programs (s : State) (x : Sent) : (s.emit x).programs = s.programs := rfl
@[simp] theorem State.emit_savedScans (s : State) (x : Sent) : (s.emit x).savedScans = s.savedScans := rfl
@[simp] theorem State.emit_chains (s : State) (x : Sent) : (s.emit x).chains = s.chains := rfl
@[simp] theorem State.emit_queues (s : State) (x : Sent) : (s.emit x).queues = s.queues := rfl
@[simp] theorem State.emit_access (s : State) (x : Sent) : (s.emit x).access = s.access := rfl
@[simp] theorem State.emit_stations (s : State) (x : Sent) : (s.emit x).stations = s.stations := rfl
@[simp] theorem State.emit_stationsDown (s : State) (x : Sent) : (s.emit x).stationsDown = s.stationsDown := rfl
@[simp] theorem State.emit_debugTable (s : State) (x : Sent) : (s.emit x).debugTable = s.debugTable := rfl
@[simp] theorem State.emit_links (s : State) (x : Sent) : (s.emit x).links = s.links := rfl
@[simp] theorem State.emit_routeGen (s : State) (x : Sent) : (s.emit x).routeGen = s.routeGen := rfl
@[simp] theorem State.emit_routes (s : State) (x : Sent) : (s.emit x).routes = s.routes := rfl
@[simp] theorem State.emit_retired (s : State) (x : Sent) : (s.emit x).retired = s.retired := rfl
@[simp] theorem State.emit_retiring (s : State) (x : Sent) : (s.emit x).retiring = s.retiring := rfl
@[simp] theorem State.emit_spares (s : State) (x : Sent) : (s.emit x).spares = s.spares := rfl
@[simp] theorem State.emit_dev (s : State) (x : Sent) : (s.emit x).dev = s.dev := rfl
@[simp] theorem State.emit_sync (s : State) (x : Sent) : (s.emit x).sync = s.sync := rfl
@[simp] theorem State.emit_firmware (s : State) (x : Sent) : (s.emit x).firmware = s.firmware := rfl
@[simp] theorem State.emit_nextTid (s : State) (x : Sent) : (s.emit x).nextTid = s.nextTid := rfl
@[simp] theorem State.emit_inflight (s : State) (x : Sent) : (s.emit x).inflight = s.inflight := rfl
@[simp] theorem State.emit_turn (s : State) (x : Sent) : (s.emit x).turn = s.turn := rfl
@[simp] theorem State.emit_fwTurn (s : State) (x : Sent) : (s.emit x).fwTurn = s.fwTurn := rfl
@[simp] theorem State.emit_serial (s : State) (x : Sent) : (s.emit x).serial = s.serial := rfl
@[simp] theorem State.emit_outbox (s : State) (x : Sent) : (s.emit x).outbox = s.outbox ++ [x] := rfl

@[simp] theorem State.poke_cx (s : State) (pa : Nat) (bytes : List Byte) : (s.poke pa bytes).cx = s.cx := rfl
@[simp] theorem State.poke_others (s : State) (pa : Nat) (bytes : List Byte) : (s.poke pa bytes).others = s.others := rfl
@[simp] theorem State.poke_ready (s : State) (pa : Nat) (bytes : List Byte) : (s.poke pa bytes).ready = s.ready := rfl
@[simp] theorem State.poke_beneath (s : State) (pa : Nat) (bytes : List Byte) : (s.poke pa bytes).beneath = s.beneath := rfl
@[simp] theorem State.poke_cores (s : State) (pa : Nat) (bytes : List Byte) : (s.poke pa bytes).cores = s.cores := rfl
@[simp] theorem State.poke_clusters (s : State) (pa : Nat) (bytes : List Byte) : (s.poke pa bytes).clusters = s.clusters := rfl
@[simp] theorem State.poke_parts (s : State) (pa : Nat) (bytes : List Byte) : (s.poke pa bytes).parts = s.parts := rfl
@[simp] theorem State.poke_far (s : State) (pa : Nat) (bytes : List Byte) : (s.poke pa bytes).far = s.far := rfl
@[simp] theorem State.poke_errors (s : State) (pa : Nat) (bytes : List Byte) : (s.poke pa bytes).errors = s.errors := rfl
@[simp] theorem State.poke_clock (s : State) (pa : Nat) (bytes : List Byte) : (s.poke pa bytes).clock = s.clock := rfl
@[simp] theorem State.poke_actors (s : State) (pa : Nat) (bytes : List Byte) : (s.poke pa bytes).actors = s.actors := rfl
@[simp] theorem State.poke_events (s : State) (pa : Nat) (bytes : List Byte) : (s.poke pa bytes).events = s.events := rfl
@[simp] theorem State.poke_endpoints (s : State) (pa : Nat) (bytes : List Byte) : (s.poke pa bytes).endpoints = s.endpoints := rfl
@[simp] theorem State.poke_farBindings (s : State) (pa : Nat) (bytes : List Byte) : (s.poke pa bytes).farBindings = s.farBindings := rfl
@[simp] theorem State.poke_farMembers (s : State) (pa : Nat) (bytes : List Byte) : (s.poke pa bytes).farMembers = s.farMembers := rfl
@[simp] theorem State.poke_registrations (s : State) (pa : Nat) (bytes : List Byte) : (s.poke pa bytes).registrations = s.registrations := rfl
@[simp] theorem State.poke_farWaits (s : State) (pa : Nat) (bytes : List Byte) : (s.poke pa bytes).farWaits = s.farWaits := rfl
@[simp] theorem State.poke_farRaises (s : State) (pa : Nat) (bytes : List Byte) : (s.poke pa bytes).farRaises = s.farRaises := rfl
@[simp] theorem State.poke_subs (s : State) (pa : Nat) (bytes : List Byte) : (s.poke pa bytes).subs = s.subs := rfl
@[simp] theorem State.poke_claims (s : State) (pa : Nat) (bytes : List Byte) : (s.poke pa bytes).claims = s.claims := rfl
@[simp] theorem State.poke_cmds (s : State) (pa : Nat) (bytes : List Byte) : (s.poke pa bytes).cmds = s.cmds := rfl
@[simp] theorem State.poke_programs (s : State) (pa : Nat) (bytes : List Byte) : (s.poke pa bytes).programs = s.programs := rfl
@[simp] theorem State.poke_savedScans (s : State) (pa : Nat) (bytes : List Byte) : (s.poke pa bytes).savedScans = s.savedScans := rfl
@[simp] theorem State.poke_chains (s : State) (pa : Nat) (bytes : List Byte) : (s.poke pa bytes).chains = s.chains := rfl
@[simp] theorem State.poke_queues (s : State) (pa : Nat) (bytes : List Byte) : (s.poke pa bytes).queues = s.queues := rfl
@[simp] theorem State.poke_access (s : State) (pa : Nat) (bytes : List Byte) : (s.poke pa bytes).access = s.access := rfl
@[simp] theorem State.poke_stations (s : State) (pa : Nat) (bytes : List Byte) : (s.poke pa bytes).stations = s.stations := rfl
@[simp] theorem State.poke_stationsDown (s : State) (pa : Nat) (bytes : List Byte) : (s.poke pa bytes).stationsDown = s.stationsDown := rfl
@[simp] theorem State.poke_debugTable (s : State) (pa : Nat) (bytes : List Byte) : (s.poke pa bytes).debugTable = s.debugTable := rfl
@[simp] theorem State.poke_links (s : State) (pa : Nat) (bytes : List Byte) : (s.poke pa bytes).links = s.links := rfl
@[simp] theorem State.poke_routeGen (s : State) (pa : Nat) (bytes : List Byte) : (s.poke pa bytes).routeGen = s.routeGen := rfl
@[simp] theorem State.poke_routes (s : State) (pa : Nat) (bytes : List Byte) : (s.poke pa bytes).routes = s.routes := rfl
@[simp] theorem State.poke_retired (s : State) (pa : Nat) (bytes : List Byte) : (s.poke pa bytes).retired = s.retired := rfl
@[simp] theorem State.poke_retiring (s : State) (pa : Nat) (bytes : List Byte) : (s.poke pa bytes).retiring = s.retiring := rfl
@[simp] theorem State.poke_spares (s : State) (pa : Nat) (bytes : List Byte) : (s.poke pa bytes).spares = s.spares := rfl
@[simp] theorem State.poke_dev (s : State) (pa : Nat) (bytes : List Byte) : (s.poke pa bytes).dev = s.dev := rfl
@[simp] theorem State.poke_sync (s : State) (pa : Nat) (bytes : List Byte) : (s.poke pa bytes).sync = s.sync := rfl
@[simp] theorem State.poke_firmware (s : State) (pa : Nat) (bytes : List Byte) : (s.poke pa bytes).firmware = s.firmware := rfl
@[simp] theorem State.poke_nextTid (s : State) (pa : Nat) (bytes : List Byte) : (s.poke pa bytes).nextTid = s.nextTid := rfl
@[simp] theorem State.poke_inflight (s : State) (pa : Nat) (bytes : List Byte) : (s.poke pa bytes).inflight = s.inflight := rfl
@[simp] theorem State.poke_outbox (s : State) (pa : Nat) (bytes : List Byte) : (s.poke pa bytes).outbox = s.outbox := rfl
@[simp] theorem State.poke_turn (s : State) (pa : Nat) (bytes : List Byte) : (s.poke pa bytes).turn = s.turn := rfl
@[simp] theorem State.poke_fwTurn (s : State) (pa : Nat) (bytes : List Byte) : (s.poke pa bytes).fwTurn = s.fwTurn := rfl
@[simp] theorem State.poke_serial (s : State) (pa : Nat) (bytes : List Byte) : (s.poke pa bytes).serial = s.serial := rfl

@[simp] theorem State.wipe_cx (s : State) (pa n : Nat) : (s.wipe pa n).cx = s.cx := rfl
@[simp] theorem State.wipe_others (s : State) (pa n : Nat) : (s.wipe pa n).others = s.others := rfl
@[simp] theorem State.wipe_ready (s : State) (pa n : Nat) : (s.wipe pa n).ready = s.ready := rfl
@[simp] theorem State.wipe_beneath (s : State) (pa n : Nat) : (s.wipe pa n).beneath = s.beneath := rfl
@[simp] theorem State.wipe_cores (s : State) (pa n : Nat) : (s.wipe pa n).cores = s.cores := rfl
@[simp] theorem State.wipe_clusters (s : State) (pa n : Nat) : (s.wipe pa n).clusters = s.clusters := rfl
@[simp] theorem State.wipe_parts (s : State) (pa n : Nat) : (s.wipe pa n).parts = s.parts := rfl
@[simp] theorem State.wipe_far (s : State) (pa n : Nat) : (s.wipe pa n).far = s.far := rfl
@[simp] theorem State.wipe_badWords (s : State) (pa n : Nat) : (s.wipe pa n).badWords = s.badWords := rfl
@[simp] theorem State.wipe_errors (s : State) (pa n : Nat) : (s.wipe pa n).errors = s.errors := rfl
@[simp] theorem State.wipe_clock (s : State) (pa n : Nat) : (s.wipe pa n).clock = s.clock := rfl
@[simp] theorem State.wipe_actors (s : State) (pa n : Nat) : (s.wipe pa n).actors = s.actors := rfl
@[simp] theorem State.wipe_events (s : State) (pa n : Nat) : (s.wipe pa n).events = s.events := rfl
@[simp] theorem State.wipe_endpoints (s : State) (pa n : Nat) : (s.wipe pa n).endpoints = s.endpoints := rfl
@[simp] theorem State.wipe_farBindings (s : State) (pa n : Nat) : (s.wipe pa n).farBindings = s.farBindings := rfl
@[simp] theorem State.wipe_farMembers (s : State) (pa n : Nat) : (s.wipe pa n).farMembers = s.farMembers := rfl
@[simp] theorem State.wipe_registrations (s : State) (pa n : Nat) : (s.wipe pa n).registrations = s.registrations := rfl
@[simp] theorem State.wipe_farWaits (s : State) (pa n : Nat) : (s.wipe pa n).farWaits = s.farWaits := rfl
@[simp] theorem State.wipe_farRaises (s : State) (pa n : Nat) : (s.wipe pa n).farRaises = s.farRaises := rfl
@[simp] theorem State.wipe_subs (s : State) (pa n : Nat) : (s.wipe pa n).subs = s.subs := rfl
@[simp] theorem State.wipe_claims (s : State) (pa n : Nat) : (s.wipe pa n).claims = s.claims := rfl
@[simp] theorem State.wipe_cmds (s : State) (pa n : Nat) : (s.wipe pa n).cmds = s.cmds := rfl
@[simp] theorem State.wipe_programs (s : State) (pa n : Nat) : (s.wipe pa n).programs = s.programs := rfl
@[simp] theorem State.wipe_savedScans (s : State) (pa n : Nat) : (s.wipe pa n).savedScans = s.savedScans := rfl
@[simp] theorem State.wipe_chains (s : State) (pa n : Nat) : (s.wipe pa n).chains = s.chains := rfl
@[simp] theorem State.wipe_queues (s : State) (pa n : Nat) : (s.wipe pa n).queues = s.queues := rfl
@[simp] theorem State.wipe_access (s : State) (pa n : Nat) : (s.wipe pa n).access = s.access := rfl
@[simp] theorem State.wipe_stations (s : State) (pa n : Nat) : (s.wipe pa n).stations = s.stations := rfl
@[simp] theorem State.wipe_stationsDown (s : State) (pa n : Nat) : (s.wipe pa n).stationsDown = s.stationsDown := rfl
@[simp] theorem State.wipe_debugTable (s : State) (pa n : Nat) : (s.wipe pa n).debugTable = s.debugTable := rfl
@[simp] theorem State.wipe_links (s : State) (pa n : Nat) : (s.wipe pa n).links = s.links := rfl
@[simp] theorem State.wipe_routeGen (s : State) (pa n : Nat) : (s.wipe pa n).routeGen = s.routeGen := rfl
@[simp] theorem State.wipe_routes (s : State) (pa n : Nat) : (s.wipe pa n).routes = s.routes := rfl
@[simp] theorem State.wipe_retired (s : State) (pa n : Nat) : (s.wipe pa n).retired = s.retired := rfl
@[simp] theorem State.wipe_retiring (s : State) (pa n : Nat) : (s.wipe pa n).retiring = s.retiring := rfl
@[simp] theorem State.wipe_spares (s : State) (pa n : Nat) : (s.wipe pa n).spares = s.spares := rfl
@[simp] theorem State.wipe_dev (s : State) (pa n : Nat) : (s.wipe pa n).dev = s.dev := rfl
@[simp] theorem State.wipe_sync (s : State) (pa n : Nat) : (s.wipe pa n).sync = s.sync := rfl
@[simp] theorem State.wipe_firmware (s : State) (pa n : Nat) : (s.wipe pa n).firmware = s.firmware := rfl
@[simp] theorem State.wipe_nextTid (s : State) (pa n : Nat) : (s.wipe pa n).nextTid = s.nextTid := rfl
@[simp] theorem State.wipe_inflight (s : State) (pa n : Nat) : (s.wipe pa n).inflight = s.inflight := rfl
@[simp] theorem State.wipe_outbox (s : State) (pa n : Nat) : (s.wipe pa n).outbox = s.outbox := rfl
@[simp] theorem State.wipe_turn (s : State) (pa n : Nat) : (s.wipe pa n).turn = s.turn := rfl
@[simp] theorem State.wipe_fwTurn (s : State) (pa n : Nat) : (s.wipe pa n).fwTurn = s.fwTurn := rfl
@[simp] theorem State.wipe_serial (s : State) (pa n : Nat) : (s.wipe pa n).serial = s.serial := rfl

@[simp] theorem State.countErrors_cx (s : State) (level n : Nat) : (s.countErrors level n).cx = s.cx := rfl
@[simp] theorem State.countErrors_others (s : State) (level n : Nat) : (s.countErrors level n).others = s.others := rfl
@[simp] theorem State.countErrors_ready (s : State) (level n : Nat) : (s.countErrors level n).ready = s.ready := rfl
@[simp] theorem State.countErrors_beneath (s : State) (level n : Nat) : (s.countErrors level n).beneath = s.beneath := rfl
@[simp] theorem State.countErrors_cores (s : State) (level n : Nat) : (s.countErrors level n).cores = s.cores := rfl
@[simp] theorem State.countErrors_clusters (s : State) (level n : Nat) : (s.countErrors level n).clusters = s.clusters := rfl
@[simp] theorem State.countErrors_parts (s : State) (level n : Nat) : (s.countErrors level n).parts = s.parts := rfl
@[simp] theorem State.countErrors_mem (s : State) (level n : Nat) : (s.countErrors level n).mem = s.mem := rfl
@[simp] theorem State.countErrors_far (s : State) (level n : Nat) : (s.countErrors level n).far = s.far := rfl
@[simp] theorem State.countErrors_badWords (s : State) (level n : Nat) : (s.countErrors level n).badWords = s.badWords := rfl
@[simp] theorem State.countErrors_clock (s : State) (level n : Nat) : (s.countErrors level n).clock = s.clock := rfl
@[simp] theorem State.countErrors_actors (s : State) (level n : Nat) : (s.countErrors level n).actors = s.actors := rfl
@[simp] theorem State.countErrors_events (s : State) (level n : Nat) : (s.countErrors level n).events = s.events := rfl
@[simp] theorem State.countErrors_endpoints (s : State) (level n : Nat) : (s.countErrors level n).endpoints = s.endpoints := rfl
@[simp] theorem State.countErrors_farBindings (s : State) (level n : Nat) : (s.countErrors level n).farBindings = s.farBindings := rfl
@[simp] theorem State.countErrors_farMembers (s : State) (level n : Nat) : (s.countErrors level n).farMembers = s.farMembers := rfl
@[simp] theorem State.countErrors_registrations (s : State) (level n : Nat) : (s.countErrors level n).registrations = s.registrations := rfl
@[simp] theorem State.countErrors_farWaits (s : State) (level n : Nat) : (s.countErrors level n).farWaits = s.farWaits := rfl
@[simp] theorem State.countErrors_farRaises (s : State) (level n : Nat) : (s.countErrors level n).farRaises = s.farRaises := rfl
@[simp] theorem State.countErrors_subs (s : State) (level n : Nat) : (s.countErrors level n).subs = s.subs := rfl
@[simp] theorem State.countErrors_claims (s : State) (level n : Nat) : (s.countErrors level n).claims = s.claims := rfl
@[simp] theorem State.countErrors_cmds (s : State) (level n : Nat) : (s.countErrors level n).cmds = s.cmds := rfl
@[simp] theorem State.countErrors_programs (s : State) (level n : Nat) : (s.countErrors level n).programs = s.programs := rfl
@[simp] theorem State.countErrors_savedScans (s : State) (level n : Nat) : (s.countErrors level n).savedScans = s.savedScans := rfl
@[simp] theorem State.countErrors_chains (s : State) (level n : Nat) : (s.countErrors level n).chains = s.chains := rfl
@[simp] theorem State.countErrors_queues (s : State) (level n : Nat) : (s.countErrors level n).queues = s.queues := rfl
@[simp] theorem State.countErrors_access (s : State) (level n : Nat) : (s.countErrors level n).access = s.access := rfl
@[simp] theorem State.countErrors_stations (s : State) (level n : Nat) : (s.countErrors level n).stations = s.stations := rfl
@[simp] theorem State.countErrors_stationsDown (s : State) (level n : Nat) : (s.countErrors level n).stationsDown = s.stationsDown := rfl
@[simp] theorem State.countErrors_debugTable (s : State) (level n : Nat) : (s.countErrors level n).debugTable = s.debugTable := rfl
@[simp] theorem State.countErrors_links (s : State) (level n : Nat) : (s.countErrors level n).links = s.links := rfl
@[simp] theorem State.countErrors_routeGen (s : State) (level n : Nat) : (s.countErrors level n).routeGen = s.routeGen := rfl
@[simp] theorem State.countErrors_routes (s : State) (level n : Nat) : (s.countErrors level n).routes = s.routes := rfl
@[simp] theorem State.countErrors_retired (s : State) (level n : Nat) : (s.countErrors level n).retired = s.retired := rfl
@[simp] theorem State.countErrors_retiring (s : State) (level n : Nat) : (s.countErrors level n).retiring = s.retiring := rfl
@[simp] theorem State.countErrors_spares (s : State) (level n : Nat) : (s.countErrors level n).spares = s.spares := rfl
@[simp] theorem State.countErrors_dev (s : State) (level n : Nat) : (s.countErrors level n).dev = s.dev := rfl
@[simp] theorem State.countErrors_sync (s : State) (level n : Nat) : (s.countErrors level n).sync = s.sync := rfl
@[simp] theorem State.countErrors_firmware (s : State) (level n : Nat) : (s.countErrors level n).firmware = s.firmware := rfl
@[simp] theorem State.countErrors_nextTid (s : State) (level n : Nat) : (s.countErrors level n).nextTid = s.nextTid := rfl
@[simp] theorem State.countErrors_inflight (s : State) (level n : Nat) : (s.countErrors level n).inflight = s.inflight := rfl
@[simp] theorem State.countErrors_outbox (s : State) (level n : Nat) : (s.countErrors level n).outbox = s.outbox := rfl
@[simp] theorem State.countErrors_turn (s : State) (level n : Nat) : (s.countErrors level n).turn = s.turn := rfl
@[simp] theorem State.countErrors_fwTurn (s : State) (level n : Nat) : (s.countErrors level n).fwTurn = s.fwTurn := rfl
@[simp] theorem State.countErrors_serial (s : State) (level n : Nat) : (s.countErrors level n).serial = s.serial := rfl

@[simp] theorem State.withCtx_ready (s : State) (key : Nat) (f : Ctx → Ctx) : (s.withCtx key f).ready = s.ready := by
  unfold State.withCtx; split <;> rfl
@[simp] theorem State.withCtx_beneath (s : State) (key : Nat) (f : Ctx → Ctx) : (s.withCtx key f).beneath = s.beneath := by
  unfold State.withCtx; split <;> rfl
@[simp] theorem State.withCtx_cores (s : State) (key : Nat) (f : Ctx → Ctx) : (s.withCtx key f).cores = s.cores := by
  unfold State.withCtx; split <;> rfl
@[simp] theorem State.withCtx_clusters (s : State) (key : Nat) (f : Ctx → Ctx) : (s.withCtx key f).clusters = s.clusters := by
  unfold State.withCtx; split <;> rfl
@[simp] theorem State.withCtx_parts (s : State) (key : Nat) (f : Ctx → Ctx) : (s.withCtx key f).parts = s.parts := by
  unfold State.withCtx; split <;> rfl
@[simp] theorem State.withCtx_mem (s : State) (key : Nat) (f : Ctx → Ctx) : (s.withCtx key f).mem = s.mem := by
  unfold State.withCtx; split <;> rfl
@[simp] theorem State.withCtx_far (s : State) (key : Nat) (f : Ctx → Ctx) : (s.withCtx key f).far = s.far := by
  unfold State.withCtx; split <;> rfl
@[simp] theorem State.withCtx_badWords (s : State) (key : Nat) (f : Ctx → Ctx) : (s.withCtx key f).badWords = s.badWords := by
  unfold State.withCtx; split <;> rfl
@[simp] theorem State.withCtx_errors (s : State) (key : Nat) (f : Ctx → Ctx) : (s.withCtx key f).errors = s.errors := by
  unfold State.withCtx; split <;> rfl
@[simp] theorem State.withCtx_clock (s : State) (key : Nat) (f : Ctx → Ctx) : (s.withCtx key f).clock = s.clock := by
  unfold State.withCtx; split <;> rfl
@[simp] theorem State.withCtx_actors (s : State) (key : Nat) (f : Ctx → Ctx) : (s.withCtx key f).actors = s.actors := by
  unfold State.withCtx; split <;> rfl
@[simp] theorem State.withCtx_events (s : State) (key : Nat) (f : Ctx → Ctx) : (s.withCtx key f).events = s.events := by
  unfold State.withCtx; split <;> rfl
@[simp] theorem State.withCtx_endpoints (s : State) (key : Nat) (f : Ctx → Ctx) : (s.withCtx key f).endpoints = s.endpoints := by
  unfold State.withCtx; split <;> rfl
@[simp] theorem State.withCtx_farBindings (s : State) (key : Nat) (f : Ctx → Ctx) : (s.withCtx key f).farBindings = s.farBindings := by
  unfold State.withCtx; split <;> rfl
@[simp] theorem State.withCtx_farMembers (s : State) (key : Nat) (f : Ctx → Ctx) : (s.withCtx key f).farMembers = s.farMembers := by
  unfold State.withCtx; split <;> rfl
@[simp] theorem State.withCtx_registrations (s : State) (key : Nat) (f : Ctx → Ctx) : (s.withCtx key f).registrations = s.registrations := by
  unfold State.withCtx; split <;> rfl
@[simp] theorem State.withCtx_farWaits (s : State) (key : Nat) (f : Ctx → Ctx) : (s.withCtx key f).farWaits = s.farWaits := by
  unfold State.withCtx; split <;> rfl
@[simp] theorem State.withCtx_farRaises (s : State) (key : Nat) (f : Ctx → Ctx) : (s.withCtx key f).farRaises = s.farRaises := by
  unfold State.withCtx; split <;> rfl
@[simp] theorem State.withCtx_subs (s : State) (key : Nat) (f : Ctx → Ctx) : (s.withCtx key f).subs = s.subs := by
  unfold State.withCtx; split <;> rfl
@[simp] theorem State.withCtx_claims (s : State) (key : Nat) (f : Ctx → Ctx) : (s.withCtx key f).claims = s.claims := by
  unfold State.withCtx; split <;> rfl
@[simp] theorem State.withCtx_cmds (s : State) (key : Nat) (f : Ctx → Ctx) : (s.withCtx key f).cmds = s.cmds := by
  unfold State.withCtx; split <;> rfl
@[simp] theorem State.withCtx_programs (s : State) (key : Nat) (f : Ctx → Ctx) : (s.withCtx key f).programs = s.programs := by
  unfold State.withCtx; split <;> rfl
@[simp] theorem State.withCtx_savedScans (s : State) (key : Nat) (f : Ctx → Ctx) : (s.withCtx key f).savedScans = s.savedScans := by
  unfold State.withCtx; split <;> rfl
@[simp] theorem State.withCtx_chains (s : State) (key : Nat) (f : Ctx → Ctx) : (s.withCtx key f).chains = s.chains := by
  unfold State.withCtx; split <;> rfl
@[simp] theorem State.withCtx_queues (s : State) (key : Nat) (f : Ctx → Ctx) : (s.withCtx key f).queues = s.queues := by
  unfold State.withCtx; split <;> rfl
@[simp] theorem State.withCtx_access (s : State) (key : Nat) (f : Ctx → Ctx) : (s.withCtx key f).access = s.access := by
  unfold State.withCtx; split <;> rfl
@[simp] theorem State.withCtx_stations (s : State) (key : Nat) (f : Ctx → Ctx) : (s.withCtx key f).stations = s.stations := by
  unfold State.withCtx; split <;> rfl
@[simp] theorem State.withCtx_stationsDown (s : State) (key : Nat) (f : Ctx → Ctx) : (s.withCtx key f).stationsDown = s.stationsDown := by
  unfold State.withCtx; split <;> rfl
@[simp] theorem State.withCtx_debugTable (s : State) (key : Nat) (f : Ctx → Ctx) : (s.withCtx key f).debugTable = s.debugTable := by
  unfold State.withCtx; split <;> rfl
@[simp] theorem State.withCtx_links (s : State) (key : Nat) (f : Ctx → Ctx) : (s.withCtx key f).links = s.links := by
  unfold State.withCtx; split <;> rfl
@[simp] theorem State.withCtx_routeGen (s : State) (key : Nat) (f : Ctx → Ctx) : (s.withCtx key f).routeGen = s.routeGen := by
  unfold State.withCtx; split <;> rfl
@[simp] theorem State.withCtx_routes (s : State) (key : Nat) (f : Ctx → Ctx) : (s.withCtx key f).routes = s.routes := by
  unfold State.withCtx; split <;> rfl
@[simp] theorem State.withCtx_retired (s : State) (key : Nat) (f : Ctx → Ctx) : (s.withCtx key f).retired = s.retired := by
  unfold State.withCtx; split <;> rfl
@[simp] theorem State.withCtx_retiring (s : State) (key : Nat) (f : Ctx → Ctx) : (s.withCtx key f).retiring = s.retiring := by
  unfold State.withCtx; split <;> rfl
@[simp] theorem State.withCtx_spares (s : State) (key : Nat) (f : Ctx → Ctx) : (s.withCtx key f).spares = s.spares := by
  unfold State.withCtx; split <;> rfl
@[simp] theorem State.withCtx_dev (s : State) (key : Nat) (f : Ctx → Ctx) : (s.withCtx key f).dev = s.dev := by
  unfold State.withCtx; split <;> rfl
@[simp] theorem State.withCtx_sync (s : State) (key : Nat) (f : Ctx → Ctx) : (s.withCtx key f).sync = s.sync := by
  unfold State.withCtx; split <;> rfl
@[simp] theorem State.withCtx_firmware (s : State) (key : Nat) (f : Ctx → Ctx) : (s.withCtx key f).firmware = s.firmware := by
  unfold State.withCtx; split <;> rfl
@[simp] theorem State.withCtx_nextTid (s : State) (key : Nat) (f : Ctx → Ctx) : (s.withCtx key f).nextTid = s.nextTid := by
  unfold State.withCtx; split <;> rfl
@[simp] theorem State.withCtx_inflight (s : State) (key : Nat) (f : Ctx → Ctx) : (s.withCtx key f).inflight = s.inflight := by
  unfold State.withCtx; split <;> rfl
@[simp] theorem State.withCtx_outbox (s : State) (key : Nat) (f : Ctx → Ctx) : (s.withCtx key f).outbox = s.outbox := by
  unfold State.withCtx; split <;> rfl
@[simp] theorem State.withCtx_turn (s : State) (key : Nat) (f : Ctx → Ctx) : (s.withCtx key f).turn = s.turn := by
  unfold State.withCtx; split <;> rfl
@[simp] theorem State.withCtx_fwTurn (s : State) (key : Nat) (f : Ctx → Ctx) : (s.withCtx key f).fwTurn = s.fwTurn := by
  unfold State.withCtx; split <;> rfl
@[simp] theorem State.withCtx_serial (s : State) (key : Nat) (f : Ctx → Ctx) : (s.withCtx key f).serial = s.serial := by
  unfold State.withCtx; split <;> rfl

@[simp] theorem State.withTask_cores (s : State) (tid : Word) (f : Ctx → Ctx) : (s.withTask tid f).cores = s.cores := by
  unfold State.withTask; split <;> rfl
@[simp] theorem State.withTask_clusters (s : State) (tid : Word) (f : Ctx → Ctx) : (s.withTask tid f).clusters = s.clusters := by
  unfold State.withTask; split <;> rfl
@[simp] theorem State.withTask_parts (s : State) (tid : Word) (f : Ctx → Ctx) : (s.withTask tid f).parts = s.parts := by
  unfold State.withTask; split <;> rfl
@[simp] theorem State.withTask_mem (s : State) (tid : Word) (f : Ctx → Ctx) : (s.withTask tid f).mem = s.mem := by
  unfold State.withTask; split <;> rfl
@[simp] theorem State.withTask_far (s : State) (tid : Word) (f : Ctx → Ctx) : (s.withTask tid f).far = s.far := by
  unfold State.withTask; split <;> rfl
@[simp] theorem State.withTask_badWords (s : State) (tid : Word) (f : Ctx → Ctx) : (s.withTask tid f).badWords = s.badWords := by
  unfold State.withTask; split <;> rfl
@[simp] theorem State.withTask_errors (s : State) (tid : Word) (f : Ctx → Ctx) : (s.withTask tid f).errors = s.errors := by
  unfold State.withTask; split <;> rfl
@[simp] theorem State.withTask_clock (s : State) (tid : Word) (f : Ctx → Ctx) : (s.withTask tid f).clock = s.clock := by
  unfold State.withTask; split <;> rfl
@[simp] theorem State.withTask_actors (s : State) (tid : Word) (f : Ctx → Ctx) : (s.withTask tid f).actors = s.actors := by
  unfold State.withTask; split <;> rfl
@[simp] theorem State.withTask_events (s : State) (tid : Word) (f : Ctx → Ctx) : (s.withTask tid f).events = s.events := by
  unfold State.withTask; split <;> rfl
@[simp] theorem State.withTask_endpoints (s : State) (tid : Word) (f : Ctx → Ctx) : (s.withTask tid f).endpoints = s.endpoints := by
  unfold State.withTask; split <;> rfl
@[simp] theorem State.withTask_farBindings (s : State) (tid : Word) (f : Ctx → Ctx) : (s.withTask tid f).farBindings = s.farBindings := by
  unfold State.withTask; split <;> rfl
@[simp] theorem State.withTask_farMembers (s : State) (tid : Word) (f : Ctx → Ctx) : (s.withTask tid f).farMembers = s.farMembers := by
  unfold State.withTask; split <;> rfl
@[simp] theorem State.withTask_registrations (s : State) (tid : Word) (f : Ctx → Ctx) : (s.withTask tid f).registrations = s.registrations := by
  unfold State.withTask; split <;> rfl
@[simp] theorem State.withTask_farWaits (s : State) (tid : Word) (f : Ctx → Ctx) : (s.withTask tid f).farWaits = s.farWaits := by
  unfold State.withTask; split <;> rfl
@[simp] theorem State.withTask_farRaises (s : State) (tid : Word) (f : Ctx → Ctx) : (s.withTask tid f).farRaises = s.farRaises := by
  unfold State.withTask; split <;> rfl
@[simp] theorem State.withTask_subs (s : State) (tid : Word) (f : Ctx → Ctx) : (s.withTask tid f).subs = s.subs := by
  unfold State.withTask; split <;> rfl
@[simp] theorem State.withTask_claims (s : State) (tid : Word) (f : Ctx → Ctx) : (s.withTask tid f).claims = s.claims := by
  unfold State.withTask; split <;> rfl
@[simp] theorem State.withTask_cmds (s : State) (tid : Word) (f : Ctx → Ctx) : (s.withTask tid f).cmds = s.cmds := by
  unfold State.withTask; split <;> rfl
@[simp] theorem State.withTask_programs (s : State) (tid : Word) (f : Ctx → Ctx) : (s.withTask tid f).programs = s.programs := by
  unfold State.withTask; split <;> rfl
@[simp] theorem State.withTask_savedScans (s : State) (tid : Word) (f : Ctx → Ctx) : (s.withTask tid f).savedScans = s.savedScans := by
  unfold State.withTask; split <;> rfl
@[simp] theorem State.withTask_chains (s : State) (tid : Word) (f : Ctx → Ctx) : (s.withTask tid f).chains = s.chains := by
  unfold State.withTask; split <;> rfl
@[simp] theorem State.withTask_queues (s : State) (tid : Word) (f : Ctx → Ctx) : (s.withTask tid f).queues = s.queues := by
  unfold State.withTask; split <;> rfl
@[simp] theorem State.withTask_access (s : State) (tid : Word) (f : Ctx → Ctx) : (s.withTask tid f).access = s.access := by
  unfold State.withTask; split <;> rfl
@[simp] theorem State.withTask_stations (s : State) (tid : Word) (f : Ctx → Ctx) : (s.withTask tid f).stations = s.stations := by
  unfold State.withTask; split <;> rfl
@[simp] theorem State.withTask_stationsDown (s : State) (tid : Word) (f : Ctx → Ctx) : (s.withTask tid f).stationsDown = s.stationsDown := by
  unfold State.withTask; split <;> rfl
@[simp] theorem State.withTask_debugTable (s : State) (tid : Word) (f : Ctx → Ctx) : (s.withTask tid f).debugTable = s.debugTable := by
  unfold State.withTask; split <;> rfl
@[simp] theorem State.withTask_links (s : State) (tid : Word) (f : Ctx → Ctx) : (s.withTask tid f).links = s.links := by
  unfold State.withTask; split <;> rfl
@[simp] theorem State.withTask_routeGen (s : State) (tid : Word) (f : Ctx → Ctx) : (s.withTask tid f).routeGen = s.routeGen := by
  unfold State.withTask; split <;> rfl
@[simp] theorem State.withTask_routes (s : State) (tid : Word) (f : Ctx → Ctx) : (s.withTask tid f).routes = s.routes := by
  unfold State.withTask; split <;> rfl
@[simp] theorem State.withTask_retired (s : State) (tid : Word) (f : Ctx → Ctx) : (s.withTask tid f).retired = s.retired := by
  unfold State.withTask; split <;> rfl
@[simp] theorem State.withTask_retiring (s : State) (tid : Word) (f : Ctx → Ctx) : (s.withTask tid f).retiring = s.retiring := by
  unfold State.withTask; split <;> rfl
@[simp] theorem State.withTask_spares (s : State) (tid : Word) (f : Ctx → Ctx) : (s.withTask tid f).spares = s.spares := by
  unfold State.withTask; split <;> rfl
@[simp] theorem State.withTask_dev (s : State) (tid : Word) (f : Ctx → Ctx) : (s.withTask tid f).dev = s.dev := by
  unfold State.withTask; split <;> rfl
@[simp] theorem State.withTask_sync (s : State) (tid : Word) (f : Ctx → Ctx) : (s.withTask tid f).sync = s.sync := by
  unfold State.withTask; split <;> rfl
@[simp] theorem State.withTask_firmware (s : State) (tid : Word) (f : Ctx → Ctx) : (s.withTask tid f).firmware = s.firmware := by
  unfold State.withTask; split <;> rfl
@[simp] theorem State.withTask_nextTid (s : State) (tid : Word) (f : Ctx → Ctx) : (s.withTask tid f).nextTid = s.nextTid := by
  unfold State.withTask; split <;> rfl
@[simp] theorem State.withTask_inflight (s : State) (tid : Word) (f : Ctx → Ctx) : (s.withTask tid f).inflight = s.inflight := by
  unfold State.withTask; split <;> rfl
@[simp] theorem State.withTask_outbox (s : State) (tid : Word) (f : Ctx → Ctx) : (s.withTask tid f).outbox = s.outbox := by
  unfold State.withTask; split <;> rfl
@[simp] theorem State.withTask_turn (s : State) (tid : Word) (f : Ctx → Ctx) : (s.withTask tid f).turn = s.turn := by
  unfold State.withTask; split <;> rfl
@[simp] theorem State.withTask_fwTurn (s : State) (tid : Word) (f : Ctx → Ctx) : (s.withTask tid f).fwTurn = s.fwTurn := by
  unfold State.withTask; split <;> rfl
@[simp] theorem State.withTask_serial (s : State) (tid : Word) (f : Ctx → Ctx) : (s.withTask tid f).serial = s.serial := by
  unfold State.withTask; split <;> rfl

@[simp] theorem Ctx.writeX_key (c : Ctx) (r : Reg) (v : Word) : (c.writeX r v).key = c.key := by
  unfold Ctx.writeX; split <;> rfl
@[simp] theorem Ctx.writeX_part (c : Ctx) (r : Reg) (v : Word) : (c.writeX r v).part = c.part := by
  unfold Ctx.writeX; split <;> rfl
@[simp] theorem Ctx.writeX_run (c : Ctx) (r : Reg) (v : Word) : (c.writeX r v).run = c.run := by
  unfold Ctx.writeX; split <;> rfl
@[simp] theorem Ctx.writeX_v (c : Ctx) (r : Reg) (v : Word) : (c.writeX r v).v = c.v := by
  unfold Ctx.writeX; split <;> rfl
@[simp] theorem Ctx.writeX_m (c : Ctx) (r : Reg) (v : Word) : (c.writeX r v).m = c.m := by
  unfold Ctx.writeX; split <;> rfl
@[simp] theorem Ctx.writeX_ox (c : Ctx) (r : Reg) (v : Word) : (c.writeX r v).ox = c.ox := by
  unfold Ctx.writeX; split <;> rfl
@[simp] theorem Ctx.writeX_pc (c : Ctx) (r : Reg) (v : Word) : (c.writeX r v).pc = c.pc := by
  unfold Ctx.writeX; split <;> rfl
@[simp] theorem Ctx.writeX_pl (c : Ctx) (r : Reg) (v : Word) : (c.writeX r v).pl = c.pl := by
  unfold Ctx.writeX; split <;> rfl
@[simp] theorem Ctx.writeX_lao (c : Ctx) (r : Reg) (v : Word) : (c.writeX r v).lao = c.lao := by
  unfold Ctx.writeX; split <;> rfl
@[simp] theorem Ctx.writeX_rae (c : Ctx) (r : Reg) (v : Word) : (c.writeX r v).rae = c.rae := by
  unfold Ctx.writeX; split <;> rfl
@[simp] theorem Ctx.writeX_ss (c : Ctx) (r : Reg) (v : Word) : (c.writeX r v).ss = c.ss := by
  unfold Ctx.writeX; split <;> rfl
@[simp] theorem Ctx.writeX_xf64 (c : Ctx) (r : Reg) (v : Word) : (c.writeX r v).xf64 = c.xf64 := by
  unfold Ctx.writeX; split <;> rfl
@[simp] theorem Ctx.writeX_xsf (c : Ctx) (r : Reg) (v : Word) : (c.writeX r v).xsf = c.xsf := by
  unfold Ctx.writeX; split <;> rfl
@[simp] theorem Ctx.writeX_fflags (c : Ctx) (r : Reg) (v : Word) : (c.writeX r v).fflags = c.fflags := by
  unfold Ctx.writeX; split <;> rfl
@[simp] theorem Ctx.writeX_frm (c : Ctx) (r : Reg) (v : Word) : (c.writeX r v).frm = c.frm := by
  unfold Ctx.writeX; split <;> rfl
@[simp] theorem Ctx.writeX_seed (c : Ctx) (r : Reg) (v : Word) : (c.writeX r v).seed = c.seed := by
  unfold Ctx.writeX; split <;> rfl
@[simp] theorem Ctx.writeX_lcore (c : Ctx) (r : Reg) (v : Word) : (c.writeX r v).lcore = c.lcore := by
  unfold Ctx.writeX; split <;> rfl
@[simp] theorem Ctx.writeX_tag (c : Ctx) (r : Reg) (v : Word) : (c.writeX r v).tag = c.tag := by
  unfold Ctx.writeX; split <;> rfl
@[simp] theorem Ctx.writeX_dline (c : Ctx) (r : Reg) (v : Word) : (c.writeX r v).dline = c.dline := by
  unfold Ctx.writeX; split <;> rfl
@[simp] theorem Ctx.writeX_cls (c : Ctx) (r : Reg) (v : Word) : (c.writeX r v).cls = c.cls := by
  unfold Ctx.writeX; split <;> rfl
@[simp] theorem Ctx.writeX_eff (c : Ctx) (r : Reg) (v : Word) : (c.writeX r v).eff = c.eff := by
  unfold Ctx.writeX; split <;> rfl
@[simp] theorem Ctx.writeX_raised (c : Ctx) (r : Reg) (v : Word) : (c.writeX r v).raised = c.raised := by
  unfold Ctx.writeX; split <;> rfl
@[simp] theorem Ctx.writeX_bound (c : Ctx) (r : Reg) (v : Word) : (c.writeX r v).bound = c.bound := by
  unfold Ctx.writeX; split <;> rfl
@[simp] theorem Ctx.writeX_domain (c : Ctx) (r : Reg) (v : Word) : (c.writeX r v).domain = c.domain := by
  unfold Ctx.writeX; split <;> rfl
@[simp] theorem Ctx.writeX_members (c : Ctx) (r : Reg) (v : Word) : (c.writeX r v).members = c.members := by
  unfold Ctx.writeX; split <;> rfl
@[simp] theorem Ctx.writeX_leader (c : Ctx) (r : Reg) (v : Word) : (c.writeX r v).leader = c.leader := by
  unfold Ctx.writeX; split <;> rfl
@[simp] theorem Ctx.writeX_role (c : Ctx) (r : Reg) (v : Word) : (c.writeX r v).role = c.role := by
  unfold Ctx.writeX; split <;> rfl
@[simp] theorem Ctx.writeX_unack (c : Ctx) (r : Reg) (v : Word) : (c.writeX r v).unack = c.unack := by
  unfold Ctx.writeX; split <;> rfl
@[simp] theorem Ctx.writeX_brk (c : Ctx) (r : Reg) (v : Word) : (c.writeX r v).brk = c.brk := by
  unfold Ctx.writeX; split <;> rfl
@[simp] theorem Ctx.writeX_pcnt (c : Ctx) (r : Reg) (v : Word) : (c.writeX r v).pcnt = c.pcnt := by
  unfold Ctx.writeX; split <;> rfl
@[simp] theorem Ctx.writeX_haddr (c : Ctx) (r : Reg) (v : Word) : (c.writeX r v).haddr = c.haddr := by
  unfold Ctx.writeX; split <;> rfl
@[simp] theorem Ctx.writeX_grp (c : Ctx) (r : Reg) (v : Word) : (c.writeX r v).grp = c.grp := by
  unfold Ctx.writeX; split <;> rfl
@[simp] theorem Ctx.writeX_daccsel (c : Ctx) (r : Reg) (v : Word) : (c.writeX r v).daccsel = c.daccsel := by
  unfold Ctx.writeX; split <;> rfl
@[simp] theorem Ctx.writeX_dacc (c : Ctx) (r : Reg) (v : Word) : (c.writeX r v).dacc = c.dacc := by
  unfold Ctx.writeX; split <;> rfl
@[simp] theorem Ctx.writeX_pidx (c : Ctx) (r : Reg) (v : Word) : (c.writeX r v).pidx = c.pidx := by
  unfold Ctx.writeX; split <;> rfl
@[simp] theorem Ctx.writeX_cause (c : Ctx) (r : Reg) (v : Word) : (c.writeX r v).cause = c.cause := by
  unfold Ctx.writeX; split <;> rfl
@[simp] theorem Ctx.writeX_epc (c : Ctx) (r : Reg) (v : Word) : (c.writeX r v).epc = c.epc := by
  unfold Ctx.writeX; split <;> rfl
@[simp] theorem Ctx.writeX_eseq (c : Ctx) (r : Reg) (v : Word) : (c.writeX r v).eseq = c.eseq := by
  unfold Ctx.writeX; split <;> rfl
@[simp] theorem Ctx.writeX_frec (c : Ctx) (r : Reg) (v : Word) : (c.writeX r v).frec = c.frec := by
  unfold Ctx.writeX; split <;> rfl
@[simp] theorem Ctx.writeX_tid (c : Ctx) (r : Reg) (v : Word) : (c.writeX r v).tid = c.tid := by
  unfold Ctx.writeX; split <;> rfl
@[simp] theorem Ctx.writeX_nextSeq (c : Ctx) (r : Reg) (v : Word) : (c.writeX r v).nextSeq = c.nextSeq := by
  unfold Ctx.writeX; split <;> rfl
@[simp] theorem Ctx.writeX_ring (c : Ctx) (r : Reg) (v : Word) : (c.writeX r v).ring = c.ring := by
  unfold Ctx.writeX; split <;> rfl
@[simp] theorem Ctx.writeX_bpa (c : Ctx) (r : Reg) (v : Word) : (c.writeX r v).bpa = c.bpa := by
  unfold Ctx.writeX; split <;> rfl
@[simp] theorem Ctx.writeX_wpa (c : Ctx) (r : Reg) (v : Word) : (c.writeX r v).wpa = c.wpa := by
  unfold Ctx.writeX; split <;> rfl
@[simp] theorem Ctx.writeX_mcmdErr (c : Ctx) (r : Reg) (v : Word) : (c.writeX r v).mcmdErr = c.mcmdErr := by
  unfold Ctx.writeX; split <;> rfl
@[simp] theorem Ctx.writeX_mcmdOff (c : Ctx) (r : Reg) (v : Word) : (c.writeX r v).mcmdOff = c.mcmdOff := by
  unfold Ctx.writeX; split <;> rfl
@[simp] theorem Ctx.writeX_mdat (c : Ctx) (r : Reg) (v : Word) : (c.writeX r v).mdat = c.mdat := by
  unfold Ctx.writeX; split <;> rfl
@[simp] theorem Ctx.writeX_kept (c : Ctx) (r : Reg) (v : Word) : (c.writeX r v).kept = c.kept := by
  unfold Ctx.writeX; split <;> rfl
@[simp] theorem Ctx.writeX_faults (c : Ctx) (r : Reg) (v : Word) : (c.writeX r v).faults = c.faults := by
  unfold Ctx.writeX; split <;> rfl
@[simp] theorem Ctx.writeX_records (c : Ctx) (r : Reg) (v : Word) : (c.writeX r v).records = c.records := by
  unfold Ctx.writeX; split <;> rfl
@[simp] theorem Ctx.writeX_slots (c : Ctx) (r : Reg) (v : Word) : (c.writeX r v).slots = c.slots := by
  unfold Ctx.writeX; split <;> rfl
@[simp] theorem Ctx.writeX_replay (c : Ctx) (r : Reg) (v : Word) : (c.writeX r v).replay = c.replay := by
  unfold Ctx.writeX; split <;> rfl
@[simp] theorem Ctx.writeX_watchHit (c : Ctx) (r : Reg) (v : Word) : (c.writeX r v).watchHit = c.watchHit := by
  unfold Ctx.writeX; split <;> rfl
@[simp] theorem Ctx.writeX_stepDue (c : Ctx) (r : Reg) (v : Word) : (c.writeX r v).stepDue = c.stepDue := by
  unfold Ctx.writeX; split <;> rfl
@[simp] theorem Ctx.writeX_staging (c : Ctx) (r : Reg) (v : Word) : (c.writeX r v).staging = c.staging := by
  unfold Ctx.writeX; split <;> rfl
@[simp] theorem Ctx.writeX_pends (c : Ctx) (r : Reg) (v : Word) : (c.writeX r v).pends = c.pends := by
  unfold Ctx.writeX; split <;> rfl
@[simp] theorem Ctx.writeX_root (c : Ctx) (r : Reg) (v : Word) : (c.writeX r v).root = c.root := by
  unfold Ctx.writeX; split <;> rfl
@[simp] theorem Ctx.writeX_late (c : Ctx) (r : Reg) (v : Word) : (c.writeX r v).late = c.late := by
  unfold Ctx.writeX; split <;> rfl
@[simp] theorem Ctx.writeX_actor (c : Ctx) (r : Reg) (v : Word) : (c.writeX r v).actor = c.actor := by
  unfold Ctx.writeX; split <;> rfl
@[simp] theorem Ctx.writeX_parent (c : Ctx) (r : Reg) (v : Word) : (c.writeX r v).parent = c.parent := by
  unfold Ctx.writeX; split <;> rfl
@[simp] theorem Ctx.writeX_children (c : Ctx) (r : Reg) (v : Word) : (c.writeX r v).children = c.children := by
  unfold Ctx.writeX; split <;> rfl
@[simp] theorem Ctx.writeX_joinable (c : Ctx) (r : Reg) (v : Word) : (c.writeX r v).joinable = c.joinable := by
  unfold Ctx.writeX; split <;> rfl
@[simp] theorem Ctx.writeX_forkScope (c : Ctx) (r : Reg) (v : Word) : (c.writeX r v).forkScope = c.forkScope := by
  unfold Ctx.writeX; split <;> rfl
@[simp] theorem Ctx.writeX_entryTarget (c : Ctx) (r : Reg) (v : Word) : (c.writeX r v).entryTarget = c.entryTarget := by
  unfold Ctx.writeX; split <;> rfl
@[simp] theorem Ctx.writeX_entrySender (c : Ctx) (r : Reg) (v : Word) : (c.writeX r v).entrySender = c.entrySender := by
  unfold Ctx.writeX; split <;> rfl
@[simp] theorem Ctx.writeX_queue (c : Ctx) (r : Reg) (v : Word) : (c.writeX r v).queue = c.queue := by
  unfold Ctx.writeX; split <;> rfl
@[simp] theorem Ctx.writeX_packet (c : Ctx) (r : Reg) (v : Word) : (c.writeX r v).packet = c.packet := by
  unfold Ctx.writeX; split <;> rfl
@[simp] theorem Ctx.writeX_ctr (c : Ctx) (r : Reg) (v : Word) : (c.writeX r v).ctr = c.ctr := by
  unfold Ctx.writeX; split <;> rfl
@[simp] theorem Ctx.writeX_runMax (c : Ctx) (r : Reg) (v : Word) : (c.writeX r v).runMax = c.runMax := by
  unfold Ctx.writeX; split <;> rfl
@[simp] theorem Ctx.writeX_backfill (c : Ctx) (r : Reg) (v : Word) : (c.writeX r v).backfill = c.backfill := by
  unfold Ctx.writeX; split <;> rfl
@[simp] theorem Ctx.writeX_startedAt (c : Ctx) (r : Reg) (v : Word) : (c.writeX r v).startedAt = c.startedAt := by
  unfold Ctx.writeX; split <;> rfl
@[simp] theorem Ctx.writeX_gang (c : Ctx) (r : Reg) (v : Word) : (c.writeX r v).gang = c.gang := by
  unfold Ctx.writeX; split <;> rfl
@[simp] theorem Ctx.writeX_handles (c : Ctx) (r : Reg) (v : Word) : (c.writeX r v).handles = c.handles := by
  unfold Ctx.writeX; split <;> rfl
@[simp] theorem Ctx.writeX_decisions (c : Ctx) (r : Reg) (v : Word) : (c.writeX r v).decisions = c.decisions := by
  unfold Ctx.writeX; split <;> rfl
@[simp] theorem Ctx.writeX_target (c : Ctx) (r : Reg) (v : Word) : (c.writeX r v).target = c.target := by
  unfold Ctx.writeX; split <;> rfl
@[simp] theorem Ctx.writeX_epoch (c : Ctx) (r : Reg) (v : Word) : (c.writeX r v).epoch = c.epoch := by
  unfold Ctx.writeX; split <;> rfl
@[simp] theorem Ctx.writeX_sysEpoch (c : Ctx) (r : Reg) (v : Word) : (c.writeX r v).sysEpoch = c.sysEpoch := by
  unfold Ctx.writeX; split <;> rfl
@[simp] theorem Ctx.writeX_forwarded (c : Ctx) (r : Reg) (v : Word) : (c.writeX r v).forwarded = c.forwarded := by
  unfold Ctx.writeX; split <;> rfl
@[simp] theorem Ctx.writeX_limit (c : Ctx) (r : Reg) (v : Word) : (c.writeX r v).limit = c.limit := by
  unfold Ctx.writeX; split <;> rfl

@[simp] theorem Ctx.writeV_key (c : Ctx) (r : BitVec 4) (v : VWord) : (c.writeV r v).key = c.key := rfl
@[simp] theorem Ctx.writeV_part (c : Ctx) (r : BitVec 4) (v : VWord) : (c.writeV r v).part = c.part := rfl
@[simp] theorem Ctx.writeV_run (c : Ctx) (r : BitVec 4) (v : VWord) : (c.writeV r v).run = c.run := rfl
@[simp] theorem Ctx.writeV_x (c : Ctx) (r : BitVec 4) (v : VWord) : (c.writeV r v).x = c.x := rfl
@[simp] theorem Ctx.writeV_m (c : Ctx) (r : BitVec 4) (v : VWord) : (c.writeV r v).m = c.m := rfl
@[simp] theorem Ctx.writeV_ox (c : Ctx) (r : BitVec 4) (v : VWord) : (c.writeV r v).ox = c.ox := rfl
@[simp] theorem Ctx.writeV_pc (c : Ctx) (r : BitVec 4) (v : VWord) : (c.writeV r v).pc = c.pc := rfl
@[simp] theorem Ctx.writeV_pl (c : Ctx) (r : BitVec 4) (v : VWord) : (c.writeV r v).pl = c.pl := rfl
@[simp] theorem Ctx.writeV_lao (c : Ctx) (r : BitVec 4) (v : VWord) : (c.writeV r v).lao = c.lao := rfl
@[simp] theorem Ctx.writeV_rae (c : Ctx) (r : BitVec 4) (v : VWord) : (c.writeV r v).rae = c.rae := rfl
@[simp] theorem Ctx.writeV_ss (c : Ctx) (r : BitVec 4) (v : VWord) : (c.writeV r v).ss = c.ss := rfl
@[simp] theorem Ctx.writeV_xf64 (c : Ctx) (r : BitVec 4) (v : VWord) : (c.writeV r v).xf64 = c.xf64 := rfl
@[simp] theorem Ctx.writeV_xsf (c : Ctx) (r : BitVec 4) (v : VWord) : (c.writeV r v).xsf = c.xsf := rfl
@[simp] theorem Ctx.writeV_fflags (c : Ctx) (r : BitVec 4) (v : VWord) : (c.writeV r v).fflags = c.fflags := rfl
@[simp] theorem Ctx.writeV_frm (c : Ctx) (r : BitVec 4) (v : VWord) : (c.writeV r v).frm = c.frm := rfl
@[simp] theorem Ctx.writeV_seed (c : Ctx) (r : BitVec 4) (v : VWord) : (c.writeV r v).seed = c.seed := rfl
@[simp] theorem Ctx.writeV_lcore (c : Ctx) (r : BitVec 4) (v : VWord) : (c.writeV r v).lcore = c.lcore := rfl
@[simp] theorem Ctx.writeV_tag (c : Ctx) (r : BitVec 4) (v : VWord) : (c.writeV r v).tag = c.tag := rfl
@[simp] theorem Ctx.writeV_dline (c : Ctx) (r : BitVec 4) (v : VWord) : (c.writeV r v).dline = c.dline := rfl
@[simp] theorem Ctx.writeV_cls (c : Ctx) (r : BitVec 4) (v : VWord) : (c.writeV r v).cls = c.cls := rfl
@[simp] theorem Ctx.writeV_eff (c : Ctx) (r : BitVec 4) (v : VWord) : (c.writeV r v).eff = c.eff := rfl
@[simp] theorem Ctx.writeV_raised (c : Ctx) (r : BitVec 4) (v : VWord) : (c.writeV r v).raised = c.raised := rfl
@[simp] theorem Ctx.writeV_bound (c : Ctx) (r : BitVec 4) (v : VWord) : (c.writeV r v).bound = c.bound := rfl
@[simp] theorem Ctx.writeV_domain (c : Ctx) (r : BitVec 4) (v : VWord) : (c.writeV r v).domain = c.domain := rfl
@[simp] theorem Ctx.writeV_members (c : Ctx) (r : BitVec 4) (v : VWord) : (c.writeV r v).members = c.members := rfl
@[simp] theorem Ctx.writeV_leader (c : Ctx) (r : BitVec 4) (v : VWord) : (c.writeV r v).leader = c.leader := rfl
@[simp] theorem Ctx.writeV_role (c : Ctx) (r : BitVec 4) (v : VWord) : (c.writeV r v).role = c.role := rfl
@[simp] theorem Ctx.writeV_unack (c : Ctx) (r : BitVec 4) (v : VWord) : (c.writeV r v).unack = c.unack := rfl
@[simp] theorem Ctx.writeV_brk (c : Ctx) (r : BitVec 4) (v : VWord) : (c.writeV r v).brk = c.brk := rfl
@[simp] theorem Ctx.writeV_pcnt (c : Ctx) (r : BitVec 4) (v : VWord) : (c.writeV r v).pcnt = c.pcnt := rfl
@[simp] theorem Ctx.writeV_haddr (c : Ctx) (r : BitVec 4) (v : VWord) : (c.writeV r v).haddr = c.haddr := rfl
@[simp] theorem Ctx.writeV_grp (c : Ctx) (r : BitVec 4) (v : VWord) : (c.writeV r v).grp = c.grp := rfl
@[simp] theorem Ctx.writeV_daccsel (c : Ctx) (r : BitVec 4) (v : VWord) : (c.writeV r v).daccsel = c.daccsel := rfl
@[simp] theorem Ctx.writeV_dacc (c : Ctx) (r : BitVec 4) (v : VWord) : (c.writeV r v).dacc = c.dacc := rfl
@[simp] theorem Ctx.writeV_pidx (c : Ctx) (r : BitVec 4) (v : VWord) : (c.writeV r v).pidx = c.pidx := rfl
@[simp] theorem Ctx.writeV_cause (c : Ctx) (r : BitVec 4) (v : VWord) : (c.writeV r v).cause = c.cause := rfl
@[simp] theorem Ctx.writeV_epc (c : Ctx) (r : BitVec 4) (v : VWord) : (c.writeV r v).epc = c.epc := rfl
@[simp] theorem Ctx.writeV_eseq (c : Ctx) (r : BitVec 4) (v : VWord) : (c.writeV r v).eseq = c.eseq := rfl
@[simp] theorem Ctx.writeV_frec (c : Ctx) (r : BitVec 4) (v : VWord) : (c.writeV r v).frec = c.frec := rfl
@[simp] theorem Ctx.writeV_tid (c : Ctx) (r : BitVec 4) (v : VWord) : (c.writeV r v).tid = c.tid := rfl
@[simp] theorem Ctx.writeV_nextSeq (c : Ctx) (r : BitVec 4) (v : VWord) : (c.writeV r v).nextSeq = c.nextSeq := rfl
@[simp] theorem Ctx.writeV_ring (c : Ctx) (r : BitVec 4) (v : VWord) : (c.writeV r v).ring = c.ring := rfl
@[simp] theorem Ctx.writeV_bpa (c : Ctx) (r : BitVec 4) (v : VWord) : (c.writeV r v).bpa = c.bpa := rfl
@[simp] theorem Ctx.writeV_wpa (c : Ctx) (r : BitVec 4) (v : VWord) : (c.writeV r v).wpa = c.wpa := rfl
@[simp] theorem Ctx.writeV_mcmdErr (c : Ctx) (r : BitVec 4) (v : VWord) : (c.writeV r v).mcmdErr = c.mcmdErr := rfl
@[simp] theorem Ctx.writeV_mcmdOff (c : Ctx) (r : BitVec 4) (v : VWord) : (c.writeV r v).mcmdOff = c.mcmdOff := rfl
@[simp] theorem Ctx.writeV_mdat (c : Ctx) (r : BitVec 4) (v : VWord) : (c.writeV r v).mdat = c.mdat := rfl
@[simp] theorem Ctx.writeV_kept (c : Ctx) (r : BitVec 4) (v : VWord) : (c.writeV r v).kept = c.kept := rfl
@[simp] theorem Ctx.writeV_faults (c : Ctx) (r : BitVec 4) (v : VWord) : (c.writeV r v).faults = c.faults := rfl
@[simp] theorem Ctx.writeV_records (c : Ctx) (r : BitVec 4) (v : VWord) : (c.writeV r v).records = c.records := rfl
@[simp] theorem Ctx.writeV_slots (c : Ctx) (r : BitVec 4) (v : VWord) : (c.writeV r v).slots = c.slots := rfl
@[simp] theorem Ctx.writeV_replay (c : Ctx) (r : BitVec 4) (v : VWord) : (c.writeV r v).replay = c.replay := rfl
@[simp] theorem Ctx.writeV_watchHit (c : Ctx) (r : BitVec 4) (v : VWord) : (c.writeV r v).watchHit = c.watchHit := rfl
@[simp] theorem Ctx.writeV_stepDue (c : Ctx) (r : BitVec 4) (v : VWord) : (c.writeV r v).stepDue = c.stepDue := rfl
@[simp] theorem Ctx.writeV_staging (c : Ctx) (r : BitVec 4) (v : VWord) : (c.writeV r v).staging = c.staging := rfl
@[simp] theorem Ctx.writeV_pends (c : Ctx) (r : BitVec 4) (v : VWord) : (c.writeV r v).pends = c.pends := rfl
@[simp] theorem Ctx.writeV_root (c : Ctx) (r : BitVec 4) (v : VWord) : (c.writeV r v).root = c.root := rfl
@[simp] theorem Ctx.writeV_late (c : Ctx) (r : BitVec 4) (v : VWord) : (c.writeV r v).late = c.late := rfl
@[simp] theorem Ctx.writeV_actor (c : Ctx) (r : BitVec 4) (v : VWord) : (c.writeV r v).actor = c.actor := rfl
@[simp] theorem Ctx.writeV_parent (c : Ctx) (r : BitVec 4) (v : VWord) : (c.writeV r v).parent = c.parent := rfl
@[simp] theorem Ctx.writeV_children (c : Ctx) (r : BitVec 4) (v : VWord) : (c.writeV r v).children = c.children := rfl
@[simp] theorem Ctx.writeV_joinable (c : Ctx) (r : BitVec 4) (v : VWord) : (c.writeV r v).joinable = c.joinable := rfl
@[simp] theorem Ctx.writeV_forkScope (c : Ctx) (r : BitVec 4) (v : VWord) : (c.writeV r v).forkScope = c.forkScope := rfl
@[simp] theorem Ctx.writeV_entryTarget (c : Ctx) (r : BitVec 4) (v : VWord) : (c.writeV r v).entryTarget = c.entryTarget := rfl
@[simp] theorem Ctx.writeV_entrySender (c : Ctx) (r : BitVec 4) (v : VWord) : (c.writeV r v).entrySender = c.entrySender := rfl
@[simp] theorem Ctx.writeV_queue (c : Ctx) (r : BitVec 4) (v : VWord) : (c.writeV r v).queue = c.queue := rfl
@[simp] theorem Ctx.writeV_packet (c : Ctx) (r : BitVec 4) (v : VWord) : (c.writeV r v).packet = c.packet := rfl
@[simp] theorem Ctx.writeV_ctr (c : Ctx) (r : BitVec 4) (v : VWord) : (c.writeV r v).ctr = c.ctr := rfl
@[simp] theorem Ctx.writeV_runMax (c : Ctx) (r : BitVec 4) (v : VWord) : (c.writeV r v).runMax = c.runMax := rfl
@[simp] theorem Ctx.writeV_backfill (c : Ctx) (r : BitVec 4) (v : VWord) : (c.writeV r v).backfill = c.backfill := rfl
@[simp] theorem Ctx.writeV_startedAt (c : Ctx) (r : BitVec 4) (v : VWord) : (c.writeV r v).startedAt = c.startedAt := rfl
@[simp] theorem Ctx.writeV_gang (c : Ctx) (r : BitVec 4) (v : VWord) : (c.writeV r v).gang = c.gang := rfl
@[simp] theorem Ctx.writeV_handles (c : Ctx) (r : BitVec 4) (v : VWord) : (c.writeV r v).handles = c.handles := rfl
@[simp] theorem Ctx.writeV_decisions (c : Ctx) (r : BitVec 4) (v : VWord) : (c.writeV r v).decisions = c.decisions := rfl
@[simp] theorem Ctx.writeV_target (c : Ctx) (r : BitVec 4) (v : VWord) : (c.writeV r v).target = c.target := rfl
@[simp] theorem Ctx.writeV_epoch (c : Ctx) (r : BitVec 4) (v : VWord) : (c.writeV r v).epoch = c.epoch := rfl
@[simp] theorem Ctx.writeV_sysEpoch (c : Ctx) (r : BitVec 4) (v : VWord) : (c.writeV r v).sysEpoch = c.sysEpoch := rfl
@[simp] theorem Ctx.writeV_forwarded (c : Ctx) (r : BitVec 4) (v : VWord) : (c.writeV r v).forwarded = c.forwarded := rfl
@[simp] theorem Ctx.writeV_limit (c : Ctx) (r : BitVec 4) (v : VWord) : (c.writeV r v).limit = c.limit := rfl

@[simp] theorem Ctx.writeM_key (c : Ctx) (r : BitVec 3) (v : MWord) : (c.writeM r v).key = c.key := by
  unfold Ctx.writeM; split <;> rfl
@[simp] theorem Ctx.writeM_part (c : Ctx) (r : BitVec 3) (v : MWord) : (c.writeM r v).part = c.part := by
  unfold Ctx.writeM; split <;> rfl
@[simp] theorem Ctx.writeM_run (c : Ctx) (r : BitVec 3) (v : MWord) : (c.writeM r v).run = c.run := by
  unfold Ctx.writeM; split <;> rfl
@[simp] theorem Ctx.writeM_x (c : Ctx) (r : BitVec 3) (v : MWord) : (c.writeM r v).x = c.x := by
  unfold Ctx.writeM; split <;> rfl
@[simp] theorem Ctx.writeM_v (c : Ctx) (r : BitVec 3) (v : MWord) : (c.writeM r v).v = c.v := by
  unfold Ctx.writeM; split <;> rfl
@[simp] theorem Ctx.writeM_ox (c : Ctx) (r : BitVec 3) (v : MWord) : (c.writeM r v).ox = c.ox := by
  unfold Ctx.writeM; split <;> rfl
@[simp] theorem Ctx.writeM_pc (c : Ctx) (r : BitVec 3) (v : MWord) : (c.writeM r v).pc = c.pc := by
  unfold Ctx.writeM; split <;> rfl
@[simp] theorem Ctx.writeM_pl (c : Ctx) (r : BitVec 3) (v : MWord) : (c.writeM r v).pl = c.pl := by
  unfold Ctx.writeM; split <;> rfl
@[simp] theorem Ctx.writeM_lao (c : Ctx) (r : BitVec 3) (v : MWord) : (c.writeM r v).lao = c.lao := by
  unfold Ctx.writeM; split <;> rfl
@[simp] theorem Ctx.writeM_rae (c : Ctx) (r : BitVec 3) (v : MWord) : (c.writeM r v).rae = c.rae := by
  unfold Ctx.writeM; split <;> rfl
@[simp] theorem Ctx.writeM_ss (c : Ctx) (r : BitVec 3) (v : MWord) : (c.writeM r v).ss = c.ss := by
  unfold Ctx.writeM; split <;> rfl
@[simp] theorem Ctx.writeM_xf64 (c : Ctx) (r : BitVec 3) (v : MWord) : (c.writeM r v).xf64 = c.xf64 := by
  unfold Ctx.writeM; split <;> rfl
@[simp] theorem Ctx.writeM_xsf (c : Ctx) (r : BitVec 3) (v : MWord) : (c.writeM r v).xsf = c.xsf := by
  unfold Ctx.writeM; split <;> rfl
@[simp] theorem Ctx.writeM_fflags (c : Ctx) (r : BitVec 3) (v : MWord) : (c.writeM r v).fflags = c.fflags := by
  unfold Ctx.writeM; split <;> rfl
@[simp] theorem Ctx.writeM_frm (c : Ctx) (r : BitVec 3) (v : MWord) : (c.writeM r v).frm = c.frm := by
  unfold Ctx.writeM; split <;> rfl
@[simp] theorem Ctx.writeM_seed (c : Ctx) (r : BitVec 3) (v : MWord) : (c.writeM r v).seed = c.seed := by
  unfold Ctx.writeM; split <;> rfl
@[simp] theorem Ctx.writeM_lcore (c : Ctx) (r : BitVec 3) (v : MWord) : (c.writeM r v).lcore = c.lcore := by
  unfold Ctx.writeM; split <;> rfl
@[simp] theorem Ctx.writeM_tag (c : Ctx) (r : BitVec 3) (v : MWord) : (c.writeM r v).tag = c.tag := by
  unfold Ctx.writeM; split <;> rfl
@[simp] theorem Ctx.writeM_dline (c : Ctx) (r : BitVec 3) (v : MWord) : (c.writeM r v).dline = c.dline := by
  unfold Ctx.writeM; split <;> rfl
@[simp] theorem Ctx.writeM_cls (c : Ctx) (r : BitVec 3) (v : MWord) : (c.writeM r v).cls = c.cls := by
  unfold Ctx.writeM; split <;> rfl
@[simp] theorem Ctx.writeM_eff (c : Ctx) (r : BitVec 3) (v : MWord) : (c.writeM r v).eff = c.eff := by
  unfold Ctx.writeM; split <;> rfl
@[simp] theorem Ctx.writeM_raised (c : Ctx) (r : BitVec 3) (v : MWord) : (c.writeM r v).raised = c.raised := by
  unfold Ctx.writeM; split <;> rfl
@[simp] theorem Ctx.writeM_bound (c : Ctx) (r : BitVec 3) (v : MWord) : (c.writeM r v).bound = c.bound := by
  unfold Ctx.writeM; split <;> rfl
@[simp] theorem Ctx.writeM_domain (c : Ctx) (r : BitVec 3) (v : MWord) : (c.writeM r v).domain = c.domain := by
  unfold Ctx.writeM; split <;> rfl
@[simp] theorem Ctx.writeM_members (c : Ctx) (r : BitVec 3) (v : MWord) : (c.writeM r v).members = c.members := by
  unfold Ctx.writeM; split <;> rfl
@[simp] theorem Ctx.writeM_leader (c : Ctx) (r : BitVec 3) (v : MWord) : (c.writeM r v).leader = c.leader := by
  unfold Ctx.writeM; split <;> rfl
@[simp] theorem Ctx.writeM_role (c : Ctx) (r : BitVec 3) (v : MWord) : (c.writeM r v).role = c.role := by
  unfold Ctx.writeM; split <;> rfl
@[simp] theorem Ctx.writeM_unack (c : Ctx) (r : BitVec 3) (v : MWord) : (c.writeM r v).unack = c.unack := by
  unfold Ctx.writeM; split <;> rfl
@[simp] theorem Ctx.writeM_brk (c : Ctx) (r : BitVec 3) (v : MWord) : (c.writeM r v).brk = c.brk := by
  unfold Ctx.writeM; split <;> rfl
@[simp] theorem Ctx.writeM_pcnt (c : Ctx) (r : BitVec 3) (v : MWord) : (c.writeM r v).pcnt = c.pcnt := by
  unfold Ctx.writeM; split <;> rfl
@[simp] theorem Ctx.writeM_haddr (c : Ctx) (r : BitVec 3) (v : MWord) : (c.writeM r v).haddr = c.haddr := by
  unfold Ctx.writeM; split <;> rfl
@[simp] theorem Ctx.writeM_grp (c : Ctx) (r : BitVec 3) (v : MWord) : (c.writeM r v).grp = c.grp := by
  unfold Ctx.writeM; split <;> rfl
@[simp] theorem Ctx.writeM_daccsel (c : Ctx) (r : BitVec 3) (v : MWord) : (c.writeM r v).daccsel = c.daccsel := by
  unfold Ctx.writeM; split <;> rfl
@[simp] theorem Ctx.writeM_dacc (c : Ctx) (r : BitVec 3) (v : MWord) : (c.writeM r v).dacc = c.dacc := by
  unfold Ctx.writeM; split <;> rfl
@[simp] theorem Ctx.writeM_pidx (c : Ctx) (r : BitVec 3) (v : MWord) : (c.writeM r v).pidx = c.pidx := by
  unfold Ctx.writeM; split <;> rfl
@[simp] theorem Ctx.writeM_cause (c : Ctx) (r : BitVec 3) (v : MWord) : (c.writeM r v).cause = c.cause := by
  unfold Ctx.writeM; split <;> rfl
@[simp] theorem Ctx.writeM_epc (c : Ctx) (r : BitVec 3) (v : MWord) : (c.writeM r v).epc = c.epc := by
  unfold Ctx.writeM; split <;> rfl
@[simp] theorem Ctx.writeM_eseq (c : Ctx) (r : BitVec 3) (v : MWord) : (c.writeM r v).eseq = c.eseq := by
  unfold Ctx.writeM; split <;> rfl
@[simp] theorem Ctx.writeM_frec (c : Ctx) (r : BitVec 3) (v : MWord) : (c.writeM r v).frec = c.frec := by
  unfold Ctx.writeM; split <;> rfl
@[simp] theorem Ctx.writeM_tid (c : Ctx) (r : BitVec 3) (v : MWord) : (c.writeM r v).tid = c.tid := by
  unfold Ctx.writeM; split <;> rfl
@[simp] theorem Ctx.writeM_nextSeq (c : Ctx) (r : BitVec 3) (v : MWord) : (c.writeM r v).nextSeq = c.nextSeq := by
  unfold Ctx.writeM; split <;> rfl
@[simp] theorem Ctx.writeM_ring (c : Ctx) (r : BitVec 3) (v : MWord) : (c.writeM r v).ring = c.ring := by
  unfold Ctx.writeM; split <;> rfl
@[simp] theorem Ctx.writeM_bpa (c : Ctx) (r : BitVec 3) (v : MWord) : (c.writeM r v).bpa = c.bpa := by
  unfold Ctx.writeM; split <;> rfl
@[simp] theorem Ctx.writeM_wpa (c : Ctx) (r : BitVec 3) (v : MWord) : (c.writeM r v).wpa = c.wpa := by
  unfold Ctx.writeM; split <;> rfl
@[simp] theorem Ctx.writeM_mcmdErr (c : Ctx) (r : BitVec 3) (v : MWord) : (c.writeM r v).mcmdErr = c.mcmdErr := by
  unfold Ctx.writeM; split <;> rfl
@[simp] theorem Ctx.writeM_mcmdOff (c : Ctx) (r : BitVec 3) (v : MWord) : (c.writeM r v).mcmdOff = c.mcmdOff := by
  unfold Ctx.writeM; split <;> rfl
@[simp] theorem Ctx.writeM_mdat (c : Ctx) (r : BitVec 3) (v : MWord) : (c.writeM r v).mdat = c.mdat := by
  unfold Ctx.writeM; split <;> rfl
@[simp] theorem Ctx.writeM_kept (c : Ctx) (r : BitVec 3) (v : MWord) : (c.writeM r v).kept = c.kept := by
  unfold Ctx.writeM; split <;> rfl
@[simp] theorem Ctx.writeM_faults (c : Ctx) (r : BitVec 3) (v : MWord) : (c.writeM r v).faults = c.faults := by
  unfold Ctx.writeM; split <;> rfl
@[simp] theorem Ctx.writeM_records (c : Ctx) (r : BitVec 3) (v : MWord) : (c.writeM r v).records = c.records := by
  unfold Ctx.writeM; split <;> rfl
@[simp] theorem Ctx.writeM_slots (c : Ctx) (r : BitVec 3) (v : MWord) : (c.writeM r v).slots = c.slots := by
  unfold Ctx.writeM; split <;> rfl
@[simp] theorem Ctx.writeM_replay (c : Ctx) (r : BitVec 3) (v : MWord) : (c.writeM r v).replay = c.replay := by
  unfold Ctx.writeM; split <;> rfl
@[simp] theorem Ctx.writeM_watchHit (c : Ctx) (r : BitVec 3) (v : MWord) : (c.writeM r v).watchHit = c.watchHit := by
  unfold Ctx.writeM; split <;> rfl
@[simp] theorem Ctx.writeM_stepDue (c : Ctx) (r : BitVec 3) (v : MWord) : (c.writeM r v).stepDue = c.stepDue := by
  unfold Ctx.writeM; split <;> rfl
@[simp] theorem Ctx.writeM_staging (c : Ctx) (r : BitVec 3) (v : MWord) : (c.writeM r v).staging = c.staging := by
  unfold Ctx.writeM; split <;> rfl
@[simp] theorem Ctx.writeM_pends (c : Ctx) (r : BitVec 3) (v : MWord) : (c.writeM r v).pends = c.pends := by
  unfold Ctx.writeM; split <;> rfl
@[simp] theorem Ctx.writeM_root (c : Ctx) (r : BitVec 3) (v : MWord) : (c.writeM r v).root = c.root := by
  unfold Ctx.writeM; split <;> rfl
@[simp] theorem Ctx.writeM_late (c : Ctx) (r : BitVec 3) (v : MWord) : (c.writeM r v).late = c.late := by
  unfold Ctx.writeM; split <;> rfl
@[simp] theorem Ctx.writeM_actor (c : Ctx) (r : BitVec 3) (v : MWord) : (c.writeM r v).actor = c.actor := by
  unfold Ctx.writeM; split <;> rfl
@[simp] theorem Ctx.writeM_parent (c : Ctx) (r : BitVec 3) (v : MWord) : (c.writeM r v).parent = c.parent := by
  unfold Ctx.writeM; split <;> rfl
@[simp] theorem Ctx.writeM_children (c : Ctx) (r : BitVec 3) (v : MWord) : (c.writeM r v).children = c.children := by
  unfold Ctx.writeM; split <;> rfl
@[simp] theorem Ctx.writeM_joinable (c : Ctx) (r : BitVec 3) (v : MWord) : (c.writeM r v).joinable = c.joinable := by
  unfold Ctx.writeM; split <;> rfl
@[simp] theorem Ctx.writeM_forkScope (c : Ctx) (r : BitVec 3) (v : MWord) : (c.writeM r v).forkScope = c.forkScope := by
  unfold Ctx.writeM; split <;> rfl
@[simp] theorem Ctx.writeM_entryTarget (c : Ctx) (r : BitVec 3) (v : MWord) : (c.writeM r v).entryTarget = c.entryTarget := by
  unfold Ctx.writeM; split <;> rfl
@[simp] theorem Ctx.writeM_entrySender (c : Ctx) (r : BitVec 3) (v : MWord) : (c.writeM r v).entrySender = c.entrySender := by
  unfold Ctx.writeM; split <;> rfl
@[simp] theorem Ctx.writeM_queue (c : Ctx) (r : BitVec 3) (v : MWord) : (c.writeM r v).queue = c.queue := by
  unfold Ctx.writeM; split <;> rfl
@[simp] theorem Ctx.writeM_packet (c : Ctx) (r : BitVec 3) (v : MWord) : (c.writeM r v).packet = c.packet := by
  unfold Ctx.writeM; split <;> rfl
@[simp] theorem Ctx.writeM_ctr (c : Ctx) (r : BitVec 3) (v : MWord) : (c.writeM r v).ctr = c.ctr := by
  unfold Ctx.writeM; split <;> rfl
@[simp] theorem Ctx.writeM_runMax (c : Ctx) (r : BitVec 3) (v : MWord) : (c.writeM r v).runMax = c.runMax := by
  unfold Ctx.writeM; split <;> rfl
@[simp] theorem Ctx.writeM_backfill (c : Ctx) (r : BitVec 3) (v : MWord) : (c.writeM r v).backfill = c.backfill := by
  unfold Ctx.writeM; split <;> rfl
@[simp] theorem Ctx.writeM_startedAt (c : Ctx) (r : BitVec 3) (v : MWord) : (c.writeM r v).startedAt = c.startedAt := by
  unfold Ctx.writeM; split <;> rfl
@[simp] theorem Ctx.writeM_gang (c : Ctx) (r : BitVec 3) (v : MWord) : (c.writeM r v).gang = c.gang := by
  unfold Ctx.writeM; split <;> rfl
@[simp] theorem Ctx.writeM_handles (c : Ctx) (r : BitVec 3) (v : MWord) : (c.writeM r v).handles = c.handles := by
  unfold Ctx.writeM; split <;> rfl
@[simp] theorem Ctx.writeM_decisions (c : Ctx) (r : BitVec 3) (v : MWord) : (c.writeM r v).decisions = c.decisions := by
  unfold Ctx.writeM; split <;> rfl
@[simp] theorem Ctx.writeM_target (c : Ctx) (r : BitVec 3) (v : MWord) : (c.writeM r v).target = c.target := by
  unfold Ctx.writeM; split <;> rfl
@[simp] theorem Ctx.writeM_epoch (c : Ctx) (r : BitVec 3) (v : MWord) : (c.writeM r v).epoch = c.epoch := by
  unfold Ctx.writeM; split <;> rfl
@[simp] theorem Ctx.writeM_sysEpoch (c : Ctx) (r : BitVec 3) (v : MWord) : (c.writeM r v).sysEpoch = c.sysEpoch := by
  unfold Ctx.writeM; split <;> rfl
@[simp] theorem Ctx.writeM_forwarded (c : Ctx) (r : BitVec 3) (v : MWord) : (c.writeM r v).forwarded = c.forwarded := by
  unfold Ctx.writeM; split <;> rfl
@[simp] theorem Ctx.writeM_limit (c : Ctx) (r : BitVec 3) (v : MWord) : (c.writeM r v).limit = c.limit := by
  unfold Ctx.writeM; split <;> rfl

@[simp] theorem Ctx.putX_key (c : Ctx) (r : Reg) (v : Word) : (c.putX r v).key = c.key := by
  unfold Ctx.putX; split <;> rfl
@[simp] theorem Ctx.putX_part (c : Ctx) (r : Reg) (v : Word) : (c.putX r v).part = c.part := by
  unfold Ctx.putX; split <;> rfl
@[simp] theorem Ctx.putX_run (c : Ctx) (r : Reg) (v : Word) : (c.putX r v).run = c.run := by
  unfold Ctx.putX; split <;> rfl
@[simp] theorem Ctx.putX_v (c : Ctx) (r : Reg) (v : Word) : (c.putX r v).v = c.v := by
  unfold Ctx.putX; split <;> rfl
@[simp] theorem Ctx.putX_m (c : Ctx) (r : Reg) (v : Word) : (c.putX r v).m = c.m := by
  unfold Ctx.putX; split <;> rfl
@[simp] theorem Ctx.putX_ox (c : Ctx) (r : Reg) (v : Word) : (c.putX r v).ox = c.ox := by
  unfold Ctx.putX; split <;> rfl
@[simp] theorem Ctx.putX_pc (c : Ctx) (r : Reg) (v : Word) : (c.putX r v).pc = c.pc := by
  unfold Ctx.putX; split <;> rfl
@[simp] theorem Ctx.putX_pl (c : Ctx) (r : Reg) (v : Word) : (c.putX r v).pl = c.pl := by
  unfold Ctx.putX; split <;> rfl
@[simp] theorem Ctx.putX_lao (c : Ctx) (r : Reg) (v : Word) : (c.putX r v).lao = c.lao := by
  unfold Ctx.putX; split <;> rfl
@[simp] theorem Ctx.putX_rae (c : Ctx) (r : Reg) (v : Word) : (c.putX r v).rae = c.rae := by
  unfold Ctx.putX; split <;> rfl
@[simp] theorem Ctx.putX_ss (c : Ctx) (r : Reg) (v : Word) : (c.putX r v).ss = c.ss := by
  unfold Ctx.putX; split <;> rfl
@[simp] theorem Ctx.putX_xf64 (c : Ctx) (r : Reg) (v : Word) : (c.putX r v).xf64 = c.xf64 := by
  unfold Ctx.putX; split <;> rfl
@[simp] theorem Ctx.putX_xsf (c : Ctx) (r : Reg) (v : Word) : (c.putX r v).xsf = c.xsf := by
  unfold Ctx.putX; split <;> rfl
@[simp] theorem Ctx.putX_fflags (c : Ctx) (r : Reg) (v : Word) : (c.putX r v).fflags = c.fflags := by
  unfold Ctx.putX; split <;> rfl
@[simp] theorem Ctx.putX_frm (c : Ctx) (r : Reg) (v : Word) : (c.putX r v).frm = c.frm := by
  unfold Ctx.putX; split <;> rfl
@[simp] theorem Ctx.putX_seed (c : Ctx) (r : Reg) (v : Word) : (c.putX r v).seed = c.seed := by
  unfold Ctx.putX; split <;> rfl
@[simp] theorem Ctx.putX_lcore (c : Ctx) (r : Reg) (v : Word) : (c.putX r v).lcore = c.lcore := by
  unfold Ctx.putX; split <;> rfl
@[simp] theorem Ctx.putX_tag (c : Ctx) (r : Reg) (v : Word) : (c.putX r v).tag = c.tag := by
  unfold Ctx.putX; split <;> rfl
@[simp] theorem Ctx.putX_dline (c : Ctx) (r : Reg) (v : Word) : (c.putX r v).dline = c.dline := by
  unfold Ctx.putX; split <;> rfl
@[simp] theorem Ctx.putX_cls (c : Ctx) (r : Reg) (v : Word) : (c.putX r v).cls = c.cls := by
  unfold Ctx.putX; split <;> rfl
@[simp] theorem Ctx.putX_eff (c : Ctx) (r : Reg) (v : Word) : (c.putX r v).eff = c.eff := by
  unfold Ctx.putX; split <;> rfl
@[simp] theorem Ctx.putX_raised (c : Ctx) (r : Reg) (v : Word) : (c.putX r v).raised = c.raised := by
  unfold Ctx.putX; split <;> rfl
@[simp] theorem Ctx.putX_bound (c : Ctx) (r : Reg) (v : Word) : (c.putX r v).bound = c.bound := by
  unfold Ctx.putX; split <;> rfl
@[simp] theorem Ctx.putX_domain (c : Ctx) (r : Reg) (v : Word) : (c.putX r v).domain = c.domain := by
  unfold Ctx.putX; split <;> rfl
@[simp] theorem Ctx.putX_members (c : Ctx) (r : Reg) (v : Word) : (c.putX r v).members = c.members := by
  unfold Ctx.putX; split <;> rfl
@[simp] theorem Ctx.putX_leader (c : Ctx) (r : Reg) (v : Word) : (c.putX r v).leader = c.leader := by
  unfold Ctx.putX; split <;> rfl
@[simp] theorem Ctx.putX_role (c : Ctx) (r : Reg) (v : Word) : (c.putX r v).role = c.role := by
  unfold Ctx.putX; split <;> rfl
@[simp] theorem Ctx.putX_unack (c : Ctx) (r : Reg) (v : Word) : (c.putX r v).unack = c.unack := by
  unfold Ctx.putX; split <;> rfl
@[simp] theorem Ctx.putX_brk (c : Ctx) (r : Reg) (v : Word) : (c.putX r v).brk = c.brk := by
  unfold Ctx.putX; split <;> rfl
@[simp] theorem Ctx.putX_pcnt (c : Ctx) (r : Reg) (v : Word) : (c.putX r v).pcnt = c.pcnt := by
  unfold Ctx.putX; split <;> rfl
@[simp] theorem Ctx.putX_haddr (c : Ctx) (r : Reg) (v : Word) : (c.putX r v).haddr = c.haddr := by
  unfold Ctx.putX; split <;> rfl
@[simp] theorem Ctx.putX_grp (c : Ctx) (r : Reg) (v : Word) : (c.putX r v).grp = c.grp := by
  unfold Ctx.putX; split <;> rfl
@[simp] theorem Ctx.putX_daccsel (c : Ctx) (r : Reg) (v : Word) : (c.putX r v).daccsel = c.daccsel := by
  unfold Ctx.putX; split <;> rfl
@[simp] theorem Ctx.putX_dacc (c : Ctx) (r : Reg) (v : Word) : (c.putX r v).dacc = c.dacc := by
  unfold Ctx.putX; split <;> rfl
@[simp] theorem Ctx.putX_pidx (c : Ctx) (r : Reg) (v : Word) : (c.putX r v).pidx = c.pidx := by
  unfold Ctx.putX; split <;> rfl
@[simp] theorem Ctx.putX_cause (c : Ctx) (r : Reg) (v : Word) : (c.putX r v).cause = c.cause := by
  unfold Ctx.putX; split <;> rfl
@[simp] theorem Ctx.putX_epc (c : Ctx) (r : Reg) (v : Word) : (c.putX r v).epc = c.epc := by
  unfold Ctx.putX; split <;> rfl
@[simp] theorem Ctx.putX_eseq (c : Ctx) (r : Reg) (v : Word) : (c.putX r v).eseq = c.eseq := by
  unfold Ctx.putX; split <;> rfl
@[simp] theorem Ctx.putX_frec (c : Ctx) (r : Reg) (v : Word) : (c.putX r v).frec = c.frec := by
  unfold Ctx.putX; split <;> rfl
@[simp] theorem Ctx.putX_tid (c : Ctx) (r : Reg) (v : Word) : (c.putX r v).tid = c.tid := by
  unfold Ctx.putX; split <;> rfl
@[simp] theorem Ctx.putX_nextSeq (c : Ctx) (r : Reg) (v : Word) : (c.putX r v).nextSeq = c.nextSeq := by
  unfold Ctx.putX; split <;> rfl
@[simp] theorem Ctx.putX_ring (c : Ctx) (r : Reg) (v : Word) : (c.putX r v).ring = c.ring := by
  unfold Ctx.putX; split <;> rfl
@[simp] theorem Ctx.putX_bpa (c : Ctx) (r : Reg) (v : Word) : (c.putX r v).bpa = c.bpa := by
  unfold Ctx.putX; split <;> rfl
@[simp] theorem Ctx.putX_wpa (c : Ctx) (r : Reg) (v : Word) : (c.putX r v).wpa = c.wpa := by
  unfold Ctx.putX; split <;> rfl
@[simp] theorem Ctx.putX_mcmdErr (c : Ctx) (r : Reg) (v : Word) : (c.putX r v).mcmdErr = c.mcmdErr := by
  unfold Ctx.putX; split <;> rfl
@[simp] theorem Ctx.putX_mcmdOff (c : Ctx) (r : Reg) (v : Word) : (c.putX r v).mcmdOff = c.mcmdOff := by
  unfold Ctx.putX; split <;> rfl
@[simp] theorem Ctx.putX_mdat (c : Ctx) (r : Reg) (v : Word) : (c.putX r v).mdat = c.mdat := by
  unfold Ctx.putX; split <;> rfl
@[simp] theorem Ctx.putX_windows (c : Ctx) (r : Reg) (v : Word) : (c.putX r v).windows = c.windows := by
  unfold Ctx.putX; split <;> rfl
@[simp] theorem Ctx.putX_kept (c : Ctx) (r : Reg) (v : Word) : (c.putX r v).kept = c.kept := by
  unfold Ctx.putX; split <;> rfl
@[simp] theorem Ctx.putX_faults (c : Ctx) (r : Reg) (v : Word) : (c.putX r v).faults = c.faults := by
  unfold Ctx.putX; split <;> rfl
@[simp] theorem Ctx.putX_records (c : Ctx) (r : Reg) (v : Word) : (c.putX r v).records = c.records := by
  unfold Ctx.putX; split <;> rfl
@[simp] theorem Ctx.putX_slots (c : Ctx) (r : Reg) (v : Word) : (c.putX r v).slots = c.slots := by
  unfold Ctx.putX; split <;> rfl
@[simp] theorem Ctx.putX_replay (c : Ctx) (r : Reg) (v : Word) : (c.putX r v).replay = c.replay := by
  unfold Ctx.putX; split <;> rfl
@[simp] theorem Ctx.putX_watchHit (c : Ctx) (r : Reg) (v : Word) : (c.putX r v).watchHit = c.watchHit := by
  unfold Ctx.putX; split <;> rfl
@[simp] theorem Ctx.putX_stepDue (c : Ctx) (r : Reg) (v : Word) : (c.putX r v).stepDue = c.stepDue := by
  unfold Ctx.putX; split <;> rfl
@[simp] theorem Ctx.putX_staging (c : Ctx) (r : Reg) (v : Word) : (c.putX r v).staging = c.staging := by
  unfold Ctx.putX; split <;> rfl
@[simp] theorem Ctx.putX_pends (c : Ctx) (r : Reg) (v : Word) : (c.putX r v).pends = c.pends := by
  unfold Ctx.putX; split <;> rfl
@[simp] theorem Ctx.putX_root (c : Ctx) (r : Reg) (v : Word) : (c.putX r v).root = c.root := by
  unfold Ctx.putX; split <;> rfl
@[simp] theorem Ctx.putX_late (c : Ctx) (r : Reg) (v : Word) : (c.putX r v).late = c.late := by
  unfold Ctx.putX; split <;> rfl
@[simp] theorem Ctx.putX_actor (c : Ctx) (r : Reg) (v : Word) : (c.putX r v).actor = c.actor := by
  unfold Ctx.putX; split <;> rfl
@[simp] theorem Ctx.putX_parent (c : Ctx) (r : Reg) (v : Word) : (c.putX r v).parent = c.parent := by
  unfold Ctx.putX; split <;> rfl
@[simp] theorem Ctx.putX_children (c : Ctx) (r : Reg) (v : Word) : (c.putX r v).children = c.children := by
  unfold Ctx.putX; split <;> rfl
@[simp] theorem Ctx.putX_joinable (c : Ctx) (r : Reg) (v : Word) : (c.putX r v).joinable = c.joinable := by
  unfold Ctx.putX; split <;> rfl
@[simp] theorem Ctx.putX_forkScope (c : Ctx) (r : Reg) (v : Word) : (c.putX r v).forkScope = c.forkScope := by
  unfold Ctx.putX; split <;> rfl
@[simp] theorem Ctx.putX_entryTarget (c : Ctx) (r : Reg) (v : Word) : (c.putX r v).entryTarget = c.entryTarget := by
  unfold Ctx.putX; split <;> rfl
@[simp] theorem Ctx.putX_entrySender (c : Ctx) (r : Reg) (v : Word) : (c.putX r v).entrySender = c.entrySender := by
  unfold Ctx.putX; split <;> rfl
@[simp] theorem Ctx.putX_queue (c : Ctx) (r : Reg) (v : Word) : (c.putX r v).queue = c.queue := by
  unfold Ctx.putX; split <;> rfl
@[simp] theorem Ctx.putX_packet (c : Ctx) (r : Reg) (v : Word) : (c.putX r v).packet = c.packet := by
  unfold Ctx.putX; split <;> rfl
@[simp] theorem Ctx.putX_ctr (c : Ctx) (r : Reg) (v : Word) : (c.putX r v).ctr = c.ctr := by
  unfold Ctx.putX; split <;> rfl
@[simp] theorem Ctx.putX_runMax (c : Ctx) (r : Reg) (v : Word) : (c.putX r v).runMax = c.runMax := by
  unfold Ctx.putX; split <;> rfl
@[simp] theorem Ctx.putX_backfill (c : Ctx) (r : Reg) (v : Word) : (c.putX r v).backfill = c.backfill := by
  unfold Ctx.putX; split <;> rfl
@[simp] theorem Ctx.putX_startedAt (c : Ctx) (r : Reg) (v : Word) : (c.putX r v).startedAt = c.startedAt := by
  unfold Ctx.putX; split <;> rfl
@[simp] theorem Ctx.putX_gang (c : Ctx) (r : Reg) (v : Word) : (c.putX r v).gang = c.gang := by
  unfold Ctx.putX; split <;> rfl
@[simp] theorem Ctx.putX_handles (c : Ctx) (r : Reg) (v : Word) : (c.putX r v).handles = c.handles := by
  unfold Ctx.putX; split <;> rfl
@[simp] theorem Ctx.putX_decisions (c : Ctx) (r : Reg) (v : Word) : (c.putX r v).decisions = c.decisions := by
  unfold Ctx.putX; split <;> rfl
@[simp] theorem Ctx.putX_target (c : Ctx) (r : Reg) (v : Word) : (c.putX r v).target = c.target := by
  unfold Ctx.putX; split <;> rfl
@[simp] theorem Ctx.putX_epoch (c : Ctx) (r : Reg) (v : Word) : (c.putX r v).epoch = c.epoch := by
  unfold Ctx.putX; split <;> rfl
@[simp] theorem Ctx.putX_sysEpoch (c : Ctx) (r : Reg) (v : Word) : (c.putX r v).sysEpoch = c.sysEpoch := by
  unfold Ctx.putX; split <;> rfl
@[simp] theorem Ctx.putX_forwarded (c : Ctx) (r : Reg) (v : Word) : (c.putX r v).forwarded = c.forwarded := by
  unfold Ctx.putX; split <;> rfl
@[simp] theorem Ctx.putX_limit (c : Ctx) (r : Reg) (v : Word) : (c.putX r v).limit = c.limit := by
  unfold Ctx.putX; split <;> rfl

@[simp] theorem Ctx.stepTo_key (c : Ctx) (next : Word) : (c.stepTo next).key = c.key := rfl
@[simp] theorem Ctx.stepTo_part (c : Ctx) (next : Word) : (c.stepTo next).part = c.part := rfl
@[simp] theorem Ctx.stepTo_x (c : Ctx) (next : Word) : (c.stepTo next).x = c.x := rfl
@[simp] theorem Ctx.stepTo_v (c : Ctx) (next : Word) : (c.stepTo next).v = c.v := rfl
@[simp] theorem Ctx.stepTo_m (c : Ctx) (next : Word) : (c.stepTo next).m = c.m := rfl
@[simp] theorem Ctx.stepTo_ox (c : Ctx) (next : Word) : (c.stepTo next).ox = c.ox := rfl
@[simp] theorem Ctx.stepTo_pl (c : Ctx) (next : Word) : (c.stepTo next).pl = c.pl := rfl
@[simp] theorem Ctx.stepTo_lao (c : Ctx) (next : Word) : (c.stepTo next).lao = c.lao := rfl
@[simp] theorem Ctx.stepTo_rae (c : Ctx) (next : Word) : (c.stepTo next).rae = c.rae := rfl
@[simp] theorem Ctx.stepTo_ss (c : Ctx) (next : Word) : (c.stepTo next).ss = c.ss := rfl
@[simp] theorem Ctx.stepTo_xf64 (c : Ctx) (next : Word) : (c.stepTo next).xf64 = c.xf64 := rfl
@[simp] theorem Ctx.stepTo_xsf (c : Ctx) (next : Word) : (c.stepTo next).xsf = c.xsf := rfl
@[simp] theorem Ctx.stepTo_fflags (c : Ctx) (next : Word) : (c.stepTo next).fflags = c.fflags := rfl
@[simp] theorem Ctx.stepTo_frm (c : Ctx) (next : Word) : (c.stepTo next).frm = c.frm := rfl
@[simp] theorem Ctx.stepTo_seed (c : Ctx) (next : Word) : (c.stepTo next).seed = c.seed := rfl
@[simp] theorem Ctx.stepTo_lcore (c : Ctx) (next : Word) : (c.stepTo next).lcore = c.lcore := rfl
@[simp] theorem Ctx.stepTo_tag (c : Ctx) (next : Word) : (c.stepTo next).tag = c.tag := rfl
@[simp] theorem Ctx.stepTo_dline (c : Ctx) (next : Word) : (c.stepTo next).dline = c.dline := rfl
@[simp] theorem Ctx.stepTo_cls (c : Ctx) (next : Word) : (c.stepTo next).cls = c.cls := rfl
@[simp] theorem Ctx.stepTo_eff (c : Ctx) (next : Word) : (c.stepTo next).eff = c.eff := rfl
@[simp] theorem Ctx.stepTo_raised (c : Ctx) (next : Word) : (c.stepTo next).raised = c.raised := rfl
@[simp] theorem Ctx.stepTo_bound (c : Ctx) (next : Word) : (c.stepTo next).bound = c.bound := rfl
@[simp] theorem Ctx.stepTo_domain (c : Ctx) (next : Word) : (c.stepTo next).domain = c.domain := rfl
@[simp] theorem Ctx.stepTo_members (c : Ctx) (next : Word) : (c.stepTo next).members = c.members := rfl
@[simp] theorem Ctx.stepTo_leader (c : Ctx) (next : Word) : (c.stepTo next).leader = c.leader := rfl
@[simp] theorem Ctx.stepTo_role (c : Ctx) (next : Word) : (c.stepTo next).role = c.role := rfl
@[simp] theorem Ctx.stepTo_unack (c : Ctx) (next : Word) : (c.stepTo next).unack = c.unack := rfl
@[simp] theorem Ctx.stepTo_brk (c : Ctx) (next : Word) : (c.stepTo next).brk = c.brk := rfl
@[simp] theorem Ctx.stepTo_pcnt (c : Ctx) (next : Word) : (c.stepTo next).pcnt = c.pcnt := rfl
@[simp] theorem Ctx.stepTo_haddr (c : Ctx) (next : Word) : (c.stepTo next).haddr = c.haddr := rfl
@[simp] theorem Ctx.stepTo_grp (c : Ctx) (next : Word) : (c.stepTo next).grp = c.grp := rfl
@[simp] theorem Ctx.stepTo_daccsel (c : Ctx) (next : Word) : (c.stepTo next).daccsel = c.daccsel := rfl
@[simp] theorem Ctx.stepTo_dacc (c : Ctx) (next : Word) : (c.stepTo next).dacc = c.dacc := rfl
@[simp] theorem Ctx.stepTo_pidx (c : Ctx) (next : Word) : (c.stepTo next).pidx = c.pidx := rfl
@[simp] theorem Ctx.stepTo_cause (c : Ctx) (next : Word) : (c.stepTo next).cause = c.cause := rfl
@[simp] theorem Ctx.stepTo_epc (c : Ctx) (next : Word) : (c.stepTo next).epc = c.epc := rfl
@[simp] theorem Ctx.stepTo_eseq (c : Ctx) (next : Word) : (c.stepTo next).eseq = c.eseq := rfl
@[simp] theorem Ctx.stepTo_frec (c : Ctx) (next : Word) : (c.stepTo next).frec = c.frec := rfl
@[simp] theorem Ctx.stepTo_tid (c : Ctx) (next : Word) : (c.stepTo next).tid = c.tid := rfl
@[simp] theorem Ctx.stepTo_nextSeq (c : Ctx) (next : Word) : (c.stepTo next).nextSeq = c.nextSeq := rfl
@[simp] theorem Ctx.stepTo_ring (c : Ctx) (next : Word) : (c.stepTo next).ring = c.ring := rfl
@[simp] theorem Ctx.stepTo_bpa (c : Ctx) (next : Word) : (c.stepTo next).bpa = c.bpa := rfl
@[simp] theorem Ctx.stepTo_wpa (c : Ctx) (next : Word) : (c.stepTo next).wpa = c.wpa := rfl
@[simp] theorem Ctx.stepTo_mcmdErr (c : Ctx) (next : Word) : (c.stepTo next).mcmdErr = c.mcmdErr := rfl
@[simp] theorem Ctx.stepTo_mcmdOff (c : Ctx) (next : Word) : (c.stepTo next).mcmdOff = c.mcmdOff := rfl
@[simp] theorem Ctx.stepTo_mdat (c : Ctx) (next : Word) : (c.stepTo next).mdat = c.mdat := rfl
@[simp] theorem Ctx.stepTo_kept (c : Ctx) (next : Word) : (c.stepTo next).kept = c.kept := rfl
@[simp] theorem Ctx.stepTo_records (c : Ctx) (next : Word) : (c.stepTo next).records = c.records := rfl
@[simp] theorem Ctx.stepTo_slots (c : Ctx) (next : Word) : (c.stepTo next).slots = c.slots := rfl
@[simp] theorem Ctx.stepTo_replay (c : Ctx) (next : Word) : (c.stepTo next).replay = c.replay := rfl
@[simp] theorem Ctx.stepTo_watchHit (c : Ctx) (next : Word) : (c.stepTo next).watchHit = c.watchHit := rfl
@[simp] theorem Ctx.stepTo_stepDue (c : Ctx) (next : Word) : (c.stepTo next).stepDue = c.stepDue := rfl
@[simp] theorem Ctx.stepTo_staging (c : Ctx) (next : Word) : (c.stepTo next).staging = c.staging := rfl
@[simp] theorem Ctx.stepTo_root (c : Ctx) (next : Word) : (c.stepTo next).root = c.root := rfl
@[simp] theorem Ctx.stepTo_late (c : Ctx) (next : Word) : (c.stepTo next).late = c.late := rfl
@[simp] theorem Ctx.stepTo_actor (c : Ctx) (next : Word) : (c.stepTo next).actor = c.actor := rfl
@[simp] theorem Ctx.stepTo_parent (c : Ctx) (next : Word) : (c.stepTo next).parent = c.parent := rfl
@[simp] theorem Ctx.stepTo_children (c : Ctx) (next : Word) : (c.stepTo next).children = c.children := rfl
@[simp] theorem Ctx.stepTo_joinable (c : Ctx) (next : Word) : (c.stepTo next).joinable = c.joinable := rfl
@[simp] theorem Ctx.stepTo_forkScope (c : Ctx) (next : Word) : (c.stepTo next).forkScope = c.forkScope := rfl
@[simp] theorem Ctx.stepTo_entryTarget (c : Ctx) (next : Word) : (c.stepTo next).entryTarget = c.entryTarget := rfl
@[simp] theorem Ctx.stepTo_entrySender (c : Ctx) (next : Word) : (c.stepTo next).entrySender = c.entrySender := rfl
@[simp] theorem Ctx.stepTo_queue (c : Ctx) (next : Word) : (c.stepTo next).queue = c.queue := rfl
@[simp] theorem Ctx.stepTo_packet (c : Ctx) (next : Word) : (c.stepTo next).packet = c.packet := rfl
@[simp] theorem Ctx.stepTo_ctr (c : Ctx) (next : Word) : (c.stepTo next).ctr = c.ctr := rfl
@[simp] theorem Ctx.stepTo_runMax (c : Ctx) (next : Word) : (c.stepTo next).runMax = c.runMax := rfl
@[simp] theorem Ctx.stepTo_backfill (c : Ctx) (next : Word) : (c.stepTo next).backfill = c.backfill := rfl
@[simp] theorem Ctx.stepTo_startedAt (c : Ctx) (next : Word) : (c.stepTo next).startedAt = c.startedAt := rfl
@[simp] theorem Ctx.stepTo_gang (c : Ctx) (next : Word) : (c.stepTo next).gang = c.gang := rfl
@[simp] theorem Ctx.stepTo_handles (c : Ctx) (next : Word) : (c.stepTo next).handles = c.handles := rfl
@[simp] theorem Ctx.stepTo_decisions (c : Ctx) (next : Word) : (c.stepTo next).decisions = c.decisions := rfl
@[simp] theorem Ctx.stepTo_target (c : Ctx) (next : Word) : (c.stepTo next).target = c.target := rfl
@[simp] theorem Ctx.stepTo_epoch (c : Ctx) (next : Word) : (c.stepTo next).epoch = c.epoch := rfl
@[simp] theorem Ctx.stepTo_sysEpoch (c : Ctx) (next : Word) : (c.stepTo next).sysEpoch = c.sysEpoch := rfl
@[simp] theorem Ctx.stepTo_forwarded (c : Ctx) (next : Word) : (c.stepTo next).forwarded = c.forwarded := rfl
@[simp] theorem Ctx.stepTo_limit (c : Ctx) (next : Word) : (c.stepTo next).limit = c.limit := rfl
@[simp] theorem Ctx.stepTo_run (c : Ctx) (next : Word) : (c.stepTo next).run = .running := rfl
@[simp] theorem Ctx.stepTo_pc (c : Ctx) (next : Word) : (c.stepTo next).pc = next &&& ~~~1 := rfl

@[simp] theorem Ctx.retire_key (c : Ctx) (len : Nat) : (c.retire len).key = c.key := rfl
@[simp] theorem Ctx.retire_part (c : Ctx) (len : Nat) : (c.retire len).part = c.part := rfl
@[simp] theorem Ctx.retire_x (c : Ctx) (len : Nat) : (c.retire len).x = c.x := rfl
@[simp] theorem Ctx.retire_v (c : Ctx) (len : Nat) : (c.retire len).v = c.v := rfl
@[simp] theorem Ctx.retire_m (c : Ctx) (len : Nat) : (c.retire len).m = c.m := rfl
@[simp] theorem Ctx.retire_ox (c : Ctx) (len : Nat) : (c.retire len).ox = c.ox := rfl
@[simp] theorem Ctx.retire_pl (c : Ctx) (len : Nat) : (c.retire len).pl = c.pl := rfl
@[simp] theorem Ctx.retire_lao (c : Ctx) (len : Nat) : (c.retire len).lao = c.lao := rfl
@[simp] theorem Ctx.retire_rae (c : Ctx) (len : Nat) : (c.retire len).rae = c.rae := rfl
@[simp] theorem Ctx.retire_ss (c : Ctx) (len : Nat) : (c.retire len).ss = c.ss := rfl
@[simp] theorem Ctx.retire_xf64 (c : Ctx) (len : Nat) : (c.retire len).xf64 = c.xf64 := rfl
@[simp] theorem Ctx.retire_xsf (c : Ctx) (len : Nat) : (c.retire len).xsf = c.xsf := rfl
@[simp] theorem Ctx.retire_fflags (c : Ctx) (len : Nat) : (c.retire len).fflags = c.fflags := rfl
@[simp] theorem Ctx.retire_frm (c : Ctx) (len : Nat) : (c.retire len).frm = c.frm := rfl
@[simp] theorem Ctx.retire_seed (c : Ctx) (len : Nat) : (c.retire len).seed = c.seed := rfl
@[simp] theorem Ctx.retire_lcore (c : Ctx) (len : Nat) : (c.retire len).lcore = c.lcore := rfl
@[simp] theorem Ctx.retire_tag (c : Ctx) (len : Nat) : (c.retire len).tag = c.tag := rfl
@[simp] theorem Ctx.retire_dline (c : Ctx) (len : Nat) : (c.retire len).dline = c.dline := rfl
@[simp] theorem Ctx.retire_cls (c : Ctx) (len : Nat) : (c.retire len).cls = c.cls := rfl
@[simp] theorem Ctx.retire_eff (c : Ctx) (len : Nat) : (c.retire len).eff = c.eff := rfl
@[simp] theorem Ctx.retire_raised (c : Ctx) (len : Nat) : (c.retire len).raised = c.raised := rfl
@[simp] theorem Ctx.retire_bound (c : Ctx) (len : Nat) : (c.retire len).bound = c.bound := rfl
@[simp] theorem Ctx.retire_domain (c : Ctx) (len : Nat) : (c.retire len).domain = c.domain := rfl
@[simp] theorem Ctx.retire_members (c : Ctx) (len : Nat) : (c.retire len).members = c.members := rfl
@[simp] theorem Ctx.retire_leader (c : Ctx) (len : Nat) : (c.retire len).leader = c.leader := rfl
@[simp] theorem Ctx.retire_role (c : Ctx) (len : Nat) : (c.retire len).role = c.role := rfl
@[simp] theorem Ctx.retire_unack (c : Ctx) (len : Nat) : (c.retire len).unack = c.unack := rfl
@[simp] theorem Ctx.retire_brk (c : Ctx) (len : Nat) : (c.retire len).brk = c.brk := rfl
@[simp] theorem Ctx.retire_pcnt (c : Ctx) (len : Nat) : (c.retire len).pcnt = c.pcnt := rfl
@[simp] theorem Ctx.retire_haddr (c : Ctx) (len : Nat) : (c.retire len).haddr = c.haddr := rfl
@[simp] theorem Ctx.retire_grp (c : Ctx) (len : Nat) : (c.retire len).grp = c.grp := rfl
@[simp] theorem Ctx.retire_daccsel (c : Ctx) (len : Nat) : (c.retire len).daccsel = c.daccsel := rfl
@[simp] theorem Ctx.retire_dacc (c : Ctx) (len : Nat) : (c.retire len).dacc = c.dacc := rfl
@[simp] theorem Ctx.retire_pidx (c : Ctx) (len : Nat) : (c.retire len).pidx = c.pidx := rfl
@[simp] theorem Ctx.retire_cause (c : Ctx) (len : Nat) : (c.retire len).cause = c.cause := rfl
@[simp] theorem Ctx.retire_epc (c : Ctx) (len : Nat) : (c.retire len).epc = c.epc := rfl
@[simp] theorem Ctx.retire_eseq (c : Ctx) (len : Nat) : (c.retire len).eseq = c.eseq := rfl
@[simp] theorem Ctx.retire_frec (c : Ctx) (len : Nat) : (c.retire len).frec = c.frec := rfl
@[simp] theorem Ctx.retire_tid (c : Ctx) (len : Nat) : (c.retire len).tid = c.tid := rfl
@[simp] theorem Ctx.retire_nextSeq (c : Ctx) (len : Nat) : (c.retire len).nextSeq = c.nextSeq := rfl
@[simp] theorem Ctx.retire_ring (c : Ctx) (len : Nat) : (c.retire len).ring = c.ring := rfl
@[simp] theorem Ctx.retire_bpa (c : Ctx) (len : Nat) : (c.retire len).bpa = c.bpa := rfl
@[simp] theorem Ctx.retire_wpa (c : Ctx) (len : Nat) : (c.retire len).wpa = c.wpa := rfl
@[simp] theorem Ctx.retire_mcmdErr (c : Ctx) (len : Nat) : (c.retire len).mcmdErr = c.mcmdErr := rfl
@[simp] theorem Ctx.retire_mcmdOff (c : Ctx) (len : Nat) : (c.retire len).mcmdOff = c.mcmdOff := rfl
@[simp] theorem Ctx.retire_mdat (c : Ctx) (len : Nat) : (c.retire len).mdat = c.mdat := rfl
@[simp] theorem Ctx.retire_kept (c : Ctx) (len : Nat) : (c.retire len).kept = c.kept := rfl
@[simp] theorem Ctx.retire_records (c : Ctx) (len : Nat) : (c.retire len).records = c.records := rfl
@[simp] theorem Ctx.retire_slots (c : Ctx) (len : Nat) : (c.retire len).slots = c.slots := rfl
@[simp] theorem Ctx.retire_replay (c : Ctx) (len : Nat) : (c.retire len).replay = c.replay := rfl
@[simp] theorem Ctx.retire_watchHit (c : Ctx) (len : Nat) : (c.retire len).watchHit = c.watchHit := rfl
@[simp] theorem Ctx.retire_stepDue (c : Ctx) (len : Nat) : (c.retire len).stepDue = c.stepDue := rfl
@[simp] theorem Ctx.retire_staging (c : Ctx) (len : Nat) : (c.retire len).staging = c.staging := rfl
@[simp] theorem Ctx.retire_root (c : Ctx) (len : Nat) : (c.retire len).root = c.root := rfl
@[simp] theorem Ctx.retire_late (c : Ctx) (len : Nat) : (c.retire len).late = c.late := rfl
@[simp] theorem Ctx.retire_actor (c : Ctx) (len : Nat) : (c.retire len).actor = c.actor := rfl
@[simp] theorem Ctx.retire_parent (c : Ctx) (len : Nat) : (c.retire len).parent = c.parent := rfl
@[simp] theorem Ctx.retire_children (c : Ctx) (len : Nat) : (c.retire len).children = c.children := rfl
@[simp] theorem Ctx.retire_joinable (c : Ctx) (len : Nat) : (c.retire len).joinable = c.joinable := rfl
@[simp] theorem Ctx.retire_forkScope (c : Ctx) (len : Nat) : (c.retire len).forkScope = c.forkScope := rfl
@[simp] theorem Ctx.retire_entryTarget (c : Ctx) (len : Nat) : (c.retire len).entryTarget = c.entryTarget := rfl
@[simp] theorem Ctx.retire_entrySender (c : Ctx) (len : Nat) : (c.retire len).entrySender = c.entrySender := rfl
@[simp] theorem Ctx.retire_queue (c : Ctx) (len : Nat) : (c.retire len).queue = c.queue := rfl
@[simp] theorem Ctx.retire_packet (c : Ctx) (len : Nat) : (c.retire len).packet = c.packet := rfl
@[simp] theorem Ctx.retire_ctr (c : Ctx) (len : Nat) : (c.retire len).ctr = c.ctr := rfl
@[simp] theorem Ctx.retire_runMax (c : Ctx) (len : Nat) : (c.retire len).runMax = c.runMax := rfl
@[simp] theorem Ctx.retire_backfill (c : Ctx) (len : Nat) : (c.retire len).backfill = c.backfill := rfl
@[simp] theorem Ctx.retire_startedAt (c : Ctx) (len : Nat) : (c.retire len).startedAt = c.startedAt := rfl
@[simp] theorem Ctx.retire_gang (c : Ctx) (len : Nat) : (c.retire len).gang = c.gang := rfl
@[simp] theorem Ctx.retire_handles (c : Ctx) (len : Nat) : (c.retire len).handles = c.handles := rfl
@[simp] theorem Ctx.retire_decisions (c : Ctx) (len : Nat) : (c.retire len).decisions = c.decisions := rfl
@[simp] theorem Ctx.retire_target (c : Ctx) (len : Nat) : (c.retire len).target = c.target := rfl
@[simp] theorem Ctx.retire_epoch (c : Ctx) (len : Nat) : (c.retire len).epoch = c.epoch := rfl
@[simp] theorem Ctx.retire_sysEpoch (c : Ctx) (len : Nat) : (c.retire len).sysEpoch = c.sysEpoch := rfl
@[simp] theorem Ctx.retire_forwarded (c : Ctx) (len : Nat) : (c.retire len).forwarded = c.forwarded := rfl
@[simp] theorem Ctx.retire_limit (c : Ctx) (len : Nat) : (c.retire len).limit = c.limit := rfl
@[simp] theorem Ctx.retire_run (c : Ctx) (len : Nat) : (c.retire len).run = .running := rfl
@[simp] theorem Ctx.retire_pc (c : Ctx) (len : Nat) : (c.retire len).pc = (c.pc + BitVec.ofNat 64 len) &&& ~~~1 := rfl

@[simp] theorem Ctx.retireLong_key (c : Ctx) (b : Ctx) (la : BitVec 4) (d : Dests) : (c.retireLong b la d).key = c.key := rfl
@[simp] theorem Ctx.retireLong_part (c : Ctx) (b : Ctx) (la : BitVec 4) (d : Dests) : (c.retireLong b la d).part = c.part := rfl
@[simp] theorem Ctx.retireLong_x (c : Ctx) (b : Ctx) (la : BitVec 4) (d : Dests) : (c.retireLong b la d).x = c.x := rfl
@[simp] theorem Ctx.retireLong_v (c : Ctx) (b : Ctx) (la : BitVec 4) (d : Dests) : (c.retireLong b la d).v = c.v := rfl
@[simp] theorem Ctx.retireLong_m (c : Ctx) (b : Ctx) (la : BitVec 4) (d : Dests) : (c.retireLong b la d).m = c.m := rfl
@[simp] theorem Ctx.retireLong_ox (c : Ctx) (b : Ctx) (la : BitVec 4) (d : Dests) : (c.retireLong b la d).ox = c.ox := rfl
@[simp] theorem Ctx.retireLong_pl (c : Ctx) (b : Ctx) (la : BitVec 4) (d : Dests) : (c.retireLong b la d).pl = c.pl := rfl
@[simp] theorem Ctx.retireLong_lao (c : Ctx) (b : Ctx) (la : BitVec 4) (d : Dests) : (c.retireLong b la d).lao = c.lao := rfl
@[simp] theorem Ctx.retireLong_rae (c : Ctx) (b : Ctx) (la : BitVec 4) (d : Dests) : (c.retireLong b la d).rae = c.rae := rfl
@[simp] theorem Ctx.retireLong_ss (c : Ctx) (b : Ctx) (la : BitVec 4) (d : Dests) : (c.retireLong b la d).ss = c.ss := rfl
@[simp] theorem Ctx.retireLong_xf64 (c : Ctx) (b : Ctx) (la : BitVec 4) (d : Dests) : (c.retireLong b la d).xf64 = c.xf64 := rfl
@[simp] theorem Ctx.retireLong_xsf (c : Ctx) (b : Ctx) (la : BitVec 4) (d : Dests) : (c.retireLong b la d).xsf = c.xsf := rfl
@[simp] theorem Ctx.retireLong_fflags (c : Ctx) (b : Ctx) (la : BitVec 4) (d : Dests) : (c.retireLong b la d).fflags = c.fflags := rfl
@[simp] theorem Ctx.retireLong_frm (c : Ctx) (b : Ctx) (la : BitVec 4) (d : Dests) : (c.retireLong b la d).frm = c.frm := rfl
@[simp] theorem Ctx.retireLong_seed (c : Ctx) (b : Ctx) (la : BitVec 4) (d : Dests) : (c.retireLong b la d).seed = c.seed := rfl
@[simp] theorem Ctx.retireLong_lcore (c : Ctx) (b : Ctx) (la : BitVec 4) (d : Dests) : (c.retireLong b la d).lcore = c.lcore := rfl
@[simp] theorem Ctx.retireLong_tag (c : Ctx) (b : Ctx) (la : BitVec 4) (d : Dests) : (c.retireLong b la d).tag = c.tag := rfl
@[simp] theorem Ctx.retireLong_dline (c : Ctx) (b : Ctx) (la : BitVec 4) (d : Dests) : (c.retireLong b la d).dline = c.dline := rfl
@[simp] theorem Ctx.retireLong_cls (c : Ctx) (b : Ctx) (la : BitVec 4) (d : Dests) : (c.retireLong b la d).cls = c.cls := rfl
@[simp] theorem Ctx.retireLong_eff (c : Ctx) (b : Ctx) (la : BitVec 4) (d : Dests) : (c.retireLong b la d).eff = c.eff := rfl
@[simp] theorem Ctx.retireLong_raised (c : Ctx) (b : Ctx) (la : BitVec 4) (d : Dests) : (c.retireLong b la d).raised = c.raised := rfl
@[simp] theorem Ctx.retireLong_bound (c : Ctx) (b : Ctx) (la : BitVec 4) (d : Dests) : (c.retireLong b la d).bound = c.bound := rfl
@[simp] theorem Ctx.retireLong_domain (c : Ctx) (b : Ctx) (la : BitVec 4) (d : Dests) : (c.retireLong b la d).domain = c.domain := rfl
@[simp] theorem Ctx.retireLong_members (c : Ctx) (b : Ctx) (la : BitVec 4) (d : Dests) : (c.retireLong b la d).members = c.members := rfl
@[simp] theorem Ctx.retireLong_leader (c : Ctx) (b : Ctx) (la : BitVec 4) (d : Dests) : (c.retireLong b la d).leader = c.leader := rfl
@[simp] theorem Ctx.retireLong_role (c : Ctx) (b : Ctx) (la : BitVec 4) (d : Dests) : (c.retireLong b la d).role = c.role := rfl
@[simp] theorem Ctx.retireLong_unack (c : Ctx) (b : Ctx) (la : BitVec 4) (d : Dests) : (c.retireLong b la d).unack = c.unack := rfl
@[simp] theorem Ctx.retireLong_brk (c : Ctx) (b : Ctx) (la : BitVec 4) (d : Dests) : (c.retireLong b la d).brk = c.brk := rfl
@[simp] theorem Ctx.retireLong_pcnt (c : Ctx) (b : Ctx) (la : BitVec 4) (d : Dests) : (c.retireLong b la d).pcnt = c.pcnt := rfl
@[simp] theorem Ctx.retireLong_haddr (c : Ctx) (b : Ctx) (la : BitVec 4) (d : Dests) : (c.retireLong b la d).haddr = c.haddr := rfl
@[simp] theorem Ctx.retireLong_grp (c : Ctx) (b : Ctx) (la : BitVec 4) (d : Dests) : (c.retireLong b la d).grp = c.grp := rfl
@[simp] theorem Ctx.retireLong_daccsel (c : Ctx) (b : Ctx) (la : BitVec 4) (d : Dests) : (c.retireLong b la d).daccsel = c.daccsel := rfl
@[simp] theorem Ctx.retireLong_dacc (c : Ctx) (b : Ctx) (la : BitVec 4) (d : Dests) : (c.retireLong b la d).dacc = c.dacc := rfl
@[simp] theorem Ctx.retireLong_pidx (c : Ctx) (b : Ctx) (la : BitVec 4) (d : Dests) : (c.retireLong b la d).pidx = c.pidx := rfl
@[simp] theorem Ctx.retireLong_cause (c : Ctx) (b : Ctx) (la : BitVec 4) (d : Dests) : (c.retireLong b la d).cause = c.cause := rfl
@[simp] theorem Ctx.retireLong_epc (c : Ctx) (b : Ctx) (la : BitVec 4) (d : Dests) : (c.retireLong b la d).epc = c.epc := rfl
@[simp] theorem Ctx.retireLong_eseq (c : Ctx) (b : Ctx) (la : BitVec 4) (d : Dests) : (c.retireLong b la d).eseq = c.eseq := rfl
@[simp] theorem Ctx.retireLong_frec (c : Ctx) (b : Ctx) (la : BitVec 4) (d : Dests) : (c.retireLong b la d).frec = c.frec := rfl
@[simp] theorem Ctx.retireLong_tid (c : Ctx) (b : Ctx) (la : BitVec 4) (d : Dests) : (c.retireLong b la d).tid = c.tid := rfl
@[simp] theorem Ctx.retireLong_nextSeq (c : Ctx) (b : Ctx) (la : BitVec 4) (d : Dests) : (c.retireLong b la d).nextSeq = c.nextSeq := rfl
@[simp] theorem Ctx.retireLong_ring (c : Ctx) (b : Ctx) (la : BitVec 4) (d : Dests) : (c.retireLong b la d).ring = c.ring := rfl
@[simp] theorem Ctx.retireLong_bpa (c : Ctx) (b : Ctx) (la : BitVec 4) (d : Dests) : (c.retireLong b la d).bpa = c.bpa := rfl
@[simp] theorem Ctx.retireLong_wpa (c : Ctx) (b : Ctx) (la : BitVec 4) (d : Dests) : (c.retireLong b la d).wpa = c.wpa := rfl
@[simp] theorem Ctx.retireLong_mcmdErr (c : Ctx) (b : Ctx) (la : BitVec 4) (d : Dests) : (c.retireLong b la d).mcmdErr = c.mcmdErr := rfl
@[simp] theorem Ctx.retireLong_mcmdOff (c : Ctx) (b : Ctx) (la : BitVec 4) (d : Dests) : (c.retireLong b la d).mcmdOff = c.mcmdOff := rfl
@[simp] theorem Ctx.retireLong_mdat (c : Ctx) (b : Ctx) (la : BitVec 4) (d : Dests) : (c.retireLong b la d).mdat = c.mdat := rfl
@[simp] theorem Ctx.retireLong_kept (c : Ctx) (b : Ctx) (la : BitVec 4) (d : Dests) : (c.retireLong b la d).kept = c.kept := rfl
@[simp] theorem Ctx.retireLong_records (c : Ctx) (b : Ctx) (la : BitVec 4) (d : Dests) : (c.retireLong b la d).records = c.records := rfl
@[simp] theorem Ctx.retireLong_slots (c : Ctx) (b : Ctx) (la : BitVec 4) (d : Dests) : (c.retireLong b la d).slots = c.slots := rfl
@[simp] theorem Ctx.retireLong_replay (c : Ctx) (b : Ctx) (la : BitVec 4) (d : Dests) : (c.retireLong b la d).replay = c.replay := rfl
@[simp] theorem Ctx.retireLong_watchHit (c : Ctx) (b : Ctx) (la : BitVec 4) (d : Dests) : (c.retireLong b la d).watchHit = c.watchHit := rfl
@[simp] theorem Ctx.retireLong_stepDue (c : Ctx) (b : Ctx) (la : BitVec 4) (d : Dests) : (c.retireLong b la d).stepDue = c.stepDue := rfl
@[simp] theorem Ctx.retireLong_staging (c : Ctx) (b : Ctx) (la : BitVec 4) (d : Dests) : (c.retireLong b la d).staging = c.staging := rfl
@[simp] theorem Ctx.retireLong_root (c : Ctx) (b : Ctx) (la : BitVec 4) (d : Dests) : (c.retireLong b la d).root = c.root := rfl
@[simp] theorem Ctx.retireLong_late (c : Ctx) (b : Ctx) (la : BitVec 4) (d : Dests) : (c.retireLong b la d).late = c.late := rfl
@[simp] theorem Ctx.retireLong_actor (c : Ctx) (b : Ctx) (la : BitVec 4) (d : Dests) : (c.retireLong b la d).actor = c.actor := rfl
@[simp] theorem Ctx.retireLong_parent (c : Ctx) (b : Ctx) (la : BitVec 4) (d : Dests) : (c.retireLong b la d).parent = c.parent := rfl
@[simp] theorem Ctx.retireLong_children (c : Ctx) (b : Ctx) (la : BitVec 4) (d : Dests) : (c.retireLong b la d).children = c.children := rfl
@[simp] theorem Ctx.retireLong_joinable (c : Ctx) (b : Ctx) (la : BitVec 4) (d : Dests) : (c.retireLong b la d).joinable = c.joinable := rfl
@[simp] theorem Ctx.retireLong_forkScope (c : Ctx) (b : Ctx) (la : BitVec 4) (d : Dests) : (c.retireLong b la d).forkScope = c.forkScope := rfl
@[simp] theorem Ctx.retireLong_entryTarget (c : Ctx) (b : Ctx) (la : BitVec 4) (d : Dests) : (c.retireLong b la d).entryTarget = c.entryTarget := rfl
@[simp] theorem Ctx.retireLong_entrySender (c : Ctx) (b : Ctx) (la : BitVec 4) (d : Dests) : (c.retireLong b la d).entrySender = c.entrySender := rfl
@[simp] theorem Ctx.retireLong_queue (c : Ctx) (b : Ctx) (la : BitVec 4) (d : Dests) : (c.retireLong b la d).queue = c.queue := rfl
@[simp] theorem Ctx.retireLong_packet (c : Ctx) (b : Ctx) (la : BitVec 4) (d : Dests) : (c.retireLong b la d).packet = c.packet := rfl
@[simp] theorem Ctx.retireLong_ctr (c : Ctx) (b : Ctx) (la : BitVec 4) (d : Dests) : (c.retireLong b la d).ctr = c.ctr := rfl
@[simp] theorem Ctx.retireLong_runMax (c : Ctx) (b : Ctx) (la : BitVec 4) (d : Dests) : (c.retireLong b la d).runMax = c.runMax := rfl
@[simp] theorem Ctx.retireLong_backfill (c : Ctx) (b : Ctx) (la : BitVec 4) (d : Dests) : (c.retireLong b la d).backfill = c.backfill := rfl
@[simp] theorem Ctx.retireLong_startedAt (c : Ctx) (b : Ctx) (la : BitVec 4) (d : Dests) : (c.retireLong b la d).startedAt = c.startedAt := rfl
@[simp] theorem Ctx.retireLong_gang (c : Ctx) (b : Ctx) (la : BitVec 4) (d : Dests) : (c.retireLong b la d).gang = c.gang := rfl
@[simp] theorem Ctx.retireLong_handles (c : Ctx) (b : Ctx) (la : BitVec 4) (d : Dests) : (c.retireLong b la d).handles = c.handles := rfl
@[simp] theorem Ctx.retireLong_decisions (c : Ctx) (b : Ctx) (la : BitVec 4) (d : Dests) : (c.retireLong b la d).decisions = c.decisions := rfl
@[simp] theorem Ctx.retireLong_target (c : Ctx) (b : Ctx) (la : BitVec 4) (d : Dests) : (c.retireLong b la d).target = c.target := rfl
@[simp] theorem Ctx.retireLong_epoch (c : Ctx) (b : Ctx) (la : BitVec 4) (d : Dests) : (c.retireLong b la d).epoch = c.epoch := rfl
@[simp] theorem Ctx.retireLong_sysEpoch (c : Ctx) (b : Ctx) (la : BitVec 4) (d : Dests) : (c.retireLong b la d).sysEpoch = c.sysEpoch := rfl
@[simp] theorem Ctx.retireLong_forwarded (c : Ctx) (b : Ctx) (la : BitVec 4) (d : Dests) : (c.retireLong b la d).forwarded = c.forwarded := rfl
@[simp] theorem Ctx.retireLong_limit (c : Ctx) (b : Ctx) (la : BitVec 4) (d : Dests) : (c.retireLong b la d).limit = c.limit := rfl
@[simp] theorem Ctx.retireLong_run (c : Ctx) (b : Ctx) (la : BitVec 4) (d : Dests) : (c.retireLong b la d).run = .running := rfl
@[simp] theorem Ctx.retireLong_pc (c : Ctx) (b : Ctx) (la : BitVec 4) (d : Dests) : (c.retireLong b la d).pc = (c.pc + BitVec.ofNat 64 4) &&& ~~~1 := rfl

@[simp] theorem Ctx.retirePend_key (c : Ctx) (b : Ctx) (la : BitVec 4) (d : Dests) (kind : PendKind) (dest : Reg) (word : BitVec 32) (va : Word) : (c.retirePend b la d kind dest word va).key = c.key := rfl
@[simp] theorem Ctx.retirePend_part (c : Ctx) (b : Ctx) (la : BitVec 4) (d : Dests) (kind : PendKind) (dest : Reg) (word : BitVec 32) (va : Word) : (c.retirePend b la d kind dest word va).part = c.part := rfl
@[simp] theorem Ctx.retirePend_x (c : Ctx) (b : Ctx) (la : BitVec 4) (d : Dests) (kind : PendKind) (dest : Reg) (word : BitVec 32) (va : Word) : (c.retirePend b la d kind dest word va).x = c.x := rfl
@[simp] theorem Ctx.retirePend_v (c : Ctx) (b : Ctx) (la : BitVec 4) (d : Dests) (kind : PendKind) (dest : Reg) (word : BitVec 32) (va : Word) : (c.retirePend b la d kind dest word va).v = c.v := rfl
@[simp] theorem Ctx.retirePend_m (c : Ctx) (b : Ctx) (la : BitVec 4) (d : Dests) (kind : PendKind) (dest : Reg) (word : BitVec 32) (va : Word) : (c.retirePend b la d kind dest word va).m = c.m := rfl
@[simp] theorem Ctx.retirePend_ox (c : Ctx) (b : Ctx) (la : BitVec 4) (d : Dests) (kind : PendKind) (dest : Reg) (word : BitVec 32) (va : Word) : (c.retirePend b la d kind dest word va).ox = c.ox := rfl
@[simp] theorem Ctx.retirePend_pl (c : Ctx) (b : Ctx) (la : BitVec 4) (d : Dests) (kind : PendKind) (dest : Reg) (word : BitVec 32) (va : Word) : (c.retirePend b la d kind dest word va).pl = c.pl := rfl
@[simp] theorem Ctx.retirePend_lao (c : Ctx) (b : Ctx) (la : BitVec 4) (d : Dests) (kind : PendKind) (dest : Reg) (word : BitVec 32) (va : Word) : (c.retirePend b la d kind dest word va).lao = c.lao := rfl
@[simp] theorem Ctx.retirePend_rae (c : Ctx) (b : Ctx) (la : BitVec 4) (d : Dests) (kind : PendKind) (dest : Reg) (word : BitVec 32) (va : Word) : (c.retirePend b la d kind dest word va).rae = c.rae := rfl
@[simp] theorem Ctx.retirePend_ss (c : Ctx) (b : Ctx) (la : BitVec 4) (d : Dests) (kind : PendKind) (dest : Reg) (word : BitVec 32) (va : Word) : (c.retirePend b la d kind dest word va).ss = c.ss := rfl
@[simp] theorem Ctx.retirePend_xf64 (c : Ctx) (b : Ctx) (la : BitVec 4) (d : Dests) (kind : PendKind) (dest : Reg) (word : BitVec 32) (va : Word) : (c.retirePend b la d kind dest word va).xf64 = c.xf64 := rfl
@[simp] theorem Ctx.retirePend_xsf (c : Ctx) (b : Ctx) (la : BitVec 4) (d : Dests) (kind : PendKind) (dest : Reg) (word : BitVec 32) (va : Word) : (c.retirePend b la d kind dest word va).xsf = c.xsf := rfl
@[simp] theorem Ctx.retirePend_fflags (c : Ctx) (b : Ctx) (la : BitVec 4) (d : Dests) (kind : PendKind) (dest : Reg) (word : BitVec 32) (va : Word) : (c.retirePend b la d kind dest word va).fflags = c.fflags := rfl
@[simp] theorem Ctx.retirePend_frm (c : Ctx) (b : Ctx) (la : BitVec 4) (d : Dests) (kind : PendKind) (dest : Reg) (word : BitVec 32) (va : Word) : (c.retirePend b la d kind dest word va).frm = c.frm := rfl
@[simp] theorem Ctx.retirePend_seed (c : Ctx) (b : Ctx) (la : BitVec 4) (d : Dests) (kind : PendKind) (dest : Reg) (word : BitVec 32) (va : Word) : (c.retirePend b la d kind dest word va).seed = c.seed := rfl
@[simp] theorem Ctx.retirePend_lcore (c : Ctx) (b : Ctx) (la : BitVec 4) (d : Dests) (kind : PendKind) (dest : Reg) (word : BitVec 32) (va : Word) : (c.retirePend b la d kind dest word va).lcore = c.lcore := rfl
@[simp] theorem Ctx.retirePend_tag (c : Ctx) (b : Ctx) (la : BitVec 4) (d : Dests) (kind : PendKind) (dest : Reg) (word : BitVec 32) (va : Word) : (c.retirePend b la d kind dest word va).tag = c.tag := rfl
@[simp] theorem Ctx.retirePend_dline (c : Ctx) (b : Ctx) (la : BitVec 4) (d : Dests) (kind : PendKind) (dest : Reg) (word : BitVec 32) (va : Word) : (c.retirePend b la d kind dest word va).dline = c.dline := rfl
@[simp] theorem Ctx.retirePend_cls (c : Ctx) (b : Ctx) (la : BitVec 4) (d : Dests) (kind : PendKind) (dest : Reg) (word : BitVec 32) (va : Word) : (c.retirePend b la d kind dest word va).cls = c.cls := rfl
@[simp] theorem Ctx.retirePend_eff (c : Ctx) (b : Ctx) (la : BitVec 4) (d : Dests) (kind : PendKind) (dest : Reg) (word : BitVec 32) (va : Word) : (c.retirePend b la d kind dest word va).eff = c.eff := rfl
@[simp] theorem Ctx.retirePend_raised (c : Ctx) (b : Ctx) (la : BitVec 4) (d : Dests) (kind : PendKind) (dest : Reg) (word : BitVec 32) (va : Word) : (c.retirePend b la d kind dest word va).raised = c.raised := rfl
@[simp] theorem Ctx.retirePend_bound (c : Ctx) (b : Ctx) (la : BitVec 4) (d : Dests) (kind : PendKind) (dest : Reg) (word : BitVec 32) (va : Word) : (c.retirePend b la d kind dest word va).bound = c.bound := rfl
@[simp] theorem Ctx.retirePend_domain (c : Ctx) (b : Ctx) (la : BitVec 4) (d : Dests) (kind : PendKind) (dest : Reg) (word : BitVec 32) (va : Word) : (c.retirePend b la d kind dest word va).domain = c.domain := rfl
@[simp] theorem Ctx.retirePend_members (c : Ctx) (b : Ctx) (la : BitVec 4) (d : Dests) (kind : PendKind) (dest : Reg) (word : BitVec 32) (va : Word) : (c.retirePend b la d kind dest word va).members = c.members := rfl
@[simp] theorem Ctx.retirePend_leader (c : Ctx) (b : Ctx) (la : BitVec 4) (d : Dests) (kind : PendKind) (dest : Reg) (word : BitVec 32) (va : Word) : (c.retirePend b la d kind dest word va).leader = c.leader := rfl
@[simp] theorem Ctx.retirePend_role (c : Ctx) (b : Ctx) (la : BitVec 4) (d : Dests) (kind : PendKind) (dest : Reg) (word : BitVec 32) (va : Word) : (c.retirePend b la d kind dest word va).role = c.role := rfl
@[simp] theorem Ctx.retirePend_unack (c : Ctx) (b : Ctx) (la : BitVec 4) (d : Dests) (kind : PendKind) (dest : Reg) (word : BitVec 32) (va : Word) : (c.retirePend b la d kind dest word va).unack = c.unack := rfl
@[simp] theorem Ctx.retirePend_brk (c : Ctx) (b : Ctx) (la : BitVec 4) (d : Dests) (kind : PendKind) (dest : Reg) (word : BitVec 32) (va : Word) : (c.retirePend b la d kind dest word va).brk = c.brk := rfl
@[simp] theorem Ctx.retirePend_pcnt (c : Ctx) (b : Ctx) (la : BitVec 4) (d : Dests) (kind : PendKind) (dest : Reg) (word : BitVec 32) (va : Word) : (c.retirePend b la d kind dest word va).pcnt = c.pcnt := rfl
@[simp] theorem Ctx.retirePend_haddr (c : Ctx) (b : Ctx) (la : BitVec 4) (d : Dests) (kind : PendKind) (dest : Reg) (word : BitVec 32) (va : Word) : (c.retirePend b la d kind dest word va).haddr = c.haddr := rfl
@[simp] theorem Ctx.retirePend_grp (c : Ctx) (b : Ctx) (la : BitVec 4) (d : Dests) (kind : PendKind) (dest : Reg) (word : BitVec 32) (va : Word) : (c.retirePend b la d kind dest word va).grp = c.grp := rfl
@[simp] theorem Ctx.retirePend_daccsel (c : Ctx) (b : Ctx) (la : BitVec 4) (d : Dests) (kind : PendKind) (dest : Reg) (word : BitVec 32) (va : Word) : (c.retirePend b la d kind dest word va).daccsel = c.daccsel := rfl
@[simp] theorem Ctx.retirePend_dacc (c : Ctx) (b : Ctx) (la : BitVec 4) (d : Dests) (kind : PendKind) (dest : Reg) (word : BitVec 32) (va : Word) : (c.retirePend b la d kind dest word va).dacc = c.dacc := rfl
@[simp] theorem Ctx.retirePend_pidx (c : Ctx) (b : Ctx) (la : BitVec 4) (d : Dests) (kind : PendKind) (dest : Reg) (word : BitVec 32) (va : Word) : (c.retirePend b la d kind dest word va).pidx = c.pidx := rfl
@[simp] theorem Ctx.retirePend_cause (c : Ctx) (b : Ctx) (la : BitVec 4) (d : Dests) (kind : PendKind) (dest : Reg) (word : BitVec 32) (va : Word) : (c.retirePend b la d kind dest word va).cause = c.cause := rfl
@[simp] theorem Ctx.retirePend_epc (c : Ctx) (b : Ctx) (la : BitVec 4) (d : Dests) (kind : PendKind) (dest : Reg) (word : BitVec 32) (va : Word) : (c.retirePend b la d kind dest word va).epc = c.epc := rfl
@[simp] theorem Ctx.retirePend_eseq (c : Ctx) (b : Ctx) (la : BitVec 4) (d : Dests) (kind : PendKind) (dest : Reg) (word : BitVec 32) (va : Word) : (c.retirePend b la d kind dest word va).eseq = c.eseq := rfl
@[simp] theorem Ctx.retirePend_frec (c : Ctx) (b : Ctx) (la : BitVec 4) (d : Dests) (kind : PendKind) (dest : Reg) (word : BitVec 32) (va : Word) : (c.retirePend b la d kind dest word va).frec = c.frec := rfl
@[simp] theorem Ctx.retirePend_tid (c : Ctx) (b : Ctx) (la : BitVec 4) (d : Dests) (kind : PendKind) (dest : Reg) (word : BitVec 32) (va : Word) : (c.retirePend b la d kind dest word va).tid = c.tid := rfl
@[simp] theorem Ctx.retirePend_nextSeq (c : Ctx) (b : Ctx) (la : BitVec 4) (d : Dests) (kind : PendKind) (dest : Reg) (word : BitVec 32) (va : Word) : (c.retirePend b la d kind dest word va).nextSeq = c.nextSeq := rfl
@[simp] theorem Ctx.retirePend_ring (c : Ctx) (b : Ctx) (la : BitVec 4) (d : Dests) (kind : PendKind) (dest : Reg) (word : BitVec 32) (va : Word) : (c.retirePend b la d kind dest word va).ring = c.ring := rfl
@[simp] theorem Ctx.retirePend_bpa (c : Ctx) (b : Ctx) (la : BitVec 4) (d : Dests) (kind : PendKind) (dest : Reg) (word : BitVec 32) (va : Word) : (c.retirePend b la d kind dest word va).bpa = c.bpa := rfl
@[simp] theorem Ctx.retirePend_wpa (c : Ctx) (b : Ctx) (la : BitVec 4) (d : Dests) (kind : PendKind) (dest : Reg) (word : BitVec 32) (va : Word) : (c.retirePend b la d kind dest word va).wpa = c.wpa := rfl
@[simp] theorem Ctx.retirePend_mcmdErr (c : Ctx) (b : Ctx) (la : BitVec 4) (d : Dests) (kind : PendKind) (dest : Reg) (word : BitVec 32) (va : Word) : (c.retirePend b la d kind dest word va).mcmdErr = c.mcmdErr := rfl
@[simp] theorem Ctx.retirePend_mcmdOff (c : Ctx) (b : Ctx) (la : BitVec 4) (d : Dests) (kind : PendKind) (dest : Reg) (word : BitVec 32) (va : Word) : (c.retirePend b la d kind dest word va).mcmdOff = c.mcmdOff := rfl
@[simp] theorem Ctx.retirePend_mdat (c : Ctx) (b : Ctx) (la : BitVec 4) (d : Dests) (kind : PendKind) (dest : Reg) (word : BitVec 32) (va : Word) : (c.retirePend b la d kind dest word va).mdat = c.mdat := rfl
@[simp] theorem Ctx.retirePend_kept (c : Ctx) (b : Ctx) (la : BitVec 4) (d : Dests) (kind : PendKind) (dest : Reg) (word : BitVec 32) (va : Word) : (c.retirePend b la d kind dest word va).kept = c.kept := rfl
@[simp] theorem Ctx.retirePend_records (c : Ctx) (b : Ctx) (la : BitVec 4) (d : Dests) (kind : PendKind) (dest : Reg) (word : BitVec 32) (va : Word) : (c.retirePend b la d kind dest word va).records = c.records := rfl
@[simp] theorem Ctx.retirePend_slots (c : Ctx) (b : Ctx) (la : BitVec 4) (d : Dests) (kind : PendKind) (dest : Reg) (word : BitVec 32) (va : Word) : (c.retirePend b la d kind dest word va).slots = c.slots := rfl
@[simp] theorem Ctx.retirePend_replay (c : Ctx) (b : Ctx) (la : BitVec 4) (d : Dests) (kind : PendKind) (dest : Reg) (word : BitVec 32) (va : Word) : (c.retirePend b la d kind dest word va).replay = c.replay := rfl
@[simp] theorem Ctx.retirePend_watchHit (c : Ctx) (b : Ctx) (la : BitVec 4) (d : Dests) (kind : PendKind) (dest : Reg) (word : BitVec 32) (va : Word) : (c.retirePend b la d kind dest word va).watchHit = c.watchHit := rfl
@[simp] theorem Ctx.retirePend_stepDue (c : Ctx) (b : Ctx) (la : BitVec 4) (d : Dests) (kind : PendKind) (dest : Reg) (word : BitVec 32) (va : Word) : (c.retirePend b la d kind dest word va).stepDue = c.stepDue := rfl
@[simp] theorem Ctx.retirePend_staging (c : Ctx) (b : Ctx) (la : BitVec 4) (d : Dests) (kind : PendKind) (dest : Reg) (word : BitVec 32) (va : Word) : (c.retirePend b la d kind dest word va).staging = c.staging := rfl
@[simp] theorem Ctx.retirePend_root (c : Ctx) (b : Ctx) (la : BitVec 4) (d : Dests) (kind : PendKind) (dest : Reg) (word : BitVec 32) (va : Word) : (c.retirePend b la d kind dest word va).root = c.root := rfl
@[simp] theorem Ctx.retirePend_late (c : Ctx) (b : Ctx) (la : BitVec 4) (d : Dests) (kind : PendKind) (dest : Reg) (word : BitVec 32) (va : Word) : (c.retirePend b la d kind dest word va).late = c.late := rfl
@[simp] theorem Ctx.retirePend_actor (c : Ctx) (b : Ctx) (la : BitVec 4) (d : Dests) (kind : PendKind) (dest : Reg) (word : BitVec 32) (va : Word) : (c.retirePend b la d kind dest word va).actor = c.actor := rfl
@[simp] theorem Ctx.retirePend_parent (c : Ctx) (b : Ctx) (la : BitVec 4) (d : Dests) (kind : PendKind) (dest : Reg) (word : BitVec 32) (va : Word) : (c.retirePend b la d kind dest word va).parent = c.parent := rfl
@[simp] theorem Ctx.retirePend_children (c : Ctx) (b : Ctx) (la : BitVec 4) (d : Dests) (kind : PendKind) (dest : Reg) (word : BitVec 32) (va : Word) : (c.retirePend b la d kind dest word va).children = c.children := rfl
@[simp] theorem Ctx.retirePend_joinable (c : Ctx) (b : Ctx) (la : BitVec 4) (d : Dests) (kind : PendKind) (dest : Reg) (word : BitVec 32) (va : Word) : (c.retirePend b la d kind dest word va).joinable = c.joinable := rfl
@[simp] theorem Ctx.retirePend_forkScope (c : Ctx) (b : Ctx) (la : BitVec 4) (d : Dests) (kind : PendKind) (dest : Reg) (word : BitVec 32) (va : Word) : (c.retirePend b la d kind dest word va).forkScope = c.forkScope := rfl
@[simp] theorem Ctx.retirePend_entryTarget (c : Ctx) (b : Ctx) (la : BitVec 4) (d : Dests) (kind : PendKind) (dest : Reg) (word : BitVec 32) (va : Word) : (c.retirePend b la d kind dest word va).entryTarget = c.entryTarget := rfl
@[simp] theorem Ctx.retirePend_entrySender (c : Ctx) (b : Ctx) (la : BitVec 4) (d : Dests) (kind : PendKind) (dest : Reg) (word : BitVec 32) (va : Word) : (c.retirePend b la d kind dest word va).entrySender = c.entrySender := rfl
@[simp] theorem Ctx.retirePend_queue (c : Ctx) (b : Ctx) (la : BitVec 4) (d : Dests) (kind : PendKind) (dest : Reg) (word : BitVec 32) (va : Word) : (c.retirePend b la d kind dest word va).queue = c.queue := rfl
@[simp] theorem Ctx.retirePend_packet (c : Ctx) (b : Ctx) (la : BitVec 4) (d : Dests) (kind : PendKind) (dest : Reg) (word : BitVec 32) (va : Word) : (c.retirePend b la d kind dest word va).packet = c.packet := rfl
@[simp] theorem Ctx.retirePend_ctr (c : Ctx) (b : Ctx) (la : BitVec 4) (d : Dests) (kind : PendKind) (dest : Reg) (word : BitVec 32) (va : Word) : (c.retirePend b la d kind dest word va).ctr = c.ctr := rfl
@[simp] theorem Ctx.retirePend_runMax (c : Ctx) (b : Ctx) (la : BitVec 4) (d : Dests) (kind : PendKind) (dest : Reg) (word : BitVec 32) (va : Word) : (c.retirePend b la d kind dest word va).runMax = c.runMax := rfl
@[simp] theorem Ctx.retirePend_backfill (c : Ctx) (b : Ctx) (la : BitVec 4) (d : Dests) (kind : PendKind) (dest : Reg) (word : BitVec 32) (va : Word) : (c.retirePend b la d kind dest word va).backfill = c.backfill := rfl
@[simp] theorem Ctx.retirePend_startedAt (c : Ctx) (b : Ctx) (la : BitVec 4) (d : Dests) (kind : PendKind) (dest : Reg) (word : BitVec 32) (va : Word) : (c.retirePend b la d kind dest word va).startedAt = c.startedAt := rfl
@[simp] theorem Ctx.retirePend_gang (c : Ctx) (b : Ctx) (la : BitVec 4) (d : Dests) (kind : PendKind) (dest : Reg) (word : BitVec 32) (va : Word) : (c.retirePend b la d kind dest word va).gang = c.gang := rfl
@[simp] theorem Ctx.retirePend_handles (c : Ctx) (b : Ctx) (la : BitVec 4) (d : Dests) (kind : PendKind) (dest : Reg) (word : BitVec 32) (va : Word) : (c.retirePend b la d kind dest word va).handles = c.handles := rfl
@[simp] theorem Ctx.retirePend_decisions (c : Ctx) (b : Ctx) (la : BitVec 4) (d : Dests) (kind : PendKind) (dest : Reg) (word : BitVec 32) (va : Word) : (c.retirePend b la d kind dest word va).decisions = c.decisions := rfl
@[simp] theorem Ctx.retirePend_target (c : Ctx) (b : Ctx) (la : BitVec 4) (d : Dests) (kind : PendKind) (dest : Reg) (word : BitVec 32) (va : Word) : (c.retirePend b la d kind dest word va).target = c.target := rfl
@[simp] theorem Ctx.retirePend_epoch (c : Ctx) (b : Ctx) (la : BitVec 4) (d : Dests) (kind : PendKind) (dest : Reg) (word : BitVec 32) (va : Word) : (c.retirePend b la d kind dest word va).epoch = c.epoch := rfl
@[simp] theorem Ctx.retirePend_sysEpoch (c : Ctx) (b : Ctx) (la : BitVec 4) (d : Dests) (kind : PendKind) (dest : Reg) (word : BitVec 32) (va : Word) : (c.retirePend b la d kind dest word va).sysEpoch = c.sysEpoch := rfl
@[simp] theorem Ctx.retirePend_forwarded (c : Ctx) (b : Ctx) (la : BitVec 4) (d : Dests) (kind : PendKind) (dest : Reg) (word : BitVec 32) (va : Word) : (c.retirePend b la d kind dest word va).forwarded = c.forwarded := rfl
@[simp] theorem Ctx.retirePend_limit (c : Ctx) (b : Ctx) (la : BitVec 4) (d : Dests) (kind : PendKind) (dest : Reg) (word : BitVec 32) (va : Word) : (c.retirePend b la d kind dest word va).limit = c.limit := rfl
@[simp] theorem Ctx.retirePend_run (c : Ctx) (b : Ctx) (la : BitVec 4) (d : Dests) (kind : PendKind) (dest : Reg) (word : BitVec 32) (va : Word) : (c.retirePend b la d kind dest word va).run = .running := rfl
@[simp] theorem Ctx.retirePend_pc (c : Ctx) (b : Ctx) (la : BitVec 4) (d : Dests) (kind : PendKind) (dest : Reg) (word : BitVec 32) (va : Word) : (c.retirePend b la d kind dest word va).pc = (c.pc + BitVec.ofNat 64 4) &&& ~~~1 := rfl

@[simp] theorem Ctx.closeWindows_key (c : Ctx) : (c.closeWindows).key = c.key := rfl
@[simp] theorem Ctx.closeWindows_part (c : Ctx) : (c.closeWindows).part = c.part := rfl
@[simp] theorem Ctx.closeWindows_run (c : Ctx) : (c.closeWindows).run = c.run := rfl
@[simp] theorem Ctx.closeWindows_x (c : Ctx) : (c.closeWindows).x = c.x := rfl
@[simp] theorem Ctx.closeWindows_v (c : Ctx) : (c.closeWindows).v = c.v := rfl
@[simp] theorem Ctx.closeWindows_m (c : Ctx) : (c.closeWindows).m = c.m := rfl
@[simp] theorem Ctx.closeWindows_ox (c : Ctx) : (c.closeWindows).ox = c.ox := rfl
@[simp] theorem Ctx.closeWindows_pc (c : Ctx) : (c.closeWindows).pc = c.pc := rfl
@[simp] theorem Ctx.closeWindows_pl (c : Ctx) : (c.closeWindows).pl = c.pl := rfl
@[simp] theorem Ctx.closeWindows_lao (c : Ctx) : (c.closeWindows).lao = c.lao := rfl
@[simp] theorem Ctx.closeWindows_rae (c : Ctx) : (c.closeWindows).rae = c.rae := rfl
@[simp] theorem Ctx.closeWindows_ss (c : Ctx) : (c.closeWindows).ss = c.ss := rfl
@[simp] theorem Ctx.closeWindows_xf64 (c : Ctx) : (c.closeWindows).xf64 = c.xf64 := rfl
@[simp] theorem Ctx.closeWindows_xsf (c : Ctx) : (c.closeWindows).xsf = c.xsf := rfl
@[simp] theorem Ctx.closeWindows_fflags (c : Ctx) : (c.closeWindows).fflags = c.fflags := rfl
@[simp] theorem Ctx.closeWindows_frm (c : Ctx) : (c.closeWindows).frm = c.frm := rfl
@[simp] theorem Ctx.closeWindows_seed (c : Ctx) : (c.closeWindows).seed = c.seed := rfl
@[simp] theorem Ctx.closeWindows_lcore (c : Ctx) : (c.closeWindows).lcore = c.lcore := rfl
@[simp] theorem Ctx.closeWindows_tag (c : Ctx) : (c.closeWindows).tag = c.tag := rfl
@[simp] theorem Ctx.closeWindows_dline (c : Ctx) : (c.closeWindows).dline = c.dline := rfl
@[simp] theorem Ctx.closeWindows_cls (c : Ctx) : (c.closeWindows).cls = c.cls := rfl
@[simp] theorem Ctx.closeWindows_eff (c : Ctx) : (c.closeWindows).eff = c.eff := rfl
@[simp] theorem Ctx.closeWindows_raised (c : Ctx) : (c.closeWindows).raised = c.raised := rfl
@[simp] theorem Ctx.closeWindows_bound (c : Ctx) : (c.closeWindows).bound = c.bound := rfl
@[simp] theorem Ctx.closeWindows_domain (c : Ctx) : (c.closeWindows).domain = c.domain := rfl
@[simp] theorem Ctx.closeWindows_members (c : Ctx) : (c.closeWindows).members = c.members := rfl
@[simp] theorem Ctx.closeWindows_leader (c : Ctx) : (c.closeWindows).leader = c.leader := rfl
@[simp] theorem Ctx.closeWindows_role (c : Ctx) : (c.closeWindows).role = c.role := rfl
@[simp] theorem Ctx.closeWindows_unack (c : Ctx) : (c.closeWindows).unack = c.unack := rfl
@[simp] theorem Ctx.closeWindows_brk (c : Ctx) : (c.closeWindows).brk = c.brk := rfl
@[simp] theorem Ctx.closeWindows_pcnt (c : Ctx) : (c.closeWindows).pcnt = c.pcnt := rfl
@[simp] theorem Ctx.closeWindows_haddr (c : Ctx) : (c.closeWindows).haddr = c.haddr := rfl
@[simp] theorem Ctx.closeWindows_grp (c : Ctx) : (c.closeWindows).grp = c.grp := rfl
@[simp] theorem Ctx.closeWindows_daccsel (c : Ctx) : (c.closeWindows).daccsel = c.daccsel := rfl
@[simp] theorem Ctx.closeWindows_dacc (c : Ctx) : (c.closeWindows).dacc = c.dacc := rfl
@[simp] theorem Ctx.closeWindows_pidx (c : Ctx) : (c.closeWindows).pidx = c.pidx := rfl
@[simp] theorem Ctx.closeWindows_cause (c : Ctx) : (c.closeWindows).cause = c.cause := rfl
@[simp] theorem Ctx.closeWindows_epc (c : Ctx) : (c.closeWindows).epc = c.epc := rfl
@[simp] theorem Ctx.closeWindows_eseq (c : Ctx) : (c.closeWindows).eseq = c.eseq := rfl
@[simp] theorem Ctx.closeWindows_frec (c : Ctx) : (c.closeWindows).frec = c.frec := rfl
@[simp] theorem Ctx.closeWindows_tid (c : Ctx) : (c.closeWindows).tid = c.tid := rfl
@[simp] theorem Ctx.closeWindows_nextSeq (c : Ctx) : (c.closeWindows).nextSeq = c.nextSeq := rfl
@[simp] theorem Ctx.closeWindows_ring (c : Ctx) : (c.closeWindows).ring = c.ring := rfl
@[simp] theorem Ctx.closeWindows_bpa (c : Ctx) : (c.closeWindows).bpa = c.bpa := rfl
@[simp] theorem Ctx.closeWindows_wpa (c : Ctx) : (c.closeWindows).wpa = c.wpa := rfl
@[simp] theorem Ctx.closeWindows_mcmdErr (c : Ctx) : (c.closeWindows).mcmdErr = c.mcmdErr := rfl
@[simp] theorem Ctx.closeWindows_mcmdOff (c : Ctx) : (c.closeWindows).mcmdOff = c.mcmdOff := rfl
@[simp] theorem Ctx.closeWindows_mdat (c : Ctx) : (c.closeWindows).mdat = c.mdat := rfl
@[simp] theorem Ctx.closeWindows_kept (c : Ctx) : (c.closeWindows).kept = c.kept := rfl
@[simp] theorem Ctx.closeWindows_faults (c : Ctx) : (c.closeWindows).faults = c.faults := rfl
@[simp] theorem Ctx.closeWindows_records (c : Ctx) : (c.closeWindows).records = c.records := rfl
@[simp] theorem Ctx.closeWindows_slots (c : Ctx) : (c.closeWindows).slots = c.slots := rfl
@[simp] theorem Ctx.closeWindows_replay (c : Ctx) : (c.closeWindows).replay = c.replay := rfl
@[simp] theorem Ctx.closeWindows_watchHit (c : Ctx) : (c.closeWindows).watchHit = c.watchHit := rfl
@[simp] theorem Ctx.closeWindows_stepDue (c : Ctx) : (c.closeWindows).stepDue = c.stepDue := rfl
@[simp] theorem Ctx.closeWindows_staging (c : Ctx) : (c.closeWindows).staging = c.staging := rfl
@[simp] theorem Ctx.closeWindows_pends (c : Ctx) : (c.closeWindows).pends = c.pends := rfl
@[simp] theorem Ctx.closeWindows_root (c : Ctx) : (c.closeWindows).root = c.root := rfl
@[simp] theorem Ctx.closeWindows_late (c : Ctx) : (c.closeWindows).late = c.late := rfl
@[simp] theorem Ctx.closeWindows_actor (c : Ctx) : (c.closeWindows).actor = c.actor := rfl
@[simp] theorem Ctx.closeWindows_parent (c : Ctx) : (c.closeWindows).parent = c.parent := rfl
@[simp] theorem Ctx.closeWindows_children (c : Ctx) : (c.closeWindows).children = c.children := rfl
@[simp] theorem Ctx.closeWindows_joinable (c : Ctx) : (c.closeWindows).joinable = c.joinable := rfl
@[simp] theorem Ctx.closeWindows_forkScope (c : Ctx) : (c.closeWindows).forkScope = c.forkScope := rfl
@[simp] theorem Ctx.closeWindows_entryTarget (c : Ctx) : (c.closeWindows).entryTarget = c.entryTarget := rfl
@[simp] theorem Ctx.closeWindows_entrySender (c : Ctx) : (c.closeWindows).entrySender = c.entrySender := rfl
@[simp] theorem Ctx.closeWindows_queue (c : Ctx) : (c.closeWindows).queue = c.queue := rfl
@[simp] theorem Ctx.closeWindows_packet (c : Ctx) : (c.closeWindows).packet = c.packet := rfl
@[simp] theorem Ctx.closeWindows_ctr (c : Ctx) : (c.closeWindows).ctr = c.ctr := rfl
@[simp] theorem Ctx.closeWindows_runMax (c : Ctx) : (c.closeWindows).runMax = c.runMax := rfl
@[simp] theorem Ctx.closeWindows_backfill (c : Ctx) : (c.closeWindows).backfill = c.backfill := rfl
@[simp] theorem Ctx.closeWindows_startedAt (c : Ctx) : (c.closeWindows).startedAt = c.startedAt := rfl
@[simp] theorem Ctx.closeWindows_gang (c : Ctx) : (c.closeWindows).gang = c.gang := rfl
@[simp] theorem Ctx.closeWindows_handles (c : Ctx) : (c.closeWindows).handles = c.handles := rfl
@[simp] theorem Ctx.closeWindows_decisions (c : Ctx) : (c.closeWindows).decisions = c.decisions := rfl
@[simp] theorem Ctx.closeWindows_target (c : Ctx) : (c.closeWindows).target = c.target := rfl
@[simp] theorem Ctx.closeWindows_epoch (c : Ctx) : (c.closeWindows).epoch = c.epoch := rfl
@[simp] theorem Ctx.closeWindows_sysEpoch (c : Ctx) : (c.closeWindows).sysEpoch = c.sysEpoch := rfl
@[simp] theorem Ctx.closeWindows_forwarded (c : Ctx) : (c.closeWindows).forwarded = c.forwarded := rfl
@[simp] theorem Ctx.closeWindows_limit (c : Ctx) : (c.closeWindows).limit = c.limit := rfl
@[simp] theorem Ctx.closeWindows_windows (c : Ctx) : c.closeWindows.windows = [] := rfl

@[simp] theorem Ctx.stall_key (c : Ctx) : (c.stall).key = c.key := rfl
@[simp] theorem Ctx.stall_part (c : Ctx) : (c.stall).part = c.part := rfl
@[simp] theorem Ctx.stall_x (c : Ctx) : (c.stall).x = c.x := rfl
@[simp] theorem Ctx.stall_v (c : Ctx) : (c.stall).v = c.v := rfl
@[simp] theorem Ctx.stall_m (c : Ctx) : (c.stall).m = c.m := rfl
@[simp] theorem Ctx.stall_ox (c : Ctx) : (c.stall).ox = c.ox := rfl
@[simp] theorem Ctx.stall_pc (c : Ctx) : (c.stall).pc = c.pc := rfl
@[simp] theorem Ctx.stall_pl (c : Ctx) : (c.stall).pl = c.pl := rfl
@[simp] theorem Ctx.stall_lao (c : Ctx) : (c.stall).lao = c.lao := rfl
@[simp] theorem Ctx.stall_rae (c : Ctx) : (c.stall).rae = c.rae := rfl
@[simp] theorem Ctx.stall_ss (c : Ctx) : (c.stall).ss = c.ss := rfl
@[simp] theorem Ctx.stall_xf64 (c : Ctx) : (c.stall).xf64 = c.xf64 := rfl
@[simp] theorem Ctx.stall_xsf (c : Ctx) : (c.stall).xsf = c.xsf := rfl
@[simp] theorem Ctx.stall_fflags (c : Ctx) : (c.stall).fflags = c.fflags := rfl
@[simp] theorem Ctx.stall_frm (c : Ctx) : (c.stall).frm = c.frm := rfl
@[simp] theorem Ctx.stall_seed (c : Ctx) : (c.stall).seed = c.seed := rfl
@[simp] theorem Ctx.stall_lcore (c : Ctx) : (c.stall).lcore = c.lcore := rfl
@[simp] theorem Ctx.stall_tag (c : Ctx) : (c.stall).tag = c.tag := rfl
@[simp] theorem Ctx.stall_dline (c : Ctx) : (c.stall).dline = c.dline := rfl
@[simp] theorem Ctx.stall_cls (c : Ctx) : (c.stall).cls = c.cls := rfl
@[simp] theorem Ctx.stall_eff (c : Ctx) : (c.stall).eff = c.eff := rfl
@[simp] theorem Ctx.stall_raised (c : Ctx) : (c.stall).raised = c.raised := rfl
@[simp] theorem Ctx.stall_bound (c : Ctx) : (c.stall).bound = c.bound := rfl
@[simp] theorem Ctx.stall_domain (c : Ctx) : (c.stall).domain = c.domain := rfl
@[simp] theorem Ctx.stall_members (c : Ctx) : (c.stall).members = c.members := rfl
@[simp] theorem Ctx.stall_leader (c : Ctx) : (c.stall).leader = c.leader := rfl
@[simp] theorem Ctx.stall_role (c : Ctx) : (c.stall).role = c.role := rfl
@[simp] theorem Ctx.stall_unack (c : Ctx) : (c.stall).unack = c.unack := rfl
@[simp] theorem Ctx.stall_brk (c : Ctx) : (c.stall).brk = c.brk := rfl
@[simp] theorem Ctx.stall_pcnt (c : Ctx) : (c.stall).pcnt = c.pcnt := rfl
@[simp] theorem Ctx.stall_haddr (c : Ctx) : (c.stall).haddr = c.haddr := rfl
@[simp] theorem Ctx.stall_grp (c : Ctx) : (c.stall).grp = c.grp := rfl
@[simp] theorem Ctx.stall_daccsel (c : Ctx) : (c.stall).daccsel = c.daccsel := rfl
@[simp] theorem Ctx.stall_dacc (c : Ctx) : (c.stall).dacc = c.dacc := rfl
@[simp] theorem Ctx.stall_pidx (c : Ctx) : (c.stall).pidx = c.pidx := rfl
@[simp] theorem Ctx.stall_cause (c : Ctx) : (c.stall).cause = c.cause := rfl
@[simp] theorem Ctx.stall_epc (c : Ctx) : (c.stall).epc = c.epc := rfl
@[simp] theorem Ctx.stall_eseq (c : Ctx) : (c.stall).eseq = c.eseq := rfl
@[simp] theorem Ctx.stall_frec (c : Ctx) : (c.stall).frec = c.frec := rfl
@[simp] theorem Ctx.stall_tid (c : Ctx) : (c.stall).tid = c.tid := rfl
@[simp] theorem Ctx.stall_nextSeq (c : Ctx) : (c.stall).nextSeq = c.nextSeq := rfl
@[simp] theorem Ctx.stall_ring (c : Ctx) : (c.stall).ring = c.ring := rfl
@[simp] theorem Ctx.stall_bpa (c : Ctx) : (c.stall).bpa = c.bpa := rfl
@[simp] theorem Ctx.stall_wpa (c : Ctx) : (c.stall).wpa = c.wpa := rfl
@[simp] theorem Ctx.stall_mcmdErr (c : Ctx) : (c.stall).mcmdErr = c.mcmdErr := rfl
@[simp] theorem Ctx.stall_mcmdOff (c : Ctx) : (c.stall).mcmdOff = c.mcmdOff := rfl
@[simp] theorem Ctx.stall_mdat (c : Ctx) : (c.stall).mdat = c.mdat := rfl
@[simp] theorem Ctx.stall_windows (c : Ctx) : (c.stall).windows = c.windows := rfl
@[simp] theorem Ctx.stall_kept (c : Ctx) : (c.stall).kept = c.kept := rfl
@[simp] theorem Ctx.stall_faults (c : Ctx) : (c.stall).faults = c.faults := rfl
@[simp] theorem Ctx.stall_records (c : Ctx) : (c.stall).records = c.records := rfl
@[simp] theorem Ctx.stall_slots (c : Ctx) : (c.stall).slots = c.slots := rfl
@[simp] theorem Ctx.stall_replay (c : Ctx) : (c.stall).replay = c.replay := rfl
@[simp] theorem Ctx.stall_watchHit (c : Ctx) : (c.stall).watchHit = c.watchHit := rfl
@[simp] theorem Ctx.stall_stepDue (c : Ctx) : (c.stall).stepDue = c.stepDue := rfl
@[simp] theorem Ctx.stall_staging (c : Ctx) : (c.stall).staging = c.staging := rfl
@[simp] theorem Ctx.stall_pends (c : Ctx) : (c.stall).pends = c.pends := rfl
@[simp] theorem Ctx.stall_root (c : Ctx) : (c.stall).root = c.root := rfl
@[simp] theorem Ctx.stall_late (c : Ctx) : (c.stall).late = c.late := rfl
@[simp] theorem Ctx.stall_actor (c : Ctx) : (c.stall).actor = c.actor := rfl
@[simp] theorem Ctx.stall_parent (c : Ctx) : (c.stall).parent = c.parent := rfl
@[simp] theorem Ctx.stall_children (c : Ctx) : (c.stall).children = c.children := rfl
@[simp] theorem Ctx.stall_joinable (c : Ctx) : (c.stall).joinable = c.joinable := rfl
@[simp] theorem Ctx.stall_forkScope (c : Ctx) : (c.stall).forkScope = c.forkScope := rfl
@[simp] theorem Ctx.stall_entryTarget (c : Ctx) : (c.stall).entryTarget = c.entryTarget := rfl
@[simp] theorem Ctx.stall_entrySender (c : Ctx) : (c.stall).entrySender = c.entrySender := rfl
@[simp] theorem Ctx.stall_queue (c : Ctx) : (c.stall).queue = c.queue := rfl
@[simp] theorem Ctx.stall_packet (c : Ctx) : (c.stall).packet = c.packet := rfl
@[simp] theorem Ctx.stall_ctr (c : Ctx) : (c.stall).ctr = c.ctr := rfl
@[simp] theorem Ctx.stall_runMax (c : Ctx) : (c.stall).runMax = c.runMax := rfl
@[simp] theorem Ctx.stall_backfill (c : Ctx) : (c.stall).backfill = c.backfill := rfl
@[simp] theorem Ctx.stall_startedAt (c : Ctx) : (c.stall).startedAt = c.startedAt := rfl
@[simp] theorem Ctx.stall_gang (c : Ctx) : (c.stall).gang = c.gang := rfl
@[simp] theorem Ctx.stall_handles (c : Ctx) : (c.stall).handles = c.handles := rfl
@[simp] theorem Ctx.stall_decisions (c : Ctx) : (c.stall).decisions = c.decisions := rfl
@[simp] theorem Ctx.stall_target (c : Ctx) : (c.stall).target = c.target := rfl
@[simp] theorem Ctx.stall_epoch (c : Ctx) : (c.stall).epoch = c.epoch := rfl
@[simp] theorem Ctx.stall_sysEpoch (c : Ctx) : (c.stall).sysEpoch = c.sysEpoch := rfl
@[simp] theorem Ctx.stall_forwarded (c : Ctx) : (c.stall).forwarded = c.forwarded := rfl
@[simp] theorem Ctx.stall_limit (c : Ctx) : (c.stall).limit = c.limit := rfl
@[simp] theorem Ctx.stall_run (c : Ctx) : c.stall.run = .waiting .retry := rfl

@[simp] theorem Ctx.mergeFlags_key (c : Ctx) (f : Flags) : (c.mergeFlags f).key = c.key := rfl
@[simp] theorem Ctx.mergeFlags_part (c : Ctx) (f : Flags) : (c.mergeFlags f).part = c.part := rfl
@[simp] theorem Ctx.mergeFlags_run (c : Ctx) (f : Flags) : (c.mergeFlags f).run = c.run := rfl
@[simp] theorem Ctx.mergeFlags_x (c : Ctx) (f : Flags) : (c.mergeFlags f).x = c.x := rfl
@[simp] theorem Ctx.mergeFlags_v (c : Ctx) (f : Flags) : (c.mergeFlags f).v = c.v := rfl
@[simp] theorem Ctx.mergeFlags_m (c : Ctx) (f : Flags) : (c.mergeFlags f).m = c.m := rfl
@[simp] theorem Ctx.mergeFlags_ox (c : Ctx) (f : Flags) : (c.mergeFlags f).ox = c.ox := rfl
@[simp] theorem Ctx.mergeFlags_pc (c : Ctx) (f : Flags) : (c.mergeFlags f).pc = c.pc := rfl
@[simp] theorem Ctx.mergeFlags_pl (c : Ctx) (f : Flags) : (c.mergeFlags f).pl = c.pl := rfl
@[simp] theorem Ctx.mergeFlags_lao (c : Ctx) (f : Flags) : (c.mergeFlags f).lao = c.lao := rfl
@[simp] theorem Ctx.mergeFlags_rae (c : Ctx) (f : Flags) : (c.mergeFlags f).rae = c.rae := rfl
@[simp] theorem Ctx.mergeFlags_ss (c : Ctx) (f : Flags) : (c.mergeFlags f).ss = c.ss := rfl
@[simp] theorem Ctx.mergeFlags_xf64 (c : Ctx) (f : Flags) : (c.mergeFlags f).xf64 = c.xf64 := rfl
@[simp] theorem Ctx.mergeFlags_xsf (c : Ctx) (f : Flags) : (c.mergeFlags f).xsf = c.xsf := rfl
@[simp] theorem Ctx.mergeFlags_frm (c : Ctx) (f : Flags) : (c.mergeFlags f).frm = c.frm := rfl
@[simp] theorem Ctx.mergeFlags_seed (c : Ctx) (f : Flags) : (c.mergeFlags f).seed = c.seed := rfl
@[simp] theorem Ctx.mergeFlags_lcore (c : Ctx) (f : Flags) : (c.mergeFlags f).lcore = c.lcore := rfl
@[simp] theorem Ctx.mergeFlags_tag (c : Ctx) (f : Flags) : (c.mergeFlags f).tag = c.tag := rfl
@[simp] theorem Ctx.mergeFlags_dline (c : Ctx) (f : Flags) : (c.mergeFlags f).dline = c.dline := rfl
@[simp] theorem Ctx.mergeFlags_cls (c : Ctx) (f : Flags) : (c.mergeFlags f).cls = c.cls := rfl
@[simp] theorem Ctx.mergeFlags_eff (c : Ctx) (f : Flags) : (c.mergeFlags f).eff = c.eff := rfl
@[simp] theorem Ctx.mergeFlags_raised (c : Ctx) (f : Flags) : (c.mergeFlags f).raised = c.raised := rfl
@[simp] theorem Ctx.mergeFlags_bound (c : Ctx) (f : Flags) : (c.mergeFlags f).bound = c.bound := rfl
@[simp] theorem Ctx.mergeFlags_domain (c : Ctx) (f : Flags) : (c.mergeFlags f).domain = c.domain := rfl
@[simp] theorem Ctx.mergeFlags_members (c : Ctx) (f : Flags) : (c.mergeFlags f).members = c.members := rfl
@[simp] theorem Ctx.mergeFlags_leader (c : Ctx) (f : Flags) : (c.mergeFlags f).leader = c.leader := rfl
@[simp] theorem Ctx.mergeFlags_role (c : Ctx) (f : Flags) : (c.mergeFlags f).role = c.role := rfl
@[simp] theorem Ctx.mergeFlags_unack (c : Ctx) (f : Flags) : (c.mergeFlags f).unack = c.unack := rfl
@[simp] theorem Ctx.mergeFlags_brk (c : Ctx) (f : Flags) : (c.mergeFlags f).brk = c.brk := rfl
@[simp] theorem Ctx.mergeFlags_pcnt (c : Ctx) (f : Flags) : (c.mergeFlags f).pcnt = c.pcnt := rfl
@[simp] theorem Ctx.mergeFlags_haddr (c : Ctx) (f : Flags) : (c.mergeFlags f).haddr = c.haddr := rfl
@[simp] theorem Ctx.mergeFlags_grp (c : Ctx) (f : Flags) : (c.mergeFlags f).grp = c.grp := rfl
@[simp] theorem Ctx.mergeFlags_daccsel (c : Ctx) (f : Flags) : (c.mergeFlags f).daccsel = c.daccsel := rfl
@[simp] theorem Ctx.mergeFlags_dacc (c : Ctx) (f : Flags) : (c.mergeFlags f).dacc = c.dacc := rfl
@[simp] theorem Ctx.mergeFlags_pidx (c : Ctx) (f : Flags) : (c.mergeFlags f).pidx = c.pidx := rfl
@[simp] theorem Ctx.mergeFlags_cause (c : Ctx) (f : Flags) : (c.mergeFlags f).cause = c.cause := rfl
@[simp] theorem Ctx.mergeFlags_epc (c : Ctx) (f : Flags) : (c.mergeFlags f).epc = c.epc := rfl
@[simp] theorem Ctx.mergeFlags_eseq (c : Ctx) (f : Flags) : (c.mergeFlags f).eseq = c.eseq := rfl
@[simp] theorem Ctx.mergeFlags_frec (c : Ctx) (f : Flags) : (c.mergeFlags f).frec = c.frec := rfl
@[simp] theorem Ctx.mergeFlags_tid (c : Ctx) (f : Flags) : (c.mergeFlags f).tid = c.tid := rfl
@[simp] theorem Ctx.mergeFlags_nextSeq (c : Ctx) (f : Flags) : (c.mergeFlags f).nextSeq = c.nextSeq := rfl
@[simp] theorem Ctx.mergeFlags_ring (c : Ctx) (f : Flags) : (c.mergeFlags f).ring = c.ring := rfl
@[simp] theorem Ctx.mergeFlags_bpa (c : Ctx) (f : Flags) : (c.mergeFlags f).bpa = c.bpa := rfl
@[simp] theorem Ctx.mergeFlags_wpa (c : Ctx) (f : Flags) : (c.mergeFlags f).wpa = c.wpa := rfl
@[simp] theorem Ctx.mergeFlags_mcmdErr (c : Ctx) (f : Flags) : (c.mergeFlags f).mcmdErr = c.mcmdErr := rfl
@[simp] theorem Ctx.mergeFlags_mcmdOff (c : Ctx) (f : Flags) : (c.mergeFlags f).mcmdOff = c.mcmdOff := rfl
@[simp] theorem Ctx.mergeFlags_mdat (c : Ctx) (f : Flags) : (c.mergeFlags f).mdat = c.mdat := rfl
@[simp] theorem Ctx.mergeFlags_windows (c : Ctx) (f : Flags) : (c.mergeFlags f).windows = c.windows := rfl
@[simp] theorem Ctx.mergeFlags_kept (c : Ctx) (f : Flags) : (c.mergeFlags f).kept = c.kept := rfl
@[simp] theorem Ctx.mergeFlags_faults (c : Ctx) (f : Flags) : (c.mergeFlags f).faults = c.faults := rfl
@[simp] theorem Ctx.mergeFlags_records (c : Ctx) (f : Flags) : (c.mergeFlags f).records = c.records := rfl
@[simp] theorem Ctx.mergeFlags_slots (c : Ctx) (f : Flags) : (c.mergeFlags f).slots = c.slots := rfl
@[simp] theorem Ctx.mergeFlags_replay (c : Ctx) (f : Flags) : (c.mergeFlags f).replay = c.replay := rfl
@[simp] theorem Ctx.mergeFlags_watchHit (c : Ctx) (f : Flags) : (c.mergeFlags f).watchHit = c.watchHit := rfl
@[simp] theorem Ctx.mergeFlags_stepDue (c : Ctx) (f : Flags) : (c.mergeFlags f).stepDue = c.stepDue := rfl
@[simp] theorem Ctx.mergeFlags_staging (c : Ctx) (f : Flags) : (c.mergeFlags f).staging = c.staging := rfl
@[simp] theorem Ctx.mergeFlags_pends (c : Ctx) (f : Flags) : (c.mergeFlags f).pends = c.pends := rfl
@[simp] theorem Ctx.mergeFlags_root (c : Ctx) (f : Flags) : (c.mergeFlags f).root = c.root := rfl
@[simp] theorem Ctx.mergeFlags_late (c : Ctx) (f : Flags) : (c.mergeFlags f).late = c.late := rfl
@[simp] theorem Ctx.mergeFlags_actor (c : Ctx) (f : Flags) : (c.mergeFlags f).actor = c.actor := rfl
@[simp] theorem Ctx.mergeFlags_parent (c : Ctx) (f : Flags) : (c.mergeFlags f).parent = c.parent := rfl
@[simp] theorem Ctx.mergeFlags_children (c : Ctx) (f : Flags) : (c.mergeFlags f).children = c.children := rfl
@[simp] theorem Ctx.mergeFlags_joinable (c : Ctx) (f : Flags) : (c.mergeFlags f).joinable = c.joinable := rfl
@[simp] theorem Ctx.mergeFlags_forkScope (c : Ctx) (f : Flags) : (c.mergeFlags f).forkScope = c.forkScope := rfl
@[simp] theorem Ctx.mergeFlags_entryTarget (c : Ctx) (f : Flags) : (c.mergeFlags f).entryTarget = c.entryTarget := rfl
@[simp] theorem Ctx.mergeFlags_entrySender (c : Ctx) (f : Flags) : (c.mergeFlags f).entrySender = c.entrySender := rfl
@[simp] theorem Ctx.mergeFlags_queue (c : Ctx) (f : Flags) : (c.mergeFlags f).queue = c.queue := rfl
@[simp] theorem Ctx.mergeFlags_packet (c : Ctx) (f : Flags) : (c.mergeFlags f).packet = c.packet := rfl
@[simp] theorem Ctx.mergeFlags_ctr (c : Ctx) (f : Flags) : (c.mergeFlags f).ctr = c.ctr := rfl
@[simp] theorem Ctx.mergeFlags_runMax (c : Ctx) (f : Flags) : (c.mergeFlags f).runMax = c.runMax := rfl
@[simp] theorem Ctx.mergeFlags_backfill (c : Ctx) (f : Flags) : (c.mergeFlags f).backfill = c.backfill := rfl
@[simp] theorem Ctx.mergeFlags_startedAt (c : Ctx) (f : Flags) : (c.mergeFlags f).startedAt = c.startedAt := rfl
@[simp] theorem Ctx.mergeFlags_gang (c : Ctx) (f : Flags) : (c.mergeFlags f).gang = c.gang := rfl
@[simp] theorem Ctx.mergeFlags_handles (c : Ctx) (f : Flags) : (c.mergeFlags f).handles = c.handles := rfl
@[simp] theorem Ctx.mergeFlags_decisions (c : Ctx) (f : Flags) : (c.mergeFlags f).decisions = c.decisions := rfl
@[simp] theorem Ctx.mergeFlags_target (c : Ctx) (f : Flags) : (c.mergeFlags f).target = c.target := rfl
@[simp] theorem Ctx.mergeFlags_epoch (c : Ctx) (f : Flags) : (c.mergeFlags f).epoch = c.epoch := rfl
@[simp] theorem Ctx.mergeFlags_sysEpoch (c : Ctx) (f : Flags) : (c.mergeFlags f).sysEpoch = c.sysEpoch := rfl
@[simp] theorem Ctx.mergeFlags_forwarded (c : Ctx) (f : Flags) : (c.mergeFlags f).forwarded = c.forwarded := rfl
@[simp] theorem Ctx.mergeFlags_limit (c : Ctx) (f : Flags) : (c.mergeFlags f).limit = c.limit := rfl
@[simp] theorem Ctx.mergeFlags_fflags (c : Ctx) (f : Flags) : (c.mergeFlags f).fflags = c.fflags ||| f.toBits := rfl

@[simp] theorem Ctx.ringTake_key (c : Ctx) (pc : Word) (word : BitVec 32) (pidx : BitVec 32) (state : Nat) (addr : Word) (cmd : Option Nat) : (c.ringTake pc word pidx state addr cmd).key = c.key := rfl
@[simp] theorem Ctx.ringTake_part (c : Ctx) (pc : Word) (word : BitVec 32) (pidx : BitVec 32) (state : Nat) (addr : Word) (cmd : Option Nat) : (c.ringTake pc word pidx state addr cmd).part = c.part := rfl
@[simp] theorem Ctx.ringTake_run (c : Ctx) (pc : Word) (word : BitVec 32) (pidx : BitVec 32) (state : Nat) (addr : Word) (cmd : Option Nat) : (c.ringTake pc word pidx state addr cmd).run = c.run := rfl
@[simp] theorem Ctx.ringTake_x (c : Ctx) (pc : Word) (word : BitVec 32) (pidx : BitVec 32) (state : Nat) (addr : Word) (cmd : Option Nat) : (c.ringTake pc word pidx state addr cmd).x = c.x := rfl
@[simp] theorem Ctx.ringTake_v (c : Ctx) (pc : Word) (word : BitVec 32) (pidx : BitVec 32) (state : Nat) (addr : Word) (cmd : Option Nat) : (c.ringTake pc word pidx state addr cmd).v = c.v := rfl
@[simp] theorem Ctx.ringTake_m (c : Ctx) (pc : Word) (word : BitVec 32) (pidx : BitVec 32) (state : Nat) (addr : Word) (cmd : Option Nat) : (c.ringTake pc word pidx state addr cmd).m = c.m := rfl
@[simp] theorem Ctx.ringTake_ox (c : Ctx) (pc : Word) (word : BitVec 32) (pidx : BitVec 32) (state : Nat) (addr : Word) (cmd : Option Nat) : (c.ringTake pc word pidx state addr cmd).ox = c.ox := rfl
@[simp] theorem Ctx.ringTake_pc (c : Ctx) (pc : Word) (word : BitVec 32) (pidx : BitVec 32) (state : Nat) (addr : Word) (cmd : Option Nat) : (c.ringTake pc word pidx state addr cmd).pc = c.pc := rfl
@[simp] theorem Ctx.ringTake_pl (c : Ctx) (pc : Word) (word : BitVec 32) (pidx : BitVec 32) (state : Nat) (addr : Word) (cmd : Option Nat) : (c.ringTake pc word pidx state addr cmd).pl = c.pl := rfl
@[simp] theorem Ctx.ringTake_lao (c : Ctx) (pc : Word) (word : BitVec 32) (pidx : BitVec 32) (state : Nat) (addr : Word) (cmd : Option Nat) : (c.ringTake pc word pidx state addr cmd).lao = c.lao := rfl
@[simp] theorem Ctx.ringTake_rae (c : Ctx) (pc : Word) (word : BitVec 32) (pidx : BitVec 32) (state : Nat) (addr : Word) (cmd : Option Nat) : (c.ringTake pc word pidx state addr cmd).rae = c.rae := rfl
@[simp] theorem Ctx.ringTake_ss (c : Ctx) (pc : Word) (word : BitVec 32) (pidx : BitVec 32) (state : Nat) (addr : Word) (cmd : Option Nat) : (c.ringTake pc word pidx state addr cmd).ss = c.ss := rfl
@[simp] theorem Ctx.ringTake_xf64 (c : Ctx) (pc : Word) (word : BitVec 32) (pidx : BitVec 32) (state : Nat) (addr : Word) (cmd : Option Nat) : (c.ringTake pc word pidx state addr cmd).xf64 = c.xf64 := rfl
@[simp] theorem Ctx.ringTake_xsf (c : Ctx) (pc : Word) (word : BitVec 32) (pidx : BitVec 32) (state : Nat) (addr : Word) (cmd : Option Nat) : (c.ringTake pc word pidx state addr cmd).xsf = c.xsf := rfl
@[simp] theorem Ctx.ringTake_fflags (c : Ctx) (pc : Word) (word : BitVec 32) (pidx : BitVec 32) (state : Nat) (addr : Word) (cmd : Option Nat) : (c.ringTake pc word pidx state addr cmd).fflags = c.fflags := rfl
@[simp] theorem Ctx.ringTake_frm (c : Ctx) (pc : Word) (word : BitVec 32) (pidx : BitVec 32) (state : Nat) (addr : Word) (cmd : Option Nat) : (c.ringTake pc word pidx state addr cmd).frm = c.frm := rfl
@[simp] theorem Ctx.ringTake_seed (c : Ctx) (pc : Word) (word : BitVec 32) (pidx : BitVec 32) (state : Nat) (addr : Word) (cmd : Option Nat) : (c.ringTake pc word pidx state addr cmd).seed = c.seed := rfl
@[simp] theorem Ctx.ringTake_lcore (c : Ctx) (pc : Word) (word : BitVec 32) (pidx : BitVec 32) (state : Nat) (addr : Word) (cmd : Option Nat) : (c.ringTake pc word pidx state addr cmd).lcore = c.lcore := rfl
@[simp] theorem Ctx.ringTake_tag (c : Ctx) (pc : Word) (word : BitVec 32) (pidx : BitVec 32) (state : Nat) (addr : Word) (cmd : Option Nat) : (c.ringTake pc word pidx state addr cmd).tag = c.tag := rfl
@[simp] theorem Ctx.ringTake_dline (c : Ctx) (pc : Word) (word : BitVec 32) (pidx : BitVec 32) (state : Nat) (addr : Word) (cmd : Option Nat) : (c.ringTake pc word pidx state addr cmd).dline = c.dline := rfl
@[simp] theorem Ctx.ringTake_cls (c : Ctx) (pc : Word) (word : BitVec 32) (pidx : BitVec 32) (state : Nat) (addr : Word) (cmd : Option Nat) : (c.ringTake pc word pidx state addr cmd).cls = c.cls := rfl
@[simp] theorem Ctx.ringTake_eff (c : Ctx) (pc : Word) (word : BitVec 32) (pidx : BitVec 32) (state : Nat) (addr : Word) (cmd : Option Nat) : (c.ringTake pc word pidx state addr cmd).eff = c.eff := rfl
@[simp] theorem Ctx.ringTake_raised (c : Ctx) (pc : Word) (word : BitVec 32) (pidx : BitVec 32) (state : Nat) (addr : Word) (cmd : Option Nat) : (c.ringTake pc word pidx state addr cmd).raised = c.raised := rfl
@[simp] theorem Ctx.ringTake_bound (c : Ctx) (pc : Word) (word : BitVec 32) (pidx : BitVec 32) (state : Nat) (addr : Word) (cmd : Option Nat) : (c.ringTake pc word pidx state addr cmd).bound = c.bound := rfl
@[simp] theorem Ctx.ringTake_domain (c : Ctx) (pc : Word) (word : BitVec 32) (pidx : BitVec 32) (state : Nat) (addr : Word) (cmd : Option Nat) : (c.ringTake pc word pidx state addr cmd).domain = c.domain := rfl
@[simp] theorem Ctx.ringTake_members (c : Ctx) (pc : Word) (word : BitVec 32) (pidx : BitVec 32) (state : Nat) (addr : Word) (cmd : Option Nat) : (c.ringTake pc word pidx state addr cmd).members = c.members := rfl
@[simp] theorem Ctx.ringTake_leader (c : Ctx) (pc : Word) (word : BitVec 32) (pidx : BitVec 32) (state : Nat) (addr : Word) (cmd : Option Nat) : (c.ringTake pc word pidx state addr cmd).leader = c.leader := rfl
@[simp] theorem Ctx.ringTake_role (c : Ctx) (pc : Word) (word : BitVec 32) (pidx : BitVec 32) (state : Nat) (addr : Word) (cmd : Option Nat) : (c.ringTake pc word pidx state addr cmd).role = c.role := rfl
@[simp] theorem Ctx.ringTake_unack (c : Ctx) (pc : Word) (word : BitVec 32) (pidx : BitVec 32) (state : Nat) (addr : Word) (cmd : Option Nat) : (c.ringTake pc word pidx state addr cmd).unack = c.unack := rfl
@[simp] theorem Ctx.ringTake_brk (c : Ctx) (pc : Word) (word : BitVec 32) (pidx : BitVec 32) (state : Nat) (addr : Word) (cmd : Option Nat) : (c.ringTake pc word pidx state addr cmd).brk = c.brk := rfl
@[simp] theorem Ctx.ringTake_pcnt (c : Ctx) (pc : Word) (word : BitVec 32) (pidx : BitVec 32) (state : Nat) (addr : Word) (cmd : Option Nat) : (c.ringTake pc word pidx state addr cmd).pcnt = c.pcnt := rfl
@[simp] theorem Ctx.ringTake_haddr (c : Ctx) (pc : Word) (word : BitVec 32) (pidx : BitVec 32) (state : Nat) (addr : Word) (cmd : Option Nat) : (c.ringTake pc word pidx state addr cmd).haddr = c.haddr := rfl
@[simp] theorem Ctx.ringTake_grp (c : Ctx) (pc : Word) (word : BitVec 32) (pidx : BitVec 32) (state : Nat) (addr : Word) (cmd : Option Nat) : (c.ringTake pc word pidx state addr cmd).grp = c.grp := rfl
@[simp] theorem Ctx.ringTake_daccsel (c : Ctx) (pc : Word) (word : BitVec 32) (pidx : BitVec 32) (state : Nat) (addr : Word) (cmd : Option Nat) : (c.ringTake pc word pidx state addr cmd).daccsel = c.daccsel := rfl
@[simp] theorem Ctx.ringTake_dacc (c : Ctx) (pc : Word) (word : BitVec 32) (pidx : BitVec 32) (state : Nat) (addr : Word) (cmd : Option Nat) : (c.ringTake pc word pidx state addr cmd).dacc = c.dacc := rfl
@[simp] theorem Ctx.ringTake_pidx (c : Ctx) (pc : Word) (word : BitVec 32) (pidx : BitVec 32) (state : Nat) (addr : Word) (cmd : Option Nat) : (c.ringTake pc word pidx state addr cmd).pidx = c.pidx := rfl
@[simp] theorem Ctx.ringTake_cause (c : Ctx) (pc : Word) (word : BitVec 32) (pidx : BitVec 32) (state : Nat) (addr : Word) (cmd : Option Nat) : (c.ringTake pc word pidx state addr cmd).cause = c.cause := rfl
@[simp] theorem Ctx.ringTake_epc (c : Ctx) (pc : Word) (word : BitVec 32) (pidx : BitVec 32) (state : Nat) (addr : Word) (cmd : Option Nat) : (c.ringTake pc word pidx state addr cmd).epc = c.epc := rfl
@[simp] theorem Ctx.ringTake_eseq (c : Ctx) (pc : Word) (word : BitVec 32) (pidx : BitVec 32) (state : Nat) (addr : Word) (cmd : Option Nat) : (c.ringTake pc word pidx state addr cmd).eseq = c.eseq := rfl
@[simp] theorem Ctx.ringTake_frec (c : Ctx) (pc : Word) (word : BitVec 32) (pidx : BitVec 32) (state : Nat) (addr : Word) (cmd : Option Nat) : (c.ringTake pc word pidx state addr cmd).frec = c.frec := rfl
@[simp] theorem Ctx.ringTake_tid (c : Ctx) (pc : Word) (word : BitVec 32) (pidx : BitVec 32) (state : Nat) (addr : Word) (cmd : Option Nat) : (c.ringTake pc word pidx state addr cmd).tid = c.tid := rfl
@[simp] theorem Ctx.ringTake_bpa (c : Ctx) (pc : Word) (word : BitVec 32) (pidx : BitVec 32) (state : Nat) (addr : Word) (cmd : Option Nat) : (c.ringTake pc word pidx state addr cmd).bpa = c.bpa := rfl
@[simp] theorem Ctx.ringTake_wpa (c : Ctx) (pc : Word) (word : BitVec 32) (pidx : BitVec 32) (state : Nat) (addr : Word) (cmd : Option Nat) : (c.ringTake pc word pidx state addr cmd).wpa = c.wpa := rfl
@[simp] theorem Ctx.ringTake_mcmdErr (c : Ctx) (pc : Word) (word : BitVec 32) (pidx : BitVec 32) (state : Nat) (addr : Word) (cmd : Option Nat) : (c.ringTake pc word pidx state addr cmd).mcmdErr = c.mcmdErr := rfl
@[simp] theorem Ctx.ringTake_mcmdOff (c : Ctx) (pc : Word) (word : BitVec 32) (pidx : BitVec 32) (state : Nat) (addr : Word) (cmd : Option Nat) : (c.ringTake pc word pidx state addr cmd).mcmdOff = c.mcmdOff := rfl
@[simp] theorem Ctx.ringTake_mdat (c : Ctx) (pc : Word) (word : BitVec 32) (pidx : BitVec 32) (state : Nat) (addr : Word) (cmd : Option Nat) : (c.ringTake pc word pidx state addr cmd).mdat = c.mdat := rfl
@[simp] theorem Ctx.ringTake_windows (c : Ctx) (pc : Word) (word : BitVec 32) (pidx : BitVec 32) (state : Nat) (addr : Word) (cmd : Option Nat) : (c.ringTake pc word pidx state addr cmd).windows = c.windows := rfl
@[simp] theorem Ctx.ringTake_kept (c : Ctx) (pc : Word) (word : BitVec 32) (pidx : BitVec 32) (state : Nat) (addr : Word) (cmd : Option Nat) : (c.ringTake pc word pidx state addr cmd).kept = c.kept := rfl
@[simp] theorem Ctx.ringTake_faults (c : Ctx) (pc : Word) (word : BitVec 32) (pidx : BitVec 32) (state : Nat) (addr : Word) (cmd : Option Nat) : (c.ringTake pc word pidx state addr cmd).faults = c.faults := rfl
@[simp] theorem Ctx.ringTake_records (c : Ctx) (pc : Word) (word : BitVec 32) (pidx : BitVec 32) (state : Nat) (addr : Word) (cmd : Option Nat) : (c.ringTake pc word pidx state addr cmd).records = c.records := rfl
@[simp] theorem Ctx.ringTake_slots (c : Ctx) (pc : Word) (word : BitVec 32) (pidx : BitVec 32) (state : Nat) (addr : Word) (cmd : Option Nat) : (c.ringTake pc word pidx state addr cmd).slots = c.slots := rfl
@[simp] theorem Ctx.ringTake_replay (c : Ctx) (pc : Word) (word : BitVec 32) (pidx : BitVec 32) (state : Nat) (addr : Word) (cmd : Option Nat) : (c.ringTake pc word pidx state addr cmd).replay = c.replay := rfl
@[simp] theorem Ctx.ringTake_watchHit (c : Ctx) (pc : Word) (word : BitVec 32) (pidx : BitVec 32) (state : Nat) (addr : Word) (cmd : Option Nat) : (c.ringTake pc word pidx state addr cmd).watchHit = c.watchHit := rfl
@[simp] theorem Ctx.ringTake_stepDue (c : Ctx) (pc : Word) (word : BitVec 32) (pidx : BitVec 32) (state : Nat) (addr : Word) (cmd : Option Nat) : (c.ringTake pc word pidx state addr cmd).stepDue = c.stepDue := rfl
@[simp] theorem Ctx.ringTake_staging (c : Ctx) (pc : Word) (word : BitVec 32) (pidx : BitVec 32) (state : Nat) (addr : Word) (cmd : Option Nat) : (c.ringTake pc word pidx state addr cmd).staging = c.staging := rfl
@[simp] theorem Ctx.ringTake_pends (c : Ctx) (pc : Word) (word : BitVec 32) (pidx : BitVec 32) (state : Nat) (addr : Word) (cmd : Option Nat) : (c.ringTake pc word pidx state addr cmd).pends = c.pends := rfl
@[simp] theorem Ctx.ringTake_root (c : Ctx) (pc : Word) (word : BitVec 32) (pidx : BitVec 32) (state : Nat) (addr : Word) (cmd : Option Nat) : (c.ringTake pc word pidx state addr cmd).root = c.root := rfl
@[simp] theorem Ctx.ringTake_late (c : Ctx) (pc : Word) (word : BitVec 32) (pidx : BitVec 32) (state : Nat) (addr : Word) (cmd : Option Nat) : (c.ringTake pc word pidx state addr cmd).late = c.late := rfl
@[simp] theorem Ctx.ringTake_actor (c : Ctx) (pc : Word) (word : BitVec 32) (pidx : BitVec 32) (state : Nat) (addr : Word) (cmd : Option Nat) : (c.ringTake pc word pidx state addr cmd).actor = c.actor := rfl
@[simp] theorem Ctx.ringTake_parent (c : Ctx) (pc : Word) (word : BitVec 32) (pidx : BitVec 32) (state : Nat) (addr : Word) (cmd : Option Nat) : (c.ringTake pc word pidx state addr cmd).parent = c.parent := rfl
@[simp] theorem Ctx.ringTake_children (c : Ctx) (pc : Word) (word : BitVec 32) (pidx : BitVec 32) (state : Nat) (addr : Word) (cmd : Option Nat) : (c.ringTake pc word pidx state addr cmd).children = c.children := rfl
@[simp] theorem Ctx.ringTake_joinable (c : Ctx) (pc : Word) (word : BitVec 32) (pidx : BitVec 32) (state : Nat) (addr : Word) (cmd : Option Nat) : (c.ringTake pc word pidx state addr cmd).joinable = c.joinable := rfl
@[simp] theorem Ctx.ringTake_forkScope (c : Ctx) (pc : Word) (word : BitVec 32) (pidx : BitVec 32) (state : Nat) (addr : Word) (cmd : Option Nat) : (c.ringTake pc word pidx state addr cmd).forkScope = c.forkScope := rfl
@[simp] theorem Ctx.ringTake_entryTarget (c : Ctx) (pc : Word) (word : BitVec 32) (pidx : BitVec 32) (state : Nat) (addr : Word) (cmd : Option Nat) : (c.ringTake pc word pidx state addr cmd).entryTarget = c.entryTarget := rfl
@[simp] theorem Ctx.ringTake_entrySender (c : Ctx) (pc : Word) (word : BitVec 32) (pidx : BitVec 32) (state : Nat) (addr : Word) (cmd : Option Nat) : (c.ringTake pc word pidx state addr cmd).entrySender = c.entrySender := rfl
@[simp] theorem Ctx.ringTake_queue (c : Ctx) (pc : Word) (word : BitVec 32) (pidx : BitVec 32) (state : Nat) (addr : Word) (cmd : Option Nat) : (c.ringTake pc word pidx state addr cmd).queue = c.queue := rfl
@[simp] theorem Ctx.ringTake_packet (c : Ctx) (pc : Word) (word : BitVec 32) (pidx : BitVec 32) (state : Nat) (addr : Word) (cmd : Option Nat) : (c.ringTake pc word pidx state addr cmd).packet = c.packet := rfl
@[simp] theorem Ctx.ringTake_ctr (c : Ctx) (pc : Word) (word : BitVec 32) (pidx : BitVec 32) (state : Nat) (addr : Word) (cmd : Option Nat) : (c.ringTake pc word pidx state addr cmd).ctr = c.ctr := rfl
@[simp] theorem Ctx.ringTake_runMax (c : Ctx) (pc : Word) (word : BitVec 32) (pidx : BitVec 32) (state : Nat) (addr : Word) (cmd : Option Nat) : (c.ringTake pc word pidx state addr cmd).runMax = c.runMax := rfl
@[simp] theorem Ctx.ringTake_backfill (c : Ctx) (pc : Word) (word : BitVec 32) (pidx : BitVec 32) (state : Nat) (addr : Word) (cmd : Option Nat) : (c.ringTake pc word pidx state addr cmd).backfill = c.backfill := rfl
@[simp] theorem Ctx.ringTake_startedAt (c : Ctx) (pc : Word) (word : BitVec 32) (pidx : BitVec 32) (state : Nat) (addr : Word) (cmd : Option Nat) : (c.ringTake pc word pidx state addr cmd).startedAt = c.startedAt := rfl
@[simp] theorem Ctx.ringTake_gang (c : Ctx) (pc : Word) (word : BitVec 32) (pidx : BitVec 32) (state : Nat) (addr : Word) (cmd : Option Nat) : (c.ringTake pc word pidx state addr cmd).gang = c.gang := rfl
@[simp] theorem Ctx.ringTake_handles (c : Ctx) (pc : Word) (word : BitVec 32) (pidx : BitVec 32) (state : Nat) (addr : Word) (cmd : Option Nat) : (c.ringTake pc word pidx state addr cmd).handles = c.handles := rfl
@[simp] theorem Ctx.ringTake_decisions (c : Ctx) (pc : Word) (word : BitVec 32) (pidx : BitVec 32) (state : Nat) (addr : Word) (cmd : Option Nat) : (c.ringTake pc word pidx state addr cmd).decisions = c.decisions := rfl
@[simp] theorem Ctx.ringTake_target (c : Ctx) (pc : Word) (word : BitVec 32) (pidx : BitVec 32) (state : Nat) (addr : Word) (cmd : Option Nat) : (c.ringTake pc word pidx state addr cmd).target = c.target := rfl
@[simp] theorem Ctx.ringTake_epoch (c : Ctx) (pc : Word) (word : BitVec 32) (pidx : BitVec 32) (state : Nat) (addr : Word) (cmd : Option Nat) : (c.ringTake pc word pidx state addr cmd).epoch = c.epoch := rfl
@[simp] theorem Ctx.ringTake_sysEpoch (c : Ctx) (pc : Word) (word : BitVec 32) (pidx : BitVec 32) (state : Nat) (addr : Word) (cmd : Option Nat) : (c.ringTake pc word pidx state addr cmd).sysEpoch = c.sysEpoch := rfl
@[simp] theorem Ctx.ringTake_forwarded (c : Ctx) (pc : Word) (word : BitVec 32) (pidx : BitVec 32) (state : Nat) (addr : Word) (cmd : Option Nat) : (c.ringTake pc word pidx state addr cmd).forwarded = c.forwarded := rfl
@[simp] theorem Ctx.ringTake_limit (c : Ctx) (pc : Word) (word : BitVec 32) (pidx : BitVec 32) (state : Nat) (addr : Word) (cmd : Option Nat) : (c.ringTake pc word pidx state addr cmd).limit = c.limit := rfl
@[simp] theorem Ctx.ringTake_nextSeq (c : Ctx) (pc : Word) (word : BitVec 32) (pidx : BitVec 32) (state : Nat) (addr : Word) (cmd : Option Nat) : (c.ringTake pc word pidx state addr cmd).nextSeq = seqNext c.nextSeq := rfl

@[simp] theorem Ctx.addFault_key (c : Ctx) (seq : BitVec 32) (left code sub : Nat) (rpl : Bool) (pidx : BitVec 32) (record : Option Record) : (c.addFault seq left code sub rpl pidx record).key = c.key := rfl
@[simp] theorem Ctx.addFault_part (c : Ctx) (seq : BitVec 32) (left code sub : Nat) (rpl : Bool) (pidx : BitVec 32) (record : Option Record) : (c.addFault seq left code sub rpl pidx record).part = c.part := rfl
@[simp] theorem Ctx.addFault_run (c : Ctx) (seq : BitVec 32) (left code sub : Nat) (rpl : Bool) (pidx : BitVec 32) (record : Option Record) : (c.addFault seq left code sub rpl pidx record).run = c.run := rfl
@[simp] theorem Ctx.addFault_x (c : Ctx) (seq : BitVec 32) (left code sub : Nat) (rpl : Bool) (pidx : BitVec 32) (record : Option Record) : (c.addFault seq left code sub rpl pidx record).x = c.x := rfl
@[simp] theorem Ctx.addFault_v (c : Ctx) (seq : BitVec 32) (left code sub : Nat) (rpl : Bool) (pidx : BitVec 32) (record : Option Record) : (c.addFault seq left code sub rpl pidx record).v = c.v := rfl
@[simp] theorem Ctx.addFault_m (c : Ctx) (seq : BitVec 32) (left code sub : Nat) (rpl : Bool) (pidx : BitVec 32) (record : Option Record) : (c.addFault seq left code sub rpl pidx record).m = c.m := rfl
@[simp] theorem Ctx.addFault_ox (c : Ctx) (seq : BitVec 32) (left code sub : Nat) (rpl : Bool) (pidx : BitVec 32) (record : Option Record) : (c.addFault seq left code sub rpl pidx record).ox = c.ox := rfl
@[simp] theorem Ctx.addFault_pc (c : Ctx) (seq : BitVec 32) (left code sub : Nat) (rpl : Bool) (pidx : BitVec 32) (record : Option Record) : (c.addFault seq left code sub rpl pidx record).pc = c.pc := rfl
@[simp] theorem Ctx.addFault_pl (c : Ctx) (seq : BitVec 32) (left code sub : Nat) (rpl : Bool) (pidx : BitVec 32) (record : Option Record) : (c.addFault seq left code sub rpl pidx record).pl = c.pl := rfl
@[simp] theorem Ctx.addFault_lao (c : Ctx) (seq : BitVec 32) (left code sub : Nat) (rpl : Bool) (pidx : BitVec 32) (record : Option Record) : (c.addFault seq left code sub rpl pidx record).lao = c.lao := rfl
@[simp] theorem Ctx.addFault_rae (c : Ctx) (seq : BitVec 32) (left code sub : Nat) (rpl : Bool) (pidx : BitVec 32) (record : Option Record) : (c.addFault seq left code sub rpl pidx record).rae = c.rae := rfl
@[simp] theorem Ctx.addFault_ss (c : Ctx) (seq : BitVec 32) (left code sub : Nat) (rpl : Bool) (pidx : BitVec 32) (record : Option Record) : (c.addFault seq left code sub rpl pidx record).ss = c.ss := rfl
@[simp] theorem Ctx.addFault_xf64 (c : Ctx) (seq : BitVec 32) (left code sub : Nat) (rpl : Bool) (pidx : BitVec 32) (record : Option Record) : (c.addFault seq left code sub rpl pidx record).xf64 = c.xf64 := rfl
@[simp] theorem Ctx.addFault_xsf (c : Ctx) (seq : BitVec 32) (left code sub : Nat) (rpl : Bool) (pidx : BitVec 32) (record : Option Record) : (c.addFault seq left code sub rpl pidx record).xsf = c.xsf := rfl
@[simp] theorem Ctx.addFault_fflags (c : Ctx) (seq : BitVec 32) (left code sub : Nat) (rpl : Bool) (pidx : BitVec 32) (record : Option Record) : (c.addFault seq left code sub rpl pidx record).fflags = c.fflags := rfl
@[simp] theorem Ctx.addFault_frm (c : Ctx) (seq : BitVec 32) (left code sub : Nat) (rpl : Bool) (pidx : BitVec 32) (record : Option Record) : (c.addFault seq left code sub rpl pidx record).frm = c.frm := rfl
@[simp] theorem Ctx.addFault_seed (c : Ctx) (seq : BitVec 32) (left code sub : Nat) (rpl : Bool) (pidx : BitVec 32) (record : Option Record) : (c.addFault seq left code sub rpl pidx record).seed = c.seed := rfl
@[simp] theorem Ctx.addFault_lcore (c : Ctx) (seq : BitVec 32) (left code sub : Nat) (rpl : Bool) (pidx : BitVec 32) (record : Option Record) : (c.addFault seq left code sub rpl pidx record).lcore = c.lcore := rfl
@[simp] theorem Ctx.addFault_tag (c : Ctx) (seq : BitVec 32) (left code sub : Nat) (rpl : Bool) (pidx : BitVec 32) (record : Option Record) : (c.addFault seq left code sub rpl pidx record).tag = c.tag := rfl
@[simp] theorem Ctx.addFault_dline (c : Ctx) (seq : BitVec 32) (left code sub : Nat) (rpl : Bool) (pidx : BitVec 32) (record : Option Record) : (c.addFault seq left code sub rpl pidx record).dline = c.dline := rfl
@[simp] theorem Ctx.addFault_cls (c : Ctx) (seq : BitVec 32) (left code sub : Nat) (rpl : Bool) (pidx : BitVec 32) (record : Option Record) : (c.addFault seq left code sub rpl pidx record).cls = c.cls := rfl
@[simp] theorem Ctx.addFault_eff (c : Ctx) (seq : BitVec 32) (left code sub : Nat) (rpl : Bool) (pidx : BitVec 32) (record : Option Record) : (c.addFault seq left code sub rpl pidx record).eff = c.eff := rfl
@[simp] theorem Ctx.addFault_raised (c : Ctx) (seq : BitVec 32) (left code sub : Nat) (rpl : Bool) (pidx : BitVec 32) (record : Option Record) : (c.addFault seq left code sub rpl pidx record).raised = c.raised := rfl
@[simp] theorem Ctx.addFault_bound (c : Ctx) (seq : BitVec 32) (left code sub : Nat) (rpl : Bool) (pidx : BitVec 32) (record : Option Record) : (c.addFault seq left code sub rpl pidx record).bound = c.bound := rfl
@[simp] theorem Ctx.addFault_domain (c : Ctx) (seq : BitVec 32) (left code sub : Nat) (rpl : Bool) (pidx : BitVec 32) (record : Option Record) : (c.addFault seq left code sub rpl pidx record).domain = c.domain := rfl
@[simp] theorem Ctx.addFault_members (c : Ctx) (seq : BitVec 32) (left code sub : Nat) (rpl : Bool) (pidx : BitVec 32) (record : Option Record) : (c.addFault seq left code sub rpl pidx record).members = c.members := rfl
@[simp] theorem Ctx.addFault_leader (c : Ctx) (seq : BitVec 32) (left code sub : Nat) (rpl : Bool) (pidx : BitVec 32) (record : Option Record) : (c.addFault seq left code sub rpl pidx record).leader = c.leader := rfl
@[simp] theorem Ctx.addFault_role (c : Ctx) (seq : BitVec 32) (left code sub : Nat) (rpl : Bool) (pidx : BitVec 32) (record : Option Record) : (c.addFault seq left code sub rpl pidx record).role = c.role := rfl
@[simp] theorem Ctx.addFault_unack (c : Ctx) (seq : BitVec 32) (left code sub : Nat) (rpl : Bool) (pidx : BitVec 32) (record : Option Record) : (c.addFault seq left code sub rpl pidx record).unack = c.unack := rfl
@[simp] theorem Ctx.addFault_brk (c : Ctx) (seq : BitVec 32) (left code sub : Nat) (rpl : Bool) (pidx : BitVec 32) (record : Option Record) : (c.addFault seq left code sub rpl pidx record).brk = c.brk := rfl
@[simp] theorem Ctx.addFault_pcnt (c : Ctx) (seq : BitVec 32) (left code sub : Nat) (rpl : Bool) (pidx : BitVec 32) (record : Option Record) : (c.addFault seq left code sub rpl pidx record).pcnt = c.pcnt := rfl
@[simp] theorem Ctx.addFault_haddr (c : Ctx) (seq : BitVec 32) (left code sub : Nat) (rpl : Bool) (pidx : BitVec 32) (record : Option Record) : (c.addFault seq left code sub rpl pidx record).haddr = c.haddr := rfl
@[simp] theorem Ctx.addFault_grp (c : Ctx) (seq : BitVec 32) (left code sub : Nat) (rpl : Bool) (pidx : BitVec 32) (record : Option Record) : (c.addFault seq left code sub rpl pidx record).grp = c.grp := rfl
@[simp] theorem Ctx.addFault_daccsel (c : Ctx) (seq : BitVec 32) (left code sub : Nat) (rpl : Bool) (pidx : BitVec 32) (record : Option Record) : (c.addFault seq left code sub rpl pidx record).daccsel = c.daccsel := rfl
@[simp] theorem Ctx.addFault_dacc (c : Ctx) (seq : BitVec 32) (left code sub : Nat) (rpl : Bool) (pidx : BitVec 32) (record : Option Record) : (c.addFault seq left code sub rpl pidx record).dacc = c.dacc := rfl
@[simp] theorem Ctx.addFault_pidx (c : Ctx) (seq : BitVec 32) (left code sub : Nat) (rpl : Bool) (pidx : BitVec 32) (record : Option Record) : (c.addFault seq left code sub rpl pidx record).pidx = c.pidx := rfl
@[simp] theorem Ctx.addFault_cause (c : Ctx) (seq : BitVec 32) (left code sub : Nat) (rpl : Bool) (pidx : BitVec 32) (record : Option Record) : (c.addFault seq left code sub rpl pidx record).cause = c.cause := rfl
@[simp] theorem Ctx.addFault_epc (c : Ctx) (seq : BitVec 32) (left code sub : Nat) (rpl : Bool) (pidx : BitVec 32) (record : Option Record) : (c.addFault seq left code sub rpl pidx record).epc = c.epc := rfl
@[simp] theorem Ctx.addFault_eseq (c : Ctx) (seq : BitVec 32) (left code sub : Nat) (rpl : Bool) (pidx : BitVec 32) (record : Option Record) : (c.addFault seq left code sub rpl pidx record).eseq = c.eseq := rfl
@[simp] theorem Ctx.addFault_frec (c : Ctx) (seq : BitVec 32) (left code sub : Nat) (rpl : Bool) (pidx : BitVec 32) (record : Option Record) : (c.addFault seq left code sub rpl pidx record).frec = c.frec := rfl
@[simp] theorem Ctx.addFault_tid (c : Ctx) (seq : BitVec 32) (left code sub : Nat) (rpl : Bool) (pidx : BitVec 32) (record : Option Record) : (c.addFault seq left code sub rpl pidx record).tid = c.tid := rfl
@[simp] theorem Ctx.addFault_nextSeq (c : Ctx) (seq : BitVec 32) (left code sub : Nat) (rpl : Bool) (pidx : BitVec 32) (record : Option Record) : (c.addFault seq left code sub rpl pidx record).nextSeq = c.nextSeq := rfl
@[simp] theorem Ctx.addFault_ring (c : Ctx) (seq : BitVec 32) (left code sub : Nat) (rpl : Bool) (pidx : BitVec 32) (record : Option Record) : (c.addFault seq left code sub rpl pidx record).ring = c.ring := rfl
@[simp] theorem Ctx.addFault_bpa (c : Ctx) (seq : BitVec 32) (left code sub : Nat) (rpl : Bool) (pidx : BitVec 32) (record : Option Record) : (c.addFault seq left code sub rpl pidx record).bpa = c.bpa := rfl
@[simp] theorem Ctx.addFault_wpa (c : Ctx) (seq : BitVec 32) (left code sub : Nat) (rpl : Bool) (pidx : BitVec 32) (record : Option Record) : (c.addFault seq left code sub rpl pidx record).wpa = c.wpa := rfl
@[simp] theorem Ctx.addFault_mcmdErr (c : Ctx) (seq : BitVec 32) (left code sub : Nat) (rpl : Bool) (pidx : BitVec 32) (record : Option Record) : (c.addFault seq left code sub rpl pidx record).mcmdErr = c.mcmdErr := rfl
@[simp] theorem Ctx.addFault_mcmdOff (c : Ctx) (seq : BitVec 32) (left code sub : Nat) (rpl : Bool) (pidx : BitVec 32) (record : Option Record) : (c.addFault seq left code sub rpl pidx record).mcmdOff = c.mcmdOff := rfl
@[simp] theorem Ctx.addFault_mdat (c : Ctx) (seq : BitVec 32) (left code sub : Nat) (rpl : Bool) (pidx : BitVec 32) (record : Option Record) : (c.addFault seq left code sub rpl pidx record).mdat = c.mdat := rfl
@[simp] theorem Ctx.addFault_windows (c : Ctx) (seq : BitVec 32) (left code sub : Nat) (rpl : Bool) (pidx : BitVec 32) (record : Option Record) : (c.addFault seq left code sub rpl pidx record).windows = c.windows := rfl
@[simp] theorem Ctx.addFault_kept (c : Ctx) (seq : BitVec 32) (left code sub : Nat) (rpl : Bool) (pidx : BitVec 32) (record : Option Record) : (c.addFault seq left code sub rpl pidx record).kept = c.kept := rfl
@[simp] theorem Ctx.addFault_records (c : Ctx) (seq : BitVec 32) (left code sub : Nat) (rpl : Bool) (pidx : BitVec 32) (record : Option Record) : (c.addFault seq left code sub rpl pidx record).records = c.records := rfl
@[simp] theorem Ctx.addFault_slots (c : Ctx) (seq : BitVec 32) (left code sub : Nat) (rpl : Bool) (pidx : BitVec 32) (record : Option Record) : (c.addFault seq left code sub rpl pidx record).slots = c.slots := rfl
@[simp] theorem Ctx.addFault_replay (c : Ctx) (seq : BitVec 32) (left code sub : Nat) (rpl : Bool) (pidx : BitVec 32) (record : Option Record) : (c.addFault seq left code sub rpl pidx record).replay = c.replay := rfl
@[simp] theorem Ctx.addFault_watchHit (c : Ctx) (seq : BitVec 32) (left code sub : Nat) (rpl : Bool) (pidx : BitVec 32) (record : Option Record) : (c.addFault seq left code sub rpl pidx record).watchHit = c.watchHit := rfl
@[simp] theorem Ctx.addFault_stepDue (c : Ctx) (seq : BitVec 32) (left code sub : Nat) (rpl : Bool) (pidx : BitVec 32) (record : Option Record) : (c.addFault seq left code sub rpl pidx record).stepDue = c.stepDue := rfl
@[simp] theorem Ctx.addFault_staging (c : Ctx) (seq : BitVec 32) (left code sub : Nat) (rpl : Bool) (pidx : BitVec 32) (record : Option Record) : (c.addFault seq left code sub rpl pidx record).staging = c.staging := rfl
@[simp] theorem Ctx.addFault_pends (c : Ctx) (seq : BitVec 32) (left code sub : Nat) (rpl : Bool) (pidx : BitVec 32) (record : Option Record) : (c.addFault seq left code sub rpl pidx record).pends = c.pends := rfl
@[simp] theorem Ctx.addFault_root (c : Ctx) (seq : BitVec 32) (left code sub : Nat) (rpl : Bool) (pidx : BitVec 32) (record : Option Record) : (c.addFault seq left code sub rpl pidx record).root = c.root := rfl
@[simp] theorem Ctx.addFault_late (c : Ctx) (seq : BitVec 32) (left code sub : Nat) (rpl : Bool) (pidx : BitVec 32) (record : Option Record) : (c.addFault seq left code sub rpl pidx record).late = c.late := rfl
@[simp] theorem Ctx.addFault_actor (c : Ctx) (seq : BitVec 32) (left code sub : Nat) (rpl : Bool) (pidx : BitVec 32) (record : Option Record) : (c.addFault seq left code sub rpl pidx record).actor = c.actor := rfl
@[simp] theorem Ctx.addFault_parent (c : Ctx) (seq : BitVec 32) (left code sub : Nat) (rpl : Bool) (pidx : BitVec 32) (record : Option Record) : (c.addFault seq left code sub rpl pidx record).parent = c.parent := rfl
@[simp] theorem Ctx.addFault_children (c : Ctx) (seq : BitVec 32) (left code sub : Nat) (rpl : Bool) (pidx : BitVec 32) (record : Option Record) : (c.addFault seq left code sub rpl pidx record).children = c.children := rfl
@[simp] theorem Ctx.addFault_joinable (c : Ctx) (seq : BitVec 32) (left code sub : Nat) (rpl : Bool) (pidx : BitVec 32) (record : Option Record) : (c.addFault seq left code sub rpl pidx record).joinable = c.joinable := rfl
@[simp] theorem Ctx.addFault_forkScope (c : Ctx) (seq : BitVec 32) (left code sub : Nat) (rpl : Bool) (pidx : BitVec 32) (record : Option Record) : (c.addFault seq left code sub rpl pidx record).forkScope = c.forkScope := rfl
@[simp] theorem Ctx.addFault_entryTarget (c : Ctx) (seq : BitVec 32) (left code sub : Nat) (rpl : Bool) (pidx : BitVec 32) (record : Option Record) : (c.addFault seq left code sub rpl pidx record).entryTarget = c.entryTarget := rfl
@[simp] theorem Ctx.addFault_entrySender (c : Ctx) (seq : BitVec 32) (left code sub : Nat) (rpl : Bool) (pidx : BitVec 32) (record : Option Record) : (c.addFault seq left code sub rpl pidx record).entrySender = c.entrySender := rfl
@[simp] theorem Ctx.addFault_queue (c : Ctx) (seq : BitVec 32) (left code sub : Nat) (rpl : Bool) (pidx : BitVec 32) (record : Option Record) : (c.addFault seq left code sub rpl pidx record).queue = c.queue := rfl
@[simp] theorem Ctx.addFault_packet (c : Ctx) (seq : BitVec 32) (left code sub : Nat) (rpl : Bool) (pidx : BitVec 32) (record : Option Record) : (c.addFault seq left code sub rpl pidx record).packet = c.packet := rfl
@[simp] theorem Ctx.addFault_ctr (c : Ctx) (seq : BitVec 32) (left code sub : Nat) (rpl : Bool) (pidx : BitVec 32) (record : Option Record) : (c.addFault seq left code sub rpl pidx record).ctr = c.ctr := rfl
@[simp] theorem Ctx.addFault_runMax (c : Ctx) (seq : BitVec 32) (left code sub : Nat) (rpl : Bool) (pidx : BitVec 32) (record : Option Record) : (c.addFault seq left code sub rpl pidx record).runMax = c.runMax := rfl
@[simp] theorem Ctx.addFault_backfill (c : Ctx) (seq : BitVec 32) (left code sub : Nat) (rpl : Bool) (pidx : BitVec 32) (record : Option Record) : (c.addFault seq left code sub rpl pidx record).backfill = c.backfill := rfl
@[simp] theorem Ctx.addFault_startedAt (c : Ctx) (seq : BitVec 32) (left code sub : Nat) (rpl : Bool) (pidx : BitVec 32) (record : Option Record) : (c.addFault seq left code sub rpl pidx record).startedAt = c.startedAt := rfl
@[simp] theorem Ctx.addFault_gang (c : Ctx) (seq : BitVec 32) (left code sub : Nat) (rpl : Bool) (pidx : BitVec 32) (record : Option Record) : (c.addFault seq left code sub rpl pidx record).gang = c.gang := rfl
@[simp] theorem Ctx.addFault_handles (c : Ctx) (seq : BitVec 32) (left code sub : Nat) (rpl : Bool) (pidx : BitVec 32) (record : Option Record) : (c.addFault seq left code sub rpl pidx record).handles = c.handles := rfl
@[simp] theorem Ctx.addFault_decisions (c : Ctx) (seq : BitVec 32) (left code sub : Nat) (rpl : Bool) (pidx : BitVec 32) (record : Option Record) : (c.addFault seq left code sub rpl pidx record).decisions = c.decisions := rfl
@[simp] theorem Ctx.addFault_target (c : Ctx) (seq : BitVec 32) (left code sub : Nat) (rpl : Bool) (pidx : BitVec 32) (record : Option Record) : (c.addFault seq left code sub rpl pidx record).target = c.target := rfl
@[simp] theorem Ctx.addFault_epoch (c : Ctx) (seq : BitVec 32) (left code sub : Nat) (rpl : Bool) (pidx : BitVec 32) (record : Option Record) : (c.addFault seq left code sub rpl pidx record).epoch = c.epoch := rfl
@[simp] theorem Ctx.addFault_sysEpoch (c : Ctx) (seq : BitVec 32) (left code sub : Nat) (rpl : Bool) (pidx : BitVec 32) (record : Option Record) : (c.addFault seq left code sub rpl pidx record).sysEpoch = c.sysEpoch := rfl
@[simp] theorem Ctx.addFault_forwarded (c : Ctx) (seq : BitVec 32) (left code sub : Nat) (rpl : Bool) (pidx : BitVec 32) (record : Option Record) : (c.addFault seq left code sub rpl pidx record).forwarded = c.forwarded := rfl
@[simp] theorem Ctx.addFault_limit (c : Ctx) (seq : BitVec 32) (left code sub : Nat) (rpl : Bool) (pidx : BitVec 32) (record : Option Record) : (c.addFault seq left code sub rpl pidx record).limit = c.limit := rfl

@[simp] theorem Ctx.enterTrap_key (c : Ctx) (vector : Word) (code sub : Nat) (late rpl : Bool) (resume : Word) (seq pidx : BitVec 32) (frec : Word) : (c.enterTrap vector code sub late rpl resume seq pidx frec).key = c.key := rfl
@[simp] theorem Ctx.enterTrap_part (c : Ctx) (vector : Word) (code sub : Nat) (late rpl : Bool) (resume : Word) (seq pidx : BitVec 32) (frec : Word) : (c.enterTrap vector code sub late rpl resume seq pidx frec).part = c.part := rfl
@[simp] theorem Ctx.enterTrap_x (c : Ctx) (vector : Word) (code sub : Nat) (late rpl : Bool) (resume : Word) (seq pidx : BitVec 32) (frec : Word) : (c.enterTrap vector code sub late rpl resume seq pidx frec).x = c.x := rfl
@[simp] theorem Ctx.enterTrap_v (c : Ctx) (vector : Word) (code sub : Nat) (late rpl : Bool) (resume : Word) (seq pidx : BitVec 32) (frec : Word) : (c.enterTrap vector code sub late rpl resume seq pidx frec).v = c.v := rfl
@[simp] theorem Ctx.enterTrap_m (c : Ctx) (vector : Word) (code sub : Nat) (late rpl : Bool) (resume : Word) (seq pidx : BitVec 32) (frec : Word) : (c.enterTrap vector code sub late rpl resume seq pidx frec).m = c.m := rfl
@[simp] theorem Ctx.enterTrap_ox (c : Ctx) (vector : Word) (code sub : Nat) (late rpl : Bool) (resume : Word) (seq pidx : BitVec 32) (frec : Word) : (c.enterTrap vector code sub late rpl resume seq pidx frec).ox = c.ox := rfl
@[simp] theorem Ctx.enterTrap_lao (c : Ctx) (vector : Word) (code sub : Nat) (late rpl : Bool) (resume : Word) (seq pidx : BitVec 32) (frec : Word) : (c.enterTrap vector code sub late rpl resume seq pidx frec).lao = c.lao := rfl
@[simp] theorem Ctx.enterTrap_rae (c : Ctx) (vector : Word) (code sub : Nat) (late rpl : Bool) (resume : Word) (seq pidx : BitVec 32) (frec : Word) : (c.enterTrap vector code sub late rpl resume seq pidx frec).rae = c.rae := rfl
@[simp] theorem Ctx.enterTrap_ss (c : Ctx) (vector : Word) (code sub : Nat) (late rpl : Bool) (resume : Word) (seq pidx : BitVec 32) (frec : Word) : (c.enterTrap vector code sub late rpl resume seq pidx frec).ss = c.ss := rfl
@[simp] theorem Ctx.enterTrap_xf64 (c : Ctx) (vector : Word) (code sub : Nat) (late rpl : Bool) (resume : Word) (seq pidx : BitVec 32) (frec : Word) : (c.enterTrap vector code sub late rpl resume seq pidx frec).xf64 = c.xf64 := rfl
@[simp] theorem Ctx.enterTrap_xsf (c : Ctx) (vector : Word) (code sub : Nat) (late rpl : Bool) (resume : Word) (seq pidx : BitVec 32) (frec : Word) : (c.enterTrap vector code sub late rpl resume seq pidx frec).xsf = c.xsf := rfl
@[simp] theorem Ctx.enterTrap_fflags (c : Ctx) (vector : Word) (code sub : Nat) (late rpl : Bool) (resume : Word) (seq pidx : BitVec 32) (frec : Word) : (c.enterTrap vector code sub late rpl resume seq pidx frec).fflags = c.fflags := rfl
@[simp] theorem Ctx.enterTrap_frm (c : Ctx) (vector : Word) (code sub : Nat) (late rpl : Bool) (resume : Word) (seq pidx : BitVec 32) (frec : Word) : (c.enterTrap vector code sub late rpl resume seq pidx frec).frm = c.frm := rfl
@[simp] theorem Ctx.enterTrap_seed (c : Ctx) (vector : Word) (code sub : Nat) (late rpl : Bool) (resume : Word) (seq pidx : BitVec 32) (frec : Word) : (c.enterTrap vector code sub late rpl resume seq pidx frec).seed = c.seed := rfl
@[simp] theorem Ctx.enterTrap_lcore (c : Ctx) (vector : Word) (code sub : Nat) (late rpl : Bool) (resume : Word) (seq pidx : BitVec 32) (frec : Word) : (c.enterTrap vector code sub late rpl resume seq pidx frec).lcore = c.lcore := rfl
@[simp] theorem Ctx.enterTrap_tag (c : Ctx) (vector : Word) (code sub : Nat) (late rpl : Bool) (resume : Word) (seq pidx : BitVec 32) (frec : Word) : (c.enterTrap vector code sub late rpl resume seq pidx frec).tag = c.tag := rfl
@[simp] theorem Ctx.enterTrap_dline (c : Ctx) (vector : Word) (code sub : Nat) (late rpl : Bool) (resume : Word) (seq pidx : BitVec 32) (frec : Word) : (c.enterTrap vector code sub late rpl resume seq pidx frec).dline = c.dline := rfl
@[simp] theorem Ctx.enterTrap_cls (c : Ctx) (vector : Word) (code sub : Nat) (late rpl : Bool) (resume : Word) (seq pidx : BitVec 32) (frec : Word) : (c.enterTrap vector code sub late rpl resume seq pidx frec).cls = c.cls := rfl
@[simp] theorem Ctx.enterTrap_eff (c : Ctx) (vector : Word) (code sub : Nat) (late rpl : Bool) (resume : Word) (seq pidx : BitVec 32) (frec : Word) : (c.enterTrap vector code sub late rpl resume seq pidx frec).eff = c.eff := rfl
@[simp] theorem Ctx.enterTrap_raised (c : Ctx) (vector : Word) (code sub : Nat) (late rpl : Bool) (resume : Word) (seq pidx : BitVec 32) (frec : Word) : (c.enterTrap vector code sub late rpl resume seq pidx frec).raised = c.raised := rfl
@[simp] theorem Ctx.enterTrap_bound (c : Ctx) (vector : Word) (code sub : Nat) (late rpl : Bool) (resume : Word) (seq pidx : BitVec 32) (frec : Word) : (c.enterTrap vector code sub late rpl resume seq pidx frec).bound = c.bound := rfl
@[simp] theorem Ctx.enterTrap_domain (c : Ctx) (vector : Word) (code sub : Nat) (late rpl : Bool) (resume : Word) (seq pidx : BitVec 32) (frec : Word) : (c.enterTrap vector code sub late rpl resume seq pidx frec).domain = c.domain := rfl
@[simp] theorem Ctx.enterTrap_members (c : Ctx) (vector : Word) (code sub : Nat) (late rpl : Bool) (resume : Word) (seq pidx : BitVec 32) (frec : Word) : (c.enterTrap vector code sub late rpl resume seq pidx frec).members = c.members := rfl
@[simp] theorem Ctx.enterTrap_leader (c : Ctx) (vector : Word) (code sub : Nat) (late rpl : Bool) (resume : Word) (seq pidx : BitVec 32) (frec : Word) : (c.enterTrap vector code sub late rpl resume seq pidx frec).leader = c.leader := rfl
@[simp] theorem Ctx.enterTrap_role (c : Ctx) (vector : Word) (code sub : Nat) (late rpl : Bool) (resume : Word) (seq pidx : BitVec 32) (frec : Word) : (c.enterTrap vector code sub late rpl resume seq pidx frec).role = c.role := rfl
@[simp] theorem Ctx.enterTrap_unack (c : Ctx) (vector : Word) (code sub : Nat) (late rpl : Bool) (resume : Word) (seq pidx : BitVec 32) (frec : Word) : (c.enterTrap vector code sub late rpl resume seq pidx frec).unack = c.unack := rfl
@[simp] theorem Ctx.enterTrap_brk (c : Ctx) (vector : Word) (code sub : Nat) (late rpl : Bool) (resume : Word) (seq pidx : BitVec 32) (frec : Word) : (c.enterTrap vector code sub late rpl resume seq pidx frec).brk = c.brk := rfl
@[simp] theorem Ctx.enterTrap_pcnt (c : Ctx) (vector : Word) (code sub : Nat) (late rpl : Bool) (resume : Word) (seq pidx : BitVec 32) (frec : Word) : (c.enterTrap vector code sub late rpl resume seq pidx frec).pcnt = c.pcnt := rfl
@[simp] theorem Ctx.enterTrap_haddr (c : Ctx) (vector : Word) (code sub : Nat) (late rpl : Bool) (resume : Word) (seq pidx : BitVec 32) (frec : Word) : (c.enterTrap vector code sub late rpl resume seq pidx frec).haddr = c.haddr := rfl
@[simp] theorem Ctx.enterTrap_grp (c : Ctx) (vector : Word) (code sub : Nat) (late rpl : Bool) (resume : Word) (seq pidx : BitVec 32) (frec : Word) : (c.enterTrap vector code sub late rpl resume seq pidx frec).grp = c.grp := rfl
@[simp] theorem Ctx.enterTrap_daccsel (c : Ctx) (vector : Word) (code sub : Nat) (late rpl : Bool) (resume : Word) (seq pidx : BitVec 32) (frec : Word) : (c.enterTrap vector code sub late rpl resume seq pidx frec).daccsel = c.daccsel := rfl
@[simp] theorem Ctx.enterTrap_dacc (c : Ctx) (vector : Word) (code sub : Nat) (late rpl : Bool) (resume : Word) (seq pidx : BitVec 32) (frec : Word) : (c.enterTrap vector code sub late rpl resume seq pidx frec).dacc = c.dacc := rfl
@[simp] theorem Ctx.enterTrap_tid (c : Ctx) (vector : Word) (code sub : Nat) (late rpl : Bool) (resume : Word) (seq pidx : BitVec 32) (frec : Word) : (c.enterTrap vector code sub late rpl resume seq pidx frec).tid = c.tid := rfl
@[simp] theorem Ctx.enterTrap_nextSeq (c : Ctx) (vector : Word) (code sub : Nat) (late rpl : Bool) (resume : Word) (seq pidx : BitVec 32) (frec : Word) : (c.enterTrap vector code sub late rpl resume seq pidx frec).nextSeq = c.nextSeq := rfl
@[simp] theorem Ctx.enterTrap_ring (c : Ctx) (vector : Word) (code sub : Nat) (late rpl : Bool) (resume : Word) (seq pidx : BitVec 32) (frec : Word) : (c.enterTrap vector code sub late rpl resume seq pidx frec).ring = c.ring := rfl
@[simp] theorem Ctx.enterTrap_bpa (c : Ctx) (vector : Word) (code sub : Nat) (late rpl : Bool) (resume : Word) (seq pidx : BitVec 32) (frec : Word) : (c.enterTrap vector code sub late rpl resume seq pidx frec).bpa = c.bpa := rfl
@[simp] theorem Ctx.enterTrap_wpa (c : Ctx) (vector : Word) (code sub : Nat) (late rpl : Bool) (resume : Word) (seq pidx : BitVec 32) (frec : Word) : (c.enterTrap vector code sub late rpl resume seq pidx frec).wpa = c.wpa := rfl
@[simp] theorem Ctx.enterTrap_mcmdErr (c : Ctx) (vector : Word) (code sub : Nat) (late rpl : Bool) (resume : Word) (seq pidx : BitVec 32) (frec : Word) : (c.enterTrap vector code sub late rpl resume seq pidx frec).mcmdErr = c.mcmdErr := rfl
@[simp] theorem Ctx.enterTrap_mcmdOff (c : Ctx) (vector : Word) (code sub : Nat) (late rpl : Bool) (resume : Word) (seq pidx : BitVec 32) (frec : Word) : (c.enterTrap vector code sub late rpl resume seq pidx frec).mcmdOff = c.mcmdOff := rfl
@[simp] theorem Ctx.enterTrap_mdat (c : Ctx) (vector : Word) (code sub : Nat) (late rpl : Bool) (resume : Word) (seq pidx : BitVec 32) (frec : Word) : (c.enterTrap vector code sub late rpl resume seq pidx frec).mdat = c.mdat := rfl
@[simp] theorem Ctx.enterTrap_faults (c : Ctx) (vector : Word) (code sub : Nat) (late rpl : Bool) (resume : Word) (seq pidx : BitVec 32) (frec : Word) : (c.enterTrap vector code sub late rpl resume seq pidx frec).faults = c.faults := rfl
@[simp] theorem Ctx.enterTrap_records (c : Ctx) (vector : Word) (code sub : Nat) (late rpl : Bool) (resume : Word) (seq pidx : BitVec 32) (frec : Word) : (c.enterTrap vector code sub late rpl resume seq pidx frec).records = c.records := rfl
@[simp] theorem Ctx.enterTrap_slots (c : Ctx) (vector : Word) (code sub : Nat) (late rpl : Bool) (resume : Word) (seq pidx : BitVec 32) (frec : Word) : (c.enterTrap vector code sub late rpl resume seq pidx frec).slots = c.slots := rfl
@[simp] theorem Ctx.enterTrap_replay (c : Ctx) (vector : Word) (code sub : Nat) (late rpl : Bool) (resume : Word) (seq pidx : BitVec 32) (frec : Word) : (c.enterTrap vector code sub late rpl resume seq pidx frec).replay = c.replay := rfl
@[simp] theorem Ctx.enterTrap_watchHit (c : Ctx) (vector : Word) (code sub : Nat) (late rpl : Bool) (resume : Word) (seq pidx : BitVec 32) (frec : Word) : (c.enterTrap vector code sub late rpl resume seq pidx frec).watchHit = c.watchHit := rfl
@[simp] theorem Ctx.enterTrap_stepDue (c : Ctx) (vector : Word) (code sub : Nat) (late rpl : Bool) (resume : Word) (seq pidx : BitVec 32) (frec : Word) : (c.enterTrap vector code sub late rpl resume seq pidx frec).stepDue = c.stepDue := rfl
@[simp] theorem Ctx.enterTrap_staging (c : Ctx) (vector : Word) (code sub : Nat) (late rpl : Bool) (resume : Word) (seq pidx : BitVec 32) (frec : Word) : (c.enterTrap vector code sub late rpl resume seq pidx frec).staging = c.staging := rfl
@[simp] theorem Ctx.enterTrap_pends (c : Ctx) (vector : Word) (code sub : Nat) (late rpl : Bool) (resume : Word) (seq pidx : BitVec 32) (frec : Word) : (c.enterTrap vector code sub late rpl resume seq pidx frec).pends = c.pends := rfl
@[simp] theorem Ctx.enterTrap_root (c : Ctx) (vector : Word) (code sub : Nat) (late rpl : Bool) (resume : Word) (seq pidx : BitVec 32) (frec : Word) : (c.enterTrap vector code sub late rpl resume seq pidx frec).root = c.root := rfl
@[simp] theorem Ctx.enterTrap_late (c : Ctx) (vector : Word) (code sub : Nat) (late rpl : Bool) (resume : Word) (seq pidx : BitVec 32) (frec : Word) : (c.enterTrap vector code sub late rpl resume seq pidx frec).late = c.late := rfl
@[simp] theorem Ctx.enterTrap_actor (c : Ctx) (vector : Word) (code sub : Nat) (late rpl : Bool) (resume : Word) (seq pidx : BitVec 32) (frec : Word) : (c.enterTrap vector code sub late rpl resume seq pidx frec).actor = c.actor := rfl
@[simp] theorem Ctx.enterTrap_parent (c : Ctx) (vector : Word) (code sub : Nat) (late rpl : Bool) (resume : Word) (seq pidx : BitVec 32) (frec : Word) : (c.enterTrap vector code sub late rpl resume seq pidx frec).parent = c.parent := rfl
@[simp] theorem Ctx.enterTrap_children (c : Ctx) (vector : Word) (code sub : Nat) (late rpl : Bool) (resume : Word) (seq pidx : BitVec 32) (frec : Word) : (c.enterTrap vector code sub late rpl resume seq pidx frec).children = c.children := rfl
@[simp] theorem Ctx.enterTrap_joinable (c : Ctx) (vector : Word) (code sub : Nat) (late rpl : Bool) (resume : Word) (seq pidx : BitVec 32) (frec : Word) : (c.enterTrap vector code sub late rpl resume seq pidx frec).joinable = c.joinable := rfl
@[simp] theorem Ctx.enterTrap_forkScope (c : Ctx) (vector : Word) (code sub : Nat) (late rpl : Bool) (resume : Word) (seq pidx : BitVec 32) (frec : Word) : (c.enterTrap vector code sub late rpl resume seq pidx frec).forkScope = c.forkScope := rfl
@[simp] theorem Ctx.enterTrap_entryTarget (c : Ctx) (vector : Word) (code sub : Nat) (late rpl : Bool) (resume : Word) (seq pidx : BitVec 32) (frec : Word) : (c.enterTrap vector code sub late rpl resume seq pidx frec).entryTarget = c.entryTarget := rfl
@[simp] theorem Ctx.enterTrap_entrySender (c : Ctx) (vector : Word) (code sub : Nat) (late rpl : Bool) (resume : Word) (seq pidx : BitVec 32) (frec : Word) : (c.enterTrap vector code sub late rpl resume seq pidx frec).entrySender = c.entrySender := rfl
@[simp] theorem Ctx.enterTrap_queue (c : Ctx) (vector : Word) (code sub : Nat) (late rpl : Bool) (resume : Word) (seq pidx : BitVec 32) (frec : Word) : (c.enterTrap vector code sub late rpl resume seq pidx frec).queue = c.queue := rfl
@[simp] theorem Ctx.enterTrap_packet (c : Ctx) (vector : Word) (code sub : Nat) (late rpl : Bool) (resume : Word) (seq pidx : BitVec 32) (frec : Word) : (c.enterTrap vector code sub late rpl resume seq pidx frec).packet = c.packet := rfl
@[simp] theorem Ctx.enterTrap_ctr (c : Ctx) (vector : Word) (code sub : Nat) (late rpl : Bool) (resume : Word) (seq pidx : BitVec 32) (frec : Word) : (c.enterTrap vector code sub late rpl resume seq pidx frec).ctr = c.ctr := rfl
@[simp] theorem Ctx.enterTrap_runMax (c : Ctx) (vector : Word) (code sub : Nat) (late rpl : Bool) (resume : Word) (seq pidx : BitVec 32) (frec : Word) : (c.enterTrap vector code sub late rpl resume seq pidx frec).runMax = c.runMax := rfl
@[simp] theorem Ctx.enterTrap_backfill (c : Ctx) (vector : Word) (code sub : Nat) (late rpl : Bool) (resume : Word) (seq pidx : BitVec 32) (frec : Word) : (c.enterTrap vector code sub late rpl resume seq pidx frec).backfill = c.backfill := rfl
@[simp] theorem Ctx.enterTrap_startedAt (c : Ctx) (vector : Word) (code sub : Nat) (late rpl : Bool) (resume : Word) (seq pidx : BitVec 32) (frec : Word) : (c.enterTrap vector code sub late rpl resume seq pidx frec).startedAt = c.startedAt := rfl
@[simp] theorem Ctx.enterTrap_gang (c : Ctx) (vector : Word) (code sub : Nat) (late rpl : Bool) (resume : Word) (seq pidx : BitVec 32) (frec : Word) : (c.enterTrap vector code sub late rpl resume seq pidx frec).gang = c.gang := rfl
@[simp] theorem Ctx.enterTrap_handles (c : Ctx) (vector : Word) (code sub : Nat) (late rpl : Bool) (resume : Word) (seq pidx : BitVec 32) (frec : Word) : (c.enterTrap vector code sub late rpl resume seq pidx frec).handles = c.handles := rfl
@[simp] theorem Ctx.enterTrap_decisions (c : Ctx) (vector : Word) (code sub : Nat) (late rpl : Bool) (resume : Word) (seq pidx : BitVec 32) (frec : Word) : (c.enterTrap vector code sub late rpl resume seq pidx frec).decisions = c.decisions := rfl
@[simp] theorem Ctx.enterTrap_target (c : Ctx) (vector : Word) (code sub : Nat) (late rpl : Bool) (resume : Word) (seq pidx : BitVec 32) (frec : Word) : (c.enterTrap vector code sub late rpl resume seq pidx frec).target = c.target := rfl
@[simp] theorem Ctx.enterTrap_epoch (c : Ctx) (vector : Word) (code sub : Nat) (late rpl : Bool) (resume : Word) (seq pidx : BitVec 32) (frec : Word) : (c.enterTrap vector code sub late rpl resume seq pidx frec).epoch = c.epoch := rfl
@[simp] theorem Ctx.enterTrap_sysEpoch (c : Ctx) (vector : Word) (code sub : Nat) (late rpl : Bool) (resume : Word) (seq pidx : BitVec 32) (frec : Word) : (c.enterTrap vector code sub late rpl resume seq pidx frec).sysEpoch = c.sysEpoch := rfl
@[simp] theorem Ctx.enterTrap_forwarded (c : Ctx) (vector : Word) (code sub : Nat) (late rpl : Bool) (resume : Word) (seq pidx : BitVec 32) (frec : Word) : (c.enterTrap vector code sub late rpl resume seq pidx frec).forwarded = c.forwarded := rfl
@[simp] theorem Ctx.enterTrap_limit (c : Ctx) (vector : Word) (code sub : Nat) (late rpl : Bool) (resume : Word) (seq pidx : BitVec 32) (frec : Word) : (c.enterTrap vector code sub late rpl resume seq pidx frec).limit = c.limit := rfl
@[simp] theorem Ctx.enterTrap_pl (c : Ctx) (vector : Word) (code sub : Nat) (late rpl : Bool) (resume : Word) (seq pidx : BitVec 32) (frec : Word) : (c.enterTrap vector code sub late rpl resume seq pidx frec).pl = 1 := rfl
@[simp] theorem Ctx.enterTrap_pc (c : Ctx) (vector : Word) (code sub : Nat) (late rpl : Bool) (resume : Word) (seq pidx : BitVec 32) (frec : Word) : (c.enterTrap vector code sub late rpl resume seq pidx frec).pc = vector := rfl
@[simp] theorem Ctx.enterTrap_eseq (c : Ctx) (vector : Word) (code sub : Nat) (late rpl : Bool) (resume : Word) (seq pidx : BitVec 32) (frec : Word) : (c.enterTrap vector code sub late rpl resume seq pidx frec).eseq = seq := rfl
@[simp] theorem Ctx.enterTrap_frec (c : Ctx) (vector : Word) (code sub : Nat) (late rpl : Bool) (resume : Word) (seq pidx : BitVec 32) (frec : Word) : (c.enterTrap vector code sub late rpl resume seq pidx frec).frec = frec := rfl
@[simp] theorem Ctx.enterTrap_kept (c : Ctx) (vector : Word) (code sub : Nat) (late rpl : Bool) (resume : Word) (seq pidx : BitVec 32) (frec : Word) : (c.enterTrap vector code sub late rpl resume seq pidx frec).kept = c.windows :: c.kept := rfl
@[simp] theorem Ctx.enterTrap_windows (c : Ctx) (vector : Word) (code sub : Nat) (late rpl : Bool) (resume : Word) (seq pidx : BitVec 32) (frec : Word) : (c.enterTrap vector code sub late rpl resume seq pidx frec).windows = [] := rfl

end Sys2Proof.Machine
end

