-- ==== Sys2Proof/Laws/Memory.lean ====
section
/-!
SUPPORT. Every operation over memory keeps its canonical form, and reset has it.
-/

namespace Sys2Proof.Machine

/-- A bound below the first address may be lowered. -/
theorem Memory.wfFrom_mono {lo lo' : Nat} {m : List Cell} (h : lo' ≤ lo) (w : Memory.wfFrom lo m = true) : Memory.wfFrom lo' m = true := by
  cases m with
  | nil => rfl
  | cons c r =>
    simp only [Memory.wfFrom, Bool.and_eq_true, decide_eq_true_eq] at w ⊢
    exact ⟨⟨le_trans h w.1.1, w.1.2⟩, w.2⟩

/-- A write at or above the bound keeps the form. -/
theorem Memory.wfFrom_write {lo : Nat} {m : List Cell} {a : Nat} {b : Byte} (w : Memory.wfFrom lo m = true) (ha : lo ≤ a) :
    Memory.wfFrom lo (Memory.write m a b) = true := by
  induction m generalizing lo with
  | nil =>
    unfold Memory.write
    split
    · rfl
    · simp [Memory.wfFrom, *]
  | cons c r ih =>
    obtain ⟨k, d⟩ := c
    simp only [Memory.wfFrom, Bool.and_eq_true, decide_eq_true_eq] at w
    obtain ⟨⟨hk, hd⟩, hr⟩ := w
    unfold Memory.write
    split
    · split
      · simp [Memory.wfFrom, *]
      · simp [Memory.wfFrom, *]
    · split
      · split
        · exact Memory.wfFrom_mono (by omega) hr
        · simp only [Memory.wfFrom, Bool.and_eq_true, decide_eq_true_eq]
          subst a
          exact ⟨⟨ha, by assumption⟩, hr⟩
      · simp only [Memory.wfFrom, Bool.and_eq_true, decide_eq_true_eq]
        exact ⟨⟨hk, hd⟩, ih hr (by omega)⟩

theorem Memory.wf_write {m : List Cell} {a : Nat} {b : Byte} (w : Memory.wf m = true) : Memory.wf (Memory.write m a b) = true :=
  Memory.wfFrom_write w (Nat.zero_le a)

theorem Memory.wf_writeBytes {m : List Cell} {a : Nat} {l : List Byte} (w : Memory.wf m = true) :
    Memory.wf (Memory.writeBytes m a l) = true := by
  induction l generalizing m a with
  | nil => exact w
  | cons b l ih => exact ih (Memory.wf_write w)

theorem Memory.wf_writeCells {m l : List Cell} (w : Memory.wf m = true) : Memory.wf (Memory.writeCells m l) = true := by
  induction l generalizing m with
  | nil => exact w
  | cons c l ih => exact ih (Memory.wf_write w)

theorem Memory.wfFrom_filter {lo : Nat} {m : List Cell} {p : Cell → Bool} (w : Memory.wfFrom lo m = true) :
    Memory.wfFrom lo (m.filter p) = true := by
  induction m generalizing lo with
  | nil => rfl
  | cons c r ih =>
    obtain ⟨k, d⟩ := c
    simp only [Memory.wfFrom, Bool.and_eq_true, decide_eq_true_eq] at w
    rw [List.filter_cons]
    split
    · simp only [Memory.wfFrom, Bool.and_eq_true, decide_eq_true_eq]
      exact ⟨w.1, ih w.2⟩
    · exact Memory.wfFrom_mono (by omega) (ih w.2)

theorem Memory.wf_clear {m : List Cell} {a n : Nat} (w : Memory.wf m = true) : Memory.wf (Memory.clear m a n) = true :=
  Memory.wfFrom_filter w

theorem State.wf_poke {s : State} {pa : Nat} {bytes : List Byte} (w : Memory.wf s.mem = true) : Memory.wf (s.poke pa bytes).mem = true :=
  Memory.wf_writeBytes w

theorem State.wf_wipe {s : State} {pa n : Nat} (w : Memory.wf s.mem = true) : Memory.wf (s.wipe pa n).mem = true :=
  Memory.wf_clear w

/-- A fold over states keeps what each of its steps keeps. -/
theorem foldl_mem {α : Type} (f : State → α → State) (hf : ∀ s x, (f s x).mem = s.mem) (l : List α) (s : State) :
    (l.foldl f s).mem = s.mem := by
  induction l generalizing s with
  | nil => rfl
  | cons x l ih => rw [List.foldl_cons, ih, hf]

@[simp] theorem State.sendMany_mem (s : State) (i : Happening) (n : Nat) : (s.sendMany i n).mem = s.mem := by
  induction n generalizing s with
  | zero => rfl
  | succ n ih => exact ih _

/-- Waking the entries of a task touches no memory. -/
@[simp] theorem State.wakeTask_mem (s : State) (key : Nat) (v : Word) (test : Pend → Bool) (c : Ctx) :
    (s.wakeTask key v test c).mem = s.mem := by
  unfold State.wakeTask
  rw [State.sendMany_mem, State.withTask_mem]

/-- Nor does waking the waits of other devices. -/
@[simp] theorem State.wakeFar_mem (s : State) (v : Word) (test : FarWait → Bool) : (s.wakeFar v test).mem = s.mem := by
  unfold State.wakeFar
  rw [foldl_mem _ (fun s w => State.emit_mem s _)]

/-- Nor does testing the entries of a location. -/
@[simp] theorem State.testEntries_mem (s : State) (key : Nat) : (s.testEntries key).mem = s.mem := by
  unfold State.testEntries
  rw [State.wakeFar_mem, foldl_mem _ (fun _ _ => State.wakeTask_mem ..)]

/-- What a store that its home accepts does to memory. -/
theorem State.accept_mem (s : State) (cells : List Cell) :
    (s.accept cells).mem = Memory.writeCells s.mem (cells.map (fun c => (c.1 % 2 ^ 48, c.2))) := by
  unfold State.accept
  rw [foldl_mem _ (fun _ _ => State.testEntries_mem ..)]

theorem State.wf_accept {s : State} {cells : List Cell} (w : Memory.wf s.mem = true) : Memory.wf (s.accept cells).mem = true := by
  rw [State.accept_mem]; exact Memory.wf_writeCells w

theorem State.reset_wf : Memory.wf State.reset.mem = true := rfl

end Sys2Proof.Machine
end

