-- ==== Sys2Proof/Laws/Registers.lean ====
section
/-!
SUPPORT. Registers and the course of one scalar instruction: what reading after writing gives, and what an instruction that open windows
admit leaves.
-/

namespace Sys2Proof.Machine

theorem Ctx.rawX_writeX_same (c : Ctx) (r : Reg) (v : Word) (h : r ≠ 0) : (c.writeX r v).rawX r = v := by
  unfold Ctx.rawX Ctx.writeX
  rw [if_neg h]
  simp

theorem Ctx.rawX_writeX_other (c : Ctx) (d r : Reg) (v : Word) (h : r ≠ d ∨ d = 0) : (c.writeX d v).rawX r = c.rawX r := by
  unfold Ctx.rawX Ctx.writeX
  split
  · rfl
  · rename_i hd
    have hr : r ≠ d := h.resolve_right hd
    have : d.toNat ≠ r.toNat := fun e => hr (BitVec.eq_of_toNat_eq e.symm)
    simp [this]

theorem Ctx.rawV_writeV_same (c : Ctx) (r : BitVec 4) (v : VWord) : (c.writeV r v).rawV r = v := by
  simp [Ctx.rawV, Ctx.writeV]

theorem Ctx.rawV_writeV_other (c : Ctx) (d r : BitVec 4) (v : VWord) (h : r ≠ d) : (c.writeV d v).rawV r = c.rawV r := by
  have : d.toNat ≠ r.toNat := fun e => h (BitVec.eq_of_toNat_eq e.symm)
  simp [Ctx.rawV, Ctx.writeV, this]

theorem Ctx.rawM_writeM_same (c : Ctx) (r : BitVec 3) (v : MWord) (h : r ≠ 0) : (c.writeM r v).rawM r = v := by
  unfold Ctx.rawM Ctx.writeM
  rw [if_neg h]
  simp

theorem Ctx.rawM_writeM_other (c : Ctx) (d r : BitVec 3) (v : MWord) (h : r ≠ d ∨ d = 0) : (c.writeM d v).rawM r = c.rawM r := by
  unfold Ctx.rawM Ctx.writeM
  split
  · rfl
  · rename_i hd
    have hr : r ≠ d := h.resolve_right hd
    have : d.toNat ≠ r.toNat := fun e => hr (BitVec.eq_of_toNat_eq e.symm)
    simp [this]

/-- With no open window a register reads as it stands, x0 as zero. -/
theorem Ctx.readX_of_no_windows (c : Ctx) (r : Reg) (h : c.windows = []) : c.readX r = if r = 0 then 0 else c.rawX r := by
  simp [Ctx.readX, h, oldOf]

theorem Ctx.readX_zero (c : Ctx) : c.readX 0 = 0 := by simp [Ctx.readX]

@[simp] theorem State.x_zero (s : State) : s.x 0 = 0 := Ctx.readX_zero s.cx

theorem State.gate_admitted {s : State} {la : BitVec 4} {d : Dests} (h : s.admits la d) (e : State) : s.gate la d e = e := by
  obtain ⟨h1, h2⟩ := h
  unfold State.gate
  rcases h1 with h1 | h1 <;> rcases h2 with h2 | h2 <;> simp [h1, h2]

theorem State.ringGate_admitted {s : State} {la : BitVec 4} {d : Dests} (h : s.admitsRing la d) (e : State) :
    s.ringGate la d e = e := by
  unfold State.ringGate
  rw [State.gate_admitted h.1]
  simp [h.2]

/-- With no open window every instruction without la may issue. -/
theorem State.admits_of_no_windows (s : State) (d : Dests) (h : s.cx.windows = []) : s.admits 0 d := by
  simp [State.admits, Ctx.hazard, h]

/-- A scalar instruction without la leaves what wroteX says. -/
theorem State.wroteX_step (s : State) (d : Reg) (v next : Word) :
    s.wroteX (s.withCx (fun c => (c.writeX d v).stepTo next)) d v next [] := by
  refine ⟨rfl, ?_, by simp [State.withCx, Ctx.stepTo], ?_, ?_⟩
  · simp only [State.withCx_cx, Ctx.stepTo, Ctx.depth]
    unfold Ctx.writeX
    split <;> rfl
  · intro h
    simpa [Ctx.rawX] using Ctx.rawX_writeX_same s.cx d v h
  · intro r h
    simpa [Ctx.rawX] using Ctx.rawX_writeX_other s.cx d r v h

/-- A long-latency instruction with one scalar destination leaves what wroteX says. -/
theorem State.wroteX_long (s : State) (la : BitVec 4) (d : Reg) (v : Word) :
    s.wroteX (s.withCx (fun c => (c.writeX d v).retireLong s.cx la ⟨[d], [], []⟩)) d v (s.nextPc 4) (openedX s.cx la d) := by
  refine ⟨rfl, ?_, ?_, ?_, ?_⟩
  · simp only [State.withCx_cx, Ctx.retireLong, Ctx.retire, Ctx.stepTo, Ctx.depth, State.nextPc]
    unfold Ctx.writeX
    split <;> rfl
  · have : s.cx.capture la ⟨[d], [], []⟩ = openedX s.cx la d := by
      unfold Ctx.capture openedX
      split
      · rfl
      · by_cases h : d = 0
        · subst h; rfl
        · rw [if_neg h, List.filter_cons_of_pos (by simpa using h)]
          rfl
    simp [State.withCx, Ctx.retireLong, Ctx.retire, Ctx.stepTo, this]
  · intro h
    simpa [Ctx.rawX] using Ctx.rawX_writeX_same s.cx d v h
  · intro r h
    simpa [Ctx.rawX] using Ctx.rawX_writeX_other s.cx d r v h

/-- A scalar instruction that open windows admit. -/
theorem State.scalar_admitted {s : State} {d : Reg} (h : s.admits 0 ⟨[d], [], []⟩) (v : Word) (len : Nat) :
    s.scalar d v len = s.withCx (fun c => (c.writeX d v).retire len) := State.gate_admitted h _

theorem State.scalar_wroteX {s : State} {d : Reg} (h : s.admits 0 ⟨[d], [], []⟩) (v : Word) (len : Nat) :
    s.wroteX (s.scalar d v len) d v (s.nextPc len) [] := by
  rw [State.scalar_admitted h]
  have := State.wroteX_step s d v (s.nextPc len)
  have e : s.withCx (fun c => (c.writeX d v).retire len) = s.withCx (fun c => (c.writeX d v).stepTo (s.nextPc len)) := by
    simp [State.withCx, Ctx.retire, State.nextPc]
  rwa [e]

theorem State.scalarLong_wroteX {s : State} {la : BitVec 4} {d : Reg} (h : s.admits la ⟨[d], [], []⟩) (v : Word) :
    s.wroteX (s.scalarLong la d v) d v (s.nextPc 4) (openedX s.cx la d) := by
  unfold State.scalarLong
  rw [State.gate_admitted h]
  exact State.wroteX_long s la d v

theorem openedX_zero (c : Ctx) (d : Reg) : openedX c 0 d = [] := by simp [openedX]

end Sys2Proof.Machine
end

