-- ==== Sys2Proof/Laws/Ops.lean ====
section
/-!
SUPPORT. What each shared operation can do, once: the cases of the checks before an instruction, of a trap, and of a data access.
-/

namespace Sys2Proof.Machine

/-- The checks of open windows: the hazard trap, the capacity trap, or the effect. -/
theorem State.gate_cases (s : State) (la : BitVec 4) (d : Dests) (e : State) :
    (s.cx.hazard d = true ∧ s.cx.lao = false ∧ s.gate la d e = s.precise 4 0) ∨
    (la ≠ 0 ∧ s.cx.overCapacity d = true ∧ s.gate la d e = s.precise 5 0) ∨ (s.admits la d ∧ s.gate la d e = e) := by
  unfold State.gate State.admits
  cases hh : s.cx.hazard d <;> cases hl : s.cx.lao <;> cases ho : s.cx.overCapacity d <;> by_cases h0 : la = 0 <;> simp_all

/-- The checks of a ring instruction: those, or a wait for a place in the ring. -/
theorem State.ringGate_cases (s : State) (la : BitVec 4) (d : Dests) (e : State) :
    (s.cx.hazard d = true ∧ s.cx.lao = false ∧ s.ringGate la d e = s.precise 4 0) ∨
    (la ≠ 0 ∧ s.cx.overCapacity d = true ∧ s.ringGate la d e = s.precise 5 0) ∨
    (s.admits la d ∧ s.cx.ringFull = true ∧ s.ringGate la d e = s.stall) ∨ (s.admitsRing la d ∧ s.ringGate la d e = e) := by
  unfold State.ringGate
  rcases State.gate_cases s la d (if s.cx.ringFull then s.stall else e) with h | h | h
  · exact .inl h
  · exact .inr (.inl h)
  · by_cases hr : s.cx.ringFull = true
    · exact .inr (.inr (.inl ⟨h.1, hr, by rw [h.2, if_pos hr]⟩))
    · exact .inr (.inr (.inr ⟨⟨h.1, by simpa using hr⟩, by rw [h.2, if_neg hr]⟩))

/-- A scalar instruction traps at the gate, or writes its register. -/
theorem State.scalar_cases (s : State) (d : Reg) (v : Word) (len : Nat) :
    (s.cx.hazard ⟨[d], [], []⟩ = true ∧ s.cx.lao = false ∧ s.scalar d v len = s.precise 4 0) ∨
    (s.admits 0 ⟨[d], [], []⟩ ∧ s.wroteX (s.scalar d v len) d v (s.nextPc len) []) := by
  rcases State.gate_cases s 0 ⟨[d], [], []⟩ (s.withCx (fun c => (c.writeX d v).retire len)) with h | h | h
  · exact .inl h
  · exact absurd rfl h.1
  · exact .inr ⟨h.1, State.scalar_wroteX h.1 v len⟩

/-- Leaving a follow group changes no register, no window and no memory of the running context. -/
theorem State.leaveGroup_mem (s : State) (c : Ctx) : (s.leaveGroup c).mem = s.mem := by
  unfold State.leaveGroup
  split
  · unfold State.disband
    rw [State.withCtx_mem, foldl_mem _ (fun _ _ => State.withCtx_mem _ _ _)]
  · split
    · exact State.withCtx_mem _ _ _
    · rfl

/-- A store that is taken went through translation, the bank's switch and the limit of stores not acknowledged. -/
theorem State.dataWrite_done {s s1 : State} {va : Nat} {bytes : List Byte} {level : BitVec 2} {word : BitVec 32}
    (h : s.dataWrite va bytes level word = .done s1) :
    ∃ leaf pa, s.translate (coreOf s.cx.key) s.cx.part level va true = .ok leaf pa ∧ s.ownBusy pa = false ∧
      ¬ (256 ≤ s.owed ∧ s.leavesCore leaf pa = true) ∧
      s1 = (s.tlbFill (coreOf s.cx.key) s.cx.part va leaf).putData leaf pa bytes (BitVec.ofNat 64 va) word := by
  unfold State.dataWrite at h
  dsimp only at h
  split at h
  · cases h
  · rename_i leaf pa ht
    split at h
    · cases h
    · rename_i hb
      cases h
      exact ⟨leaf, pa, ht, by simpa using fun e => hb (.inl e), fun e => hb (.inr e), rfl⟩

/-- A load that is answered went through translation, the bank's switch and the write-backs of the thread's acquire. -/
theorem State.dataRead_value {s s1 : State} {va n : Nat} {level : BitVec 2} {bytes : List Byte}
    (h : s.dataRead va n level = .value bytes s1) :
    ∃ leaf pa, s.translate (coreOf s.cx.key) s.cx.part level va false = .ok leaf pa ∧ s.placeBusy pa = false ∧
      s.loadsWait s.cx.tid = false := by
  unfold State.dataRead at h
  dsimp only at h
  split at h
  · cases h
  · rename_i leaf pa ht
    split at h
    · cases h
    · rename_i hb
      exact ⟨leaf, pa, ht, by simpa using hb⟩

end Sys2Proof.Machine
end

