-- ==== Sys2Proof/Laws/PerInstr.lean ====
section
/-!
SUPPORT. The round trip of every instruction, one lemma a constructor: the decoder reads the bytes that the encoder writes as that
instruction.
-/

namespace Sys2Proof.Laws.RoundTrip

set_option Elab.async false

/-- The bytes of a well-formed instruction, whatever follows them, decode to it, with its length. -/
def Statement (i : Instr) : Prop :=
  i.wf = true → i.isWord = true → ∀ r : List Byte, decodeBytes (i.bytes ++ r) = .word i i.bytes.length

theorem no_word {i : Instr} (h : i.isWord = false) : Statement i := fun _ h1 => absurd (h.symm.trans h1) (by decide)

theorem at_eq {n lo w : Nat} {b : BitVec n} (h : part w lo n = b.toNat) : at_ w lo n = b := by
  apply BitVec.eq_of_toNat_eq; simpa [at_, part] using h

theorem length_bytesOf (v n : Nat) : (Machine.bytesOf v n).length = n := by
  induction n generalizing v with
  | zero => rfl
  | succ n ih => simp [Machine.bytesOf, ih]

/-- A 32-bit word's bytes are read as its row. -/
theorem four {i : Instr} {w : Nat} (e : i.encode = w) (hl : w < 2 ^ 32) (ho : w % 2 = 1) (h : decodeRow32 w = some i) : Statement i := by
  intro hw _ r
  subst e
  have hn : wordLen i.encode = 4 := by unfold wordLen; rw [if_neg (by omega)]
  have hb : i.bytes = Machine.bytesOf i.encode 4 := by unfold Instr.bytes; rw [hn]
  have e : i.encode % 256 + 256 * (i.encode / 256 % 256) + 65536 * (i.encode / 256 / 256 % 256) +
      16777216 * (i.encode / 256 / 256 / 256 % 256) = i.encode := by omega
  rw [hb, length_bytesOf]
  simp only [Machine.bytesOf, List.cons_append, List.nil_append, decodeBytes, BitVec.toNat_ofNat]
  rw [if_neg (by omega)]
  show accepted (decodeRow32 (i.encode % 256 + 256 * (i.encode / 256 % 256) + 65536 * (i.encode / 256 / 256 % 256) +
      16777216 * (i.encode / 256 / 256 / 256 % 256))) 4 = _
  rw [e, h]
  simp only [accepted, hw, if_true]

/-- A 16-bit word's bytes are read as its row. -/
theorem two {i : Instr} {w : Nat} (e : i.encode = w) (hl : w < 2 ^ 16) (ho : w % 2 = 0) (h : decodeRow16 w = some i) : Statement i := by
  intro hw _ r
  subst e
  have hn : wordLen i.encode = 2 := by unfold wordLen; rw [if_pos ho]
  have hb : i.bytes = Machine.bytesOf i.encode 2 := by unfold Instr.bytes; rw [hn]
  have e : i.encode % 256 + 256 * (i.encode / 256 % 256) = i.encode := by omega
  rw [hb, length_bytesOf]
  simp only [Machine.bytesOf, List.cons_append, List.nil_append, decodeBytes, BitVec.toNat_ofNat]
  rw [if_pos (by omega)]
  show accepted (decodeRow16 (i.encode % 256 + 256 * (i.encode / 256 % 256))) 2 = _
  rw [e, h]
  simp only [accepted, hw, if_true]

/-- The fields of format HS fit. -/
def hsFits (op d b : Nat) : Prop := op < 2 ^ 5 ∧ d < 2 ^ 5 ∧ b < 2 ^ 5

theorem hs_op {op d b : Nat} (h : hsFits op d b) : part (Machine.hsWord op d b) 1 5 = op := by
  unfold part Machine.hsWord; unfold hsFits at h; omega

theorem hs_d {op d b : Nat} (h : hsFits op d b) : part (Machine.hsWord op d b) 6 5 = d := by
  unfold part Machine.hsWord; unfold hsFits at h; omega

theorem hs_b {op d b : Nat} (h : hsFits op d b) : part (Machine.hsWord op d b) 11 5 = b := by
  unfold part Machine.hsWord; unfold hsFits at h; omega

theorem hs_lt {op d b : Nat} (h : hsFits op d b) : Machine.hsWord op d b < 2 ^ 16 := by
  unfold Machine.hsWord; unfold hsFits at h; omega

theorem hs_odd (op d b : Nat) : Machine.hsWord op d b % 2 = 0 := by
  unfold Machine.hsWord; omega

/-- The fields of format WR fit. -/
def wrFits (op d a b fn xf : Nat) : Prop := op < 2 ^ 6 ∧ d < 2 ^ 5 ∧ a < 2 ^ 5 ∧ b < 2 ^ 5 ∧ fn < 2 ^ 6 ∧ xf < 2 ^ 4

theorem wr_op {op d a b fn xf : Nat} (h : wrFits op d a b fn xf) : part (Machine.wrWord op d a b fn xf) 1 6 = op := by
  unfold part Machine.wrWord; unfold wrFits at h; omega

theorem wr_d {op d a b fn xf : Nat} (h : wrFits op d a b fn xf) : part (Machine.wrWord op d a b fn xf) 7 5 = d := by
  unfold part Machine.wrWord; unfold wrFits at h; omega

theorem wr_a {op d a b fn xf : Nat} (h : wrFits op d a b fn xf) : part (Machine.wrWord op d a b fn xf) 12 5 = a := by
  unfold part Machine.wrWord; unfold wrFits at h; omega

theorem wr_b {op d a b fn xf : Nat} (h : wrFits op d a b fn xf) : part (Machine.wrWord op d a b fn xf) 17 5 = b := by
  unfold part Machine.wrWord; unfold wrFits at h; omega

theorem wr_fn {op d a b fn xf : Nat} (h : wrFits op d a b fn xf) : part (Machine.wrWord op d a b fn xf) 22 6 = fn := by
  unfold part Machine.wrWord; unfold wrFits at h; omega

theorem wr_xf {op d a b fn xf : Nat} (h : wrFits op d a b fn xf) : part (Machine.wrWord op d a b fn xf) 28 4 = xf := by
  unfold part Machine.wrWord; unfold wrFits at h; omega

theorem wr_lt {op d a b fn xf : Nat} (h : wrFits op d a b fn xf) : Machine.wrWord op d a b fn xf < 2 ^ 32 := by
  unfold Machine.wrWord; unfold wrFits at h; omega

theorem wr_odd (op d a b fn xf : Nat) : Machine.wrWord op d a b fn xf % 2 = 1 := by
  unfold Machine.wrWord; omega

/-- The fields of format WI fit. -/
def wiFits (op d a imm : Nat) : Prop := op < 2 ^ 6 ∧ d < 2 ^ 5 ∧ a < 2 ^ 5 ∧ imm < 2 ^ 15

theorem wi_op {op d a imm : Nat} (h : wiFits op d a imm) : part (Machine.wiWord op d a imm) 1 6 = op := by
  unfold part Machine.wiWord; unfold wiFits at h; omega

theorem wi_d {op d a imm : Nat} (h : wiFits op d a imm) : part (Machine.wiWord op d a imm) 7 5 = d := by
  unfold part Machine.wiWord; unfold wiFits at h; omega

theorem wi_a {op d a imm : Nat} (h : wiFits op d a imm) : part (Machine.wiWord op d a imm) 12 5 = a := by
  unfold part Machine.wiWord; unfold wiFits at h; omega

theorem wi_imm {op d a imm : Nat} (h : wiFits op d a imm) : part (Machine.wiWord op d a imm) 17 15 = imm := by
  unfold part Machine.wiWord; unfold wiFits at h; omega

theorem wi_lt {op d a imm : Nat} (h : wiFits op d a imm) : Machine.wiWord op d a imm < 2 ^ 32 := by
  unfold Machine.wiWord; unfold wiFits at h; omega

theorem wi_odd (op d a imm : Nat) : Machine.wiWord op d a imm % 2 = 1 := by
  unfold Machine.wiWord; omega

/-- The fields of format WU fit. -/
def wuFits (op d imm : Nat) : Prop := op < 2 ^ 6 ∧ d < 2 ^ 5 ∧ imm < 2 ^ 20

theorem wu_op {op d imm : Nat} (h : wuFits op d imm) : part (Machine.wuWord op d imm) 1 6 = op := by
  unfold part Machine.wuWord; unfold wuFits at h; omega

theorem wu_d {op d imm : Nat} (h : wuFits op d imm) : part (Machine.wuWord op d imm) 7 5 = d := by
  unfold part Machine.wuWord; unfold wuFits at h; omega

theorem wu_imm {op d imm : Nat} (h : wuFits op d imm) : part (Machine.wuWord op d imm) 12 20 = imm := by
  unfold part Machine.wuWord; unfold wuFits at h; omega

theorem wu_lt {op d imm : Nat} (h : wuFits op d imm) : Machine.wuWord op d imm < 2 ^ 32 := by
  unfold Machine.wuWord; unfold wuFits at h; omega

theorem wu_odd (op d imm : Nat) : Machine.wuWord op d imm % 2 = 1 := by
  unfold Machine.wuWord; omega

/-- The fields of format WM fit. -/
def wmFits (op d a w off la : Nat) : Prop := op < 2 ^ 6 ∧ d < 2 ^ 5 ∧ a < 2 ^ 5 ∧ w < 2 ^ 3 ∧ off < 2 ^ 8 ∧ la < 2 ^ 4

theorem wm_op {op d a w off la : Nat} (h : wmFits op d a w off la) : part (Machine.wmWord op d a w off la) 1 6 = op := by
  unfold part Machine.wmWord; unfold wmFits at h; omega

theorem wm_d {op d a w off la : Nat} (h : wmFits op d a w off la) : part (Machine.wmWord op d a w off la) 7 5 = d := by
  unfold part Machine.wmWord; unfold wmFits at h; omega

theorem wm_a {op d a w off la : Nat} (h : wmFits op d a w off la) : part (Machine.wmWord op d a w off la) 12 5 = a := by
  unfold part Machine.wmWord; unfold wmFits at h; omega

theorem wm_w {op d a w off la : Nat} (h : wmFits op d a w off la) : part (Machine.wmWord op d a w off la) 17 3 = w := by
  unfold part Machine.wmWord; unfold wmFits at h; omega

theorem wm_off {op d a w off la : Nat} (h : wmFits op d a w off la) : part (Machine.wmWord op d a w off la) 20 8 = off := by
  unfold part Machine.wmWord; unfold wmFits at h; omega

theorem wm_la {op d a w off la : Nat} (h : wmFits op d a w off la) : part (Machine.wmWord op d a w off la) 28 4 = la := by
  unfold part Machine.wmWord; unfold wmFits at h; omega

theorem wm_lt {op d a w off la : Nat} (h : wmFits op d a w off la) : Machine.wmWord op d a w off la < 2 ^ 32 := by
  unfold Machine.wmWord; unfold wmFits at h; omega

theorem wm_odd (op d a w off la : Nat) : Machine.wmWord op d a w off la % 2 = 1 := by
  unfold Machine.wmWord; omega

/-- The fields of format WB fit. -/
def wbFits (op a b fn off : Nat) : Prop := op < 2 ^ 6 ∧ a < 2 ^ 5 ∧ b < 2 ^ 5 ∧ fn < 2 ^ 3 ∧ off < 2 ^ 12

theorem wb_op {op a b fn off : Nat} (h : wbFits op a b fn off) : part (Machine.wbWord op a b fn off) 1 6 = op := by
  unfold part Machine.wbWord; unfold wbFits at h; omega

theorem wb_a {op a b fn off : Nat} (h : wbFits op a b fn off) : part (Machine.wbWord op a b fn off) 7 5 = a := by
  unfold part Machine.wbWord; unfold wbFits at h; omega

theorem wb_b {op a b fn off : Nat} (h : wbFits op a b fn off) : part (Machine.wbWord op a b fn off) 12 5 = b := by
  unfold part Machine.wbWord; unfold wbFits at h; omega

theorem wb_fn {op a b fn off : Nat} (h : wbFits op a b fn off) : part (Machine.wbWord op a b fn off) 17 3 = fn := by
  unfold part Machine.wbWord; unfold wbFits at h; omega

theorem wb_off {op a b fn off : Nat} (h : wbFits op a b fn off) : part (Machine.wbWord op a b fn off) 20 12 = off := by
  unfold part Machine.wbWord; unfold wbFits at h; omega

theorem wb_lt {op a b fn off : Nat} (h : wbFits op a b fn off) : Machine.wbWord op a b fn off < 2 ^ 32 := by
  unfold Machine.wbWord; unfold wbFits at h; omega

theorem wb_odd (op a b fn off : Nat) : Machine.wbWord op a b fn off % 2 = 1 := by
  unfold Machine.wbWord; omega

/-- The fields of format WJ fit. -/
def wjFits (op d off : Nat) : Prop := op < 2 ^ 6 ∧ d < 2 ^ 5 ∧ off < 2 ^ 20

theorem wj_op {op d off : Nat} (h : wjFits op d off) : part (Machine.wjWord op d off) 1 6 = op := by
  unfold part Machine.wjWord; unfold wjFits at h; omega

theorem wj_d {op d off : Nat} (h : wjFits op d off) : part (Machine.wjWord op d off) 7 5 = d := by
  unfold part Machine.wjWord; unfold wjFits at h; omega

theorem wj_off {op d off : Nat} (h : wjFits op d off) : part (Machine.wjWord op d off) 12 20 = off := by
  unfold part Machine.wjWord; unfold wjFits at h; omega

theorem wj_lt {op d off : Nat} (h : wjFits op d off) : Machine.wjWord op d off < 2 ^ 32 := by
  unfold Machine.wjWord; unfold wjFits at h; omega

theorem wj_odd (op d off : Nat) : Machine.wjWord op d off % 2 = 1 := by
  unfold Machine.wjWord; omega

/-- The fields of format WE fit. -/
def weFits (op a d sel fn : Nat) : Prop := op < 2 ^ 6 ∧ a < 2 ^ 5 ∧ d < 2 ^ 5 ∧ sel < 2 ^ 11 ∧ fn < 2 ^ 4

theorem we_op {op a d sel fn : Nat} (h : weFits op a d sel fn) : part (Machine.weWord op a d sel fn) 1 6 = op := by
  unfold part Machine.weWord; unfold weFits at h; omega

theorem we_a {op a d sel fn : Nat} (h : weFits op a d sel fn) : part (Machine.weWord op a d sel fn) 12 5 = a := by
  unfold part Machine.weWord; unfold weFits at h; omega

theorem we_d {op a d sel fn : Nat} (h : weFits op a d sel fn) : part (Machine.weWord op a d sel fn) 7 5 = d := by
  unfold part Machine.weWord; unfold weFits at h; omega

theorem we_sel {op a d sel fn : Nat} (h : weFits op a d sel fn) : part (Machine.weWord op a d sel fn) 17 11 = sel := by
  unfold part Machine.weWord; unfold weFits at h; omega

theorem we_fn {op a d sel fn : Nat} (h : weFits op a d sel fn) : part (Machine.weWord op a d sel fn) 28 4 = fn := by
  unfold part Machine.weWord; unfold weFits at h; omega

theorem we_lt {op a d sel fn : Nat} (h : weFits op a d sel fn) : Machine.weWord op a d sel fn < 2 ^ 32 := by
  unfold Machine.weWord; unfold weFits at h; omega

theorem we_odd (op a d sel fn : Nat) : Machine.weWord op a d sel fn % 2 = 1 := by
  unfold Machine.weWord; omega

/-- The fields of format WC fit. -/
def wcFits (op d a b sc fn la : Nat) : Prop := op < 2 ^ 6 ∧ d < 2 ^ 5 ∧ a < 2 ^ 5 ∧ b < 2 ^ 5 ∧ sc < 2 ^ 2 ∧ fn < 2 ^ 4 ∧ la < 2 ^ 4

theorem wc_op {op d a b sc fn la : Nat} (h : wcFits op d a b sc fn la) : part (Machine.wcWord op d a b sc fn la) 1 6 = op := by
  unfold part Machine.wcWord; unfold wcFits at h; omega

theorem wc_d {op d a b sc fn la : Nat} (h : wcFits op d a b sc fn la) : part (Machine.wcWord op d a b sc fn la) 7 5 = d := by
  unfold part Machine.wcWord; unfold wcFits at h; omega

theorem wc_a {op d a b sc fn la : Nat} (h : wcFits op d a b sc fn la) : part (Machine.wcWord op d a b sc fn la) 12 5 = a := by
  unfold part Machine.wcWord; unfold wcFits at h; omega

theorem wc_b {op d a b sc fn la : Nat} (h : wcFits op d a b sc fn la) : part (Machine.wcWord op d a b sc fn la) 17 5 = b := by
  unfold part Machine.wcWord; unfold wcFits at h; omega

theorem wc_sc {op d a b sc fn la : Nat} (h : wcFits op d a b sc fn la) : part (Machine.wcWord op d a b sc fn la) 22 2 = sc := by
  unfold part Machine.wcWord; unfold wcFits at h; omega

theorem wc_fn {op d a b sc fn la : Nat} (h : wcFits op d a b sc fn la) : part (Machine.wcWord op d a b sc fn la) 24 4 = fn := by
  unfold part Machine.wcWord; unfold wcFits at h; omega

theorem wc_la {op d a b sc fn la : Nat} (h : wcFits op d a b sc fn la) : part (Machine.wcWord op d a b sc fn la) 28 4 = la := by
  unfold part Machine.wcWord; unfold wcFits at h; omega

theorem wc_lt {op d a b sc fn la : Nat} (h : wcFits op d a b sc fn la) : Machine.wcWord op d a b sc fn la < 2 ^ 32 := by
  unfold Machine.wcWord; unfold wcFits at h; omega

theorem wc_odd (op d a b sc fn la : Nat) : Machine.wcWord op d a b sc fn la % 2 = 1 := by
  unfold Machine.wcWord; omega

/-- The fields of format WV fit. -/
def wvFits (op vd va vb m ty fn la : Nat) : Prop := op < 2 ^ 6 ∧ vd < 2 ^ 4 ∧ va < 2 ^ 4 ∧ vb < 2 ^ 4 ∧ m < 2 ^ 3 ∧ ty < 2 ^ 3 ∧ fn < 2 ^ 3 ∧ la < 2 ^ 4

theorem wv_op {op vd va vb m ty fn la : Nat} (h : wvFits op vd va vb m ty fn la) : part (Machine.wvWord op vd va vb m ty fn la) 1 6 = op := by
  unfold part Machine.wvWord; unfold wvFits at h; omega

theorem wv_vd {op vd va vb m ty fn la : Nat} (h : wvFits op vd va vb m ty fn la) : part (Machine.wvWord op vd va vb m ty fn la) 7 4 = vd := by
  unfold part Machine.wvWord; unfold wvFits at h; omega

theorem wv_va {op vd va vb m ty fn la : Nat} (h : wvFits op vd va vb m ty fn la) : part (Machine.wvWord op vd va vb m ty fn la) 11 4 = va := by
  unfold part Machine.wvWord; unfold wvFits at h; omega

theorem wv_vb {op vd va vb m ty fn la : Nat} (h : wvFits op vd va vb m ty fn la) : part (Machine.wvWord op vd va vb m ty fn la) 15 4 = vb := by
  unfold part Machine.wvWord; unfold wvFits at h; omega

theorem wv_m {op vd va vb m ty fn la : Nat} (h : wvFits op vd va vb m ty fn la) : part (Machine.wvWord op vd va vb m ty fn la) 19 3 = m := by
  unfold part Machine.wvWord; unfold wvFits at h; omega

theorem wv_ty {op vd va vb m ty fn la : Nat} (h : wvFits op vd va vb m ty fn la) : part (Machine.wvWord op vd va vb m ty fn la) 22 3 = ty := by
  unfold part Machine.wvWord; unfold wvFits at h; omega

theorem wv_fn {op vd va vb m ty fn la : Nat} (h : wvFits op vd va vb m ty fn la) : part (Machine.wvWord op vd va vb m ty fn la) 25 3 = fn := by
  unfold part Machine.wvWord; unfold wvFits at h; omega

theorem wv_la {op vd va vb m ty fn la : Nat} (h : wvFits op vd va vb m ty fn la) : part (Machine.wvWord op vd va vb m ty fn la) 28 4 = la := by
  unfold part Machine.wvWord; unfold wvFits at h; omega

theorem wv_lt {op vd va vb m ty fn la : Nat} (h : wvFits op vd va vb m ty fn la) : Machine.wvWord op vd va vb m ty fn la < 2 ^ 32 := by
  unfold Machine.wvWord; unfold wvFits at h; omega

theorem wv_odd (op vd va vb m ty fn la : Nat) : Machine.wvWord op vd va vb m ty fn la % 2 = 1 := by
  unfold Machine.wvWord; omega

/-- The fields of format WVM fit. -/
def wvmFits (op v xa xb m ty o la : Nat) : Prop := op < 2 ^ 6 ∧ v < 2 ^ 4 ∧ xa < 2 ^ 5 ∧ xb < 2 ^ 5 ∧ m < 2 ^ 3 ∧ ty < 2 ^ 3 ∧ o < 2 ^ 1 ∧ la < 2 ^ 4

theorem wvm_op {op v xa xb m ty o la : Nat} (h : wvmFits op v xa xb m ty o la) : part (Machine.wvmWord op v xa xb m ty o la) 1 6 = op := by
  unfold part Machine.wvmWord; unfold wvmFits at h; omega

theorem wvm_v {op v xa xb m ty o la : Nat} (h : wvmFits op v xa xb m ty o la) : part (Machine.wvmWord op v xa xb m ty o la) 7 4 = v := by
  unfold part Machine.wvmWord; unfold wvmFits at h; omega

theorem wvm_xa {op v xa xb m ty o la : Nat} (h : wvmFits op v xa xb m ty o la) : part (Machine.wvmWord op v xa xb m ty o la) 11 5 = xa := by
  unfold part Machine.wvmWord; unfold wvmFits at h; omega

theorem wvm_xb {op v xa xb m ty o la : Nat} (h : wvmFits op v xa xb m ty o la) : part (Machine.wvmWord op v xa xb m ty o la) 16 5 = xb := by
  unfold part Machine.wvmWord; unfold wvmFits at h; omega

theorem wvm_m {op v xa xb m ty o la : Nat} (h : wvmFits op v xa xb m ty o la) : part (Machine.wvmWord op v xa xb m ty o la) 21 3 = m := by
  unfold part Machine.wvmWord; unfold wvmFits at h; omega

theorem wvm_ty {op v xa xb m ty o la : Nat} (h : wvmFits op v xa xb m ty o la) : part (Machine.wvmWord op v xa xb m ty o la) 24 3 = ty := by
  unfold part Machine.wvmWord; unfold wvmFits at h; omega

theorem wvm_o {op v xa xb m ty o la : Nat} (h : wvmFits op v xa xb m ty o la) : part (Machine.wvmWord op v xa xb m ty o la) 27 1 = o := by
  unfold part Machine.wvmWord; unfold wvmFits at h; omega

theorem wvm_la {op v xa xb m ty o la : Nat} (h : wvmFits op v xa xb m ty o la) : part (Machine.wvmWord op v xa xb m ty o la) 28 4 = la := by
  unfold part Machine.wvmWord; unfold wvmFits at h; omega

theorem wvm_lt {op v xa xb m ty o la : Nat} (h : wvmFits op v xa xb m ty o la) : Machine.wvmWord op v xa xb m ty o la < 2 ^ 32 := by
  unfold Machine.wvmWord; unfold wvmFits at h; omega

theorem wvm_odd (op v xa xb m ty o la : Nat) : Machine.wvmWord op v xa xb m ty o la % 2 = 1 := by
  unfold Machine.wvmWord; omega

/-- The fields of format WVG fit. -/
def wvgFits (op v vi xa m ty la : Nat) : Prop := op < 2 ^ 6 ∧ v < 2 ^ 4 ∧ vi < 2 ^ 4 ∧ xa < 2 ^ 5 ∧ m < 2 ^ 3 ∧ ty < 2 ^ 5 ∧ la < 2 ^ 4

theorem wvg_op {op v vi xa m ty la : Nat} (h : wvgFits op v vi xa m ty la) : part (Machine.wvgWord op v vi xa m ty la) 1 6 = op := by
  unfold part Machine.wvgWord; unfold wvgFits at h; omega

theorem wvg_v {op v vi xa m ty la : Nat} (h : wvgFits op v vi xa m ty la) : part (Machine.wvgWord op v vi xa m ty la) 7 4 = v := by
  unfold part Machine.wvgWord; unfold wvgFits at h; omega

theorem wvg_vi {op v vi xa m ty la : Nat} (h : wvgFits op v vi xa m ty la) : part (Machine.wvgWord op v vi xa m ty la) 11 4 = vi := by
  unfold part Machine.wvgWord; unfold wvgFits at h; omega

theorem wvg_xa {op v vi xa m ty la : Nat} (h : wvgFits op v vi xa m ty la) : part (Machine.wvgWord op v vi xa m ty la) 15 5 = xa := by
  unfold part Machine.wvgWord; unfold wvgFits at h; omega

theorem wvg_m {op v vi xa m ty la : Nat} (h : wvgFits op v vi xa m ty la) : part (Machine.wvgWord op v vi xa m ty la) 20 3 = m := by
  unfold part Machine.wvgWord; unfold wvgFits at h; omega

theorem wvg_ty {op v vi xa m ty la : Nat} (h : wvgFits op v vi xa m ty la) : part (Machine.wvgWord op v vi xa m ty la) 23 5 = ty := by
  unfold part Machine.wvgWord; unfold wvgFits at h; omega

theorem wvg_la {op v vi xa m ty la : Nat} (h : wvgFits op v vi xa m ty la) : part (Machine.wvgWord op v vi xa m ty la) 28 4 = la := by
  unfold part Machine.wvgWord; unfold wvgFits at h; omega

theorem wvg_lt {op v vi xa m ty la : Nat} (h : wvgFits op v vi xa m ty la) : Machine.wvgWord op v vi xa m ty la < 2 ^ 32 := by
  unfold Machine.wvgWord; unfold wvgFits at h; omega

theorem wvg_odd (op v vi xa m ty la : Nat) : Machine.wvgWord op v vi xa m ty la % 2 = 1 := by
  unfold Machine.wvgWord; omega

/-- The fields of format WVT fit. -/
def wvtFits (op vd va tys tyd rm m fn la : Nat) : Prop := op < 2 ^ 6 ∧ vd < 2 ^ 4 ∧ va < 2 ^ 4 ∧ tys < 2 ^ 3 ∧ tyd < 2 ^ 3 ∧ rm < 2 ^ 2 ∧ m < 2 ^ 2 ∧ fn < 2 ^ 3 ∧ la < 2 ^ 4

theorem wvt_op {op vd va tys tyd rm m fn la : Nat} (h : wvtFits op vd va tys tyd rm m fn la) : part (Machine.wvtWord op vd va tys tyd rm m fn la) 1 6 = op := by
  unfold part Machine.wvtWord; unfold wvtFits at h; omega

theorem wvt_vd {op vd va tys tyd rm m fn la : Nat} (h : wvtFits op vd va tys tyd rm m fn la) : part (Machine.wvtWord op vd va tys tyd rm m fn la) 7 4 = vd := by
  unfold part Machine.wvtWord; unfold wvtFits at h; omega

theorem wvt_va {op vd va tys tyd rm m fn la : Nat} (h : wvtFits op vd va tys tyd rm m fn la) : part (Machine.wvtWord op vd va tys tyd rm m fn la) 11 4 = va := by
  unfold part Machine.wvtWord; unfold wvtFits at h; omega

theorem wvt_tys {op vd va tys tyd rm m fn la : Nat} (h : wvtFits op vd va tys tyd rm m fn la) : part (Machine.wvtWord op vd va tys tyd rm m fn la) 15 3 = tys := by
  unfold part Machine.wvtWord; unfold wvtFits at h; omega

theorem wvt_tyd {op vd va tys tyd rm m fn la : Nat} (h : wvtFits op vd va tys tyd rm m fn la) : part (Machine.wvtWord op vd va tys tyd rm m fn la) 18 3 = tyd := by
  unfold part Machine.wvtWord; unfold wvtFits at h; omega

theorem wvt_rm {op vd va tys tyd rm m fn la : Nat} (h : wvtFits op vd va tys tyd rm m fn la) : part (Machine.wvtWord op vd va tys tyd rm m fn la) 21 2 = rm := by
  unfold part Machine.wvtWord; unfold wvtFits at h; omega

theorem wvt_m {op vd va tys tyd rm m fn la : Nat} (h : wvtFits op vd va tys tyd rm m fn la) : part (Machine.wvtWord op vd va tys tyd rm m fn la) 23 2 = m := by
  unfold part Machine.wvtWord; unfold wvtFits at h; omega

theorem wvt_fn {op vd va tys tyd rm m fn la : Nat} (h : wvtFits op vd va tys tyd rm m fn la) : part (Machine.wvtWord op vd va tys tyd rm m fn la) 25 3 = fn := by
  unfold part Machine.wvtWord; unfold wvtFits at h; omega

theorem wvt_la {op vd va tys tyd rm m fn la : Nat} (h : wvtFits op vd va tys tyd rm m fn la) : part (Machine.wvtWord op vd va tys tyd rm m fn la) 28 4 = la := by
  unfold part Machine.wvtWord; unfold wvtFits at h; omega

theorem wvt_lt {op vd va tys tyd rm m fn la : Nat} (h : wvtFits op vd va tys tyd rm m fn la) : Machine.wvtWord op vd va tys tyd rm m fn la < 2 ^ 32 := by
  unfold Machine.wvtWord; unfold wvtFits at h; omega

theorem wvt_odd (op vd va tys tyd rm m fn la : Nat) : Machine.wvtWord op vd va tys tyd rm m fn la % 2 = 1 := by
  unfold Machine.wvtWord; omega

/-- The fields of format WVX fit. -/
def wvxFits (op vd va x m ty fn la : Nat) : Prop := op < 2 ^ 6 ∧ vd < 2 ^ 4 ∧ va < 2 ^ 4 ∧ x < 2 ^ 5 ∧ m < 2 ^ 3 ∧ ty < 2 ^ 3 ∧ fn < 2 ^ 2 ∧ la < 2 ^ 4

theorem wvx_op {op vd va x m ty fn la : Nat} (h : wvxFits op vd va x m ty fn la) : part (Machine.wvxWord op vd va x m ty fn la) 1 6 = op := by
  unfold part Machine.wvxWord; unfold wvxFits at h; omega

theorem wvx_vd {op vd va x m ty fn la : Nat} (h : wvxFits op vd va x m ty fn la) : part (Machine.wvxWord op vd va x m ty fn la) 7 4 = vd := by
  unfold part Machine.wvxWord; unfold wvxFits at h; omega

theorem wvx_va {op vd va x m ty fn la : Nat} (h : wvxFits op vd va x m ty fn la) : part (Machine.wvxWord op vd va x m ty fn la) 11 4 = va := by
  unfold part Machine.wvxWord; unfold wvxFits at h; omega

theorem wvx_x {op vd va x m ty fn la : Nat} (h : wvxFits op vd va x m ty fn la) : part (Machine.wvxWord op vd va x m ty fn la) 15 5 = x := by
  unfold part Machine.wvxWord; unfold wvxFits at h; omega

theorem wvx_m {op vd va x m ty fn la : Nat} (h : wvxFits op vd va x m ty fn la) : part (Machine.wvxWord op vd va x m ty fn la) 20 3 = m := by
  unfold part Machine.wvxWord; unfold wvxFits at h; omega

theorem wvx_ty {op vd va x m ty fn la : Nat} (h : wvxFits op vd va x m ty fn la) : part (Machine.wvxWord op vd va x m ty fn la) 23 3 = ty := by
  unfold part Machine.wvxWord; unfold wvxFits at h; omega

theorem wvx_fn {op vd va x m ty fn la : Nat} (h : wvxFits op vd va x m ty fn la) : part (Machine.wvxWord op vd va x m ty fn la) 26 2 = fn := by
  unfold part Machine.wvxWord; unfold wvxFits at h; omega

theorem wvx_la {op vd va x m ty fn la : Nat} (h : wvxFits op vd va x m ty fn la) : part (Machine.wvxWord op vd va x m ty fn la) 28 4 = la := by
  unfold part Machine.wvxWord; unfold wvxFits at h; omega

theorem wvx_lt {op vd va x m ty fn la : Nat} (h : wvxFits op vd va x m ty fn la) : Machine.wvxWord op vd va x m ty fn la < 2 ^ 32 := by
  unfold Machine.wvxWord; unfold wvxFits at h; omega

theorem wvx_odd (op vd va x m ty fn la : Nat) : Machine.wvxWord op vd va x m ty fn la % 2 = 1 := by
  unfold Machine.wvxWord; omega

theorem add (d a b : Reg) : Statement (Instr.add d a b) := by
  have ok : wrFits 0x1 d.toNat a.toNat b.toNat 0 0 := ⟨by decide, d.isLt, a.isLt, b.isLt, by decide, by decide⟩
  obtain ⟨wd, hw⟩ : ∃ wd, wd = Machine.wrWord 0x1 d.toNat a.toNat b.toNat 0 0 := ⟨_, rfl⟩
  have e : Instr.encode (Instr.add d a b) = wd := hw.symm ▸ rfl
  refine four e (hw ▸ wr_lt ok) (hw ▸ wr_odd ..) ?_
  have m1 : part wd 1 6 = 1 := hw ▸ wr_op ok
  have m2 : part wd 22 6 = 0 := hw ▸ wr_fn ok
  have e0 : at_ wd 7 5 = d := at_eq (hw ▸ wr_d ok)
  have e1 : at_ wd 12 5 = a := at_eq (hw ▸ wr_a ok)
  have e2 : at_ wd 17 5 = b := at_eq (hw ▸ wr_b ok)
  have z0 : part wd 28 4 = 0 := hw ▸ wr_xf ok
  unfold decodeRow32; rw [m1]
  show decAlu wd = _; unfold decAlu; rw [m2]
  show zeroed (part wd 28 4) (Instr.add (at_ wd 7 5) (at_ wd 12 5) (at_ wd 17 5)) = _
  rw [z0]
  show (some (Instr.add (at_ wd 7 5) (at_ wd 12 5) (at_ wd 17 5)) : Option Instr) = _
  rw [e0, e1, e2]

theorem sub (d a b : Reg) : Statement (Instr.sub d a b) := by
  have ok : wrFits 0x1 d.toNat a.toNat b.toNat 1 0 := ⟨by decide, d.isLt, a.isLt, b.isLt, by decide, by decide⟩
  obtain ⟨wd, hw⟩ : ∃ wd, wd = Machine.wrWord 0x1 d.toNat a.toNat b.toNat 1 0 := ⟨_, rfl⟩
  have e : Instr.encode (Instr.sub d a b) = wd := hw.symm ▸ rfl
  refine four e (hw ▸ wr_lt ok) (hw ▸ wr_odd ..) ?_
  have m1 : part wd 1 6 = 1 := hw ▸ wr_op ok
  have m2 : part wd 22 6 = 1 := hw ▸ wr_fn ok
  have e0 : at_ wd 7 5 = d := at_eq (hw ▸ wr_d ok)
  have e1 : at_ wd 12 5 = a := at_eq (hw ▸ wr_a ok)
  have e2 : at_ wd 17 5 = b := at_eq (hw ▸ wr_b ok)
  have z0 : part wd 28 4 = 0 := hw ▸ wr_xf ok
  unfold decodeRow32; rw [m1]
  show decAlu wd = _; unfold decAlu; rw [m2]
  show zeroed (part wd 28 4) (Instr.sub (at_ wd 7 5) (at_ wd 12 5) (at_ wd 17 5)) = _
  rw [z0]
  show (some (Instr.sub (at_ wd 7 5) (at_ wd 12 5) (at_ wd 17 5)) : Option Instr) = _
  rw [e0, e1, e2]

theorem and_ (d a b : Reg) : Statement (Instr.and_ d a b) := by
  have ok : wrFits 0x1 d.toNat a.toNat b.toNat 2 0 := ⟨by decide, d.isLt, a.isLt, b.isLt, by decide, by decide⟩
  obtain ⟨wd, hw⟩ : ∃ wd, wd = Machine.wrWord 0x1 d.toNat a.toNat b.toNat 2 0 := ⟨_, rfl⟩
  have e : Instr.encode (Instr.and_ d a b) = wd := hw.symm ▸ rfl
  refine four e (hw ▸ wr_lt ok) (hw ▸ wr_odd ..) ?_
  have m1 : part wd 1 6 = 1 := hw ▸ wr_op ok
  have m2 : part wd 22 6 = 2 := hw ▸ wr_fn ok
  have e0 : at_ wd 7 5 = d := at_eq (hw ▸ wr_d ok)
  have e1 : at_ wd 12 5 = a := at_eq (hw ▸ wr_a ok)
  have e2 : at_ wd 17 5 = b := at_eq (hw ▸ wr_b ok)
  have z0 : part wd 28 4 = 0 := hw ▸ wr_xf ok
  unfold decodeRow32; rw [m1]
  show decAlu wd = _; unfold decAlu; rw [m2]
  show zeroed (part wd 28 4) (Instr.and_ (at_ wd 7 5) (at_ wd 12 5) (at_ wd 17 5)) = _
  rw [z0]
  show (some (Instr.and_ (at_ wd 7 5) (at_ wd 12 5) (at_ wd 17 5)) : Option Instr) = _
  rw [e0, e1, e2]

theorem or_ (d a b : Reg) : Statement (Instr.or_ d a b) := by
  have ok : wrFits 0x1 d.toNat a.toNat b.toNat 3 0 := ⟨by decide, d.isLt, a.isLt, b.isLt, by decide, by decide⟩
  obtain ⟨wd, hw⟩ : ∃ wd, wd = Machine.wrWord 0x1 d.toNat a.toNat b.toNat 3 0 := ⟨_, rfl⟩
  have e : Instr.encode (Instr.or_ d a b) = wd := hw.symm ▸ rfl
  refine four e (hw ▸ wr_lt ok) (hw ▸ wr_odd ..) ?_
  have m1 : part wd 1 6 = 1 := hw ▸ wr_op ok
  have m2 : part wd 22 6 = 3 := hw ▸ wr_fn ok
  have e0 : at_ wd 7 5 = d := at_eq (hw ▸ wr_d ok)
  have e1 : at_ wd 12 5 = a := at_eq (hw ▸ wr_a ok)
  have e2 : at_ wd 17 5 = b := at_eq (hw ▸ wr_b ok)
  have z0 : part wd 28 4 = 0 := hw ▸ wr_xf ok
  unfold decodeRow32; rw [m1]
  show decAlu wd = _; unfold decAlu; rw [m2]
  show zeroed (part wd 28 4) (Instr.or_ (at_ wd 7 5) (at_ wd 12 5) (at_ wd 17 5)) = _
  rw [z0]
  show (some (Instr.or_ (at_ wd 7 5) (at_ wd 12 5) (at_ wd 17 5)) : Option Instr) = _
  rw [e0, e1, e2]

theorem xor_ (d a b : Reg) : Statement (Instr.xor_ d a b) := by
  have ok : wrFits 0x1 d.toNat a.toNat b.toNat 4 0 := ⟨by decide, d.isLt, a.isLt, b.isLt, by decide, by decide⟩
  obtain ⟨wd, hw⟩ : ∃ wd, wd = Machine.wrWord 0x1 d.toNat a.toNat b.toNat 4 0 := ⟨_, rfl⟩
  have e : Instr.encode (Instr.xor_ d a b) = wd := hw.symm ▸ rfl
  refine four e (hw ▸ wr_lt ok) (hw ▸ wr_odd ..) ?_
  have m1 : part wd 1 6 = 1 := hw ▸ wr_op ok
  have m2 : part wd 22 6 = 4 := hw ▸ wr_fn ok
  have e0 : at_ wd 7 5 = d := at_eq (hw ▸ wr_d ok)
  have e1 : at_ wd 12 5 = a := at_eq (hw ▸ wr_a ok)
  have e2 : at_ wd 17 5 = b := at_eq (hw ▸ wr_b ok)
  have z0 : part wd 28 4 = 0 := hw ▸ wr_xf ok
  unfold decodeRow32; rw [m1]
  show decAlu wd = _; unfold decAlu; rw [m2]
  show zeroed (part wd 28 4) (Instr.xor_ (at_ wd 7 5) (at_ wd 12 5) (at_ wd 17 5)) = _
  rw [z0]
  show (some (Instr.xor_ (at_ wd 7 5) (at_ wd 12 5) (at_ wd 17 5)) : Option Instr) = _
  rw [e0, e1, e2]

theorem andn (d a b : Reg) : Statement (Instr.andn d a b) := by
  have ok : wrFits 0x1 d.toNat a.toNat b.toNat 5 0 := ⟨by decide, d.isLt, a.isLt, b.isLt, by decide, by decide⟩
  obtain ⟨wd, hw⟩ : ∃ wd, wd = Machine.wrWord 0x1 d.toNat a.toNat b.toNat 5 0 := ⟨_, rfl⟩
  have e : Instr.encode (Instr.andn d a b) = wd := hw.symm ▸ rfl
  refine four e (hw ▸ wr_lt ok) (hw ▸ wr_odd ..) ?_
  have m1 : part wd 1 6 = 1 := hw ▸ wr_op ok
  have m2 : part wd 22 6 = 5 := hw ▸ wr_fn ok
  have e0 : at_ wd 7 5 = d := at_eq (hw ▸ wr_d ok)
  have e1 : at_ wd 12 5 = a := at_eq (hw ▸ wr_a ok)
  have e2 : at_ wd 17 5 = b := at_eq (hw ▸ wr_b ok)
  have z0 : part wd 28 4 = 0 := hw ▸ wr_xf ok
  unfold decodeRow32; rw [m1]
  show decAlu wd = _; unfold decAlu; rw [m2]
  show zeroed (part wd 28 4) (Instr.andn (at_ wd 7 5) (at_ wd 12 5) (at_ wd 17 5)) = _
  rw [z0]
  show (some (Instr.andn (at_ wd 7 5) (at_ wd 12 5) (at_ wd 17 5)) : Option Instr) = _
  rw [e0, e1, e2]

theorem orn (d a b : Reg) : Statement (Instr.orn d a b) := by
  have ok : wrFits 0x1 d.toNat a.toNat b.toNat 6 0 := ⟨by decide, d.isLt, a.isLt, b.isLt, by decide, by decide⟩
  obtain ⟨wd, hw⟩ : ∃ wd, wd = Machine.wrWord 0x1 d.toNat a.toNat b.toNat 6 0 := ⟨_, rfl⟩
  have e : Instr.encode (Instr.orn d a b) = wd := hw.symm ▸ rfl
  refine four e (hw ▸ wr_lt ok) (hw ▸ wr_odd ..) ?_
  have m1 : part wd 1 6 = 1 := hw ▸ wr_op ok
  have m2 : part wd 22 6 = 6 := hw ▸ wr_fn ok
  have e0 : at_ wd 7 5 = d := at_eq (hw ▸ wr_d ok)
  have e1 : at_ wd 12 5 = a := at_eq (hw ▸ wr_a ok)
  have e2 : at_ wd 17 5 = b := at_eq (hw ▸ wr_b ok)
  have z0 : part wd 28 4 = 0 := hw ▸ wr_xf ok
  unfold decodeRow32; rw [m1]
  show decAlu wd = _; unfold decAlu; rw [m2]
  show zeroed (part wd 28 4) (Instr.orn (at_ wd 7 5) (at_ wd 12 5) (at_ wd 17 5)) = _
  rw [z0]
  show (some (Instr.orn (at_ wd 7 5) (at_ wd 12 5) (at_ wd 17 5)) : Option Instr) = _
  rw [e0, e1, e2]

theorem xnor (d a b : Reg) : Statement (Instr.xnor d a b) := by
  have ok : wrFits 0x1 d.toNat a.toNat b.toNat 7 0 := ⟨by decide, d.isLt, a.isLt, b.isLt, by decide, by decide⟩
  obtain ⟨wd, hw⟩ : ∃ wd, wd = Machine.wrWord 0x1 d.toNat a.toNat b.toNat 7 0 := ⟨_, rfl⟩
  have e : Instr.encode (Instr.xnor d a b) = wd := hw.symm ▸ rfl
  refine four e (hw ▸ wr_lt ok) (hw ▸ wr_odd ..) ?_
  have m1 : part wd 1 6 = 1 := hw ▸ wr_op ok
  have m2 : part wd 22 6 = 7 := hw ▸ wr_fn ok
  have e0 : at_ wd 7 5 = d := at_eq (hw ▸ wr_d ok)
  have e1 : at_ wd 12 5 = a := at_eq (hw ▸ wr_a ok)
  have e2 : at_ wd 17 5 = b := at_eq (hw ▸ wr_b ok)
  have z0 : part wd 28 4 = 0 := hw ▸ wr_xf ok
  unfold decodeRow32; rw [m1]
  show decAlu wd = _; unfold decAlu; rw [m2]
  show zeroed (part wd 28 4) (Instr.xnor (at_ wd 7 5) (at_ wd 12 5) (at_ wd 17 5)) = _
  rw [z0]
  show (some (Instr.xnor (at_ wd 7 5) (at_ wd 12 5) (at_ wd 17 5)) : Option Instr) = _
  rw [e0, e1, e2]

theorem shl (d a b : Reg) : Statement (Instr.shl d a b) := by
  have ok : wrFits 0x1 d.toNat a.toNat b.toNat 8 0 := ⟨by decide, d.isLt, a.isLt, b.isLt, by decide, by decide⟩
  obtain ⟨wd, hw⟩ : ∃ wd, wd = Machine.wrWord 0x1 d.toNat a.toNat b.toNat 8 0 := ⟨_, rfl⟩
  have e : Instr.encode (Instr.shl d a b) = wd := hw.symm ▸ rfl
  refine four e (hw ▸ wr_lt ok) (hw ▸ wr_odd ..) ?_
  have m1 : part wd 1 6 = 1 := hw ▸ wr_op ok
  have m2 : part wd 22 6 = 8 := hw ▸ wr_fn ok
  have e0 : at_ wd 7 5 = d := at_eq (hw ▸ wr_d ok)
  have e1 : at_ wd 12 5 = a := at_eq (hw ▸ wr_a ok)
  have e2 : at_ wd 17 5 = b := at_eq (hw ▸ wr_b ok)
  have z0 : part wd 28 4 = 0 := hw ▸ wr_xf ok
  unfold decodeRow32; rw [m1]
  show decAlu wd = _; unfold decAlu; rw [m2]
  show zeroed (part wd 28 4) (Instr.shl (at_ wd 7 5) (at_ wd 12 5) (at_ wd 17 5)) = _
  rw [z0]
  show (some (Instr.shl (at_ wd 7 5) (at_ wd 12 5) (at_ wd 17 5)) : Option Instr) = _
  rw [e0, e1, e2]

theorem shr (d a b : Reg) : Statement (Instr.shr d a b) := by
  have ok : wrFits 0x1 d.toNat a.toNat b.toNat 9 0 := ⟨by decide, d.isLt, a.isLt, b.isLt, by decide, by decide⟩
  obtain ⟨wd, hw⟩ : ∃ wd, wd = Machine.wrWord 0x1 d.toNat a.toNat b.toNat 9 0 := ⟨_, rfl⟩
  have e : Instr.encode (Instr.shr d a b) = wd := hw.symm ▸ rfl
  refine four e (hw ▸ wr_lt ok) (hw ▸ wr_odd ..) ?_
  have m1 : part wd 1 6 = 1 := hw ▸ wr_op ok
  have m2 : part wd 22 6 = 9 := hw ▸ wr_fn ok
  have e0 : at_ wd 7 5 = d := at_eq (hw ▸ wr_d ok)
  have e1 : at_ wd 12 5 = a := at_eq (hw ▸ wr_a ok)
  have e2 : at_ wd 17 5 = b := at_eq (hw ▸ wr_b ok)
  have z0 : part wd 28 4 = 0 := hw ▸ wr_xf ok
  unfold decodeRow32; rw [m1]
  show decAlu wd = _; unfold decAlu; rw [m2]
  show zeroed (part wd 28 4) (Instr.shr (at_ wd 7 5) (at_ wd 12 5) (at_ wd 17 5)) = _
  rw [z0]
  show (some (Instr.shr (at_ wd 7 5) (at_ wd 12 5) (at_ wd 17 5)) : Option Instr) = _
  rw [e0, e1, e2]

theorem sra (d a b : Reg) : Statement (Instr.sra d a b) := by
  have ok : wrFits 0x1 d.toNat a.toNat b.toNat 10 0 := ⟨by decide, d.isLt, a.isLt, b.isLt, by decide, by decide⟩
  obtain ⟨wd, hw⟩ : ∃ wd, wd = Machine.wrWord 0x1 d.toNat a.toNat b.toNat 10 0 := ⟨_, rfl⟩
  have e : Instr.encode (Instr.sra d a b) = wd := hw.symm ▸ rfl
  refine four e (hw ▸ wr_lt ok) (hw ▸ wr_odd ..) ?_
  have m1 : part wd 1 6 = 1 := hw ▸ wr_op ok
  have m2 : part wd 22 6 = 10 := hw ▸ wr_fn ok
  have e0 : at_ wd 7 5 = d := at_eq (hw ▸ wr_d ok)
  have e1 : at_ wd 12 5 = a := at_eq (hw ▸ wr_a ok)
  have e2 : at_ wd 17 5 = b := at_eq (hw ▸ wr_b ok)
  have z0 : part wd 28 4 = 0 := hw ▸ wr_xf ok
  unfold decodeRow32; rw [m1]
  show decAlu wd = _; unfold decAlu; rw [m2]
  show zeroed (part wd 28 4) (Instr.sra (at_ wd 7 5) (at_ wd 12 5) (at_ wd 17 5)) = _
  rw [z0]
  show (some (Instr.sra (at_ wd 7 5) (at_ wd 12 5) (at_ wd 17 5)) : Option Instr) = _
  rw [e0, e1, e2]

theorem rol (d a b : Reg) : Statement (Instr.rol d a b) := by
  have ok : wrFits 0x1 d.toNat a.toNat b.toNat 11 0 := ⟨by decide, d.isLt, a.isLt, b.isLt, by decide, by decide⟩
  obtain ⟨wd, hw⟩ : ∃ wd, wd = Machine.wrWord 0x1 d.toNat a.toNat b.toNat 11 0 := ⟨_, rfl⟩
  have e : Instr.encode (Instr.rol d a b) = wd := hw.symm ▸ rfl
  refine four e (hw ▸ wr_lt ok) (hw ▸ wr_odd ..) ?_
  have m1 : part wd 1 6 = 1 := hw ▸ wr_op ok
  have m2 : part wd 22 6 = 11 := hw ▸ wr_fn ok
  have e0 : at_ wd 7 5 = d := at_eq (hw ▸ wr_d ok)
  have e1 : at_ wd 12 5 = a := at_eq (hw ▸ wr_a ok)
  have e2 : at_ wd 17 5 = b := at_eq (hw ▸ wr_b ok)
  have z0 : part wd 28 4 = 0 := hw ▸ wr_xf ok
  unfold decodeRow32; rw [m1]
  show decAlu wd = _; unfold decAlu; rw [m2]
  show zeroed (part wd 28 4) (Instr.rol (at_ wd 7 5) (at_ wd 12 5) (at_ wd 17 5)) = _
  rw [z0]
  show (some (Instr.rol (at_ wd 7 5) (at_ wd 12 5) (at_ wd 17 5)) : Option Instr) = _
  rw [e0, e1, e2]

theorem ror (d a b : Reg) : Statement (Instr.ror d a b) := by
  have ok : wrFits 0x1 d.toNat a.toNat b.toNat 12 0 := ⟨by decide, d.isLt, a.isLt, b.isLt, by decide, by decide⟩
  obtain ⟨wd, hw⟩ : ∃ wd, wd = Machine.wrWord 0x1 d.toNat a.toNat b.toNat 12 0 := ⟨_, rfl⟩
  have e : Instr.encode (Instr.ror d a b) = wd := hw.symm ▸ rfl
  refine four e (hw ▸ wr_lt ok) (hw ▸ wr_odd ..) ?_
  have m1 : part wd 1 6 = 1 := hw ▸ wr_op ok
  have m2 : part wd 22 6 = 12 := hw ▸ wr_fn ok
  have e0 : at_ wd 7 5 = d := at_eq (hw ▸ wr_d ok)
  have e1 : at_ wd 12 5 = a := at_eq (hw ▸ wr_a ok)
  have e2 : at_ wd 17 5 = b := at_eq (hw ▸ wr_b ok)
  have z0 : part wd 28 4 = 0 := hw ▸ wr_xf ok
  unfold decodeRow32; rw [m1]
  show decAlu wd = _; unfold decAlu; rw [m2]
  show zeroed (part wd 28 4) (Instr.ror (at_ wd 7 5) (at_ wd 12 5) (at_ wd 17 5)) = _
  rw [z0]
  show (some (Instr.ror (at_ wd 7 5) (at_ wd 12 5) (at_ wd 17 5)) : Option Instr) = _
  rw [e0, e1, e2]

theorem min (d a b : Reg) : Statement (Instr.min d a b) := by
  have ok : wrFits 0x1 d.toNat a.toNat b.toNat 13 0 := ⟨by decide, d.isLt, a.isLt, b.isLt, by decide, by decide⟩
  obtain ⟨wd, hw⟩ : ∃ wd, wd = Machine.wrWord 0x1 d.toNat a.toNat b.toNat 13 0 := ⟨_, rfl⟩
  have e : Instr.encode (Instr.min d a b) = wd := hw.symm ▸ rfl
  refine four e (hw ▸ wr_lt ok) (hw ▸ wr_odd ..) ?_
  have m1 : part wd 1 6 = 1 := hw ▸ wr_op ok
  have m2 : part wd 22 6 = 13 := hw ▸ wr_fn ok
  have e0 : at_ wd 7 5 = d := at_eq (hw ▸ wr_d ok)
  have e1 : at_ wd 12 5 = a := at_eq (hw ▸ wr_a ok)
  have e2 : at_ wd 17 5 = b := at_eq (hw ▸ wr_b ok)
  have z0 : part wd 28 4 = 0 := hw ▸ wr_xf ok
  unfold decodeRow32; rw [m1]
  show decAlu wd = _; unfold decAlu; rw [m2]
  show zeroed (part wd 28 4) (Instr.min (at_ wd 7 5) (at_ wd 12 5) (at_ wd 17 5)) = _
  rw [z0]
  show (some (Instr.min (at_ wd 7 5) (at_ wd 12 5) (at_ wd 17 5)) : Option Instr) = _
  rw [e0, e1, e2]

theorem max (d a b : Reg) : Statement (Instr.max d a b) := by
  have ok : wrFits 0x1 d.toNat a.toNat b.toNat 14 0 := ⟨by decide, d.isLt, a.isLt, b.isLt, by decide, by decide⟩
  obtain ⟨wd, hw⟩ : ∃ wd, wd = Machine.wrWord 0x1 d.toNat a.toNat b.toNat 14 0 := ⟨_, rfl⟩
  have e : Instr.encode (Instr.max d a b) = wd := hw.symm ▸ rfl
  refine four e (hw ▸ wr_lt ok) (hw ▸ wr_odd ..) ?_
  have m1 : part wd 1 6 = 1 := hw ▸ wr_op ok
  have m2 : part wd 22 6 = 14 := hw ▸ wr_fn ok
  have e0 : at_ wd 7 5 = d := at_eq (hw ▸ wr_d ok)
  have e1 : at_ wd 12 5 = a := at_eq (hw ▸ wr_a ok)
  have e2 : at_ wd 17 5 = b := at_eq (hw ▸ wr_b ok)
  have z0 : part wd 28 4 = 0 := hw ▸ wr_xf ok
  unfold decodeRow32; rw [m1]
  show decAlu wd = _; unfold decAlu; rw [m2]
  show zeroed (part wd 28 4) (Instr.max (at_ wd 7 5) (at_ wd 12 5) (at_ wd 17 5)) = _
  rw [z0]
  show (some (Instr.max (at_ wd 7 5) (at_ wd 12 5) (at_ wd 17 5)) : Option Instr) = _
  rw [e0, e1, e2]

theorem minn (d a b : Reg) : Statement (Instr.minn d a b) := by
  have ok : wrFits 0x1 d.toNat a.toNat b.toNat 15 0 := ⟨by decide, d.isLt, a.isLt, b.isLt, by decide, by decide⟩
  obtain ⟨wd, hw⟩ : ∃ wd, wd = Machine.wrWord 0x1 d.toNat a.toNat b.toNat 15 0 := ⟨_, rfl⟩
  have e : Instr.encode (Instr.minn d a b) = wd := hw.symm ▸ rfl
  refine four e (hw ▸ wr_lt ok) (hw ▸ wr_odd ..) ?_
  have m1 : part wd 1 6 = 1 := hw ▸ wr_op ok
  have m2 : part wd 22 6 = 15 := hw ▸ wr_fn ok
  have e0 : at_ wd 7 5 = d := at_eq (hw ▸ wr_d ok)
  have e1 : at_ wd 12 5 = a := at_eq (hw ▸ wr_a ok)
  have e2 : at_ wd 17 5 = b := at_eq (hw ▸ wr_b ok)
  have z0 : part wd 28 4 = 0 := hw ▸ wr_xf ok
  unfold decodeRow32; rw [m1]
  show decAlu wd = _; unfold decAlu; rw [m2]
  show zeroed (part wd 28 4) (Instr.minn (at_ wd 7 5) (at_ wd 12 5) (at_ wd 17 5)) = _
  rw [z0]
  show (some (Instr.minn (at_ wd 7 5) (at_ wd 12 5) (at_ wd 17 5)) : Option Instr) = _
  rw [e0, e1, e2]

theorem maxn (d a b : Reg) : Statement (Instr.maxn d a b) := by
  have ok : wrFits 0x1 d.toNat a.toNat b.toNat 16 0 := ⟨by decide, d.isLt, a.isLt, b.isLt, by decide, by decide⟩
  obtain ⟨wd, hw⟩ : ∃ wd, wd = Machine.wrWord 0x1 d.toNat a.toNat b.toNat 16 0 := ⟨_, rfl⟩
  have e : Instr.encode (Instr.maxn d a b) = wd := hw.symm ▸ rfl
  refine four e (hw ▸ wr_lt ok) (hw ▸ wr_odd ..) ?_
  have m1 : part wd 1 6 = 1 := hw ▸ wr_op ok
  have m2 : part wd 22 6 = 16 := hw ▸ wr_fn ok
  have e0 : at_ wd 7 5 = d := at_eq (hw ▸ wr_d ok)
  have e1 : at_ wd 12 5 = a := at_eq (hw ▸ wr_a ok)
  have e2 : at_ wd 17 5 = b := at_eq (hw ▸ wr_b ok)
  have z0 : part wd 28 4 = 0 := hw ▸ wr_xf ok
  unfold decodeRow32; rw [m1]
  show decAlu wd = _; unfold decAlu; rw [m2]
  show zeroed (part wd 28 4) (Instr.maxn (at_ wd 7 5) (at_ wd 12 5) (at_ wd 17 5)) = _
  rw [z0]
  show (some (Instr.maxn (at_ wd 7 5) (at_ wd 12 5) (at_ wd 17 5)) : Option Instr) = _
  rw [e0, e1, e2]

theorem slt (d a b : Reg) : Statement (Instr.slt d a b) := by
  have ok : wrFits 0x1 d.toNat a.toNat b.toNat 17 0 := ⟨by decide, d.isLt, a.isLt, b.isLt, by decide, by decide⟩
  obtain ⟨wd, hw⟩ : ∃ wd, wd = Machine.wrWord 0x1 d.toNat a.toNat b.toNat 17 0 := ⟨_, rfl⟩
  have e : Instr.encode (Instr.slt d a b) = wd := hw.symm ▸ rfl
  refine four e (hw ▸ wr_lt ok) (hw ▸ wr_odd ..) ?_
  have m1 : part wd 1 6 = 1 := hw ▸ wr_op ok
  have m2 : part wd 22 6 = 17 := hw ▸ wr_fn ok
  have e0 : at_ wd 7 5 = d := at_eq (hw ▸ wr_d ok)
  have e1 : at_ wd 12 5 = a := at_eq (hw ▸ wr_a ok)
  have e2 : at_ wd 17 5 = b := at_eq (hw ▸ wr_b ok)
  have z0 : part wd 28 4 = 0 := hw ▸ wr_xf ok
  unfold decodeRow32; rw [m1]
  show decAlu wd = _; unfold decAlu; rw [m2]
  show zeroed (part wd 28 4) (Instr.slt (at_ wd 7 5) (at_ wd 12 5) (at_ wd 17 5)) = _
  rw [z0]
  show (some (Instr.slt (at_ wd 7 5) (at_ wd 12 5) (at_ wd 17 5)) : Option Instr) = _
  rw [e0, e1, e2]

theorem sltn (d a b : Reg) : Statement (Instr.sltn d a b) := by
  have ok : wrFits 0x1 d.toNat a.toNat b.toNat 18 0 := ⟨by decide, d.isLt, a.isLt, b.isLt, by decide, by decide⟩
  obtain ⟨wd, hw⟩ : ∃ wd, wd = Machine.wrWord 0x1 d.toNat a.toNat b.toNat 18 0 := ⟨_, rfl⟩
  have e : Instr.encode (Instr.sltn d a b) = wd := hw.symm ▸ rfl
  refine four e (hw ▸ wr_lt ok) (hw ▸ wr_odd ..) ?_
  have m1 : part wd 1 6 = 1 := hw ▸ wr_op ok
  have m2 : part wd 22 6 = 18 := hw ▸ wr_fn ok
  have e0 : at_ wd 7 5 = d := at_eq (hw ▸ wr_d ok)
  have e1 : at_ wd 12 5 = a := at_eq (hw ▸ wr_a ok)
  have e2 : at_ wd 17 5 = b := at_eq (hw ▸ wr_b ok)
  have z0 : part wd 28 4 = 0 := hw ▸ wr_xf ok
  unfold decodeRow32; rw [m1]
  show decAlu wd = _; unfold decAlu; rw [m2]
  show zeroed (part wd 28 4) (Instr.sltn (at_ wd 7 5) (at_ wd 12 5) (at_ wd 17 5)) = _
  rw [z0]
  show (some (Instr.sltn (at_ wd 7 5) (at_ wd 12 5) (at_ wd 17 5)) : Option Instr) = _
  rw [e0, e1, e2]

theorem seq (d a b : Reg) : Statement (Instr.seq d a b) := by
  have ok : wrFits 0x1 d.toNat a.toNat b.toNat 19 0 := ⟨by decide, d.isLt, a.isLt, b.isLt, by decide, by decide⟩
  obtain ⟨wd, hw⟩ : ∃ wd, wd = Machine.wrWord 0x1 d.toNat a.toNat b.toNat 19 0 := ⟨_, rfl⟩
  have e : Instr.encode (Instr.seq d a b) = wd := hw.symm ▸ rfl
  refine four e (hw ▸ wr_lt ok) (hw ▸ wr_odd ..) ?_
  have m1 : part wd 1 6 = 1 := hw ▸ wr_op ok
  have m2 : part wd 22 6 = 19 := hw ▸ wr_fn ok
  have e0 : at_ wd 7 5 = d := at_eq (hw ▸ wr_d ok)
  have e1 : at_ wd 12 5 = a := at_eq (hw ▸ wr_a ok)
  have e2 : at_ wd 17 5 = b := at_eq (hw ▸ wr_b ok)
  have z0 : part wd 28 4 = 0 := hw ▸ wr_xf ok
  unfold decodeRow32; rw [m1]
  show decAlu wd = _; unfold decAlu; rw [m2]
  show zeroed (part wd 28 4) (Instr.seq (at_ wd 7 5) (at_ wd 12 5) (at_ wd 17 5)) = _
  rw [z0]
  show (some (Instr.seq (at_ wd 7 5) (at_ wd 12 5) (at_ wd 17 5)) : Option Instr) = _
  rw [e0, e1, e2]

theorem sne (d a b : Reg) : Statement (Instr.sne d a b) := by
  have ok : wrFits 0x1 d.toNat a.toNat b.toNat 20 0 := ⟨by decide, d.isLt, a.isLt, b.isLt, by decide, by decide⟩
  obtain ⟨wd, hw⟩ : ∃ wd, wd = Machine.wrWord 0x1 d.toNat a.toNat b.toNat 20 0 := ⟨_, rfl⟩
  have e : Instr.encode (Instr.sne d a b) = wd := hw.symm ▸ rfl
  refine four e (hw ▸ wr_lt ok) (hw ▸ wr_odd ..) ?_
  have m1 : part wd 1 6 = 1 := hw ▸ wr_op ok
  have m2 : part wd 22 6 = 20 := hw ▸ wr_fn ok
  have e0 : at_ wd 7 5 = d := at_eq (hw ▸ wr_d ok)
  have e1 : at_ wd 12 5 = a := at_eq (hw ▸ wr_a ok)
  have e2 : at_ wd 17 5 = b := at_eq (hw ▸ wr_b ok)
  have z0 : part wd 28 4 = 0 := hw ▸ wr_xf ok
  unfold decodeRow32; rw [m1]
  show decAlu wd = _; unfold decAlu; rw [m2]
  show zeroed (part wd 28 4) (Instr.sne (at_ wd 7 5) (at_ wd 12 5) (at_ wd 17 5)) = _
  rw [z0]
  show (some (Instr.sne (at_ wd 7 5) (at_ wd 12 5) (at_ wd 17 5)) : Option Instr) = _
  rw [e0, e1, e2]

theorem clz (d a : Reg) : Statement (Instr.clz d a) := by
  have ok : wrFits 0x2 d.toNat a.toNat 0 0 0 := ⟨by decide, d.isLt, a.isLt, by decide, by decide, by decide⟩
  obtain ⟨wd, hw⟩ : ∃ wd, wd = Machine.wrWord 0x2 d.toNat a.toNat 0 0 0 := ⟨_, rfl⟩
  have e : Instr.encode (Instr.clz d a) = wd := hw.symm ▸ rfl
  refine four e (hw ▸ wr_lt ok) (hw ▸ wr_odd ..) ?_
  have m1 : part wd 1 6 = 2 := hw ▸ wr_op ok
  have m2 : part wd 22 6 = 0 := hw ▸ wr_fn ok
  have e0 : at_ wd 7 5 = d := at_eq (hw ▸ wr_d ok)
  have e1 : at_ wd 12 5 = a := at_eq (hw ▸ wr_a ok)
  have z0 : part wd 17 5 = 0 := hw ▸ wr_b ok
  have z1 : part wd 28 4 = 0 := hw ▸ wr_xf ok
  unfold decodeRow32; rw [m1]
  show decBits wd = _; unfold decBits; rw [m2]
  show zeroed (part wd 17 5 + part wd 28 4) (Instr.clz (at_ wd 7 5) (at_ wd 12 5)) = _
  rw [z0, z1]
  show (some (Instr.clz (at_ wd 7 5) (at_ wd 12 5)) : Option Instr) = _
  rw [e0, e1]

theorem ctz (d a : Reg) : Statement (Instr.ctz d a) := by
  have ok : wrFits 0x2 d.toNat a.toNat 0 1 0 := ⟨by decide, d.isLt, a.isLt, by decide, by decide, by decide⟩
  obtain ⟨wd, hw⟩ : ∃ wd, wd = Machine.wrWord 0x2 d.toNat a.toNat 0 1 0 := ⟨_, rfl⟩
  have e : Instr.encode (Instr.ctz d a) = wd := hw.symm ▸ rfl
  refine four e (hw ▸ wr_lt ok) (hw ▸ wr_odd ..) ?_
  have m1 : part wd 1 6 = 2 := hw ▸ wr_op ok
  have m2 : part wd 22 6 = 1 := hw ▸ wr_fn ok
  have e0 : at_ wd 7 5 = d := at_eq (hw ▸ wr_d ok)
  have e1 : at_ wd 12 5 = a := at_eq (hw ▸ wr_a ok)
  have z0 : part wd 17 5 = 0 := hw ▸ wr_b ok
  have z1 : part wd 28 4 = 0 := hw ▸ wr_xf ok
  unfold decodeRow32; rw [m1]
  show decBits wd = _; unfold decBits; rw [m2]
  show zeroed (part wd 17 5 + part wd 28 4) (Instr.ctz (at_ wd 7 5) (at_ wd 12 5)) = _
  rw [z0, z1]
  show (some (Instr.ctz (at_ wd 7 5) (at_ wd 12 5)) : Option Instr) = _
  rw [e0, e1]

theorem popc (d a : Reg) : Statement (Instr.popc d a) := by
  have ok : wrFits 0x2 d.toNat a.toNat 0 2 0 := ⟨by decide, d.isLt, a.isLt, by decide, by decide, by decide⟩
  obtain ⟨wd, hw⟩ : ∃ wd, wd = Machine.wrWord 0x2 d.toNat a.toNat 0 2 0 := ⟨_, rfl⟩
  have e : Instr.encode (Instr.popc d a) = wd := hw.symm ▸ rfl
  refine four e (hw ▸ wr_lt ok) (hw ▸ wr_odd ..) ?_
  have m1 : part wd 1 6 = 2 := hw ▸ wr_op ok
  have m2 : part wd 22 6 = 2 := hw ▸ wr_fn ok
  have e0 : at_ wd 7 5 = d := at_eq (hw ▸ wr_d ok)
  have e1 : at_ wd 12 5 = a := at_eq (hw ▸ wr_a ok)
  have z0 : part wd 17 5 = 0 := hw ▸ wr_b ok
  have z1 : part wd 28 4 = 0 := hw ▸ wr_xf ok
  unfold decodeRow32; rw [m1]
  show decBits wd = _; unfold decBits; rw [m2]
  show zeroed (part wd 17 5 + part wd 28 4) (Instr.popc (at_ wd 7 5) (at_ wd 12 5)) = _
  rw [z0, z1]
  show (some (Instr.popc (at_ wd 7 5) (at_ wd 12 5)) : Option Instr) = _
  rw [e0, e1]

theorem brev (d a : Reg) : Statement (Instr.brev d a) := by
  have ok : wrFits 0x2 d.toNat a.toNat 0 3 0 := ⟨by decide, d.isLt, a.isLt, by decide, by decide, by decide⟩
  obtain ⟨wd, hw⟩ : ∃ wd, wd = Machine.wrWord 0x2 d.toNat a.toNat 0 3 0 := ⟨_, rfl⟩
  have e : Instr.encode (Instr.brev d a) = wd := hw.symm ▸ rfl
  refine four e (hw ▸ wr_lt ok) (hw ▸ wr_odd ..) ?_
  have m1 : part wd 1 6 = 2 := hw ▸ wr_op ok
  have m2 : part wd 22 6 = 3 := hw ▸ wr_fn ok
  have e0 : at_ wd 7 5 = d := at_eq (hw ▸ wr_d ok)
  have e1 : at_ wd 12 5 = a := at_eq (hw ▸ wr_a ok)
  have z0 : part wd 17 5 = 0 := hw ▸ wr_b ok
  have z1 : part wd 28 4 = 0 := hw ▸ wr_xf ok
  unfold decodeRow32; rw [m1]
  show decBits wd = _; unfold decBits; rw [m2]
  show zeroed (part wd 17 5 + part wd 28 4) (Instr.brev (at_ wd 7 5) (at_ wd 12 5)) = _
  rw [z0, z1]
  show (some (Instr.brev (at_ wd 7 5) (at_ wd 12 5)) : Option Instr) = _
  rw [e0, e1]

theorem bswap (d a : Reg) : Statement (Instr.bswap d a) := by
  have ok : wrFits 0x2 d.toNat a.toNat 0 4 0 := ⟨by decide, d.isLt, a.isLt, by decide, by decide, by decide⟩
  obtain ⟨wd, hw⟩ : ∃ wd, wd = Machine.wrWord 0x2 d.toNat a.toNat 0 4 0 := ⟨_, rfl⟩
  have e : Instr.encode (Instr.bswap d a) = wd := hw.symm ▸ rfl
  refine four e (hw ▸ wr_lt ok) (hw ▸ wr_odd ..) ?_
  have m1 : part wd 1 6 = 2 := hw ▸ wr_op ok
  have m2 : part wd 22 6 = 4 := hw ▸ wr_fn ok
  have e0 : at_ wd 7 5 = d := at_eq (hw ▸ wr_d ok)
  have e1 : at_ wd 12 5 = a := at_eq (hw ▸ wr_a ok)
  have z0 : part wd 17 5 = 0 := hw ▸ wr_b ok
  have z1 : part wd 28 4 = 0 := hw ▸ wr_xf ok
  unfold decodeRow32; rw [m1]
  show decBits wd = _; unfold decBits; rw [m2]
  show zeroed (part wd 17 5 + part wd 28 4) (Instr.bswap (at_ wd 7 5) (at_ wd 12 5)) = _
  rw [z0, z1]
  show (some (Instr.bswap (at_ wd 7 5) (at_ wd 12 5)) : Option Instr) = _
  rw [e0, e1]

theorem sext (xf : BitVec 4) (d a : Reg) : Statement (Instr.sext xf d a) := by
  have ok : wrFits 0x2 d.toNat a.toNat 0 5 xf.toNat := ⟨by decide, d.isLt, a.isLt, by decide, by decide, xf.isLt⟩
  obtain ⟨wd, hw⟩ : ∃ wd, wd = Machine.wrWord 0x2 d.toNat a.toNat 0 5 xf.toNat := ⟨_, rfl⟩
  have e : Instr.encode (Instr.sext xf d a) = wd := hw.symm ▸ rfl
  refine four e (hw ▸ wr_lt ok) (hw ▸ wr_odd ..) ?_
  have m1 : part wd 1 6 = 2 := hw ▸ wr_op ok
  have m2 : part wd 22 6 = 5 := hw ▸ wr_fn ok
  have e0 : at_ wd 28 4 = xf := at_eq (hw ▸ wr_xf ok)
  have e1 : at_ wd 7 5 = d := at_eq (hw ▸ wr_d ok)
  have e2 : at_ wd 12 5 = a := at_eq (hw ▸ wr_a ok)
  have z0 : part wd 17 5 = 0 := hw ▸ wr_b ok
  unfold decodeRow32; rw [m1]
  show decBits wd = _; unfold decBits; rw [m2]
  show zeroed (part wd 17 5) (Instr.sext (at_ wd 28 4) (at_ wd 7 5) (at_ wd 12 5)) = _
  rw [z0]
  show (some (Instr.sext (at_ wd 28 4) (at_ wd 7 5) (at_ wd 12 5)) : Option Instr) = _
  rw [e0, e1, e2]

theorem zext (xf : BitVec 4) (d a : Reg) : Statement (Instr.zext xf d a) := by
  have ok : wrFits 0x2 d.toNat a.toNat 0 6 xf.toNat := ⟨by decide, d.isLt, a.isLt, by decide, by decide, xf.isLt⟩
  obtain ⟨wd, hw⟩ : ∃ wd, wd = Machine.wrWord 0x2 d.toNat a.toNat 0 6 xf.toNat := ⟨_, rfl⟩
  have e : Instr.encode (Instr.zext xf d a) = wd := hw.symm ▸ rfl
  refine four e (hw ▸ wr_lt ok) (hw ▸ wr_odd ..) ?_
  have m1 : part wd 1 6 = 2 := hw ▸ wr_op ok
  have m2 : part wd 22 6 = 6 := hw ▸ wr_fn ok
  have e0 : at_ wd 28 4 = xf := at_eq (hw ▸ wr_xf ok)
  have e1 : at_ wd 7 5 = d := at_eq (hw ▸ wr_d ok)
  have e2 : at_ wd 12 5 = a := at_eq (hw ▸ wr_a ok)
  have z0 : part wd 17 5 = 0 := hw ▸ wr_b ok
  unfold decodeRow32; rw [m1]
  show decBits wd = _; unfold decBits; rw [m2]
  show zeroed (part wd 17 5) (Instr.zext (at_ wd 28 4) (at_ wd 7 5) (at_ wd 12 5)) = _
  rw [z0]
  show (some (Instr.zext (at_ wd 28 4) (at_ wd 7 5) (at_ wd 12 5)) : Option Instr) = _
  rw [e0, e1, e2]

theorem mul (la : BitVec 4) (d a b : Reg) : Statement (Instr.mul la d a b) := by
  have ok : wrFits 0x3 d.toNat a.toNat b.toNat 0 la.toNat := ⟨by decide, d.isLt, a.isLt, b.isLt, by decide, la.isLt⟩
  obtain ⟨wd, hw⟩ : ∃ wd, wd = Machine.wrWord 0x3 d.toNat a.toNat b.toNat 0 la.toNat := ⟨_, rfl⟩
  have e : Instr.encode (Instr.mul la d a b) = wd := hw.symm ▸ rfl
  refine four e (hw ▸ wr_lt ok) (hw ▸ wr_odd ..) ?_
  have m1 : part wd 1 6 = 3 := hw ▸ wr_op ok
  have m2 : part wd 22 6 = 0 := hw ▸ wr_fn ok
  have e0 : at_ wd 28 4 = la := at_eq (hw ▸ wr_xf ok)
  have e1 : at_ wd 7 5 = d := at_eq (hw ▸ wr_d ok)
  have e2 : at_ wd 12 5 = a := at_eq (hw ▸ wr_a ok)
  have e3 : at_ wd 17 5 = b := at_eq (hw ▸ wr_b ok)
  unfold decodeRow32; rw [m1]
  show decMulDiv wd = _; unfold decMulDiv; rw [m2]
  show (some (Instr.mul (at_ wd 28 4) (at_ wd 7 5) (at_ wd 12 5) (at_ wd 17 5)) : Option Instr) = _
  rw [e0, e1, e2, e3]

theorem mulh (la : BitVec 4) (d a b : Reg) : Statement (Instr.mulh la d a b) := by
  have ok : wrFits 0x3 d.toNat a.toNat b.toNat 1 la.toNat := ⟨by decide, d.isLt, a.isLt, b.isLt, by decide, la.isLt⟩
  obtain ⟨wd, hw⟩ : ∃ wd, wd = Machine.wrWord 0x3 d.toNat a.toNat b.toNat 1 la.toNat := ⟨_, rfl⟩
  have e : Instr.encode (Instr.mulh la d a b) = wd := hw.symm ▸ rfl
  refine four e (hw ▸ wr_lt ok) (hw ▸ wr_odd ..) ?_
  have m1 : part wd 1 6 = 3 := hw ▸ wr_op ok
  have m2 : part wd 22 6 = 1 := hw ▸ wr_fn ok
  have e0 : at_ wd 28 4 = la := at_eq (hw ▸ wr_xf ok)
  have e1 : at_ wd 7 5 = d := at_eq (hw ▸ wr_d ok)
  have e2 : at_ wd 12 5 = a := at_eq (hw ▸ wr_a ok)
  have e3 : at_ wd 17 5 = b := at_eq (hw ▸ wr_b ok)
  unfold decodeRow32; rw [m1]
  show decMulDiv wd = _; unfold decMulDiv; rw [m2]
  show (some (Instr.mulh (at_ wd 28 4) (at_ wd 7 5) (at_ wd 12 5) (at_ wd 17 5)) : Option Instr) = _
  rw [e0, e1, e2, e3]

theorem mulhn (la : BitVec 4) (d a b : Reg) : Statement (Instr.mulhn la d a b) := by
  have ok : wrFits 0x3 d.toNat a.toNat b.toNat 2 la.toNat := ⟨by decide, d.isLt, a.isLt, b.isLt, by decide, la.isLt⟩
  obtain ⟨wd, hw⟩ : ∃ wd, wd = Machine.wrWord 0x3 d.toNat a.toNat b.toNat 2 la.toNat := ⟨_, rfl⟩
  have e : Instr.encode (Instr.mulhn la d a b) = wd := hw.symm ▸ rfl
  refine four e (hw ▸ wr_lt ok) (hw ▸ wr_odd ..) ?_
  have m1 : part wd 1 6 = 3 := hw ▸ wr_op ok
  have m2 : part wd 22 6 = 2 := hw ▸ wr_fn ok
  have e0 : at_ wd 28 4 = la := at_eq (hw ▸ wr_xf ok)
  have e1 : at_ wd 7 5 = d := at_eq (hw ▸ wr_d ok)
  have e2 : at_ wd 12 5 = a := at_eq (hw ▸ wr_a ok)
  have e3 : at_ wd 17 5 = b := at_eq (hw ▸ wr_b ok)
  unfold decodeRow32; rw [m1]
  show decMulDiv wd = _; unfold decMulDiv; rw [m2]
  show (some (Instr.mulhn (at_ wd 28 4) (at_ wd 7 5) (at_ wd 12 5) (at_ wd 17 5)) : Option Instr) = _
  rw [e0, e1, e2, e3]

theorem div (la : BitVec 4) (d a b : Reg) : Statement (Instr.div la d a b) := by
  have ok : wrFits 0x3 d.toNat a.toNat b.toNat 3 la.toNat := ⟨by decide, d.isLt, a.isLt, b.isLt, by decide, la.isLt⟩
  obtain ⟨wd, hw⟩ : ∃ wd, wd = Machine.wrWord 0x3 d.toNat a.toNat b.toNat 3 la.toNat := ⟨_, rfl⟩
  have e : Instr.encode (Instr.div la d a b) = wd := hw.symm ▸ rfl
  refine four e (hw ▸ wr_lt ok) (hw ▸ wr_odd ..) ?_
  have m1 : part wd 1 6 = 3 := hw ▸ wr_op ok
  have m2 : part wd 22 6 = 3 := hw ▸ wr_fn ok
  have e0 : at_ wd 28 4 = la := at_eq (hw ▸ wr_xf ok)
  have e1 : at_ wd 7 5 = d := at_eq (hw ▸ wr_d ok)
  have e2 : at_ wd 12 5 = a := at_eq (hw ▸ wr_a ok)
  have e3 : at_ wd 17 5 = b := at_eq (hw ▸ wr_b ok)
  unfold decodeRow32; rw [m1]
  show decMulDiv wd = _; unfold decMulDiv; rw [m2]
  show (some (Instr.div (at_ wd 28 4) (at_ wd 7 5) (at_ wd 12 5) (at_ wd 17 5)) : Option Instr) = _
  rw [e0, e1, e2, e3]

theorem divn (la : BitVec 4) (d a b : Reg) : Statement (Instr.divn la d a b) := by
  have ok : wrFits 0x3 d.toNat a.toNat b.toNat 4 la.toNat := ⟨by decide, d.isLt, a.isLt, b.isLt, by decide, la.isLt⟩
  obtain ⟨wd, hw⟩ : ∃ wd, wd = Machine.wrWord 0x3 d.toNat a.toNat b.toNat 4 la.toNat := ⟨_, rfl⟩
  have e : Instr.encode (Instr.divn la d a b) = wd := hw.symm ▸ rfl
  refine four e (hw ▸ wr_lt ok) (hw ▸ wr_odd ..) ?_
  have m1 : part wd 1 6 = 3 := hw ▸ wr_op ok
  have m2 : part wd 22 6 = 4 := hw ▸ wr_fn ok
  have e0 : at_ wd 28 4 = la := at_eq (hw ▸ wr_xf ok)
  have e1 : at_ wd 7 5 = d := at_eq (hw ▸ wr_d ok)
  have e2 : at_ wd 12 5 = a := at_eq (hw ▸ wr_a ok)
  have e3 : at_ wd 17 5 = b := at_eq (hw ▸ wr_b ok)
  unfold decodeRow32; rw [m1]
  show decMulDiv wd = _; unfold decMulDiv; rw [m2]
  show (some (Instr.divn (at_ wd 28 4) (at_ wd 7 5) (at_ wd 12 5) (at_ wd 17 5)) : Option Instr) = _
  rw [e0, e1, e2, e3]

theorem rem (la : BitVec 4) (d a b : Reg) : Statement (Instr.rem la d a b) := by
  have ok : wrFits 0x3 d.toNat a.toNat b.toNat 5 la.toNat := ⟨by decide, d.isLt, a.isLt, b.isLt, by decide, la.isLt⟩
  obtain ⟨wd, hw⟩ : ∃ wd, wd = Machine.wrWord 0x3 d.toNat a.toNat b.toNat 5 la.toNat := ⟨_, rfl⟩
  have e : Instr.encode (Instr.rem la d a b) = wd := hw.symm ▸ rfl
  refine four e (hw ▸ wr_lt ok) (hw ▸ wr_odd ..) ?_
  have m1 : part wd 1 6 = 3 := hw ▸ wr_op ok
  have m2 : part wd 22 6 = 5 := hw ▸ wr_fn ok
  have e0 : at_ wd 28 4 = la := at_eq (hw ▸ wr_xf ok)
  have e1 : at_ wd 7 5 = d := at_eq (hw ▸ wr_d ok)
  have e2 : at_ wd 12 5 = a := at_eq (hw ▸ wr_a ok)
  have e3 : at_ wd 17 5 = b := at_eq (hw ▸ wr_b ok)
  unfold decodeRow32; rw [m1]
  show decMulDiv wd = _; unfold decMulDiv; rw [m2]
  show (some (Instr.rem (at_ wd 28 4) (at_ wd 7 5) (at_ wd 12 5) (at_ wd 17 5)) : Option Instr) = _
  rw [e0, e1, e2, e3]

theorem remn (la : BitVec 4) (d a b : Reg) : Statement (Instr.remn la d a b) := by
  have ok : wrFits 0x3 d.toNat a.toNat b.toNat 6 la.toNat := ⟨by decide, d.isLt, a.isLt, b.isLt, by decide, la.isLt⟩
  obtain ⟨wd, hw⟩ : ∃ wd, wd = Machine.wrWord 0x3 d.toNat a.toNat b.toNat 6 la.toNat := ⟨_, rfl⟩
  have e : Instr.encode (Instr.remn la d a b) = wd := hw.symm ▸ rfl
  refine four e (hw ▸ wr_lt ok) (hw ▸ wr_odd ..) ?_
  have m1 : part wd 1 6 = 3 := hw ▸ wr_op ok
  have m2 : part wd 22 6 = 6 := hw ▸ wr_fn ok
  have e0 : at_ wd 28 4 = la := at_eq (hw ▸ wr_xf ok)
  have e1 : at_ wd 7 5 = d := at_eq (hw ▸ wr_d ok)
  have e2 : at_ wd 12 5 = a := at_eq (hw ▸ wr_a ok)
  have e3 : at_ wd 17 5 = b := at_eq (hw ▸ wr_b ok)
  unfold decodeRow32; rw [m1]
  show decMulDiv wd = _; unfold decMulDiv; rw [m2]
  show (some (Instr.remn (at_ wd 28 4) (at_ wd 7 5) (at_ wd 12 5) (at_ wd 17 5)) : Option Instr) = _
  rw [e0, e1, e2, e3]

theorem clmul (la : BitVec 4) (d a b : Reg) : Statement (Instr.clmul la d a b) := by
  have ok : wrFits 0x3 d.toNat a.toNat b.toNat 7 la.toNat := ⟨by decide, d.isLt, a.isLt, b.isLt, by decide, la.isLt⟩
  obtain ⟨wd, hw⟩ : ∃ wd, wd = Machine.wrWord 0x3 d.toNat a.toNat b.toNat 7 la.toNat := ⟨_, rfl⟩
  have e : Instr.encode (Instr.clmul la d a b) = wd := hw.symm ▸ rfl
  refine four e (hw ▸ wr_lt ok) (hw ▸ wr_odd ..) ?_
  have m1 : part wd 1 6 = 3 := hw ▸ wr_op ok
  have m2 : part wd 22 6 = 7 := hw ▸ wr_fn ok
  have e0 : at_ wd 28 4 = la := at_eq (hw ▸ wr_xf ok)
  have e1 : at_ wd 7 5 = d := at_eq (hw ▸ wr_d ok)
  have e2 : at_ wd 12 5 = a := at_eq (hw ▸ wr_a ok)
  have e3 : at_ wd 17 5 = b := at_eq (hw ▸ wr_b ok)
  unfold decodeRow32; rw [m1]
  show decMulDiv wd = _; unfold decMulDiv; rw [m2]
  show (some (Instr.clmul (at_ wd 28 4) (at_ wd 7 5) (at_ wd 12 5) (at_ wd 17 5)) : Option Instr) = _
  rw [e0, e1, e2, e3]

theorem clmulh (la : BitVec 4) (d a b : Reg) : Statement (Instr.clmulh la d a b) := by
  have ok : wrFits 0x3 d.toNat a.toNat b.toNat 8 la.toNat := ⟨by decide, d.isLt, a.isLt, b.isLt, by decide, la.isLt⟩
  obtain ⟨wd, hw⟩ : ∃ wd, wd = Machine.wrWord 0x3 d.toNat a.toNat b.toNat 8 la.toNat := ⟨_, rfl⟩
  have e : Instr.encode (Instr.clmulh la d a b) = wd := hw.symm ▸ rfl
  refine four e (hw ▸ wr_lt ok) (hw ▸ wr_odd ..) ?_
  have m1 : part wd 1 6 = 3 := hw ▸ wr_op ok
  have m2 : part wd 22 6 = 8 := hw ▸ wr_fn ok
  have e0 : at_ wd 28 4 = la := at_eq (hw ▸ wr_xf ok)
  have e1 : at_ wd 7 5 = d := at_eq (hw ▸ wr_d ok)
  have e2 : at_ wd 12 5 = a := at_eq (hw ▸ wr_a ok)
  have e3 : at_ wd 17 5 = b := at_eq (hw ▸ wr_b ok)
  unfold decodeRow32; rw [m1]
  show decMulDiv wd = _; unfold decMulDiv; rw [m2]
  show (some (Instr.clmulh (at_ wd 28 4) (at_ wd 7 5) (at_ wd 12 5) (at_ wd 17 5)) : Option Instr) = _
  rw [e0, e1, e2, e3]

theorem addi (d a : Reg) (imm : BitVec 15) : Statement (Instr.addi d a imm) := by
  have ok : wiFits 0x4 d.toNat a.toNat imm.toNat := ⟨by decide, d.isLt, a.isLt, imm.isLt⟩
  obtain ⟨wd, hw⟩ : ∃ wd, wd = Machine.wiWord 0x4 d.toNat a.toNat imm.toNat := ⟨_, rfl⟩
  have e : Instr.encode (Instr.addi d a imm) = wd := hw.symm ▸ rfl
  refine four e (hw ▸ wi_lt ok) (hw ▸ wi_odd ..) ?_
  have m1 : part wd 1 6 = 4 := hw ▸ wi_op ok
  have e0 : at_ wd 7 5 = d := at_eq (hw ▸ wi_d ok)
  have e1 : at_ wd 12 5 = a := at_eq (hw ▸ wi_a ok)
  have e2 : at_ wd 17 15 = imm := at_eq (hw ▸ wi_imm ok)
  unfold decodeRow32; rw [m1]
  show (some (Instr.addi (at_ wd 7 5) (at_ wd 12 5) (at_ wd 17 15)) : Option Instr) = _
  rw [e0, e1, e2]

theorem andi (d a : Reg) (imm : BitVec 15) : Statement (Instr.andi d a imm) := by
  have ok : wiFits 0x5 d.toNat a.toNat imm.toNat := ⟨by decide, d.isLt, a.isLt, imm.isLt⟩
  obtain ⟨wd, hw⟩ : ∃ wd, wd = Machine.wiWord 0x5 d.toNat a.toNat imm.toNat := ⟨_, rfl⟩
  have e : Instr.encode (Instr.andi d a imm) = wd := hw.symm ▸ rfl
  refine four e (hw ▸ wi_lt ok) (hw ▸ wi_odd ..) ?_
  have m1 : part wd 1 6 = 5 := hw ▸ wi_op ok
  have e0 : at_ wd 7 5 = d := at_eq (hw ▸ wi_d ok)
  have e1 : at_ wd 12 5 = a := at_eq (hw ▸ wi_a ok)
  have e2 : at_ wd 17 15 = imm := at_eq (hw ▸ wi_imm ok)
  unfold decodeRow32; rw [m1]
  show (some (Instr.andi (at_ wd 7 5) (at_ wd 12 5) (at_ wd 17 15)) : Option Instr) = _
  rw [e0, e1, e2]

theorem ori (d a : Reg) (imm : BitVec 15) : Statement (Instr.ori d a imm) := by
  have ok : wiFits 0x6 d.toNat a.toNat imm.toNat := ⟨by decide, d.isLt, a.isLt, imm.isLt⟩
  obtain ⟨wd, hw⟩ : ∃ wd, wd = Machine.wiWord 0x6 d.toNat a.toNat imm.toNat := ⟨_, rfl⟩
  have e : Instr.encode (Instr.ori d a imm) = wd := hw.symm ▸ rfl
  refine four e (hw ▸ wi_lt ok) (hw ▸ wi_odd ..) ?_
  have m1 : part wd 1 6 = 6 := hw ▸ wi_op ok
  have e0 : at_ wd 7 5 = d := at_eq (hw ▸ wi_d ok)
  have e1 : at_ wd 12 5 = a := at_eq (hw ▸ wi_a ok)
  have e2 : at_ wd 17 15 = imm := at_eq (hw ▸ wi_imm ok)
  unfold decodeRow32; rw [m1]
  show (some (Instr.ori (at_ wd 7 5) (at_ wd 12 5) (at_ wd 17 15)) : Option Instr) = _
  rw [e0, e1, e2]

theorem xori (d a : Reg) (imm : BitVec 15) : Statement (Instr.xori d a imm) := by
  have ok : wiFits 0x7 d.toNat a.toNat imm.toNat := ⟨by decide, d.isLt, a.isLt, imm.isLt⟩
  obtain ⟨wd, hw⟩ : ∃ wd, wd = Machine.wiWord 0x7 d.toNat a.toNat imm.toNat := ⟨_, rfl⟩
  have e : Instr.encode (Instr.xori d a imm) = wd := hw.symm ▸ rfl
  refine four e (hw ▸ wi_lt ok) (hw ▸ wi_odd ..) ?_
  have m1 : part wd 1 6 = 7 := hw ▸ wi_op ok
  have e0 : at_ wd 7 5 = d := at_eq (hw ▸ wi_d ok)
  have e1 : at_ wd 12 5 = a := at_eq (hw ▸ wi_a ok)
  have e2 : at_ wd 17 15 = imm := at_eq (hw ▸ wi_imm ok)
  unfold decodeRow32; rw [m1]
  show (some (Instr.xori (at_ wd 7 5) (at_ wd 12 5) (at_ wd 17 15)) : Option Instr) = _
  rw [e0, e1, e2]

theorem shli (d a : Reg) (amt : BitVec 6) : Statement (Instr.shli d a amt) := by
  have h_d := d.isLt
  have h_a := a.isLt
  have h_amt := amt.isLt
  have ok : wiFits 0x8 d.toNat a.toNat amt.toNat := ⟨by decide, d.isLt, a.isLt, lt_of_lt_of_le amt.isLt (by decide)⟩
  obtain ⟨wd, hw⟩ : ∃ wd, wd = Machine.wiWord 0x8 d.toNat a.toNat amt.toNat := ⟨_, rfl⟩
  have e : Instr.encode (Instr.shli d a amt) = wd := hw.symm ▸ rfl
  refine four e (hw ▸ wi_lt ok) (hw ▸ wi_odd ..) ?_
  have m1 : part wd 1 6 = 8 := hw ▸ wi_op ok
  have m2 : part wd 29 3 = 0 := by unfold Machine.wiWord at hw; unfold part; omega
  have e0 : at_ wd 7 5 = d := at_eq (hw ▸ wi_d ok)
  have e1 : at_ wd 12 5 = a := at_eq (hw ▸ wi_a ok)
  have e2 : at_ wd 17 6 = amt := at_eq (by unfold Machine.wiWord at hw; unfold part; omega)
  have z0 : part wd 23 6 = 0 := by unfold Machine.wiWord at hw; unfold part; omega
  unfold decodeRow32; rw [m1]
  show decShiftImm wd = _; unfold decShiftImm; rw [m2]
  show zeroed (part wd 23 6) (Instr.shli (at_ wd 7 5) (at_ wd 12 5) (at_ wd 17 6)) = _
  rw [z0]
  show (some (Instr.shli (at_ wd 7 5) (at_ wd 12 5) (at_ wd 17 6)) : Option Instr) = _
  rw [e0, e1, e2]

theorem shri (d a : Reg) (amt : BitVec 6) : Statement (Instr.shri d a amt) := by
  have h_d := d.isLt
  have h_a := a.isLt
  have h_amt := amt.isLt
  have ok : wiFits 0x8 d.toNat a.toNat (1 * 0x1000 + amt.toNat) := ⟨by decide, d.isLt, a.isLt, by omega⟩
  obtain ⟨wd, hw⟩ : ∃ wd, wd = Machine.wiWord 0x8 d.toNat a.toNat (1 * 0x1000 + amt.toNat) := ⟨_, rfl⟩
  have e : Instr.encode (Instr.shri d a amt) = wd := hw.symm ▸ rfl
  refine four e (hw ▸ wi_lt ok) (hw ▸ wi_odd ..) ?_
  have m1 : part wd 1 6 = 8 := hw ▸ wi_op ok
  have m2 : part wd 29 3 = 1 := by unfold Machine.wiWord at hw; unfold part; omega
  have e0 : at_ wd 7 5 = d := at_eq (hw ▸ wi_d ok)
  have e1 : at_ wd 12 5 = a := at_eq (hw ▸ wi_a ok)
  have e2 : at_ wd 17 6 = amt := at_eq (by unfold Machine.wiWord at hw; unfold part; omega)
  have z0 : part wd 23 6 = 0 := by unfold Machine.wiWord at hw; unfold part; omega
  unfold decodeRow32; rw [m1]
  show decShiftImm wd = _; unfold decShiftImm; rw [m2]
  show zeroed (part wd 23 6) (Instr.shri (at_ wd 7 5) (at_ wd 12 5) (at_ wd 17 6)) = _
  rw [z0]
  show (some (Instr.shri (at_ wd 7 5) (at_ wd 12 5) (at_ wd 17 6)) : Option Instr) = _
  rw [e0, e1, e2]

theorem srai (d a : Reg) (amt : BitVec 6) : Statement (Instr.srai d a amt) := by
  have h_d := d.isLt
  have h_a := a.isLt
  have h_amt := amt.isLt
  have ok : wiFits 0x8 d.toNat a.toNat (2 * 0x1000 + amt.toNat) := ⟨by decide, d.isLt, a.isLt, by omega⟩
  obtain ⟨wd, hw⟩ : ∃ wd, wd = Machine.wiWord 0x8 d.toNat a.toNat (2 * 0x1000 + amt.toNat) := ⟨_, rfl⟩
  have e : Instr.encode (Instr.srai d a amt) = wd := hw.symm ▸ rfl
  refine four e (hw ▸ wi_lt ok) (hw ▸ wi_odd ..) ?_
  have m1 : part wd 1 6 = 8 := hw ▸ wi_op ok
  have m2 : part wd 29 3 = 2 := by unfold Machine.wiWord at hw; unfold part; omega
  have e0 : at_ wd 7 5 = d := at_eq (hw ▸ wi_d ok)
  have e1 : at_ wd 12 5 = a := at_eq (hw ▸ wi_a ok)
  have e2 : at_ wd 17 6 = amt := at_eq (by unfold Machine.wiWord at hw; unfold part; omega)
  have z0 : part wd 23 6 = 0 := by unfold Machine.wiWord at hw; unfold part; omega
  unfold decodeRow32; rw [m1]
  show decShiftImm wd = _; unfold decShiftImm; rw [m2]
  show zeroed (part wd 23 6) (Instr.srai (at_ wd 7 5) (at_ wd 12 5) (at_ wd 17 6)) = _
  rw [z0]
  show (some (Instr.srai (at_ wd 7 5) (at_ wd 12 5) (at_ wd 17 6)) : Option Instr) = _
  rw [e0, e1, e2]

theorem rori (d a : Reg) (amt : BitVec 6) : Statement (Instr.rori d a amt) := by
  have h_d := d.isLt
  have h_a := a.isLt
  have h_amt := amt.isLt
  have ok : wiFits 0x8 d.toNat a.toNat (3 * 0x1000 + amt.toNat) := ⟨by decide, d.isLt, a.isLt, by omega⟩
  obtain ⟨wd, hw⟩ : ∃ wd, wd = Machine.wiWord 0x8 d.toNat a.toNat (3 * 0x1000 + amt.toNat) := ⟨_, rfl⟩
  have e : Instr.encode (Instr.rori d a amt) = wd := hw.symm ▸ rfl
  refine four e (hw ▸ wi_lt ok) (hw ▸ wi_odd ..) ?_
  have m1 : part wd 1 6 = 8 := hw ▸ wi_op ok
  have m2 : part wd 29 3 = 3 := by unfold Machine.wiWord at hw; unfold part; omega
  have e0 : at_ wd 7 5 = d := at_eq (hw ▸ wi_d ok)
  have e1 : at_ wd 12 5 = a := at_eq (hw ▸ wi_a ok)
  have e2 : at_ wd 17 6 = amt := at_eq (by unfold Machine.wiWord at hw; unfold part; omega)
  have z0 : part wd 23 6 = 0 := by unfold Machine.wiWord at hw; unfold part; omega
  unfold decodeRow32; rw [m1]
  show decShiftImm wd = _; unfold decShiftImm; rw [m2]
  show zeroed (part wd 23 6) (Instr.rori (at_ wd 7 5) (at_ wd 12 5) (at_ wd 17 6)) = _
  rw [z0]
  show (some (Instr.rori (at_ wd 7 5) (at_ wd 12 5) (at_ wd 17 6)) : Option Instr) = _
  rw [e0, e1, e2]

theorem slti (d a : Reg) (imm : BitVec 15) : Statement (Instr.slti d a imm) := by
  have ok : wiFits 0x9 d.toNat a.toNat imm.toNat := ⟨by decide, d.isLt, a.isLt, imm.isLt⟩
  obtain ⟨wd, hw⟩ : ∃ wd, wd = Machine.wiWord 0x9 d.toNat a.toNat imm.toNat := ⟨_, rfl⟩
  have e : Instr.encode (Instr.slti d a imm) = wd := hw.symm ▸ rfl
  refine four e (hw ▸ wi_lt ok) (hw ▸ wi_odd ..) ?_
  have m1 : part wd 1 6 = 9 := hw ▸ wi_op ok
  have e0 : at_ wd 7 5 = d := at_eq (hw ▸ wi_d ok)
  have e1 : at_ wd 12 5 = a := at_eq (hw ▸ wi_a ok)
  have e2 : at_ wd 17 15 = imm := at_eq (hw ▸ wi_imm ok)
  unfold decodeRow32; rw [m1]
  show (some (Instr.slti (at_ wd 7 5) (at_ wd 12 5) (at_ wd 17 15)) : Option Instr) = _
  rw [e0, e1, e2]

theorem sltni (d a : Reg) (imm : BitVec 15) : Statement (Instr.sltni d a imm) := by
  have ok : wiFits 0xa d.toNat a.toNat imm.toNat := ⟨by decide, d.isLt, a.isLt, imm.isLt⟩
  obtain ⟨wd, hw⟩ : ∃ wd, wd = Machine.wiWord 0xa d.toNat a.toNat imm.toNat := ⟨_, rfl⟩
  have e : Instr.encode (Instr.sltni d a imm) = wd := hw.symm ▸ rfl
  refine four e (hw ▸ wi_lt ok) (hw ▸ wi_odd ..) ?_
  have m1 : part wd 1 6 = 10 := hw ▸ wi_op ok
  have e0 : at_ wd 7 5 = d := at_eq (hw ▸ wi_d ok)
  have e1 : at_ wd 12 5 = a := at_eq (hw ▸ wi_a ok)
  have e2 : at_ wd 17 15 = imm := at_eq (hw ▸ wi_imm ok)
  unfold decodeRow32; rw [m1]
  show (some (Instr.sltni (at_ wd 7 5) (at_ wd 12 5) (at_ wd 17 15)) : Option Instr) = _
  rw [e0, e1, e2]

theorem seqi (d a : Reg) (imm : BitVec 15) : Statement (Instr.seqi d a imm) := by
  have ok : wiFits 0xb d.toNat a.toNat imm.toNat := ⟨by decide, d.isLt, a.isLt, imm.isLt⟩
  obtain ⟨wd, hw⟩ : ∃ wd, wd = Machine.wiWord 0xb d.toNat a.toNat imm.toNat := ⟨_, rfl⟩
  have e : Instr.encode (Instr.seqi d a imm) = wd := hw.symm ▸ rfl
  refine four e (hw ▸ wi_lt ok) (hw ▸ wi_odd ..) ?_
  have m1 : part wd 1 6 = 11 := hw ▸ wi_op ok
  have e0 : at_ wd 7 5 = d := at_eq (hw ▸ wi_d ok)
  have e1 : at_ wd 12 5 = a := at_eq (hw ▸ wi_a ok)
  have e2 : at_ wd 17 15 = imm := at_eq (hw ▸ wi_imm ok)
  unfold decodeRow32; rw [m1]
  show (some (Instr.seqi (at_ wd 7 5) (at_ wd 12 5) (at_ wd 17 15)) : Option Instr) = _
  rw [e0, e1, e2]

theorem lih (d : Reg) (imm : BitVec 20) : Statement (Instr.lih d imm) := by
  have ok : wuFits 0xc d.toNat imm.toNat := ⟨by decide, d.isLt, imm.isLt⟩
  obtain ⟨wd, hw⟩ : ∃ wd, wd = Machine.wuWord 0xc d.toNat imm.toNat := ⟨_, rfl⟩
  have e : Instr.encode (Instr.lih d imm) = wd := hw.symm ▸ rfl
  refine four e (hw ▸ wu_lt ok) (hw ▸ wu_odd ..) ?_
  have m1 : part wd 1 6 = 12 := hw ▸ wu_op ok
  have e0 : at_ wd 7 5 = d := at_eq (hw ▸ wu_d ok)
  have e1 : at_ wd 12 20 = imm := at_eq (hw ▸ wu_imm ok)
  unfold decodeRow32; rw [m1]
  show (some (Instr.lih (at_ wd 7 5) (at_ wd 12 20)) : Option Instr) = _
  rw [e0, e1]

theorem lox (d : BitVec 3) (a : Reg) : Statement (Instr.lox d a) := by
  have h_d := d.isLt
  have h_a := a.isLt
  have ok : wrFits 0xd d.toNat a.toNat 0 0 0 := ⟨by decide, lt_of_lt_of_le d.isLt (by decide), a.isLt, by decide, by decide, by decide⟩
  obtain ⟨wd, hw⟩ : ∃ wd, wd = Machine.wrWord 0xd d.toNat a.toNat 0 0 0 := ⟨_, rfl⟩
  have e : Instr.encode (Instr.lox d a) = wd := hw.symm ▸ rfl
  refine four e (hw ▸ wr_lt ok) (hw ▸ wr_odd ..) ?_
  have m1 : part wd 1 6 = 13 := hw ▸ wr_op ok
  have m2 : part wd 22 6 = 0 := hw ▸ wr_fn ok
  have e0 : at_ wd 7 3 = d := at_eq (by unfold Machine.wrWord at hw; unfold part; omega)
  have e1 : at_ wd 12 5 = a := at_eq (hw ▸ wr_a ok)
  have z0 : part wd 10 2 = 0 := by unfold Machine.wrWord at hw; unfold part; omega
  have z1 : part wd 17 5 = 0 := hw ▸ wr_b ok
  have z2 : part wd 28 4 = 0 := hw ▸ wr_xf ok
  unfold decodeRow32; rw [m1]
  show decOxm wd = _; unfold decOxm; rw [m2]
  show zeroed (part wd 10 2 + part wd 17 5 + part wd 28 4) (Instr.lox (at_ wd 7 3) (at_ wd 12 5)) = _
  rw [z0, z1, z2]
  show (some (Instr.lox (at_ wd 7 3) (at_ wd 12 5)) : Option Instr) = _
  rw [e0, e1]

theorem sox (d : Reg) (a : BitVec 3) : Statement (Instr.sox d a) := by
  have h_d := d.isLt
  have h_a := a.isLt
  have ok : wrFits 0xd d.toNat a.toNat 0 1 0 := ⟨by decide, d.isLt, lt_of_lt_of_le a.isLt (by decide), by decide, by decide, by decide⟩
  obtain ⟨wd, hw⟩ : ∃ wd, wd = Machine.wrWord 0xd d.toNat a.toNat 0 1 0 := ⟨_, rfl⟩
  have e : Instr.encode (Instr.sox d a) = wd := hw.symm ▸ rfl
  refine four e (hw ▸ wr_lt ok) (hw ▸ wr_odd ..) ?_
  have m1 : part wd 1 6 = 13 := hw ▸ wr_op ok
  have m2 : part wd 22 6 = 1 := hw ▸ wr_fn ok
  have e0 : at_ wd 7 5 = d := at_eq (hw ▸ wr_d ok)
  have e1 : at_ wd 12 3 = a := at_eq (by unfold Machine.wrWord at hw; unfold part; omega)
  have z0 : part wd 15 7 = 0 := by unfold Machine.wrWord at hw; unfold part; omega
  have z1 : part wd 28 4 = 0 := hw ▸ wr_xf ok
  unfold decodeRow32; rw [m1]
  show decOxm wd = _; unfold decOxm; rw [m2]
  show zeroed (part wd 15 7 + part wd 28 4) (Instr.sox (at_ wd 7 5) (at_ wd 12 3)) = _
  rw [z0, z1]
  show (some (Instr.sox (at_ wd 7 5) (at_ wd 12 3)) : Option Instr) = _
  rw [e0, e1]

theorem ld (la : BitVec 4) (d a : Reg) (off : BitVec 8) (w : BitVec 3) : Statement (Instr.ld la d a off w) := by
  have ok : wmFits 0xe d.toNat a.toNat w.toNat off.toNat la.toNat := ⟨by decide, d.isLt, a.isLt, w.isLt, off.isLt, la.isLt⟩
  obtain ⟨wd, hw⟩ : ∃ wd, wd = Machine.wmWord 0xe d.toNat a.toNat w.toNat off.toNat la.toNat := ⟨_, rfl⟩
  have e : Instr.encode (Instr.ld la d a off w) = wd := hw.symm ▸ rfl
  refine four e (hw ▸ wm_lt ok) (hw ▸ wm_odd ..) ?_
  have m1 : part wd 1 6 = 14 := hw ▸ wm_op ok
  have e0 : at_ wd 28 4 = la := at_eq (hw ▸ wm_la ok)
  have e1 : at_ wd 7 5 = d := at_eq (hw ▸ wm_d ok)
  have e2 : at_ wd 12 5 = a := at_eq (hw ▸ wm_a ok)
  have e3 : at_ wd 20 8 = off := at_eq (hw ▸ wm_off ok)
  have e4 : at_ wd 17 3 = w := at_eq (hw ▸ wm_w ok)
  unfold decodeRow32; rw [m1]
  show (some (Instr.ld (at_ wd 28 4) (at_ wd 7 5) (at_ wd 12 5) (at_ wd 20 8) (at_ wd 17 3)) : Option Instr) = _
  rw [e0, e1, e2, e3, e4]

theorem st (d a : Reg) (off : BitVec 8) (w : BitVec 3) : Statement (Instr.st d a off w) := by
  have ok : wmFits 0xf d.toNat a.toNat w.toNat off.toNat 0 := ⟨by decide, d.isLt, a.isLt, w.isLt, off.isLt, by decide⟩
  obtain ⟨wd, hw⟩ : ∃ wd, wd = Machine.wmWord 0xf d.toNat a.toNat w.toNat off.toNat 0 := ⟨_, rfl⟩
  have e : Instr.encode (Instr.st d a off w) = wd := hw.symm ▸ rfl
  refine four e (hw ▸ wm_lt ok) (hw ▸ wm_odd ..) ?_
  have m1 : part wd 1 6 = 15 := hw ▸ wm_op ok
  have e0 : at_ wd 7 5 = d := at_eq (hw ▸ wm_d ok)
  have e1 : at_ wd 12 5 = a := at_eq (hw ▸ wm_a ok)
  have e2 : at_ wd 20 8 = off := at_eq (hw ▸ wm_off ok)
  have e3 : at_ wd 17 3 = w := at_eq (hw ▸ wm_w ok)
  have z0 : part wd 28 4 = 0 := hw ▸ wm_la ok
  unfold decodeRow32; rw [m1]
  show zeroed (part wd 28 4) (Instr.st (at_ wd 7 5) (at_ wd 12 5) (at_ wd 20 8) (at_ wd 17 3)) = _
  rw [z0]
  show (some (Instr.st (at_ wd 7 5) (at_ wd 12 5) (at_ wd 20 8) (at_ wd 17 3)) : Option Instr) = _
  rw [e0, e1, e2, e3]

theorem beq (a b : Reg) (off : BitVec 12) : Statement (Instr.beq a b off) := by
  have ok : wbFits 0x10 a.toNat b.toNat 0 off.toNat := ⟨by decide, a.isLt, b.isLt, by decide, off.isLt⟩
  obtain ⟨wd, hw⟩ : ∃ wd, wd = Machine.wbWord 0x10 a.toNat b.toNat 0 off.toNat := ⟨_, rfl⟩
  have e : Instr.encode (Instr.beq a b off) = wd := hw.symm ▸ rfl
  refine four e (hw ▸ wb_lt ok) (hw ▸ wb_odd ..) ?_
  have m1 : part wd 1 6 = 16 := hw ▸ wb_op ok
  have m2 : part wd 17 3 = 0 := hw ▸ wb_fn ok
  have e0 : at_ wd 7 5 = a := at_eq (hw ▸ wb_a ok)
  have e1 : at_ wd 12 5 = b := at_eq (hw ▸ wb_b ok)
  have e2 : at_ wd 20 12 = off := at_eq (hw ▸ wb_off ok)
  unfold decodeRow32; rw [m1]
  show decBranch wd = _; unfold decBranch; rw [m2]
  show (some (Instr.beq (at_ wd 7 5) (at_ wd 12 5) (at_ wd 20 12)) : Option Instr) = _
  rw [e0, e1, e2]

theorem bne (a b : Reg) (off : BitVec 12) : Statement (Instr.bne a b off) := by
  have ok : wbFits 0x10 a.toNat b.toNat 1 off.toNat := ⟨by decide, a.isLt, b.isLt, by decide, off.isLt⟩
  obtain ⟨wd, hw⟩ : ∃ wd, wd = Machine.wbWord 0x10 a.toNat b.toNat 1 off.toNat := ⟨_, rfl⟩
  have e : Instr.encode (Instr.bne a b off) = wd := hw.symm ▸ rfl
  refine four e (hw ▸ wb_lt ok) (hw ▸ wb_odd ..) ?_
  have m1 : part wd 1 6 = 16 := hw ▸ wb_op ok
  have m2 : part wd 17 3 = 1 := hw ▸ wb_fn ok
  have e0 : at_ wd 7 5 = a := at_eq (hw ▸ wb_a ok)
  have e1 : at_ wd 12 5 = b := at_eq (hw ▸ wb_b ok)
  have e2 : at_ wd 20 12 = off := at_eq (hw ▸ wb_off ok)
  unfold decodeRow32; rw [m1]
  show decBranch wd = _; unfold decBranch; rw [m2]
  show (some (Instr.bne (at_ wd 7 5) (at_ wd 12 5) (at_ wd 20 12)) : Option Instr) = _
  rw [e0, e1, e2]

theorem blt (a b : Reg) (off : BitVec 12) : Statement (Instr.blt a b off) := by
  have ok : wbFits 0x10 a.toNat b.toNat 2 off.toNat := ⟨by decide, a.isLt, b.isLt, by decide, off.isLt⟩
  obtain ⟨wd, hw⟩ : ∃ wd, wd = Machine.wbWord 0x10 a.toNat b.toNat 2 off.toNat := ⟨_, rfl⟩
  have e : Instr.encode (Instr.blt a b off) = wd := hw.symm ▸ rfl
  refine four e (hw ▸ wb_lt ok) (hw ▸ wb_odd ..) ?_
  have m1 : part wd 1 6 = 16 := hw ▸ wb_op ok
  have m2 : part wd 17 3 = 2 := hw ▸ wb_fn ok
  have e0 : at_ wd 7 5 = a := at_eq (hw ▸ wb_a ok)
  have e1 : at_ wd 12 5 = b := at_eq (hw ▸ wb_b ok)
  have e2 : at_ wd 20 12 = off := at_eq (hw ▸ wb_off ok)
  unfold decodeRow32; rw [m1]
  show decBranch wd = _; unfold decBranch; rw [m2]
  show (some (Instr.blt (at_ wd 7 5) (at_ wd 12 5) (at_ wd 20 12)) : Option Instr) = _
  rw [e0, e1, e2]

theorem bge (a b : Reg) (off : BitVec 12) : Statement (Instr.bge a b off) := by
  have ok : wbFits 0x10 a.toNat b.toNat 3 off.toNat := ⟨by decide, a.isLt, b.isLt, by decide, off.isLt⟩
  obtain ⟨wd, hw⟩ : ∃ wd, wd = Machine.wbWord 0x10 a.toNat b.toNat 3 off.toNat := ⟨_, rfl⟩
  have e : Instr.encode (Instr.bge a b off) = wd := hw.symm ▸ rfl
  refine four e (hw ▸ wb_lt ok) (hw ▸ wb_odd ..) ?_
  have m1 : part wd 1 6 = 16 := hw ▸ wb_op ok
  have m2 : part wd 17 3 = 3 := hw ▸ wb_fn ok
  have e0 : at_ wd 7 5 = a := at_eq (hw ▸ wb_a ok)
  have e1 : at_ wd 12 5 = b := at_eq (hw ▸ wb_b ok)
  have e2 : at_ wd 20 12 = off := at_eq (hw ▸ wb_off ok)
  unfold decodeRow32; rw [m1]
  show decBranch wd = _; unfold decBranch; rw [m2]
  show (some (Instr.bge (at_ wd 7 5) (at_ wd 12 5) (at_ wd 20 12)) : Option Instr) = _
  rw [e0, e1, e2]

theorem bltn (a b : Reg) (off : BitVec 12) : Statement (Instr.bltn a b off) := by
  have ok : wbFits 0x10 a.toNat b.toNat 4 off.toNat := ⟨by decide, a.isLt, b.isLt, by decide, off.isLt⟩
  obtain ⟨wd, hw⟩ : ∃ wd, wd = Machine.wbWord 0x10 a.toNat b.toNat 4 off.toNat := ⟨_, rfl⟩
  have e : Instr.encode (Instr.bltn a b off) = wd := hw.symm ▸ rfl
  refine four e (hw ▸ wb_lt ok) (hw ▸ wb_odd ..) ?_
  have m1 : part wd 1 6 = 16 := hw ▸ wb_op ok
  have m2 : part wd 17 3 = 4 := hw ▸ wb_fn ok
  have e0 : at_ wd 7 5 = a := at_eq (hw ▸ wb_a ok)
  have e1 : at_ wd 12 5 = b := at_eq (hw ▸ wb_b ok)
  have e2 : at_ wd 20 12 = off := at_eq (hw ▸ wb_off ok)
  unfold decodeRow32; rw [m1]
  show decBranch wd = _; unfold decBranch; rw [m2]
  show (some (Instr.bltn (at_ wd 7 5) (at_ wd 12 5) (at_ wd 20 12)) : Option Instr) = _
  rw [e0, e1, e2]

theorem bgen (a b : Reg) (off : BitVec 12) : Statement (Instr.bgen a b off) := by
  have ok : wbFits 0x10 a.toNat b.toNat 5 off.toNat := ⟨by decide, a.isLt, b.isLt, by decide, off.isLt⟩
  obtain ⟨wd, hw⟩ : ∃ wd, wd = Machine.wbWord 0x10 a.toNat b.toNat 5 off.toNat := ⟨_, rfl⟩
  have e : Instr.encode (Instr.bgen a b off) = wd := hw.symm ▸ rfl
  refine four e (hw ▸ wb_lt ok) (hw ▸ wb_odd ..) ?_
  have m1 : part wd 1 6 = 16 := hw ▸ wb_op ok
  have m2 : part wd 17 3 = 5 := hw ▸ wb_fn ok
  have e0 : at_ wd 7 5 = a := at_eq (hw ▸ wb_a ok)
  have e1 : at_ wd 12 5 = b := at_eq (hw ▸ wb_b ok)
  have e2 : at_ wd 20 12 = off := at_eq (hw ▸ wb_off ok)
  unfold decodeRow32; rw [m1]
  show decBranch wd = _; unfold decBranch; rw [m2]
  show (some (Instr.bgen (at_ wd 7 5) (at_ wd 12 5) (at_ wd 20 12)) : Option Instr) = _
  rw [e0, e1, e2]

theorem jal (d : Reg) (off : BitVec 20) : Statement (Instr.jal d off) := by
  have ok : wjFits 0x11 d.toNat off.toNat := ⟨by decide, d.isLt, off.isLt⟩
  obtain ⟨wd, hw⟩ : ∃ wd, wd = Machine.wjWord 0x11 d.toNat off.toNat := ⟨_, rfl⟩
  have e : Instr.encode (Instr.jal d off) = wd := hw.symm ▸ rfl
  refine four e (hw ▸ wj_lt ok) (hw ▸ wj_odd ..) ?_
  have m1 : part wd 1 6 = 17 := hw ▸ wj_op ok
  have e0 : at_ wd 7 5 = d := at_eq (hw ▸ wj_d ok)
  have e1 : at_ wd 12 20 = off := at_eq (hw ▸ wj_off ok)
  unfold decodeRow32; rw [m1]
  show (some (Instr.jal (at_ wd 7 5) (at_ wd 12 20)) : Option Instr) = _
  rw [e0, e1]

theorem jalr (d a : Reg) : Statement (Instr.jalr d a) := by
  have ok : wrFits 0x12 d.toNat a.toNat 0 0 0 := ⟨by decide, d.isLt, a.isLt, by decide, by decide, by decide⟩
  obtain ⟨wd, hw⟩ : ∃ wd, wd = Machine.wrWord 0x12 d.toNat a.toNat 0 0 0 := ⟨_, rfl⟩
  have e : Instr.encode (Instr.jalr d a) = wd := hw.symm ▸ rfl
  refine four e (hw ▸ wr_lt ok) (hw ▸ wr_odd ..) ?_
  have m1 : part wd 1 6 = 18 := hw ▸ wr_op ok
  have m2 : part wd 22 6 = 0 := hw ▸ wr_fn ok
  have e0 : at_ wd 7 5 = d := at_eq (hw ▸ wr_d ok)
  have e1 : at_ wd 12 5 = a := at_eq (hw ▸ wr_a ok)
  have z0 : part wd 17 5 = 0 := hw ▸ wr_b ok
  have z1 : part wd 28 4 = 0 := hw ▸ wr_xf ok
  unfold decodeRow32; rw [m1]
  show decJalr wd = _; unfold decJalr; rw [m2]
  show zeroed (part wd 17 5 + part wd 28 4) (Instr.jalr (at_ wd 7 5) (at_ wd 12 5)) = _
  rw [z0, z1]
  show (some (Instr.jalr (at_ wd 7 5) (at_ wd 12 5)) : Option Instr) = _
  rw [e0, e1]

theorem mfs (d : Reg) (sel : BitVec 11) : Statement (Instr.mfs d sel) := by
  have ok : weFits 0x13 0 d.toNat sel.toNat 0 := ⟨by decide, by decide, d.isLt, sel.isLt, by decide⟩
  obtain ⟨wd, hw⟩ : ∃ wd, wd = Machine.weWord 0x13 0 d.toNat sel.toNat 0 := ⟨_, rfl⟩
  have e : Instr.encode (Instr.mfs d sel) = wd := hw.symm ▸ rfl
  refine four e (hw ▸ we_lt ok) (hw ▸ we_odd ..) ?_
  have m1 : part wd 1 6 = 19 := hw ▸ we_op ok
  have m2 : part wd 28 4 = 0 := hw ▸ we_fn ok
  have e0 : at_ wd 7 5 = d := at_eq (hw ▸ we_d ok)
  have e1 : at_ wd 17 11 = sel := at_eq (hw ▸ we_sel ok)
  have z0 : part wd 12 5 = 0 := hw ▸ we_a ok
  unfold decodeRow32; rw [m1]
  show decSys wd = _; unfold decSys; rw [m2]
  show zeroed (part wd 12 5) (Instr.mfs (at_ wd 7 5) (at_ wd 17 11)) = _
  rw [z0]
  show (some (Instr.mfs (at_ wd 7 5) (at_ wd 17 11)) : Option Instr) = _
  rw [e0, e1]

theorem mts (sel : BitVec 11) (a : Reg) : Statement (Instr.mts sel a) := by
  have ok : weFits 0x13 a.toNat 0 sel.toNat 1 := ⟨by decide, a.isLt, by decide, sel.isLt, by decide⟩
  obtain ⟨wd, hw⟩ : ∃ wd, wd = Machine.weWord 0x13 a.toNat 0 sel.toNat 1 := ⟨_, rfl⟩
  have e : Instr.encode (Instr.mts sel a) = wd := hw.symm ▸ rfl
  refine four e (hw ▸ we_lt ok) (hw ▸ we_odd ..) ?_
  have m1 : part wd 1 6 = 19 := hw ▸ we_op ok
  have m2 : part wd 28 4 = 1 := hw ▸ we_fn ok
  have e0 : at_ wd 17 11 = sel := at_eq (hw ▸ we_sel ok)
  have e1 : at_ wd 12 5 = a := at_eq (hw ▸ we_a ok)
  have z0 : part wd 7 5 = 0 := hw ▸ we_d ok
  unfold decodeRow32; rw [m1]
  show decSys wd = _; unfold decSys; rw [m2]
  show zeroed (part wd 7 5) (Instr.mts (at_ wd 17 11) (at_ wd 12 5)) = _
  rw [z0]
  show (some (Instr.mts (at_ wd 17 11) (at_ wd 12 5)) : Option Instr) = _
  rw [e0, e1]

theorem trap (sel : BitVec 11) : Statement (Instr.trap sel) := by
  have h_sel := sel.isLt
  have ok : weFits 0x13 0 0 sel.toNat 2 := ⟨by decide, by decide, by decide, sel.isLt, by decide⟩
  obtain ⟨wd, hw⟩ : ∃ wd, wd = Machine.weWord 0x13 0 0 sel.toNat 2 := ⟨_, rfl⟩
  have e : Instr.encode (Instr.trap sel) = wd := hw.symm ▸ rfl
  refine four e (hw ▸ we_lt ok) (hw ▸ we_odd ..) ?_
  have m1 : part wd 1 6 = 19 := hw ▸ we_op ok
  have m2 : part wd 28 4 = 2 := hw ▸ we_fn ok
  have e0 : at_ wd 17 11 = sel := at_eq (hw ▸ we_sel ok)
  have z0 : part wd 7 10 = 0 := by unfold Machine.weWord at hw; unfold part; omega
  unfold decodeRow32; rw [m1]
  show decSys wd = _; unfold decSys; rw [m2]
  show zeroed (part wd 7 10) (Instr.trap (at_ wd 17 11)) = _
  rw [z0]
  show (some (Instr.trap (at_ wd 17 11)) : Option Instr) = _
  rw [e0]

theorem brk (sel : BitVec 11) : Statement (Instr.brk sel) := by
  have h_sel := sel.isLt
  have ok : weFits 0x13 0 0 sel.toNat 4 := ⟨by decide, by decide, by decide, sel.isLt, by decide⟩
  obtain ⟨wd, hw⟩ : ∃ wd, wd = Machine.weWord 0x13 0 0 sel.toNat 4 := ⟨_, rfl⟩
  have e : Instr.encode (Instr.brk sel) = wd := hw.symm ▸ rfl
  refine four e (hw ▸ we_lt ok) (hw ▸ we_odd ..) ?_
  have m1 : part wd 1 6 = 19 := hw ▸ we_op ok
  have m2 : part wd 28 4 = 4 := hw ▸ we_fn ok
  have e0 : at_ wd 17 11 = sel := at_eq (hw ▸ we_sel ok)
  have z0 : part wd 7 10 = 0 := by unfold Machine.weWord at hw; unfold part; omega
  unfold decodeRow32; rw [m1]
  show decSys wd = _; unfold decSys; rw [m2]
  show zeroed (part wd 7 10) (Instr.brk (at_ wd 17 11)) = _
  rw [z0]
  show (some (Instr.brk (at_ wd 17 11)) : Option Instr) = _
  rw [e0]

theorem waiti (d a : Reg) : Statement (Instr.waiti d a) := by
  have ok : weFits 0x13 a.toNat d.toNat 0 5 := ⟨by decide, a.isLt, d.isLt, by decide, by decide⟩
  obtain ⟨wd, hw⟩ : ∃ wd, wd = Machine.weWord 0x13 a.toNat d.toNat 0 5 := ⟨_, rfl⟩
  have e : Instr.encode (Instr.waiti d a) = wd := hw.symm ▸ rfl
  refine four e (hw ▸ we_lt ok) (hw ▸ we_odd ..) ?_
  have m1 : part wd 1 6 = 19 := hw ▸ we_op ok
  have m2 : part wd 28 4 = 5 := hw ▸ we_fn ok
  have e0 : at_ wd 7 5 = d := at_eq (hw ▸ we_d ok)
  have e1 : at_ wd 12 5 = a := at_eq (hw ▸ we_a ok)
  have z0 : part wd 17 11 = 0 := hw ▸ we_sel ok
  unfold decodeRow32; rw [m1]
  show decSys wd = _; unfold decSys; rw [m2]
  show zeroed (part wd 17 11) (Instr.waiti (at_ wd 7 5) (at_ wd 12 5)) = _
  rw [z0]
  show (some (Instr.waiti (at_ wd 7 5) (at_ wd 12 5)) : Option Instr) = _
  rw [e0, e1]

theorem tlbi (a : Reg) : Statement (Instr.tlbi a) := by
  have ok : weFits 0x13 a.toNat 0 0 7 := ⟨by decide, a.isLt, by decide, by decide, by decide⟩
  obtain ⟨wd, hw⟩ : ∃ wd, wd = Machine.weWord 0x13 a.toNat 0 0 7 := ⟨_, rfl⟩
  have e : Instr.encode (Instr.tlbi a) = wd := hw.symm ▸ rfl
  refine four e (hw ▸ we_lt ok) (hw ▸ we_odd ..) ?_
  have m1 : part wd 1 6 = 19 := hw ▸ we_op ok
  have m2 : part wd 28 4 = 7 := hw ▸ we_fn ok
  have e0 : at_ wd 12 5 = a := at_eq (hw ▸ we_a ok)
  have z0 : part wd 7 5 = 0 := hw ▸ we_d ok
  have z1 : part wd 17 11 = 0 := hw ▸ we_sel ok
  unfold decodeRow32; rw [m1]
  show decSys wd = _; unfold decSys; rw [m2]
  show zeroed (part wd 7 5 + part wd 17 11) (Instr.tlbi (at_ wd 12 5)) = _
  rw [z0, z1]
  show (some (Instr.tlbi (at_ wd 12 5)) : Option Instr) = _
  rw [e0]

theorem tlba (d a : Reg) : Statement (Instr.tlba d a) := by
  have ok : weFits 0x13 a.toNat d.toNat 0 8 := ⟨by decide, a.isLt, d.isLt, by decide, by decide⟩
  obtain ⟨wd, hw⟩ : ∃ wd, wd = Machine.weWord 0x13 a.toNat d.toNat 0 8 := ⟨_, rfl⟩
  have e : Instr.encode (Instr.tlba d a) = wd := hw.symm ▸ rfl
  refine four e (hw ▸ we_lt ok) (hw ▸ we_odd ..) ?_
  have m1 : part wd 1 6 = 19 := hw ▸ we_op ok
  have m2 : part wd 28 4 = 8 := hw ▸ we_fn ok
  have e0 : at_ wd 7 5 = d := at_eq (hw ▸ we_d ok)
  have e1 : at_ wd 12 5 = a := at_eq (hw ▸ we_a ok)
  have z0 : part wd 17 11 = 0 := hw ▸ we_sel ok
  unfold decodeRow32; rw [m1]
  show decSys wd = _; unfold decSys; rw [m2]
  show zeroed (part wd 17 11) (Instr.tlba (at_ wd 7 5) (at_ wd 12 5)) = _
  rw [z0]
  show (some (Instr.tlba (at_ wd 7 5) (at_ wd 12 5)) : Option Instr) = _
  rw [e0, e1]

theorem cAdd (d b : Reg) : Statement (Instr.cAdd d b) := by
  have ok : hsFits 0x1 d.toNat b.toNat := ⟨by decide, d.isLt, b.isLt⟩
  obtain ⟨wd, hw⟩ : ∃ wd, wd = Machine.hsWord 0x1 d.toNat b.toNat := ⟨_, rfl⟩
  have e : Instr.encode (Instr.cAdd d b) = wd := hw.symm ▸ rfl
  refine two e (hw ▸ hs_lt ok) (hw ▸ hs_odd ..) ?_
  have m1 : part wd 1 5 = 1 := hw ▸ hs_op ok
  have e0 : at_ wd 6 5 = d := at_eq (hw ▸ hs_d ok)
  have e1 : at_ wd 11 5 = b := at_eq (hw ▸ hs_b ok)
  unfold decodeRow16; rw [m1]
  show (some (Instr.cAdd (at_ wd 6 5) (at_ wd 11 5)) : Option Instr) = _
  rw [e0, e1]

theorem cSub (d b : Reg) : Statement (Instr.cSub d b) := by
  have ok : hsFits 0x2 d.toNat b.toNat := ⟨by decide, d.isLt, b.isLt⟩
  obtain ⟨wd, hw⟩ : ∃ wd, wd = Machine.hsWord 0x2 d.toNat b.toNat := ⟨_, rfl⟩
  have e : Instr.encode (Instr.cSub d b) = wd := hw.symm ▸ rfl
  refine two e (hw ▸ hs_lt ok) (hw ▸ hs_odd ..) ?_
  have m1 : part wd 1 5 = 2 := hw ▸ hs_op ok
  have e0 : at_ wd 6 5 = d := at_eq (hw ▸ hs_d ok)
  have e1 : at_ wd 11 5 = b := at_eq (hw ▸ hs_b ok)
  unfold decodeRow16; rw [m1]
  show (some (Instr.cSub (at_ wd 6 5) (at_ wd 11 5)) : Option Instr) = _
  rw [e0, e1]

theorem cMov (d b : Reg) : Statement (Instr.cMov d b) := by
  have ok : hsFits 0x3 d.toNat b.toNat := ⟨by decide, d.isLt, b.isLt⟩
  obtain ⟨wd, hw⟩ : ∃ wd, wd = Machine.hsWord 0x3 d.toNat b.toNat := ⟨_, rfl⟩
  have e : Instr.encode (Instr.cMov d b) = wd := hw.symm ▸ rfl
  refine two e (hw ▸ hs_lt ok) (hw ▸ hs_odd ..) ?_
  have m1 : part wd 1 5 = 3 := hw ▸ hs_op ok
  have e0 : at_ wd 6 5 = d := at_eq (hw ▸ hs_d ok)
  have e1 : at_ wd 11 5 = b := at_eq (hw ▸ hs_b ok)
  unfold decodeRow16; rw [m1]
  show (some (Instr.cMov (at_ wd 6 5) (at_ wd 11 5)) : Option Instr) = _
  rw [e0, e1]

theorem cAddi (d : Reg) (imm : BitVec 5) : Statement (Instr.cAddi d imm) := by
  have ok : hsFits 0x4 d.toNat imm.toNat := ⟨by decide, d.isLt, imm.isLt⟩
  obtain ⟨wd, hw⟩ : ∃ wd, wd = Machine.hsWord 0x4 d.toNat imm.toNat := ⟨_, rfl⟩
  have e : Instr.encode (Instr.cAddi d imm) = wd := hw.symm ▸ rfl
  refine two e (hw ▸ hs_lt ok) (hw ▸ hs_odd ..) ?_
  have m1 : part wd 1 5 = 4 := hw ▸ hs_op ok
  have e0 : at_ wd 6 5 = d := at_eq (hw ▸ hs_d ok)
  have e1 : at_ wd 11 5 = imm := at_eq (hw ▸ hs_b ok)
  unfold decodeRow16; rw [m1]
  show (some (Instr.cAddi (at_ wd 6 5) (at_ wd 11 5)) : Option Instr) = _
  rw [e0, e1]

theorem cLi (d : Reg) (imm : BitVec 5) : Statement (Instr.cLi d imm) := by
  have ok : hsFits 0x5 d.toNat imm.toNat := ⟨by decide, d.isLt, imm.isLt⟩
  obtain ⟨wd, hw⟩ : ∃ wd, wd = Machine.hsWord 0x5 d.toNat imm.toNat := ⟨_, rfl⟩
  have e : Instr.encode (Instr.cLi d imm) = wd := hw.symm ▸ rfl
  refine two e (hw ▸ hs_lt ok) (hw ▸ hs_odd ..) ?_
  have m1 : part wd 1 5 = 5 := hw ▸ hs_op ok
  have e0 : at_ wd 6 5 = d := at_eq (hw ▸ hs_d ok)
  have e1 : at_ wd 11 5 = imm := at_eq (hw ▸ hs_b ok)
  unfold decodeRow16; rw [m1]
  show (some (Instr.cLi (at_ wd 6 5) (at_ wd 11 5)) : Option Instr) = _
  rw [e0, e1]

theorem cAnd (d b : Reg) : Statement (Instr.cAnd d b) := by
  have ok : hsFits 0x6 d.toNat b.toNat := ⟨by decide, d.isLt, b.isLt⟩
  obtain ⟨wd, hw⟩ : ∃ wd, wd = Machine.hsWord 0x6 d.toNat b.toNat := ⟨_, rfl⟩
  have e : Instr.encode (Instr.cAnd d b) = wd := hw.symm ▸ rfl
  refine two e (hw ▸ hs_lt ok) (hw ▸ hs_odd ..) ?_
  have m1 : part wd 1 5 = 6 := hw ▸ hs_op ok
  have e0 : at_ wd 6 5 = d := at_eq (hw ▸ hs_d ok)
  have e1 : at_ wd 11 5 = b := at_eq (hw ▸ hs_b ok)
  unfold decodeRow16; rw [m1]
  show (some (Instr.cAnd (at_ wd 6 5) (at_ wd 11 5)) : Option Instr) = _
  rw [e0, e1]

theorem cOr (d b : Reg) : Statement (Instr.cOr d b) := by
  have ok : hsFits 0x7 d.toNat b.toNat := ⟨by decide, d.isLt, b.isLt⟩
  obtain ⟨wd, hw⟩ : ∃ wd, wd = Machine.hsWord 0x7 d.toNat b.toNat := ⟨_, rfl⟩
  have e : Instr.encode (Instr.cOr d b) = wd := hw.symm ▸ rfl
  refine two e (hw ▸ hs_lt ok) (hw ▸ hs_odd ..) ?_
  have m1 : part wd 1 5 = 7 := hw ▸ hs_op ok
  have e0 : at_ wd 6 5 = d := at_eq (hw ▸ hs_d ok)
  have e1 : at_ wd 11 5 = b := at_eq (hw ▸ hs_b ok)
  unfold decodeRow16; rw [m1]
  show (some (Instr.cOr (at_ wd 6 5) (at_ wd 11 5)) : Option Instr) = _
  rw [e0, e1]

theorem cXor (d b : Reg) : Statement (Instr.cXor d b) := by
  have ok : hsFits 0x8 d.toNat b.toNat := ⟨by decide, d.isLt, b.isLt⟩
  obtain ⟨wd, hw⟩ : ∃ wd, wd = Machine.hsWord 0x8 d.toNat b.toNat := ⟨_, rfl⟩
  have e : Instr.encode (Instr.cXor d b) = wd := hw.symm ▸ rfl
  refine two e (hw ▸ hs_lt ok) (hw ▸ hs_odd ..) ?_
  have m1 : part wd 1 5 = 8 := hw ▸ hs_op ok
  have e0 : at_ wd 6 5 = d := at_eq (hw ▸ hs_d ok)
  have e1 : at_ wd 11 5 = b := at_eq (hw ▸ hs_b ok)
  unfold decodeRow16; rw [m1]
  show (some (Instr.cXor (at_ wd 6 5) (at_ wd 11 5)) : Option Instr) = _
  rw [e0, e1]

theorem cShli (d : Reg) (imm : BitVec 5) : Statement (Instr.cShli d imm) := by
  have ok : hsFits 0x9 d.toNat imm.toNat := ⟨by decide, d.isLt, imm.isLt⟩
  obtain ⟨wd, hw⟩ : ∃ wd, wd = Machine.hsWord 0x9 d.toNat imm.toNat := ⟨_, rfl⟩
  have e : Instr.encode (Instr.cShli d imm) = wd := hw.symm ▸ rfl
  refine two e (hw ▸ hs_lt ok) (hw ▸ hs_odd ..) ?_
  have m1 : part wd 1 5 = 9 := hw ▸ hs_op ok
  have e0 : at_ wd 6 5 = d := at_eq (hw ▸ hs_d ok)
  have e1 : at_ wd 11 5 = imm := at_eq (hw ▸ hs_b ok)
  unfold decodeRow16; rw [m1]
  show (some (Instr.cShli (at_ wd 6 5) (at_ wd 11 5)) : Option Instr) = _
  rw [e0, e1]

theorem cShri (d : Reg) (imm : BitVec 5) : Statement (Instr.cShri d imm) := by
  have ok : hsFits 0xa d.toNat imm.toNat := ⟨by decide, d.isLt, imm.isLt⟩
  obtain ⟨wd, hw⟩ : ∃ wd, wd = Machine.hsWord 0xa d.toNat imm.toNat := ⟨_, rfl⟩
  have e : Instr.encode (Instr.cShri d imm) = wd := hw.symm ▸ rfl
  refine two e (hw ▸ hs_lt ok) (hw ▸ hs_odd ..) ?_
  have m1 : part wd 1 5 = 10 := hw ▸ hs_op ok
  have e0 : at_ wd 6 5 = d := at_eq (hw ▸ hs_d ok)
  have e1 : at_ wd 11 5 = imm := at_eq (hw ▸ hs_b ok)
  unfold decodeRow16; rw [m1]
  show (some (Instr.cShri (at_ wd 6 5) (at_ wd 11 5)) : Option Instr) = _
  rw [e0, e1]

theorem cSrai (d : Reg) (imm : BitVec 5) : Statement (Instr.cSrai d imm) := by
  have ok : hsFits 0xb d.toNat imm.toNat := ⟨by decide, d.isLt, imm.isLt⟩
  obtain ⟨wd, hw⟩ : ∃ wd, wd = Machine.hsWord 0xb d.toNat imm.toNat := ⟨_, rfl⟩
  have e : Instr.encode (Instr.cSrai d imm) = wd := hw.symm ▸ rfl
  refine two e (hw ▸ hs_lt ok) (hw ▸ hs_odd ..) ?_
  have m1 : part wd 1 5 = 11 := hw ▸ hs_op ok
  have e0 : at_ wd 6 5 = d := at_eq (hw ▸ hs_d ok)
  have e1 : at_ wd 11 5 = imm := at_eq (hw ▸ hs_b ok)
  unfold decodeRow16; rw [m1]
  show (some (Instr.cSrai (at_ wd 6 5) (at_ wd 11 5)) : Option Instr) = _
  rw [e0, e1]

theorem cLdsp (d : Reg) (imm : BitVec 5) : Statement (Instr.cLdsp d imm) := by
  have ok : hsFits 0xc d.toNat imm.toNat := ⟨by decide, d.isLt, imm.isLt⟩
  obtain ⟨wd, hw⟩ : ∃ wd, wd = Machine.hsWord 0xc d.toNat imm.toNat := ⟨_, rfl⟩
  have e : Instr.encode (Instr.cLdsp d imm) = wd := hw.symm ▸ rfl
  refine two e (hw ▸ hs_lt ok) (hw ▸ hs_odd ..) ?_
  have m1 : part wd 1 5 = 12 := hw ▸ hs_op ok
  have e0 : at_ wd 6 5 = d := at_eq (hw ▸ hs_d ok)
  have e1 : at_ wd 11 5 = imm := at_eq (hw ▸ hs_b ok)
  unfold decodeRow16; rw [m1]
  show (some (Instr.cLdsp (at_ wd 6 5) (at_ wd 11 5)) : Option Instr) = _
  rw [e0, e1]

theorem cStsp (d : Reg) (imm : BitVec 5) : Statement (Instr.cStsp d imm) := by
  have ok : hsFits 0xd d.toNat imm.toNat := ⟨by decide, d.isLt, imm.isLt⟩
  obtain ⟨wd, hw⟩ : ∃ wd, wd = Machine.hsWord 0xd d.toNat imm.toNat := ⟨_, rfl⟩
  have e : Instr.encode (Instr.cStsp d imm) = wd := hw.symm ▸ rfl
  refine two e (hw ▸ hs_lt ok) (hw ▸ hs_odd ..) ?_
  have m1 : part wd 1 5 = 13 := hw ▸ hs_op ok
  have e0 : at_ wd 6 5 = d := at_eq (hw ▸ hs_d ok)
  have e1 : at_ wd 11 5 = imm := at_eq (hw ▸ hs_b ok)
  unfold decodeRow16; rw [m1]
  show (some (Instr.cStsp (at_ wd 6 5) (at_ wd 11 5)) : Option Instr) = _
  rw [e0, e1]

theorem cBeqz (d : Reg) (imm : BitVec 5) : Statement (Instr.cBeqz d imm) := by
  have ok : hsFits 0xe d.toNat imm.toNat := ⟨by decide, d.isLt, imm.isLt⟩
  obtain ⟨wd, hw⟩ : ∃ wd, wd = Machine.hsWord 0xe d.toNat imm.toNat := ⟨_, rfl⟩
  have e : Instr.encode (Instr.cBeqz d imm) = wd := hw.symm ▸ rfl
  refine two e (hw ▸ hs_lt ok) (hw ▸ hs_odd ..) ?_
  have m1 : part wd 1 5 = 14 := hw ▸ hs_op ok
  have e0 : at_ wd 6 5 = d := at_eq (hw ▸ hs_d ok)
  have e1 : at_ wd 11 5 = imm := at_eq (hw ▸ hs_b ok)
  unfold decodeRow16; rw [m1]
  show (some (Instr.cBeqz (at_ wd 6 5) (at_ wd 11 5)) : Option Instr) = _
  rw [e0, e1]

theorem cBnez (d : Reg) (imm : BitVec 5) : Statement (Instr.cBnez d imm) := by
  have ok : hsFits 0xf d.toNat imm.toNat := ⟨by decide, d.isLt, imm.isLt⟩
  obtain ⟨wd, hw⟩ : ∃ wd, wd = Machine.hsWord 0xf d.toNat imm.toNat := ⟨_, rfl⟩
  have e : Instr.encode (Instr.cBnez d imm) = wd := hw.symm ▸ rfl
  refine two e (hw ▸ hs_lt ok) (hw ▸ hs_odd ..) ?_
  have m1 : part wd 1 5 = 15 := hw ▸ hs_op ok
  have e0 : at_ wd 6 5 = d := at_eq (hw ▸ hs_d ok)
  have e1 : at_ wd 11 5 = imm := at_eq (hw ▸ hs_b ok)
  unfold decodeRow16; rw [m1]
  show (some (Instr.cBnez (at_ wd 6 5) (at_ wd 11 5)) : Option Instr) = _
  rw [e0, e1]

theorem cJ (off : BitVec 10) : Statement (Instr.cJ off) := by
  have h_off := off.isLt
  have ok : hsFits 0x10 (off.toNat % 32) (off.toNat / 32) := ⟨by decide, by omega, by omega⟩
  obtain ⟨wd, hw⟩ : ∃ wd, wd = Machine.hsWord 0x10 (off.toNat % 32) (off.toNat / 32) := ⟨_, rfl⟩
  have e : Instr.encode (Instr.cJ off) = wd := hw.symm ▸ rfl
  refine two e (hw ▸ hs_lt ok) (hw ▸ hs_odd ..) ?_
  have m1 : part wd 1 5 = 16 := hw ▸ hs_op ok
  have e0 : at_ wd 6 10 = off := at_eq (by unfold Machine.hsWord at hw; unfold part; omega)
  unfold decodeRow16; rw [m1]
  show (some (Instr.cJ (at_ wd 6 10)) : Option Instr) = _
  rw [e0]

theorem cJr (d : Reg) : Statement (Instr.cJr d) := by
  have ok : hsFits 0x11 d.toNat 0 := ⟨by decide, d.isLt, by decide⟩
  obtain ⟨wd, hw⟩ : ∃ wd, wd = Machine.hsWord 0x11 d.toNat 0 := ⟨_, rfl⟩
  have e : Instr.encode (Instr.cJr d) = wd := hw.symm ▸ rfl
  refine two e (hw ▸ hs_lt ok) (hw ▸ hs_odd ..) ?_
  have m1 : part wd 1 5 = 17 := hw ▸ hs_op ok
  have e0 : at_ wd 6 5 = d := at_eq (hw ▸ hs_d ok)
  have z0 : part wd 11 5 = 0 := hw ▸ hs_b ok
  unfold decodeRow16; rw [m1]
  show zeroed (part wd 11 5) (Instr.cJr (at_ wd 6 5)) = _
  rw [z0]
  show (some (Instr.cJr (at_ wd 6 5)) : Option Instr) = _
  rw [e0]

theorem vld (la : BitVec 4) (o : BitVec 1) (ty m : BitVec 3) (xb xa : Reg) (v : BitVec 4) : Statement (Instr.vld la o ty m xb xa v) := by
  have ok : wvmFits 0x14 v.toNat xa.toNat xb.toNat m.toNat ty.toNat o.toNat la.toNat := ⟨by decide, v.isLt, xa.isLt, xb.isLt, m.isLt, ty.isLt, o.isLt, la.isLt⟩
  obtain ⟨wd, hw⟩ : ∃ wd, wd = Machine.wvmWord 0x14 v.toNat xa.toNat xb.toNat m.toNat ty.toNat o.toNat la.toNat := ⟨_, rfl⟩
  have e : Instr.encode (Instr.vld la o ty m xb xa v) = wd := hw.symm ▸ rfl
  refine four e (hw ▸ wvm_lt ok) (hw ▸ wvm_odd ..) ?_
  have m1 : part wd 1 6 = 20 := hw ▸ wvm_op ok
  have e0 : at_ wd 28 4 = la := at_eq (hw ▸ wvm_la ok)
  have e1 : at_ wd 27 1 = o := at_eq (hw ▸ wvm_o ok)
  have e2 : at_ wd 24 3 = ty := at_eq (hw ▸ wvm_ty ok)
  have e3 : at_ wd 21 3 = m := at_eq (hw ▸ wvm_m ok)
  have e4 : at_ wd 16 5 = xb := at_eq (hw ▸ wvm_xb ok)
  have e5 : at_ wd 11 5 = xa := at_eq (hw ▸ wvm_xa ok)
  have e6 : at_ wd 7 4 = v := at_eq (hw ▸ wvm_v ok)
  unfold decodeRow32; rw [m1]
  show (some (Instr.vld (at_ wd 28 4) (at_ wd 27 1) (at_ wd 24 3) (at_ wd 21 3) (at_ wd 16 5) (at_ wd 11 5) (at_ wd 7 4)) : Option Instr) = _
  rw [e0, e1, e2, e3, e4, e5, e6]

theorem vlds (la : BitVec 4) (o : BitVec 1) (ty m : BitVec 3) (xb xa : Reg) (v : BitVec 4) : Statement (Instr.vlds la o ty m xb xa v) := by
  have ok : wvmFits 0x15 v.toNat xa.toNat xb.toNat m.toNat ty.toNat o.toNat la.toNat := ⟨by decide, v.isLt, xa.isLt, xb.isLt, m.isLt, ty.isLt, o.isLt, la.isLt⟩
  obtain ⟨wd, hw⟩ : ∃ wd, wd = Machine.wvmWord 0x15 v.toNat xa.toNat xb.toNat m.toNat ty.toNat o.toNat la.toNat := ⟨_, rfl⟩
  have e : Instr.encode (Instr.vlds la o ty m xb xa v) = wd := hw.symm ▸ rfl
  refine four e (hw ▸ wvm_lt ok) (hw ▸ wvm_odd ..) ?_
  have m1 : part wd 1 6 = 21 := hw ▸ wvm_op ok
  have e0 : at_ wd 28 4 = la := at_eq (hw ▸ wvm_la ok)
  have e1 : at_ wd 27 1 = o := at_eq (hw ▸ wvm_o ok)
  have e2 : at_ wd 24 3 = ty := at_eq (hw ▸ wvm_ty ok)
  have e3 : at_ wd 21 3 = m := at_eq (hw ▸ wvm_m ok)
  have e4 : at_ wd 16 5 = xb := at_eq (hw ▸ wvm_xb ok)
  have e5 : at_ wd 11 5 = xa := at_eq (hw ▸ wvm_xa ok)
  have e6 : at_ wd 7 4 = v := at_eq (hw ▸ wvm_v ok)
  unfold decodeRow32; rw [m1]
  show (some (Instr.vlds (at_ wd 28 4) (at_ wd 27 1) (at_ wd 24 3) (at_ wd 21 3) (at_ wd 16 5) (at_ wd 11 5) (at_ wd 7 4)) : Option Instr) = _
  rw [e0, e1, e2, e3, e4, e5, e6]

theorem vgather (la : BitVec 4) (ty m : BitVec 3) (xa : Reg) (vi v : BitVec 4) : Statement (Instr.vgather la ty m xa vi v) := by
  have h_la := la.isLt
  have h_ty := ty.isLt
  have h_m := m.isLt
  have h_xa := xa.isLt
  have h_vi := vi.isLt
  have h_v := v.isLt
  have ok : wvgFits 0x16 v.toNat vi.toNat xa.toNat m.toNat ty.toNat la.toNat := ⟨by decide, v.isLt, vi.isLt, xa.isLt, m.isLt, lt_of_lt_of_le ty.isLt (by decide), la.isLt⟩
  obtain ⟨wd, hw⟩ : ∃ wd, wd = Machine.wvgWord 0x16 v.toNat vi.toNat xa.toNat m.toNat ty.toNat la.toNat := ⟨_, rfl⟩
  have e : Instr.encode (Instr.vgather la ty m xa vi v) = wd := hw.symm ▸ rfl
  refine four e (hw ▸ wvg_lt ok) (hw ▸ wvg_odd ..) ?_
  have m1 : part wd 1 6 = 22 := hw ▸ wvg_op ok
  have e0 : at_ wd 28 4 = la := at_eq (hw ▸ wvg_la ok)
  have e1 : at_ wd 23 3 = ty := at_eq (by unfold Machine.wvgWord at hw; unfold part; omega)
  have e2 : at_ wd 20 3 = m := at_eq (hw ▸ wvg_m ok)
  have e3 : at_ wd 15 5 = xa := at_eq (hw ▸ wvg_xa ok)
  have e4 : at_ wd 11 4 = vi := at_eq (hw ▸ wvg_vi ok)
  have e5 : at_ wd 7 4 = v := at_eq (hw ▸ wvg_v ok)
  have z0 : part wd 26 2 = 0 := by unfold Machine.wvgWord at hw; unfold part; omega
  unfold decodeRow32; rw [m1]
  show zeroed (part wd 26 2) (Instr.vgather (at_ wd 28 4) (at_ wd 23 3) (at_ wd 20 3) (at_ wd 15 5) (at_ wd 11 4) (at_ wd 7 4)) = _
  rw [z0]
  show (some (Instr.vgather (at_ wd 28 4) (at_ wd 23 3) (at_ wd 20 3) (at_ wd 15 5) (at_ wd 11 4) (at_ wd 7 4)) : Option Instr) = _
  rw [e0, e1, e2, e3, e4, e5]

theorem vldb (la : BitVec 4) (o : BitVec 1) (ty m : BitVec 3) (xb xa : Reg) (v : BitVec 4) : Statement (Instr.vldb la o ty m xb xa v) := by
  have ok : wvmFits 0x17 v.toNat xa.toNat xb.toNat m.toNat ty.toNat o.toNat la.toNat := ⟨by decide, v.isLt, xa.isLt, xb.isLt, m.isLt, ty.isLt, o.isLt, la.isLt⟩
  obtain ⟨wd, hw⟩ : ∃ wd, wd = Machine.wvmWord 0x17 v.toNat xa.toNat xb.toNat m.toNat ty.toNat o.toNat la.toNat := ⟨_, rfl⟩
  have e : Instr.encode (Instr.vldb la o ty m xb xa v) = wd := hw.symm ▸ rfl
  refine four e (hw ▸ wvm_lt ok) (hw ▸ wvm_odd ..) ?_
  have m1 : part wd 1 6 = 23 := hw ▸ wvm_op ok
  have e0 : at_ wd 28 4 = la := at_eq (hw ▸ wvm_la ok)
  have e1 : at_ wd 27 1 = o := at_eq (hw ▸ wvm_o ok)
  have e2 : at_ wd 24 3 = ty := at_eq (hw ▸ wvm_ty ok)
  have e3 : at_ wd 21 3 = m := at_eq (hw ▸ wvm_m ok)
  have e4 : at_ wd 16 5 = xb := at_eq (hw ▸ wvm_xb ok)
  have e5 : at_ wd 11 5 = xa := at_eq (hw ▸ wvm_xa ok)
  have e6 : at_ wd 7 4 = v := at_eq (hw ▸ wvm_v ok)
  unfold decodeRow32; rw [m1]
  show (some (Instr.vldb (at_ wd 28 4) (at_ wd 27 1) (at_ wd 24 3) (at_ wd 21 3) (at_ wd 16 5) (at_ wd 11 5) (at_ wd 7 4)) : Option Instr) = _
  rw [e0, e1, e2, e3, e4, e5, e6]

theorem vst (la : BitVec 4) (o : BitVec 1) (ty m : BitVec 3) (xb xa : Reg) (v : BitVec 4) : Statement (Instr.vst la o ty m xb xa v) := by
  have ok : wvmFits 0x18 v.toNat xa.toNat xb.toNat m.toNat ty.toNat o.toNat la.toNat := ⟨by decide, v.isLt, xa.isLt, xb.isLt, m.isLt, ty.isLt, o.isLt, la.isLt⟩
  obtain ⟨wd, hw⟩ : ∃ wd, wd = Machine.wvmWord 0x18 v.toNat xa.toNat xb.toNat m.toNat ty.toNat o.toNat la.toNat := ⟨_, rfl⟩
  have e : Instr.encode (Instr.vst la o ty m xb xa v) = wd := hw.symm ▸ rfl
  refine four e (hw ▸ wvm_lt ok) (hw ▸ wvm_odd ..) ?_
  have m1 : part wd 1 6 = 24 := hw ▸ wvm_op ok
  have e0 : at_ wd 28 4 = la := at_eq (hw ▸ wvm_la ok)
  have e1 : at_ wd 27 1 = o := at_eq (hw ▸ wvm_o ok)
  have e2 : at_ wd 24 3 = ty := at_eq (hw ▸ wvm_ty ok)
  have e3 : at_ wd 21 3 = m := at_eq (hw ▸ wvm_m ok)
  have e4 : at_ wd 16 5 = xb := at_eq (hw ▸ wvm_xb ok)
  have e5 : at_ wd 11 5 = xa := at_eq (hw ▸ wvm_xa ok)
  have e6 : at_ wd 7 4 = v := at_eq (hw ▸ wvm_v ok)
  unfold decodeRow32; rw [m1]
  show (some (Instr.vst (at_ wd 28 4) (at_ wd 27 1) (at_ wd 24 3) (at_ wd 21 3) (at_ wd 16 5) (at_ wd 11 5) (at_ wd 7 4)) : Option Instr) = _
  rw [e0, e1, e2, e3, e4, e5, e6]

theorem vsts (la : BitVec 4) (o : BitVec 1) (ty m : BitVec 3) (xb xa : Reg) (v : BitVec 4) : Statement (Instr.vsts la o ty m xb xa v) := by
  have ok : wvmFits 0x19 v.toNat xa.toNat xb.toNat m.toNat ty.toNat o.toNat la.toNat := ⟨by decide, v.isLt, xa.isLt, xb.isLt, m.isLt, ty.isLt, o.isLt, la.isLt⟩
  obtain ⟨wd, hw⟩ : ∃ wd, wd = Machine.wvmWord 0x19 v.toNat xa.toNat xb.toNat m.toNat ty.toNat o.toNat la.toNat := ⟨_, rfl⟩
  have e : Instr.encode (Instr.vsts la o ty m xb xa v) = wd := hw.symm ▸ rfl
  refine four e (hw ▸ wvm_lt ok) (hw ▸ wvm_odd ..) ?_
  have m1 : part wd 1 6 = 25 := hw ▸ wvm_op ok
  have e0 : at_ wd 28 4 = la := at_eq (hw ▸ wvm_la ok)
  have e1 : at_ wd 27 1 = o := at_eq (hw ▸ wvm_o ok)
  have e2 : at_ wd 24 3 = ty := at_eq (hw ▸ wvm_ty ok)
  have e3 : at_ wd 21 3 = m := at_eq (hw ▸ wvm_m ok)
  have e4 : at_ wd 16 5 = xb := at_eq (hw ▸ wvm_xb ok)
  have e5 : at_ wd 11 5 = xa := at_eq (hw ▸ wvm_xa ok)
  have e6 : at_ wd 7 4 = v := at_eq (hw ▸ wvm_v ok)
  unfold decodeRow32; rw [m1]
  show (some (Instr.vsts (at_ wd 28 4) (at_ wd 27 1) (at_ wd 24 3) (at_ wd 21 3) (at_ wd 16 5) (at_ wd 11 5) (at_ wd 7 4)) : Option Instr) = _
  rw [e0, e1, e2, e3, e4, e5, e6]

theorem vscatter (la : BitVec 4) (ty m : BitVec 3) (xa : Reg) (vi v : BitVec 4) : Statement (Instr.vscatter la ty m xa vi v) := by
  have h_la := la.isLt
  have h_ty := ty.isLt
  have h_m := m.isLt
  have h_xa := xa.isLt
  have h_vi := vi.isLt
  have h_v := v.isLt
  have ok : wvgFits 0x1a v.toNat vi.toNat xa.toNat m.toNat ty.toNat la.toNat := ⟨by decide, v.isLt, vi.isLt, xa.isLt, m.isLt, lt_of_lt_of_le ty.isLt (by decide), la.isLt⟩
  obtain ⟨wd, hw⟩ : ∃ wd, wd = Machine.wvgWord 0x1a v.toNat vi.toNat xa.toNat m.toNat ty.toNat la.toNat := ⟨_, rfl⟩
  have e : Instr.encode (Instr.vscatter la ty m xa vi v) = wd := hw.symm ▸ rfl
  refine four e (hw ▸ wvg_lt ok) (hw ▸ wvg_odd ..) ?_
  have m1 : part wd 1 6 = 26 := hw ▸ wvg_op ok
  have e0 : at_ wd 28 4 = la := at_eq (hw ▸ wvg_la ok)
  have e1 : at_ wd 23 3 = ty := at_eq (by unfold Machine.wvgWord at hw; unfold part; omega)
  have e2 : at_ wd 20 3 = m := at_eq (hw ▸ wvg_m ok)
  have e3 : at_ wd 15 5 = xa := at_eq (hw ▸ wvg_xa ok)
  have e4 : at_ wd 11 4 = vi := at_eq (hw ▸ wvg_vi ok)
  have e5 : at_ wd 7 4 = v := at_eq (hw ▸ wvg_v ok)
  have z0 : part wd 26 2 = 0 := by unfold Machine.wvgWord at hw; unfold part; omega
  unfold decodeRow32; rw [m1]
  show zeroed (part wd 26 2) (Instr.vscatter (at_ wd 28 4) (at_ wd 23 3) (at_ wd 20 3) (at_ wd 15 5) (at_ wd 11 4) (at_ wd 7 4)) = _
  rw [z0]
  show (some (Instr.vscatter (at_ wd 28 4) (at_ wd 23 3) (at_ wd 20 3) (at_ wd 15 5) (at_ wd 11 4) (at_ wd 7 4)) : Option Instr) = _
  rw [e0, e1, e2, e3, e4, e5]

theorem vldbc (la : BitVec 4) (o : BitVec 1) (m : BitVec 3) (xb xa : Reg) (v : BitVec 4) : Statement (Instr.vldbc la o m xb xa v) := by
  have ok : wvmFits 0x1b v.toNat xa.toNat xb.toNat m.toNat 0 o.toNat la.toNat := ⟨by decide, v.isLt, xa.isLt, xb.isLt, m.isLt, by decide, o.isLt, la.isLt⟩
  obtain ⟨wd, hw⟩ : ∃ wd, wd = Machine.wvmWord 0x1b v.toNat xa.toNat xb.toNat m.toNat 0 o.toNat la.toNat := ⟨_, rfl⟩
  have e : Instr.encode (Instr.vldbc la o m xb xa v) = wd := hw.symm ▸ rfl
  refine four e (hw ▸ wvm_lt ok) (hw ▸ wvm_odd ..) ?_
  have m1 : part wd 1 6 = 27 := hw ▸ wvm_op ok
  have e0 : at_ wd 28 4 = la := at_eq (hw ▸ wvm_la ok)
  have e1 : at_ wd 27 1 = o := at_eq (hw ▸ wvm_o ok)
  have e2 : at_ wd 21 3 = m := at_eq (hw ▸ wvm_m ok)
  have e3 : at_ wd 16 5 = xb := at_eq (hw ▸ wvm_xb ok)
  have e4 : at_ wd 11 5 = xa := at_eq (hw ▸ wvm_xa ok)
  have e5 : at_ wd 7 4 = v := at_eq (hw ▸ wvm_v ok)
  have z0 : part wd 24 3 = 0 := hw ▸ wvm_ty ok
  unfold decodeRow32; rw [m1]
  show zeroed (part wd 24 3) (Instr.vldbc (at_ wd 28 4) (at_ wd 27 1) (at_ wd 21 3) (at_ wd 16 5) (at_ wd 11 5) (at_ wd 7 4)) = _
  rw [z0]
  show (some (Instr.vldbc (at_ wd 28 4) (at_ wd 27 1) (at_ wd 21 3) (at_ wd 16 5) (at_ wd 11 5) (at_ wd 7 4)) : Option Instr) = _
  rw [e0, e1, e2, e3, e4, e5]

theorem vadd (la : BitVec 4) (ty m : BitVec 3) (vb va vd : BitVec 4) : Statement (Instr.vadd la ty m vb va vd) := by
  have ok : wvFits 0x1c vd.toNat va.toNat vb.toNat m.toNat ty.toNat 0 la.toNat := ⟨by decide, vd.isLt, va.isLt, vb.isLt, m.isLt, ty.isLt, by decide, la.isLt⟩
  obtain ⟨wd, hw⟩ : ∃ wd, wd = Machine.wvWord 0x1c vd.toNat va.toNat vb.toNat m.toNat ty.toNat 0 la.toNat := ⟨_, rfl⟩
  have e : Instr.encode (Instr.vadd la ty m vb va vd) = wd := hw.symm ▸ rfl
  refine four e (hw ▸ wv_lt ok) (hw ▸ wv_odd ..) ?_
  have m1 : part wd 1 6 = 28 := hw ▸ wv_op ok
  have m2 : part wd 25 3 = 0 := hw ▸ wv_fn ok
  have e0 : at_ wd 28 4 = la := at_eq (hw ▸ wv_la ok)
  have e1 : at_ wd 22 3 = ty := at_eq (hw ▸ wv_ty ok)
  have e2 : at_ wd 19 3 = m := at_eq (hw ▸ wv_m ok)
  have e3 : at_ wd 15 4 = vb := at_eq (hw ▸ wv_vb ok)
  have e4 : at_ wd 11 4 = va := at_eq (hw ▸ wv_va ok)
  have e5 : at_ wd 7 4 = vd := at_eq (hw ▸ wv_vd ok)
  unfold decodeRow32; rw [m1]
  show decVfa wd = _; unfold decVfa; rw [m2]
  show (some (Instr.vadd (at_ wd 28 4) (at_ wd 22 3) (at_ wd 19 3) (at_ wd 15 4) (at_ wd 11 4) (at_ wd 7 4)) : Option Instr) = _
  rw [e0, e1, e2, e3, e4, e5]

theorem vsub (la : BitVec 4) (ty m : BitVec 3) (vb va vd : BitVec 4) : Statement (Instr.vsub la ty m vb va vd) := by
  have ok : wvFits 0x1c vd.toNat va.toNat vb.toNat m.toNat ty.toNat 1 la.toNat := ⟨by decide, vd.isLt, va.isLt, vb.isLt, m.isLt, ty.isLt, by decide, la.isLt⟩
  obtain ⟨wd, hw⟩ : ∃ wd, wd = Machine.wvWord 0x1c vd.toNat va.toNat vb.toNat m.toNat ty.toNat 1 la.toNat := ⟨_, rfl⟩
  have e : Instr.encode (Instr.vsub la ty m vb va vd) = wd := hw.symm ▸ rfl
  refine four e (hw ▸ wv_lt ok) (hw ▸ wv_odd ..) ?_
  have m1 : part wd 1 6 = 28 := hw ▸ wv_op ok
  have m2 : part wd 25 3 = 1 := hw ▸ wv_fn ok
  have e0 : at_ wd 28 4 = la := at_eq (hw ▸ wv_la ok)
  have e1 : at_ wd 22 3 = ty := at_eq (hw ▸ wv_ty ok)
  have e2 : at_ wd 19 3 = m := at_eq (hw ▸ wv_m ok)
  have e3 : at_ wd 15 4 = vb := at_eq (hw ▸ wv_vb ok)
  have e4 : at_ wd 11 4 = va := at_eq (hw ▸ wv_va ok)
  have e5 : at_ wd 7 4 = vd := at_eq (hw ▸ wv_vd ok)
  unfold decodeRow32; rw [m1]
  show decVfa wd = _; unfold decVfa; rw [m2]
  show (some (Instr.vsub (at_ wd 28 4) (at_ wd 22 3) (at_ wd 19 3) (at_ wd 15 4) (at_ wd 11 4) (at_ wd 7 4)) : Option Instr) = _
  rw [e0, e1, e2, e3, e4, e5]

theorem vmul (la : BitVec 4) (ty m : BitVec 3) (vb va vd : BitVec 4) : Statement (Instr.vmul la ty m vb va vd) := by
  have ok : wvFits 0x1c vd.toNat va.toNat vb.toNat m.toNat ty.toNat 2 la.toNat := ⟨by decide, vd.isLt, va.isLt, vb.isLt, m.isLt, ty.isLt, by decide, la.isLt⟩
  obtain ⟨wd, hw⟩ : ∃ wd, wd = Machine.wvWord 0x1c vd.toNat va.toNat vb.toNat m.toNat ty.toNat 2 la.toNat := ⟨_, rfl⟩
  have e : Instr.encode (Instr.vmul la ty m vb va vd) = wd := hw.symm ▸ rfl
  refine four e (hw ▸ wv_lt ok) (hw ▸ wv_odd ..) ?_
  have m1 : part wd 1 6 = 28 := hw ▸ wv_op ok
  have m2 : part wd 25 3 = 2 := hw ▸ wv_fn ok
  have e0 : at_ wd 28 4 = la := at_eq (hw ▸ wv_la ok)
  have e1 : at_ wd 22 3 = ty := at_eq (hw ▸ wv_ty ok)
  have e2 : at_ wd 19 3 = m := at_eq (hw ▸ wv_m ok)
  have e3 : at_ wd 15 4 = vb := at_eq (hw ▸ wv_vb ok)
  have e4 : at_ wd 11 4 = va := at_eq (hw ▸ wv_va ok)
  have e5 : at_ wd 7 4 = vd := at_eq (hw ▸ wv_vd ok)
  unfold decodeRow32; rw [m1]
  show decVfa wd = _; unfold decVfa; rw [m2]
  show (some (Instr.vmul (at_ wd 28 4) (at_ wd 22 3) (at_ wd 19 3) (at_ wd 15 4) (at_ wd 11 4) (at_ wd 7 4)) : Option Instr) = _
  rw [e0, e1, e2, e3, e4, e5]

theorem vmin (la : BitVec 4) (ty m : BitVec 3) (vb va vd : BitVec 4) : Statement (Instr.vmin la ty m vb va vd) := by
  have ok : wvFits 0x1c vd.toNat va.toNat vb.toNat m.toNat ty.toNat 3 la.toNat := ⟨by decide, vd.isLt, va.isLt, vb.isLt, m.isLt, ty.isLt, by decide, la.isLt⟩
  obtain ⟨wd, hw⟩ : ∃ wd, wd = Machine.wvWord 0x1c vd.toNat va.toNat vb.toNat m.toNat ty.toNat 3 la.toNat := ⟨_, rfl⟩
  have e : Instr.encode (Instr.vmin la ty m vb va vd) = wd := hw.symm ▸ rfl
  refine four e (hw ▸ wv_lt ok) (hw ▸ wv_odd ..) ?_
  have m1 : part wd 1 6 = 28 := hw ▸ wv_op ok
  have m2 : part wd 25 3 = 3 := hw ▸ wv_fn ok
  have e0 : at_ wd 28 4 = la := at_eq (hw ▸ wv_la ok)
  have e1 : at_ wd 22 3 = ty := at_eq (hw ▸ wv_ty ok)
  have e2 : at_ wd 19 3 = m := at_eq (hw ▸ wv_m ok)
  have e3 : at_ wd 15 4 = vb := at_eq (hw ▸ wv_vb ok)
  have e4 : at_ wd 11 4 = va := at_eq (hw ▸ wv_va ok)
  have e5 : at_ wd 7 4 = vd := at_eq (hw ▸ wv_vd ok)
  unfold decodeRow32; rw [m1]
  show decVfa wd = _; unfold decVfa; rw [m2]
  show (some (Instr.vmin (at_ wd 28 4) (at_ wd 22 3) (at_ wd 19 3) (at_ wd 15 4) (at_ wd 11 4) (at_ wd 7 4)) : Option Instr) = _
  rw [e0, e1, e2, e3, e4, e5]

theorem vmax (la : BitVec 4) (ty m : BitVec 3) (vb va vd : BitVec 4) : Statement (Instr.vmax la ty m vb va vd) := by
  have ok : wvFits 0x1c vd.toNat va.toNat vb.toNat m.toNat ty.toNat 4 la.toNat := ⟨by decide, vd.isLt, va.isLt, vb.isLt, m.isLt, ty.isLt, by decide, la.isLt⟩
  obtain ⟨wd, hw⟩ : ∃ wd, wd = Machine.wvWord 0x1c vd.toNat va.toNat vb.toNat m.toNat ty.toNat 4 la.toNat := ⟨_, rfl⟩
  have e : Instr.encode (Instr.vmax la ty m vb va vd) = wd := hw.symm ▸ rfl
  refine four e (hw ▸ wv_lt ok) (hw ▸ wv_odd ..) ?_
  have m1 : part wd 1 6 = 28 := hw ▸ wv_op ok
  have m2 : part wd 25 3 = 4 := hw ▸ wv_fn ok
  have e0 : at_ wd 28 4 = la := at_eq (hw ▸ wv_la ok)
  have e1 : at_ wd 22 3 = ty := at_eq (hw ▸ wv_ty ok)
  have e2 : at_ wd 19 3 = m := at_eq (hw ▸ wv_m ok)
  have e3 : at_ wd 15 4 = vb := at_eq (hw ▸ wv_vb ok)
  have e4 : at_ wd 11 4 = va := at_eq (hw ▸ wv_va ok)
  have e5 : at_ wd 7 4 = vd := at_eq (hw ▸ wv_vd ok)
  unfold decodeRow32; rw [m1]
  show decVfa wd = _; unfold decVfa; rw [m2]
  show (some (Instr.vmax (at_ wd 28 4) (at_ wd 22 3) (at_ wd 19 3) (at_ wd 15 4) (at_ wd 11 4) (at_ wd 7 4)) : Option Instr) = _
  rw [e0, e1, e2, e3, e4, e5]

theorem vdiv (la : BitVec 4) (ty m : BitVec 3) (vb va vd : BitVec 4) : Statement (Instr.vdiv la ty m vb va vd) := by
  have ok : wvFits 0x1c vd.toNat va.toNat vb.toNat m.toNat ty.toNat 5 la.toNat := ⟨by decide, vd.isLt, va.isLt, vb.isLt, m.isLt, ty.isLt, by decide, la.isLt⟩
  obtain ⟨wd, hw⟩ : ∃ wd, wd = Machine.wvWord 0x1c vd.toNat va.toNat vb.toNat m.toNat ty.toNat 5 la.toNat := ⟨_, rfl⟩
  have e : Instr.encode (Instr.vdiv la ty m vb va vd) = wd := hw.symm ▸ rfl
  refine four e (hw ▸ wv_lt ok) (hw ▸ wv_odd ..) ?_
  have m1 : part wd 1 6 = 28 := hw ▸ wv_op ok
  have m2 : part wd 25 3 = 5 := hw ▸ wv_fn ok
  have e0 : at_ wd 28 4 = la := at_eq (hw ▸ wv_la ok)
  have e1 : at_ wd 22 3 = ty := at_eq (hw ▸ wv_ty ok)
  have e2 : at_ wd 19 3 = m := at_eq (hw ▸ wv_m ok)
  have e3 : at_ wd 15 4 = vb := at_eq (hw ▸ wv_vb ok)
  have e4 : at_ wd 11 4 = va := at_eq (hw ▸ wv_va ok)
  have e5 : at_ wd 7 4 = vd := at_eq (hw ▸ wv_vd ok)
  unfold decodeRow32; rw [m1]
  show decVfa wd = _; unfold decVfa; rw [m2]
  show (some (Instr.vdiv (at_ wd 28 4) (at_ wd 22 3) (at_ wd 19 3) (at_ wd 15 4) (at_ wd 11 4) (at_ wd 7 4)) : Option Instr) = _
  rw [e0, e1, e2, e3, e4, e5]

theorem vabs (la : BitVec 4) (ty m : BitVec 3) (va vd : BitVec 4) : Statement (Instr.vabs la ty m va vd) := by
  have ok : wvFits 0x1c vd.toNat va.toNat 0 m.toNat ty.toNat 6 la.toNat := ⟨by decide, vd.isLt, va.isLt, by decide, m.isLt, ty.isLt, by decide, la.isLt⟩
  obtain ⟨wd, hw⟩ : ∃ wd, wd = Machine.wvWord 0x1c vd.toNat va.toNat 0 m.toNat ty.toNat 6 la.toNat := ⟨_, rfl⟩
  have e : Instr.encode (Instr.vabs la ty m va vd) = wd := hw.symm ▸ rfl
  refine four e (hw ▸ wv_lt ok) (hw ▸ wv_odd ..) ?_
  have m1 : part wd 1 6 = 28 := hw ▸ wv_op ok
  have m2 : part wd 25 3 = 6 := hw ▸ wv_fn ok
  have e0 : at_ wd 28 4 = la := at_eq (hw ▸ wv_la ok)
  have e1 : at_ wd 22 3 = ty := at_eq (hw ▸ wv_ty ok)
  have e2 : at_ wd 19 3 = m := at_eq (hw ▸ wv_m ok)
  have e3 : at_ wd 11 4 = va := at_eq (hw ▸ wv_va ok)
  have e4 : at_ wd 7 4 = vd := at_eq (hw ▸ wv_vd ok)
  have z0 : part wd 15 4 = 0 := hw ▸ wv_vb ok
  unfold decodeRow32; rw [m1]
  show decVfa wd = _; unfold decVfa; rw [m2]
  show zeroed (part wd 15 4) (Instr.vabs (at_ wd 28 4) (at_ wd 22 3) (at_ wd 19 3) (at_ wd 11 4) (at_ wd 7 4)) = _
  rw [z0]
  show (some (Instr.vabs (at_ wd 28 4) (at_ wd 22 3) (at_ wd 19 3) (at_ wd 11 4) (at_ wd 7 4)) : Option Instr) = _
  rw [e0, e1, e2, e3, e4]

theorem vneg (la : BitVec 4) (ty m : BitVec 3) (va vd : BitVec 4) : Statement (Instr.vneg la ty m va vd) := by
  have ok : wvFits 0x1c vd.toNat va.toNat 0 m.toNat ty.toNat 7 la.toNat := ⟨by decide, vd.isLt, va.isLt, by decide, m.isLt, ty.isLt, by decide, la.isLt⟩
  obtain ⟨wd, hw⟩ : ∃ wd, wd = Machine.wvWord 0x1c vd.toNat va.toNat 0 m.toNat ty.toNat 7 la.toNat := ⟨_, rfl⟩
  have e : Instr.encode (Instr.vneg la ty m va vd) = wd := hw.symm ▸ rfl
  refine four e (hw ▸ wv_lt ok) (hw ▸ wv_odd ..) ?_
  have m1 : part wd 1 6 = 28 := hw ▸ wv_op ok
  have m2 : part wd 25 3 = 7 := hw ▸ wv_fn ok
  have e0 : at_ wd 28 4 = la := at_eq (hw ▸ wv_la ok)
  have e1 : at_ wd 22 3 = ty := at_eq (hw ▸ wv_ty ok)
  have e2 : at_ wd 19 3 = m := at_eq (hw ▸ wv_m ok)
  have e3 : at_ wd 11 4 = va := at_eq (hw ▸ wv_va ok)
  have e4 : at_ wd 7 4 = vd := at_eq (hw ▸ wv_vd ok)
  have z0 : part wd 15 4 = 0 := hw ▸ wv_vb ok
  unfold decodeRow32; rw [m1]
  show decVfa wd = _; unfold decVfa; rw [m2]
  show zeroed (part wd 15 4) (Instr.vneg (at_ wd 28 4) (at_ wd 22 3) (at_ wd 19 3) (at_ wd 11 4) (at_ wd 7 4)) = _
  rw [z0]
  show (some (Instr.vneg (at_ wd 28 4) (at_ wd 22 3) (at_ wd 19 3) (at_ wd 11 4) (at_ wd 7 4)) : Option Instr) = _
  rw [e0, e1, e2, e3, e4]

theorem vfma (la : BitVec 4) (ty m : BitVec 3) (vb va vd : BitVec 4) : Statement (Instr.vfma la ty m vb va vd) := by
  have ok : wvFits 0x1d vd.toNat va.toNat vb.toNat m.toNat ty.toNat 0 la.toNat := ⟨by decide, vd.isLt, va.isLt, vb.isLt, m.isLt, ty.isLt, by decide, la.isLt⟩
  obtain ⟨wd, hw⟩ : ∃ wd, wd = Machine.wvWord 0x1d vd.toNat va.toNat vb.toNat m.toNat ty.toNat 0 la.toNat := ⟨_, rfl⟩
  have e : Instr.encode (Instr.vfma la ty m vb va vd) = wd := hw.symm ▸ rfl
  refine four e (hw ▸ wv_lt ok) (hw ▸ wv_odd ..) ?_
  have m1 : part wd 1 6 = 29 := hw ▸ wv_op ok
  have m2 : part wd 25 3 = 0 := hw ▸ wv_fn ok
  have e0 : at_ wd 28 4 = la := at_eq (hw ▸ wv_la ok)
  have e1 : at_ wd 22 3 = ty := at_eq (hw ▸ wv_ty ok)
  have e2 : at_ wd 19 3 = m := at_eq (hw ▸ wv_m ok)
  have e3 : at_ wd 15 4 = vb := at_eq (hw ▸ wv_vb ok)
  have e4 : at_ wd 11 4 = va := at_eq (hw ▸ wv_va ok)
  have e5 : at_ wd 7 4 = vd := at_eq (hw ▸ wv_vd ok)
  unfold decodeRow32; rw [m1]
  show decVfm wd = _; unfold decVfm; rw [m2]
  show (some (Instr.vfma (at_ wd 28 4) (at_ wd 22 3) (at_ wd 19 3) (at_ wd 15 4) (at_ wd 11 4) (at_ wd 7 4)) : Option Instr) = _
  rw [e0, e1, e2, e3, e4, e5]

theorem vfms (la : BitVec 4) (ty m : BitVec 3) (vb va vd : BitVec 4) : Statement (Instr.vfms la ty m vb va vd) := by
  have ok : wvFits 0x1d vd.toNat va.toNat vb.toNat m.toNat ty.toNat 1 la.toNat := ⟨by decide, vd.isLt, va.isLt, vb.isLt, m.isLt, ty.isLt, by decide, la.isLt⟩
  obtain ⟨wd, hw⟩ : ∃ wd, wd = Machine.wvWord 0x1d vd.toNat va.toNat vb.toNat m.toNat ty.toNat 1 la.toNat := ⟨_, rfl⟩
  have e : Instr.encode (Instr.vfms la ty m vb va vd) = wd := hw.symm ▸ rfl
  refine four e (hw ▸ wv_lt ok) (hw ▸ wv_odd ..) ?_
  have m1 : part wd 1 6 = 29 := hw ▸ wv_op ok
  have m2 : part wd 25 3 = 1 := hw ▸ wv_fn ok
  have e0 : at_ wd 28 4 = la := at_eq (hw ▸ wv_la ok)
  have e1 : at_ wd 22 3 = ty := at_eq (hw ▸ wv_ty ok)
  have e2 : at_ wd 19 3 = m := at_eq (hw ▸ wv_m ok)
  have e3 : at_ wd 15 4 = vb := at_eq (hw ▸ wv_vb ok)
  have e4 : at_ wd 11 4 = va := at_eq (hw ▸ wv_va ok)
  have e5 : at_ wd 7 4 = vd := at_eq (hw ▸ wv_vd ok)
  unfold decodeRow32; rw [m1]
  show decVfm wd = _; unfold decVfm; rw [m2]
  show (some (Instr.vfms (at_ wd 28 4) (at_ wd 22 3) (at_ wd 19 3) (at_ wd 15 4) (at_ wd 11 4) (at_ wd 7 4)) : Option Instr) = _
  rw [e0, e1, e2, e3, e4, e5]

theorem vfnma (la : BitVec 4) (ty m : BitVec 3) (vb va vd : BitVec 4) : Statement (Instr.vfnma la ty m vb va vd) := by
  have ok : wvFits 0x1d vd.toNat va.toNat vb.toNat m.toNat ty.toNat 2 la.toNat := ⟨by decide, vd.isLt, va.isLt, vb.isLt, m.isLt, ty.isLt, by decide, la.isLt⟩
  obtain ⟨wd, hw⟩ : ∃ wd, wd = Machine.wvWord 0x1d vd.toNat va.toNat vb.toNat m.toNat ty.toNat 2 la.toNat := ⟨_, rfl⟩
  have e : Instr.encode (Instr.vfnma la ty m vb va vd) = wd := hw.symm ▸ rfl
  refine four e (hw ▸ wv_lt ok) (hw ▸ wv_odd ..) ?_
  have m1 : part wd 1 6 = 29 := hw ▸ wv_op ok
  have m2 : part wd 25 3 = 2 := hw ▸ wv_fn ok
  have e0 : at_ wd 28 4 = la := at_eq (hw ▸ wv_la ok)
  have e1 : at_ wd 22 3 = ty := at_eq (hw ▸ wv_ty ok)
  have e2 : at_ wd 19 3 = m := at_eq (hw ▸ wv_m ok)
  have e3 : at_ wd 15 4 = vb := at_eq (hw ▸ wv_vb ok)
  have e4 : at_ wd 11 4 = va := at_eq (hw ▸ wv_va ok)
  have e5 : at_ wd 7 4 = vd := at_eq (hw ▸ wv_vd ok)
  unfold decodeRow32; rw [m1]
  show decVfm wd = _; unfold decVfm; rw [m2]
  show (some (Instr.vfnma (at_ wd 28 4) (at_ wd 22 3) (at_ wd 19 3) (at_ wd 15 4) (at_ wd 11 4) (at_ wd 7 4)) : Option Instr) = _
  rw [e0, e1, e2, e3, e4, e5]

theorem vsqrt (la : BitVec 4) (ty m : BitVec 3) (va vd : BitVec 4) : Statement (Instr.vsqrt la ty m va vd) := by
  have ok : wvFits 0x1d vd.toNat va.toNat 0 m.toNat ty.toNat 3 la.toNat := ⟨by decide, vd.isLt, va.isLt, by decide, m.isLt, ty.isLt, by decide, la.isLt⟩
  obtain ⟨wd, hw⟩ : ∃ wd, wd = Machine.wvWord 0x1d vd.toNat va.toNat 0 m.toNat ty.toNat 3 la.toNat := ⟨_, rfl⟩
  have e : Instr.encode (Instr.vsqrt la ty m va vd) = wd := hw.symm ▸ rfl
  refine four e (hw ▸ wv_lt ok) (hw ▸ wv_odd ..) ?_
  have m1 : part wd 1 6 = 29 := hw ▸ wv_op ok
  have m2 : part wd 25 3 = 3 := hw ▸ wv_fn ok
  have e0 : at_ wd 28 4 = la := at_eq (hw ▸ wv_la ok)
  have e1 : at_ wd 22 3 = ty := at_eq (hw ▸ wv_ty ok)
  have e2 : at_ wd 19 3 = m := at_eq (hw ▸ wv_m ok)
  have e3 : at_ wd 11 4 = va := at_eq (hw ▸ wv_va ok)
  have e4 : at_ wd 7 4 = vd := at_eq (hw ▸ wv_vd ok)
  have z0 : part wd 15 4 = 0 := hw ▸ wv_vb ok
  unfold decodeRow32; rw [m1]
  show decVfm wd = _; unfold decVfm; rw [m2]
  show zeroed (part wd 15 4) (Instr.vsqrt (at_ wd 28 4) (at_ wd 22 3) (at_ wd 19 3) (at_ wd 11 4) (at_ wd 7 4)) = _
  rw [z0]
  show (some (Instr.vsqrt (at_ wd 28 4) (at_ wd 22 3) (at_ wd 19 3) (at_ wd 11 4) (at_ wd 7 4)) : Option Instr) = _
  rw [e0, e1, e2, e3, e4]

theorem vcps (la : BitVec 4) (ty m : BitVec 3) (vb va vd : BitVec 4) : Statement (Instr.vcps la ty m vb va vd) := by
  have ok : wvFits 0x1d vd.toNat va.toNat vb.toNat m.toNat ty.toNat 4 la.toNat := ⟨by decide, vd.isLt, va.isLt, vb.isLt, m.isLt, ty.isLt, by decide, la.isLt⟩
  obtain ⟨wd, hw⟩ : ∃ wd, wd = Machine.wvWord 0x1d vd.toNat va.toNat vb.toNat m.toNat ty.toNat 4 la.toNat := ⟨_, rfl⟩
  have e : Instr.encode (Instr.vcps la ty m vb va vd) = wd := hw.symm ▸ rfl
  refine four e (hw ▸ wv_lt ok) (hw ▸ wv_odd ..) ?_
  have m1 : part wd 1 6 = 29 := hw ▸ wv_op ok
  have m2 : part wd 25 3 = 4 := hw ▸ wv_fn ok
  have e0 : at_ wd 28 4 = la := at_eq (hw ▸ wv_la ok)
  have e1 : at_ wd 22 3 = ty := at_eq (hw ▸ wv_ty ok)
  have e2 : at_ wd 19 3 = m := at_eq (hw ▸ wv_m ok)
  have e3 : at_ wd 15 4 = vb := at_eq (hw ▸ wv_vb ok)
  have e4 : at_ wd 11 4 = va := at_eq (hw ▸ wv_va ok)
  have e5 : at_ wd 7 4 = vd := at_eq (hw ▸ wv_vd ok)
  unfold decodeRow32; rw [m1]
  show decVfm wd = _; unfold decVfm; rw [m2]
  show (some (Instr.vcps (at_ wd 28 4) (at_ wd 22 3) (at_ wd 19 3) (at_ wd 15 4) (at_ wd 11 4) (at_ wd 7 4)) : Option Instr) = _
  rw [e0, e1, e2, e3, e4, e5]

theorem viadd (la : BitVec 4) (ty m : BitVec 3) (vb va vd : BitVec 4) : Statement (Instr.viadd la ty m vb va vd) := by
  have ok : wvFits 0x1e vd.toNat va.toNat vb.toNat m.toNat ty.toNat 0 la.toNat := ⟨by decide, vd.isLt, va.isLt, vb.isLt, m.isLt, ty.isLt, by decide, la.isLt⟩
  obtain ⟨wd, hw⟩ : ∃ wd, wd = Machine.wvWord 0x1e vd.toNat va.toNat vb.toNat m.toNat ty.toNat 0 la.toNat := ⟨_, rfl⟩
  have e : Instr.encode (Instr.viadd la ty m vb va vd) = wd := hw.symm ▸ rfl
  refine four e (hw ▸ wv_lt ok) (hw ▸ wv_odd ..) ?_
  have m1 : part wd 1 6 = 30 := hw ▸ wv_op ok
  have m2 : part wd 25 3 = 0 := hw ▸ wv_fn ok
  have e0 : at_ wd 28 4 = la := at_eq (hw ▸ wv_la ok)
  have e1 : at_ wd 22 3 = ty := at_eq (hw ▸ wv_ty ok)
  have e2 : at_ wd 19 3 = m := at_eq (hw ▸ wv_m ok)
  have e3 : at_ wd 15 4 = vb := at_eq (hw ▸ wv_vb ok)
  have e4 : at_ wd 11 4 = va := at_eq (hw ▸ wv_va ok)
  have e5 : at_ wd 7 4 = vd := at_eq (hw ▸ wv_vd ok)
  unfold decodeRow32; rw [m1]
  show decVia wd = _; unfold decVia; rw [m2]
  show (some (Instr.viadd (at_ wd 28 4) (at_ wd 22 3) (at_ wd 19 3) (at_ wd 15 4) (at_ wd 11 4) (at_ wd 7 4)) : Option Instr) = _
  rw [e0, e1, e2, e3, e4, e5]

theorem visub (la : BitVec 4) (ty m : BitVec 3) (vb va vd : BitVec 4) : Statement (Instr.visub la ty m vb va vd) := by
  have ok : wvFits 0x1e vd.toNat va.toNat vb.toNat m.toNat ty.toNat 1 la.toNat := ⟨by decide, vd.isLt, va.isLt, vb.isLt, m.isLt, ty.isLt, by decide, la.isLt⟩
  obtain ⟨wd, hw⟩ : ∃ wd, wd = Machine.wvWord 0x1e vd.toNat va.toNat vb.toNat m.toNat ty.toNat 1 la.toNat := ⟨_, rfl⟩
  have e : Instr.encode (Instr.visub la ty m vb va vd) = wd := hw.symm ▸ rfl
  refine four e (hw ▸ wv_lt ok) (hw ▸ wv_odd ..) ?_
  have m1 : part wd 1 6 = 30 := hw ▸ wv_op ok
  have m2 : part wd 25 3 = 1 := hw ▸ wv_fn ok
  have e0 : at_ wd 28 4 = la := at_eq (hw ▸ wv_la ok)
  have e1 : at_ wd 22 3 = ty := at_eq (hw ▸ wv_ty ok)
  have e2 : at_ wd 19 3 = m := at_eq (hw ▸ wv_m ok)
  have e3 : at_ wd 15 4 = vb := at_eq (hw ▸ wv_vb ok)
  have e4 : at_ wd 11 4 = va := at_eq (hw ▸ wv_va ok)
  have e5 : at_ wd 7 4 = vd := at_eq (hw ▸ wv_vd ok)
  unfold decodeRow32; rw [m1]
  show decVia wd = _; unfold decVia; rw [m2]
  show (some (Instr.visub (at_ wd 28 4) (at_ wd 22 3) (at_ wd 19 3) (at_ wd 15 4) (at_ wd 11 4) (at_ wd 7 4)) : Option Instr) = _
  rw [e0, e1, e2, e3, e4, e5]

theorem vimul (la : BitVec 4) (ty m : BitVec 3) (vb va vd : BitVec 4) : Statement (Instr.vimul la ty m vb va vd) := by
  have ok : wvFits 0x1e vd.toNat va.toNat vb.toNat m.toNat ty.toNat 2 la.toNat := ⟨by decide, vd.isLt, va.isLt, vb.isLt, m.isLt, ty.isLt, by decide, la.isLt⟩
  obtain ⟨wd, hw⟩ : ∃ wd, wd = Machine.wvWord 0x1e vd.toNat va.toNat vb.toNat m.toNat ty.toNat 2 la.toNat := ⟨_, rfl⟩
  have e : Instr.encode (Instr.vimul la ty m vb va vd) = wd := hw.symm ▸ rfl
  refine four e (hw ▸ wv_lt ok) (hw ▸ wv_odd ..) ?_
  have m1 : part wd 1 6 = 30 := hw ▸ wv_op ok
  have m2 : part wd 25 3 = 2 := hw ▸ wv_fn ok
  have e0 : at_ wd 28 4 = la := at_eq (hw ▸ wv_la ok)
  have e1 : at_ wd 22 3 = ty := at_eq (hw ▸ wv_ty ok)
  have e2 : at_ wd 19 3 = m := at_eq (hw ▸ wv_m ok)
  have e3 : at_ wd 15 4 = vb := at_eq (hw ▸ wv_vb ok)
  have e4 : at_ wd 11 4 = va := at_eq (hw ▸ wv_va ok)
  have e5 : at_ wd 7 4 = vd := at_eq (hw ▸ wv_vd ok)
  unfold decodeRow32; rw [m1]
  show decVia wd = _; unfold decVia; rw [m2]
  show (some (Instr.vimul (at_ wd 28 4) (at_ wd 22 3) (at_ wd 19 3) (at_ wd 15 4) (at_ wd 11 4) (at_ wd 7 4)) : Option Instr) = _
  rw [e0, e1, e2, e3, e4, e5]

theorem vand (la : BitVec 4) (ty m : BitVec 3) (vb va vd : BitVec 4) : Statement (Instr.vand la ty m vb va vd) := by
  have ok : wvFits 0x1e vd.toNat va.toNat vb.toNat m.toNat ty.toNat 3 la.toNat := ⟨by decide, vd.isLt, va.isLt, vb.isLt, m.isLt, ty.isLt, by decide, la.isLt⟩
  obtain ⟨wd, hw⟩ : ∃ wd, wd = Machine.wvWord 0x1e vd.toNat va.toNat vb.toNat m.toNat ty.toNat 3 la.toNat := ⟨_, rfl⟩
  have e : Instr.encode (Instr.vand la ty m vb va vd) = wd := hw.symm ▸ rfl
  refine four e (hw ▸ wv_lt ok) (hw ▸ wv_odd ..) ?_
  have m1 : part wd 1 6 = 30 := hw ▸ wv_op ok
  have m2 : part wd 25 3 = 3 := hw ▸ wv_fn ok
  have e0 : at_ wd 28 4 = la := at_eq (hw ▸ wv_la ok)
  have e1 : at_ wd 22 3 = ty := at_eq (hw ▸ wv_ty ok)
  have e2 : at_ wd 19 3 = m := at_eq (hw ▸ wv_m ok)
  have e3 : at_ wd 15 4 = vb := at_eq (hw ▸ wv_vb ok)
  have e4 : at_ wd 11 4 = va := at_eq (hw ▸ wv_va ok)
  have e5 : at_ wd 7 4 = vd := at_eq (hw ▸ wv_vd ok)
  unfold decodeRow32; rw [m1]
  show decVia wd = _; unfold decVia; rw [m2]
  show (some (Instr.vand (at_ wd 28 4) (at_ wd 22 3) (at_ wd 19 3) (at_ wd 15 4) (at_ wd 11 4) (at_ wd 7 4)) : Option Instr) = _
  rw [e0, e1, e2, e3, e4, e5]

theorem vor (la : BitVec 4) (ty m : BitVec 3) (vb va vd : BitVec 4) : Statement (Instr.vor la ty m vb va vd) := by
  have ok : wvFits 0x1e vd.toNat va.toNat vb.toNat m.toNat ty.toNat 4 la.toNat := ⟨by decide, vd.isLt, va.isLt, vb.isLt, m.isLt, ty.isLt, by decide, la.isLt⟩
  obtain ⟨wd, hw⟩ : ∃ wd, wd = Machine.wvWord 0x1e vd.toNat va.toNat vb.toNat m.toNat ty.toNat 4 la.toNat := ⟨_, rfl⟩
  have e : Instr.encode (Instr.vor la ty m vb va vd) = wd := hw.symm ▸ rfl
  refine four e (hw ▸ wv_lt ok) (hw ▸ wv_odd ..) ?_
  have m1 : part wd 1 6 = 30 := hw ▸ wv_op ok
  have m2 : part wd 25 3 = 4 := hw ▸ wv_fn ok
  have e0 : at_ wd 28 4 = la := at_eq (hw ▸ wv_la ok)
  have e1 : at_ wd 22 3 = ty := at_eq (hw ▸ wv_ty ok)
  have e2 : at_ wd 19 3 = m := at_eq (hw ▸ wv_m ok)
  have e3 : at_ wd 15 4 = vb := at_eq (hw ▸ wv_vb ok)
  have e4 : at_ wd 11 4 = va := at_eq (hw ▸ wv_va ok)
  have e5 : at_ wd 7 4 = vd := at_eq (hw ▸ wv_vd ok)
  unfold decodeRow32; rw [m1]
  show decVia wd = _; unfold decVia; rw [m2]
  show (some (Instr.vor (at_ wd 28 4) (at_ wd 22 3) (at_ wd 19 3) (at_ wd 15 4) (at_ wd 11 4) (at_ wd 7 4)) : Option Instr) = _
  rw [e0, e1, e2, e3, e4, e5]

theorem vxor (la : BitVec 4) (ty m : BitVec 3) (vb va vd : BitVec 4) : Statement (Instr.vxor la ty m vb va vd) := by
  have ok : wvFits 0x1e vd.toNat va.toNat vb.toNat m.toNat ty.toNat 5 la.toNat := ⟨by decide, vd.isLt, va.isLt, vb.isLt, m.isLt, ty.isLt, by decide, la.isLt⟩
  obtain ⟨wd, hw⟩ : ∃ wd, wd = Machine.wvWord 0x1e vd.toNat va.toNat vb.toNat m.toNat ty.toNat 5 la.toNat := ⟨_, rfl⟩
  have e : Instr.encode (Instr.vxor la ty m vb va vd) = wd := hw.symm ▸ rfl
  refine four e (hw ▸ wv_lt ok) (hw ▸ wv_odd ..) ?_
  have m1 : part wd 1 6 = 30 := hw ▸ wv_op ok
  have m2 : part wd 25 3 = 5 := hw ▸ wv_fn ok
  have e0 : at_ wd 28 4 = la := at_eq (hw ▸ wv_la ok)
  have e1 : at_ wd 22 3 = ty := at_eq (hw ▸ wv_ty ok)
  have e2 : at_ wd 19 3 = m := at_eq (hw ▸ wv_m ok)
  have e3 : at_ wd 15 4 = vb := at_eq (hw ▸ wv_vb ok)
  have e4 : at_ wd 11 4 = va := at_eq (hw ▸ wv_va ok)
  have e5 : at_ wd 7 4 = vd := at_eq (hw ▸ wv_vd ok)
  unfold decodeRow32; rw [m1]
  show decVia wd = _; unfold decVia; rw [m2]
  show (some (Instr.vxor (at_ wd 28 4) (at_ wd 22 3) (at_ wd 19 3) (at_ wd 15 4) (at_ wd 11 4) (at_ wd 7 4)) : Option Instr) = _
  rw [e0, e1, e2, e3, e4, e5]

theorem vimin (la : BitVec 4) (ty m : BitVec 3) (vb va vd : BitVec 4) : Statement (Instr.vimin la ty m vb va vd) := by
  have ok : wvFits 0x1e vd.toNat va.toNat vb.toNat m.toNat ty.toNat 6 la.toNat := ⟨by decide, vd.isLt, va.isLt, vb.isLt, m.isLt, ty.isLt, by decide, la.isLt⟩
  obtain ⟨wd, hw⟩ : ∃ wd, wd = Machine.wvWord 0x1e vd.toNat va.toNat vb.toNat m.toNat ty.toNat 6 la.toNat := ⟨_, rfl⟩
  have e : Instr.encode (Instr.vimin la ty m vb va vd) = wd := hw.symm ▸ rfl
  refine four e (hw ▸ wv_lt ok) (hw ▸ wv_odd ..) ?_
  have m1 : part wd 1 6 = 30 := hw ▸ wv_op ok
  have m2 : part wd 25 3 = 6 := hw ▸ wv_fn ok
  have e0 : at_ wd 28 4 = la := at_eq (hw ▸ wv_la ok)
  have e1 : at_ wd 22 3 = ty := at_eq (hw ▸ wv_ty ok)
  have e2 : at_ wd 19 3 = m := at_eq (hw ▸ wv_m ok)
  have e3 : at_ wd 15 4 = vb := at_eq (hw ▸ wv_vb ok)
  have e4 : at_ wd 11 4 = va := at_eq (hw ▸ wv_va ok)
  have e5 : at_ wd 7 4 = vd := at_eq (hw ▸ wv_vd ok)
  unfold decodeRow32; rw [m1]
  show decVia wd = _; unfold decVia; rw [m2]
  show (some (Instr.vimin (at_ wd 28 4) (at_ wd 22 3) (at_ wd 19 3) (at_ wd 15 4) (at_ wd 11 4) (at_ wd 7 4)) : Option Instr) = _
  rw [e0, e1, e2, e3, e4, e5]

theorem vimax (la : BitVec 4) (ty m : BitVec 3) (vb va vd : BitVec 4) : Statement (Instr.vimax la ty m vb va vd) := by
  have ok : wvFits 0x1e vd.toNat va.toNat vb.toNat m.toNat ty.toNat 7 la.toNat := ⟨by decide, vd.isLt, va.isLt, vb.isLt, m.isLt, ty.isLt, by decide, la.isLt⟩
  obtain ⟨wd, hw⟩ : ∃ wd, wd = Machine.wvWord 0x1e vd.toNat va.toNat vb.toNat m.toNat ty.toNat 7 la.toNat := ⟨_, rfl⟩
  have e : Instr.encode (Instr.vimax la ty m vb va vd) = wd := hw.symm ▸ rfl
  refine four e (hw ▸ wv_lt ok) (hw ▸ wv_odd ..) ?_
  have m1 : part wd 1 6 = 30 := hw ▸ wv_op ok
  have m2 : part wd 25 3 = 7 := hw ▸ wv_fn ok
  have e0 : at_ wd 28 4 = la := at_eq (hw ▸ wv_la ok)
  have e1 : at_ wd 22 3 = ty := at_eq (hw ▸ wv_ty ok)
  have e2 : at_ wd 19 3 = m := at_eq (hw ▸ wv_m ok)
  have e3 : at_ wd 15 4 = vb := at_eq (hw ▸ wv_vb ok)
  have e4 : at_ wd 11 4 = va := at_eq (hw ▸ wv_va ok)
  have e5 : at_ wd 7 4 = vd := at_eq (hw ▸ wv_vd ok)
  unfold decodeRow32; rw [m1]
  show decVia wd = _; unfold decVia; rw [m2]
  show (some (Instr.vimax (at_ wd 28 4) (at_ wd 22 3) (at_ wd 19 3) (at_ wd 15 4) (at_ wd 11 4) (at_ wd 7 4)) : Option Instr) = _
  rw [e0, e1, e2, e3, e4, e5]

theorem vshl (la : BitVec 4) (ty m : BitVec 3) (vb va vd : BitVec 4) : Statement (Instr.vshl la ty m vb va vd) := by
  have ok : wvFits 0x1f vd.toNat va.toNat vb.toNat m.toNat ty.toNat 0 la.toNat := ⟨by decide, vd.isLt, va.isLt, vb.isLt, m.isLt, ty.isLt, by decide, la.isLt⟩
  obtain ⟨wd, hw⟩ : ∃ wd, wd = Machine.wvWord 0x1f vd.toNat va.toNat vb.toNat m.toNat ty.toNat 0 la.toNat := ⟨_, rfl⟩
  have e : Instr.encode (Instr.vshl la ty m vb va vd) = wd := hw.symm ▸ rfl
  refine four e (hw ▸ wv_lt ok) (hw ▸ wv_odd ..) ?_
  have m1 : part wd 1 6 = 31 := hw ▸ wv_op ok
  have m2 : part wd 25 3 = 0 := hw ▸ wv_fn ok
  have e0 : at_ wd 28 4 = la := at_eq (hw ▸ wv_la ok)
  have e1 : at_ wd 22 3 = ty := at_eq (hw ▸ wv_ty ok)
  have e2 : at_ wd 19 3 = m := at_eq (hw ▸ wv_m ok)
  have e3 : at_ wd 15 4 = vb := at_eq (hw ▸ wv_vb ok)
  have e4 : at_ wd 11 4 = va := at_eq (hw ▸ wv_va ok)
  have e5 : at_ wd 7 4 = vd := at_eq (hw ▸ wv_vd ok)
  unfold decodeRow32; rw [m1]
  show decVsh wd = _; unfold decVsh; rw [m2]
  show (some (Instr.vshl (at_ wd 28 4) (at_ wd 22 3) (at_ wd 19 3) (at_ wd 15 4) (at_ wd 11 4) (at_ wd 7 4)) : Option Instr) = _
  rw [e0, e1, e2, e3, e4, e5]

theorem vshr (la : BitVec 4) (ty m : BitVec 3) (vb va vd : BitVec 4) : Statement (Instr.vshr la ty m vb va vd) := by
  have ok : wvFits 0x1f vd.toNat va.toNat vb.toNat m.toNat ty.toNat 1 la.toNat := ⟨by decide, vd.isLt, va.isLt, vb.isLt, m.isLt, ty.isLt, by decide, la.isLt⟩
  obtain ⟨wd, hw⟩ : ∃ wd, wd = Machine.wvWord 0x1f vd.toNat va.toNat vb.toNat m.toNat ty.toNat 1 la.toNat := ⟨_, rfl⟩
  have e : Instr.encode (Instr.vshr la ty m vb va vd) = wd := hw.symm ▸ rfl
  refine four e (hw ▸ wv_lt ok) (hw ▸ wv_odd ..) ?_
  have m1 : part wd 1 6 = 31 := hw ▸ wv_op ok
  have m2 : part wd 25 3 = 1 := hw ▸ wv_fn ok
  have e0 : at_ wd 28 4 = la := at_eq (hw ▸ wv_la ok)
  have e1 : at_ wd 22 3 = ty := at_eq (hw ▸ wv_ty ok)
  have e2 : at_ wd 19 3 = m := at_eq (hw ▸ wv_m ok)
  have e3 : at_ wd 15 4 = vb := at_eq (hw ▸ wv_vb ok)
  have e4 : at_ wd 11 4 = va := at_eq (hw ▸ wv_va ok)
  have e5 : at_ wd 7 4 = vd := at_eq (hw ▸ wv_vd ok)
  unfold decodeRow32; rw [m1]
  show decVsh wd = _; unfold decVsh; rw [m2]
  show (some (Instr.vshr (at_ wd 28 4) (at_ wd 22 3) (at_ wd 19 3) (at_ wd 15 4) (at_ wd 11 4) (at_ wd 7 4)) : Option Instr) = _
  rw [e0, e1, e2, e3, e4, e5]

theorem vsra (la : BitVec 4) (ty m : BitVec 3) (vb va vd : BitVec 4) : Statement (Instr.vsra la ty m vb va vd) := by
  have ok : wvFits 0x1f vd.toNat va.toNat vb.toNat m.toNat ty.toNat 2 la.toNat := ⟨by decide, vd.isLt, va.isLt, vb.isLt, m.isLt, ty.isLt, by decide, la.isLt⟩
  obtain ⟨wd, hw⟩ : ∃ wd, wd = Machine.wvWord 0x1f vd.toNat va.toNat vb.toNat m.toNat ty.toNat 2 la.toNat := ⟨_, rfl⟩
  have e : Instr.encode (Instr.vsra la ty m vb va vd) = wd := hw.symm ▸ rfl
  refine four e (hw ▸ wv_lt ok) (hw ▸ wv_odd ..) ?_
  have m1 : part wd 1 6 = 31 := hw ▸ wv_op ok
  have m2 : part wd 25 3 = 2 := hw ▸ wv_fn ok
  have e0 : at_ wd 28 4 = la := at_eq (hw ▸ wv_la ok)
  have e1 : at_ wd 22 3 = ty := at_eq (hw ▸ wv_ty ok)
  have e2 : at_ wd 19 3 = m := at_eq (hw ▸ wv_m ok)
  have e3 : at_ wd 15 4 = vb := at_eq (hw ▸ wv_vb ok)
  have e4 : at_ wd 11 4 = va := at_eq (hw ▸ wv_va ok)
  have e5 : at_ wd 7 4 = vd := at_eq (hw ▸ wv_vd ok)
  unfold decodeRow32; rw [m1]
  show decVsh wd = _; unfold decVsh; rw [m2]
  show (some (Instr.vsra (at_ wd 28 4) (at_ wd 22 3) (at_ wd 19 3) (at_ wd 15 4) (at_ wd 11 4) (at_ wd 7 4)) : Option Instr) = _
  rw [e0, e1, e2, e3, e4, e5]

theorem vclmul (la : BitVec 4) (ty m : BitVec 3) (vb va vd : BitVec 4) : Statement (Instr.vclmul la ty m vb va vd) := by
  have ok : wvFits 0x1f vd.toNat va.toNat vb.toNat m.toNat ty.toNat 3 la.toNat := ⟨by decide, vd.isLt, va.isLt, vb.isLt, m.isLt, ty.isLt, by decide, la.isLt⟩
  obtain ⟨wd, hw⟩ : ∃ wd, wd = Machine.wvWord 0x1f vd.toNat va.toNat vb.toNat m.toNat ty.toNat 3 la.toNat := ⟨_, rfl⟩
  have e : Instr.encode (Instr.vclmul la ty m vb va vd) = wd := hw.symm ▸ rfl
  refine four e (hw ▸ wv_lt ok) (hw ▸ wv_odd ..) ?_
  have m1 : part wd 1 6 = 31 := hw ▸ wv_op ok
  have m2 : part wd 25 3 = 3 := hw ▸ wv_fn ok
  have e0 : at_ wd 28 4 = la := at_eq (hw ▸ wv_la ok)
  have e1 : at_ wd 22 3 = ty := at_eq (hw ▸ wv_ty ok)
  have e2 : at_ wd 19 3 = m := at_eq (hw ▸ wv_m ok)
  have e3 : at_ wd 15 4 = vb := at_eq (hw ▸ wv_vb ok)
  have e4 : at_ wd 11 4 = va := at_eq (hw ▸ wv_va ok)
  have e5 : at_ wd 7 4 = vd := at_eq (hw ▸ wv_vd ok)
  unfold decodeRow32; rw [m1]
  show decVsh wd = _; unfold decVsh; rw [m2]
  show (some (Instr.vclmul (at_ wd 28 4) (at_ wd 22 3) (at_ wd 19 3) (at_ wd 15 4) (at_ wd 11 4) (at_ wd 7 4)) : Option Instr) = _
  rw [e0, e1, e2, e3, e4, e5]

theorem vpopc (la : BitVec 4) (ty m : BitVec 3) (va vd : BitVec 4) : Statement (Instr.vpopc la ty m va vd) := by
  have ok : wvFits 0x1f vd.toNat va.toNat 0 m.toNat ty.toNat 4 la.toNat := ⟨by decide, vd.isLt, va.isLt, by decide, m.isLt, ty.isLt, by decide, la.isLt⟩
  obtain ⟨wd, hw⟩ : ∃ wd, wd = Machine.wvWord 0x1f vd.toNat va.toNat 0 m.toNat ty.toNat 4 la.toNat := ⟨_, rfl⟩
  have e : Instr.encode (Instr.vpopc la ty m va vd) = wd := hw.symm ▸ rfl
  refine four e (hw ▸ wv_lt ok) (hw ▸ wv_odd ..) ?_
  have m1 : part wd 1 6 = 31 := hw ▸ wv_op ok
  have m2 : part wd 25 3 = 4 := hw ▸ wv_fn ok
  have e0 : at_ wd 28 4 = la := at_eq (hw ▸ wv_la ok)
  have e1 : at_ wd 22 3 = ty := at_eq (hw ▸ wv_ty ok)
  have e2 : at_ wd 19 3 = m := at_eq (hw ▸ wv_m ok)
  have e3 : at_ wd 11 4 = va := at_eq (hw ▸ wv_va ok)
  have e4 : at_ wd 7 4 = vd := at_eq (hw ▸ wv_vd ok)
  have z0 : part wd 15 4 = 0 := hw ▸ wv_vb ok
  unfold decodeRow32; rw [m1]
  show decVsh wd = _; unfold decVsh; rw [m2]
  show zeroed (part wd 15 4) (Instr.vpopc (at_ wd 28 4) (at_ wd 22 3) (at_ wd 19 3) (at_ wd 11 4) (at_ wd 7 4)) = _
  rw [z0]
  show (some (Instr.vpopc (at_ wd 28 4) (at_ wd 22 3) (at_ wd 19 3) (at_ wd 11 4) (at_ wd 7 4)) : Option Instr) = _
  rw [e0, e1, e2, e3, e4]

theorem vclz (la : BitVec 4) (ty m : BitVec 3) (va vd : BitVec 4) : Statement (Instr.vclz la ty m va vd) := by
  have ok : wvFits 0x1f vd.toNat va.toNat 0 m.toNat ty.toNat 5 la.toNat := ⟨by decide, vd.isLt, va.isLt, by decide, m.isLt, ty.isLt, by decide, la.isLt⟩
  obtain ⟨wd, hw⟩ : ∃ wd, wd = Machine.wvWord 0x1f vd.toNat va.toNat 0 m.toNat ty.toNat 5 la.toNat := ⟨_, rfl⟩
  have e : Instr.encode (Instr.vclz la ty m va vd) = wd := hw.symm ▸ rfl
  refine four e (hw ▸ wv_lt ok) (hw ▸ wv_odd ..) ?_
  have m1 : part wd 1 6 = 31 := hw ▸ wv_op ok
  have m2 : part wd 25 3 = 5 := hw ▸ wv_fn ok
  have e0 : at_ wd 28 4 = la := at_eq (hw ▸ wv_la ok)
  have e1 : at_ wd 22 3 = ty := at_eq (hw ▸ wv_ty ok)
  have e2 : at_ wd 19 3 = m := at_eq (hw ▸ wv_m ok)
  have e3 : at_ wd 11 4 = va := at_eq (hw ▸ wv_va ok)
  have e4 : at_ wd 7 4 = vd := at_eq (hw ▸ wv_vd ok)
  have z0 : part wd 15 4 = 0 := hw ▸ wv_vb ok
  unfold decodeRow32; rw [m1]
  show decVsh wd = _; unfold decVsh; rw [m2]
  show zeroed (part wd 15 4) (Instr.vclz (at_ wd 28 4) (at_ wd 22 3) (at_ wd 19 3) (at_ wd 11 4) (at_ wd 7 4)) = _
  rw [z0]
  show (some (Instr.vclz (at_ wd 28 4) (at_ wd 22 3) (at_ wd 19 3) (at_ wd 11 4) (at_ wd 7 4)) : Option Instr) = _
  rw [e0, e1, e2, e3, e4]

theorem vceq (la : BitVec 4) (ty m : BitVec 3) (vb va : BitVec 4) (vd : BitVec 3) : Statement (Instr.vceq la ty m vb va vd) := by
  have h_la := la.isLt
  have h_ty := ty.isLt
  have h_m := m.isLt
  have h_vb := vb.isLt
  have h_va := va.isLt
  have h_vd := vd.isLt
  have ok : wvFits 0x20 vd.toNat va.toNat vb.toNat m.toNat ty.toNat 0 la.toNat := ⟨by decide, lt_of_lt_of_le vd.isLt (by decide), va.isLt, vb.isLt, m.isLt, ty.isLt, by decide, la.isLt⟩
  obtain ⟨wd, hw⟩ : ∃ wd, wd = Machine.wvWord 0x20 vd.toNat va.toNat vb.toNat m.toNat ty.toNat 0 la.toNat := ⟨_, rfl⟩
  have e : Instr.encode (Instr.vceq la ty m vb va vd) = wd := hw.symm ▸ rfl
  refine four e (hw ▸ wv_lt ok) (hw ▸ wv_odd ..) ?_
  have m1 : part wd 1 6 = 32 := hw ▸ wv_op ok
  have m2 : part wd 25 3 = 0 := hw ▸ wv_fn ok
  have e0 : at_ wd 28 4 = la := at_eq (hw ▸ wv_la ok)
  have e1 : at_ wd 22 3 = ty := at_eq (hw ▸ wv_ty ok)
  have e2 : at_ wd 19 3 = m := at_eq (hw ▸ wv_m ok)
  have e3 : at_ wd 15 4 = vb := at_eq (hw ▸ wv_vb ok)
  have e4 : at_ wd 11 4 = va := at_eq (hw ▸ wv_va ok)
  have e5 : at_ wd 7 3 = vd := at_eq (by unfold Machine.wvWord at hw; unfold part; omega)
  have z0 : part wd 10 1 = 0 := by unfold Machine.wvWord at hw; unfold part; omega
  unfold decodeRow32; rw [m1]
  show decVcmp wd = _; unfold decVcmp; rw [m2]
  show zeroed (part wd 10 1) (Instr.vceq (at_ wd 28 4) (at_ wd 22 3) (at_ wd 19 3) (at_ wd 15 4) (at_ wd 11 4) (at_ wd 7 3)) = _
  rw [z0]
  show (some (Instr.vceq (at_ wd 28 4) (at_ wd 22 3) (at_ wd 19 3) (at_ wd 15 4) (at_ wd 11 4) (at_ wd 7 3)) : Option Instr) = _
  rw [e0, e1, e2, e3, e4, e5]

theorem vcne (la : BitVec 4) (ty m : BitVec 3) (vb va : BitVec 4) (vd : BitVec 3) : Statement (Instr.vcne la ty m vb va vd) := by
  have h_la := la.isLt
  have h_ty := ty.isLt
  have h_m := m.isLt
  have h_vb := vb.isLt
  have h_va := va.isLt
  have h_vd := vd.isLt
  have ok : wvFits 0x20 vd.toNat va.toNat vb.toNat m.toNat ty.toNat 1 la.toNat := ⟨by decide, lt_of_lt_of_le vd.isLt (by decide), va.isLt, vb.isLt, m.isLt, ty.isLt, by decide, la.isLt⟩
  obtain ⟨wd, hw⟩ : ∃ wd, wd = Machine.wvWord 0x20 vd.toNat va.toNat vb.toNat m.toNat ty.toNat 1 la.toNat := ⟨_, rfl⟩
  have e : Instr.encode (Instr.vcne la ty m vb va vd) = wd := hw.symm ▸ rfl
  refine four e (hw ▸ wv_lt ok) (hw ▸ wv_odd ..) ?_
  have m1 : part wd 1 6 = 32 := hw ▸ wv_op ok
  have m2 : part wd 25 3 = 1 := hw ▸ wv_fn ok
  have e0 : at_ wd 28 4 = la := at_eq (hw ▸ wv_la ok)
  have e1 : at_ wd 22 3 = ty := at_eq (hw ▸ wv_ty ok)
  have e2 : at_ wd 19 3 = m := at_eq (hw ▸ wv_m ok)
  have e3 : at_ wd 15 4 = vb := at_eq (hw ▸ wv_vb ok)
  have e4 : at_ wd 11 4 = va := at_eq (hw ▸ wv_va ok)
  have e5 : at_ wd 7 3 = vd := at_eq (by unfold Machine.wvWord at hw; unfold part; omega)
  have z0 : part wd 10 1 = 0 := by unfold Machine.wvWord at hw; unfold part; omega
  unfold decodeRow32; rw [m1]
  show decVcmp wd = _; unfold decVcmp; rw [m2]
  show zeroed (part wd 10 1) (Instr.vcne (at_ wd 28 4) (at_ wd 22 3) (at_ wd 19 3) (at_ wd 15 4) (at_ wd 11 4) (at_ wd 7 3)) = _
  rw [z0]
  show (some (Instr.vcne (at_ wd 28 4) (at_ wd 22 3) (at_ wd 19 3) (at_ wd 15 4) (at_ wd 11 4) (at_ wd 7 3)) : Option Instr) = _
  rw [e0, e1, e2, e3, e4, e5]

theorem vclt (la : BitVec 4) (ty m : BitVec 3) (vb va : BitVec 4) (vd : BitVec 3) : Statement (Instr.vclt la ty m vb va vd) := by
  have h_la := la.isLt
  have h_ty := ty.isLt
  have h_m := m.isLt
  have h_vb := vb.isLt
  have h_va := va.isLt
  have h_vd := vd.isLt
  have ok : wvFits 0x20 vd.toNat va.toNat vb.toNat m.toNat ty.toNat 2 la.toNat := ⟨by decide, lt_of_lt_of_le vd.isLt (by decide), va.isLt, vb.isLt, m.isLt, ty.isLt, by decide, la.isLt⟩
  obtain ⟨wd, hw⟩ : ∃ wd, wd = Machine.wvWord 0x20 vd.toNat va.toNat vb.toNat m.toNat ty.toNat 2 la.toNat := ⟨_, rfl⟩
  have e : Instr.encode (Instr.vclt la ty m vb va vd) = wd := hw.symm ▸ rfl
  refine four e (hw ▸ wv_lt ok) (hw ▸ wv_odd ..) ?_
  have m1 : part wd 1 6 = 32 := hw ▸ wv_op ok
  have m2 : part wd 25 3 = 2 := hw ▸ wv_fn ok
  have e0 : at_ wd 28 4 = la := at_eq (hw ▸ wv_la ok)
  have e1 : at_ wd 22 3 = ty := at_eq (hw ▸ wv_ty ok)
  have e2 : at_ wd 19 3 = m := at_eq (hw ▸ wv_m ok)
  have e3 : at_ wd 15 4 = vb := at_eq (hw ▸ wv_vb ok)
  have e4 : at_ wd 11 4 = va := at_eq (hw ▸ wv_va ok)
  have e5 : at_ wd 7 3 = vd := at_eq (by unfold Machine.wvWord at hw; unfold part; omega)
  have z0 : part wd 10 1 = 0 := by unfold Machine.wvWord at hw; unfold part; omega
  unfold decodeRow32; rw [m1]
  show decVcmp wd = _; unfold decVcmp; rw [m2]
  show zeroed (part wd 10 1) (Instr.vclt (at_ wd 28 4) (at_ wd 22 3) (at_ wd 19 3) (at_ wd 15 4) (at_ wd 11 4) (at_ wd 7 3)) = _
  rw [z0]
  show (some (Instr.vclt (at_ wd 28 4) (at_ wd 22 3) (at_ wd 19 3) (at_ wd 15 4) (at_ wd 11 4) (at_ wd 7 3)) : Option Instr) = _
  rw [e0, e1, e2, e3, e4, e5]

theorem vcle (la : BitVec 4) (ty m : BitVec 3) (vb va : BitVec 4) (vd : BitVec 3) : Statement (Instr.vcle la ty m vb va vd) := by
  have h_la := la.isLt
  have h_ty := ty.isLt
  have h_m := m.isLt
  have h_vb := vb.isLt
  have h_va := va.isLt
  have h_vd := vd.isLt
  have ok : wvFits 0x20 vd.toNat va.toNat vb.toNat m.toNat ty.toNat 3 la.toNat := ⟨by decide, lt_of_lt_of_le vd.isLt (by decide), va.isLt, vb.isLt, m.isLt, ty.isLt, by decide, la.isLt⟩
  obtain ⟨wd, hw⟩ : ∃ wd, wd = Machine.wvWord 0x20 vd.toNat va.toNat vb.toNat m.toNat ty.toNat 3 la.toNat := ⟨_, rfl⟩
  have e : Instr.encode (Instr.vcle la ty m vb va vd) = wd := hw.symm ▸ rfl
  refine four e (hw ▸ wv_lt ok) (hw ▸ wv_odd ..) ?_
  have m1 : part wd 1 6 = 32 := hw ▸ wv_op ok
  have m2 : part wd 25 3 = 3 := hw ▸ wv_fn ok
  have e0 : at_ wd 28 4 = la := at_eq (hw ▸ wv_la ok)
  have e1 : at_ wd 22 3 = ty := at_eq (hw ▸ wv_ty ok)
  have e2 : at_ wd 19 3 = m := at_eq (hw ▸ wv_m ok)
  have e3 : at_ wd 15 4 = vb := at_eq (hw ▸ wv_vb ok)
  have e4 : at_ wd 11 4 = va := at_eq (hw ▸ wv_va ok)
  have e5 : at_ wd 7 3 = vd := at_eq (by unfold Machine.wvWord at hw; unfold part; omega)
  have z0 : part wd 10 1 = 0 := by unfold Machine.wvWord at hw; unfold part; omega
  unfold decodeRow32; rw [m1]
  show decVcmp wd = _; unfold decVcmp; rw [m2]
  show zeroed (part wd 10 1) (Instr.vcle (at_ wd 28 4) (at_ wd 22 3) (at_ wd 19 3) (at_ wd 15 4) (at_ wd 11 4) (at_ wd 7 3)) = _
  rw [z0]
  show (some (Instr.vcle (at_ wd 28 4) (at_ wd 22 3) (at_ wd 19 3) (at_ wd 15 4) (at_ wd 11 4) (at_ wd 7 3)) : Option Instr) = _
  rw [e0, e1, e2, e3, e4, e5]

theorem vcgt (la : BitVec 4) (ty m : BitVec 3) (vb va : BitVec 4) (vd : BitVec 3) : Statement (Instr.vcgt la ty m vb va vd) := by
  have h_la := la.isLt
  have h_ty := ty.isLt
  have h_m := m.isLt
  have h_vb := vb.isLt
  have h_va := va.isLt
  have h_vd := vd.isLt
  have ok : wvFits 0x20 vd.toNat va.toNat vb.toNat m.toNat ty.toNat 4 la.toNat := ⟨by decide, lt_of_lt_of_le vd.isLt (by decide), va.isLt, vb.isLt, m.isLt, ty.isLt, by decide, la.isLt⟩
  obtain ⟨wd, hw⟩ : ∃ wd, wd = Machine.wvWord 0x20 vd.toNat va.toNat vb.toNat m.toNat ty.toNat 4 la.toNat := ⟨_, rfl⟩
  have e : Instr.encode (Instr.vcgt la ty m vb va vd) = wd := hw.symm ▸ rfl
  refine four e (hw ▸ wv_lt ok) (hw ▸ wv_odd ..) ?_
  have m1 : part wd 1 6 = 32 := hw ▸ wv_op ok
  have m2 : part wd 25 3 = 4 := hw ▸ wv_fn ok
  have e0 : at_ wd 28 4 = la := at_eq (hw ▸ wv_la ok)
  have e1 : at_ wd 22 3 = ty := at_eq (hw ▸ wv_ty ok)
  have e2 : at_ wd 19 3 = m := at_eq (hw ▸ wv_m ok)
  have e3 : at_ wd 15 4 = vb := at_eq (hw ▸ wv_vb ok)
  have e4 : at_ wd 11 4 = va := at_eq (hw ▸ wv_va ok)
  have e5 : at_ wd 7 3 = vd := at_eq (by unfold Machine.wvWord at hw; unfold part; omega)
  have z0 : part wd 10 1 = 0 := by unfold Machine.wvWord at hw; unfold part; omega
  unfold decodeRow32; rw [m1]
  show decVcmp wd = _; unfold decVcmp; rw [m2]
  show zeroed (part wd 10 1) (Instr.vcgt (at_ wd 28 4) (at_ wd 22 3) (at_ wd 19 3) (at_ wd 15 4) (at_ wd 11 4) (at_ wd 7 3)) = _
  rw [z0]
  show (some (Instr.vcgt (at_ wd 28 4) (at_ wd 22 3) (at_ wd 19 3) (at_ wd 15 4) (at_ wd 11 4) (at_ wd 7 3)) : Option Instr) = _
  rw [e0, e1, e2, e3, e4, e5]

theorem vcge (la : BitVec 4) (ty m : BitVec 3) (vb va : BitVec 4) (vd : BitVec 3) : Statement (Instr.vcge la ty m vb va vd) := by
  have h_la := la.isLt
  have h_ty := ty.isLt
  have h_m := m.isLt
  have h_vb := vb.isLt
  have h_va := va.isLt
  have h_vd := vd.isLt
  have ok : wvFits 0x20 vd.toNat va.toNat vb.toNat m.toNat ty.toNat 5 la.toNat := ⟨by decide, lt_of_lt_of_le vd.isLt (by decide), va.isLt, vb.isLt, m.isLt, ty.isLt, by decide, la.isLt⟩
  obtain ⟨wd, hw⟩ : ∃ wd, wd = Machine.wvWord 0x20 vd.toNat va.toNat vb.toNat m.toNat ty.toNat 5 la.toNat := ⟨_, rfl⟩
  have e : Instr.encode (Instr.vcge la ty m vb va vd) = wd := hw.symm ▸ rfl
  refine four e (hw ▸ wv_lt ok) (hw ▸ wv_odd ..) ?_
  have m1 : part wd 1 6 = 32 := hw ▸ wv_op ok
  have m2 : part wd 25 3 = 5 := hw ▸ wv_fn ok
  have e0 : at_ wd 28 4 = la := at_eq (hw ▸ wv_la ok)
  have e1 : at_ wd 22 3 = ty := at_eq (hw ▸ wv_ty ok)
  have e2 : at_ wd 19 3 = m := at_eq (hw ▸ wv_m ok)
  have e3 : at_ wd 15 4 = vb := at_eq (hw ▸ wv_vb ok)
  have e4 : at_ wd 11 4 = va := at_eq (hw ▸ wv_va ok)
  have e5 : at_ wd 7 3 = vd := at_eq (by unfold Machine.wvWord at hw; unfold part; omega)
  have z0 : part wd 10 1 = 0 := by unfold Machine.wvWord at hw; unfold part; omega
  unfold decodeRow32; rw [m1]
  show decVcmp wd = _; unfold decVcmp; rw [m2]
  show zeroed (part wd 10 1) (Instr.vcge (at_ wd 28 4) (at_ wd 22 3) (at_ wd 19 3) (at_ wd 15 4) (at_ wd 11 4) (at_ wd 7 3)) = _
  rw [z0]
  show (some (Instr.vcge (at_ wd 28 4) (at_ wd 22 3) (at_ wd 19 3) (at_ wd 15 4) (at_ wd 11 4) (at_ wd 7 3)) : Option Instr) = _
  rw [e0, e1, e2, e3, e4, e5]

theorem vsel (la : BitVec 4) (ty m : BitVec 3) (vb va vd : BitVec 4) : Statement (Instr.vsel la ty m vb va vd) := by
  have ok : wvFits 0x20 vd.toNat va.toNat vb.toNat m.toNat ty.toNat 6 la.toNat := ⟨by decide, vd.isLt, va.isLt, vb.isLt, m.isLt, ty.isLt, by decide, la.isLt⟩
  obtain ⟨wd, hw⟩ : ∃ wd, wd = Machine.wvWord 0x20 vd.toNat va.toNat vb.toNat m.toNat ty.toNat 6 la.toNat := ⟨_, rfl⟩
  have e : Instr.encode (Instr.vsel la ty m vb va vd) = wd := hw.symm ▸ rfl
  refine four e (hw ▸ wv_lt ok) (hw ▸ wv_odd ..) ?_
  have m1 : part wd 1 6 = 32 := hw ▸ wv_op ok
  have m2 : part wd 25 3 = 6 := hw ▸ wv_fn ok
  have e0 : at_ wd 28 4 = la := at_eq (hw ▸ wv_la ok)
  have e1 : at_ wd 22 3 = ty := at_eq (hw ▸ wv_ty ok)
  have e2 : at_ wd 19 3 = m := at_eq (hw ▸ wv_m ok)
  have e3 : at_ wd 15 4 = vb := at_eq (hw ▸ wv_vb ok)
  have e4 : at_ wd 11 4 = va := at_eq (hw ▸ wv_va ok)
  have e5 : at_ wd 7 4 = vd := at_eq (hw ▸ wv_vd ok)
  unfold decodeRow32; rw [m1]
  show decVcmp wd = _; unfold decVcmp; rw [m2]
  show (some (Instr.vsel (at_ wd 28 4) (at_ wd 22 3) (at_ wd 19 3) (at_ wd 15 4) (at_ wd 11 4) (at_ wd 7 4)) : Option Instr) = _
  rw [e0, e1, e2, e3, e4, e5]

theorem vclass (la : BitVec 4) (ty m : BitVec 3) (va vd : BitVec 4) : Statement (Instr.vclass la ty m va vd) := by
  have ok : wvFits 0x20 vd.toNat va.toNat 0 m.toNat ty.toNat 7 la.toNat := ⟨by decide, vd.isLt, va.isLt, by decide, m.isLt, ty.isLt, by decide, la.isLt⟩
  obtain ⟨wd, hw⟩ : ∃ wd, wd = Machine.wvWord 0x20 vd.toNat va.toNat 0 m.toNat ty.toNat 7 la.toNat := ⟨_, rfl⟩
  have e : Instr.encode (Instr.vclass la ty m va vd) = wd := hw.symm ▸ rfl
  refine four e (hw ▸ wv_lt ok) (hw ▸ wv_odd ..) ?_
  have m1 : part wd 1 6 = 32 := hw ▸ wv_op ok
  have m2 : part wd 25 3 = 7 := hw ▸ wv_fn ok
  have e0 : at_ wd 28 4 = la := at_eq (hw ▸ wv_la ok)
  have e1 : at_ wd 22 3 = ty := at_eq (hw ▸ wv_ty ok)
  have e2 : at_ wd 19 3 = m := at_eq (hw ▸ wv_m ok)
  have e3 : at_ wd 11 4 = va := at_eq (hw ▸ wv_va ok)
  have e4 : at_ wd 7 4 = vd := at_eq (hw ▸ wv_vd ok)
  have z0 : part wd 15 4 = 0 := hw ▸ wv_vb ok
  unfold decodeRow32; rw [m1]
  show decVcmp wd = _; unfold decVcmp; rw [m2]
  show zeroed (part wd 15 4) (Instr.vclass (at_ wd 28 4) (at_ wd 22 3) (at_ wd 19 3) (at_ wd 11 4) (at_ wd 7 4)) = _
  rw [z0]
  show (some (Instr.vclass (at_ wd 28 4) (at_ wd 22 3) (at_ wd 19 3) (at_ wd 11 4) (at_ wd 7 4)) : Option Instr) = _
  rw [e0, e1, e2, e3, e4]

theorem vexp2 (la : BitVec 4) (ty m : BitVec 3) (va vd : BitVec 4) : Statement (Instr.vexp2 la ty m va vd) := by
  have ok : wvFits 0x21 vd.toNat va.toNat 0 m.toNat ty.toNat 0 la.toNat := ⟨by decide, vd.isLt, va.isLt, by decide, m.isLt, ty.isLt, by decide, la.isLt⟩
  obtain ⟨wd, hw⟩ : ∃ wd, wd = Machine.wvWord 0x21 vd.toNat va.toNat 0 m.toNat ty.toNat 0 la.toNat := ⟨_, rfl⟩
  have e : Instr.encode (Instr.vexp2 la ty m va vd) = wd := hw.symm ▸ rfl
  refine four e (hw ▸ wv_lt ok) (hw ▸ wv_odd ..) ?_
  have m1 : part wd 1 6 = 33 := hw ▸ wv_op ok
  have m2 : part wd 25 3 = 0 := hw ▸ wv_fn ok
  have e0 : at_ wd 28 4 = la := at_eq (hw ▸ wv_la ok)
  have e1 : at_ wd 22 3 = ty := at_eq (hw ▸ wv_ty ok)
  have e2 : at_ wd 19 3 = m := at_eq (hw ▸ wv_m ok)
  have e3 : at_ wd 11 4 = va := at_eq (hw ▸ wv_va ok)
  have e4 : at_ wd 7 4 = vd := at_eq (hw ▸ wv_vd ok)
  have z0 : part wd 15 4 = 0 := hw ▸ wv_vb ok
  unfold decodeRow32; rw [m1]
  show decVsfu wd = _; unfold decVsfu; rw [m2]
  show zeroed (part wd 15 4) (Instr.vexp2 (at_ wd 28 4) (at_ wd 22 3) (at_ wd 19 3) (at_ wd 11 4) (at_ wd 7 4)) = _
  rw [z0]
  show (some (Instr.vexp2 (at_ wd 28 4) (at_ wd 22 3) (at_ wd 19 3) (at_ wd 11 4) (at_ wd 7 4)) : Option Instr) = _
  rw [e0, e1, e2, e3, e4]

theorem vlog2 (la : BitVec 4) (ty m : BitVec 3) (va vd : BitVec 4) : Statement (Instr.vlog2 la ty m va vd) := by
  have ok : wvFits 0x21 vd.toNat va.toNat 0 m.toNat ty.toNat 1 la.toNat := ⟨by decide, vd.isLt, va.isLt, by decide, m.isLt, ty.isLt, by decide, la.isLt⟩
  obtain ⟨wd, hw⟩ : ∃ wd, wd = Machine.wvWord 0x21 vd.toNat va.toNat 0 m.toNat ty.toNat 1 la.toNat := ⟨_, rfl⟩
  have e : Instr.encode (Instr.vlog2 la ty m va vd) = wd := hw.symm ▸ rfl
  refine four e (hw ▸ wv_lt ok) (hw ▸ wv_odd ..) ?_
  have m1 : part wd 1 6 = 33 := hw ▸ wv_op ok
  have m2 : part wd 25 3 = 1 := hw ▸ wv_fn ok
  have e0 : at_ wd 28 4 = la := at_eq (hw ▸ wv_la ok)
  have e1 : at_ wd 22 3 = ty := at_eq (hw ▸ wv_ty ok)
  have e2 : at_ wd 19 3 = m := at_eq (hw ▸ wv_m ok)
  have e3 : at_ wd 11 4 = va := at_eq (hw ▸ wv_va ok)
  have e4 : at_ wd 7 4 = vd := at_eq (hw ▸ wv_vd ok)
  have z0 : part wd 15 4 = 0 := hw ▸ wv_vb ok
  unfold decodeRow32; rw [m1]
  show decVsfu wd = _; unfold decVsfu; rw [m2]
  show zeroed (part wd 15 4) (Instr.vlog2 (at_ wd 28 4) (at_ wd 22 3) (at_ wd 19 3) (at_ wd 11 4) (at_ wd 7 4)) = _
  rw [z0]
  show (some (Instr.vlog2 (at_ wd 28 4) (at_ wd 22 3) (at_ wd 19 3) (at_ wd 11 4) (at_ wd 7 4)) : Option Instr) = _
  rw [e0, e1, e2, e3, e4]

theorem vrcp (la : BitVec 4) (ty m : BitVec 3) (va vd : BitVec 4) : Statement (Instr.vrcp la ty m va vd) := by
  have ok : wvFits 0x21 vd.toNat va.toNat 0 m.toNat ty.toNat 2 la.toNat := ⟨by decide, vd.isLt, va.isLt, by decide, m.isLt, ty.isLt, by decide, la.isLt⟩
  obtain ⟨wd, hw⟩ : ∃ wd, wd = Machine.wvWord 0x21 vd.toNat va.toNat 0 m.toNat ty.toNat 2 la.toNat := ⟨_, rfl⟩
  have e : Instr.encode (Instr.vrcp la ty m va vd) = wd := hw.symm ▸ rfl
  refine four e (hw ▸ wv_lt ok) (hw ▸ wv_odd ..) ?_
  have m1 : part wd 1 6 = 33 := hw ▸ wv_op ok
  have m2 : part wd 25 3 = 2 := hw ▸ wv_fn ok
  have e0 : at_ wd 28 4 = la := at_eq (hw ▸ wv_la ok)
  have e1 : at_ wd 22 3 = ty := at_eq (hw ▸ wv_ty ok)
  have e2 : at_ wd 19 3 = m := at_eq (hw ▸ wv_m ok)
  have e3 : at_ wd 11 4 = va := at_eq (hw ▸ wv_va ok)
  have e4 : at_ wd 7 4 = vd := at_eq (hw ▸ wv_vd ok)
  have z0 : part wd 15 4 = 0 := hw ▸ wv_vb ok
  unfold decodeRow32; rw [m1]
  show decVsfu wd = _; unfold decVsfu; rw [m2]
  show zeroed (part wd 15 4) (Instr.vrcp (at_ wd 28 4) (at_ wd 22 3) (at_ wd 19 3) (at_ wd 11 4) (at_ wd 7 4)) = _
  rw [z0]
  show (some (Instr.vrcp (at_ wd 28 4) (at_ wd 22 3) (at_ wd 19 3) (at_ wd 11 4) (at_ wd 7 4)) : Option Instr) = _
  rw [e0, e1, e2, e3, e4]

theorem vrsq (la : BitVec 4) (ty m : BitVec 3) (va vd : BitVec 4) : Statement (Instr.vrsq la ty m va vd) := by
  have ok : wvFits 0x21 vd.toNat va.toNat 0 m.toNat ty.toNat 3 la.toNat := ⟨by decide, vd.isLt, va.isLt, by decide, m.isLt, ty.isLt, by decide, la.isLt⟩
  obtain ⟨wd, hw⟩ : ∃ wd, wd = Machine.wvWord 0x21 vd.toNat va.toNat 0 m.toNat ty.toNat 3 la.toNat := ⟨_, rfl⟩
  have e : Instr.encode (Instr.vrsq la ty m va vd) = wd := hw.symm ▸ rfl
  refine four e (hw ▸ wv_lt ok) (hw ▸ wv_odd ..) ?_
  have m1 : part wd 1 6 = 33 := hw ▸ wv_op ok
  have m2 : part wd 25 3 = 3 := hw ▸ wv_fn ok
  have e0 : at_ wd 28 4 = la := at_eq (hw ▸ wv_la ok)
  have e1 : at_ wd 22 3 = ty := at_eq (hw ▸ wv_ty ok)
  have e2 : at_ wd 19 3 = m := at_eq (hw ▸ wv_m ok)
  have e3 : at_ wd 11 4 = va := at_eq (hw ▸ wv_va ok)
  have e4 : at_ wd 7 4 = vd := at_eq (hw ▸ wv_vd ok)
  have z0 : part wd 15 4 = 0 := hw ▸ wv_vb ok
  unfold decodeRow32; rw [m1]
  show decVsfu wd = _; unfold decVsfu; rw [m2]
  show zeroed (part wd 15 4) (Instr.vrsq (at_ wd 28 4) (at_ wd 22 3) (at_ wd 19 3) (at_ wd 11 4) (at_ wd 7 4)) = _
  rw [z0]
  show (some (Instr.vrsq (at_ wd 28 4) (at_ wd 22 3) (at_ wd 19 3) (at_ wd 11 4) (at_ wd 7 4)) : Option Instr) = _
  rw [e0, e1, e2, e3, e4]

theorem vtanh (la : BitVec 4) (ty m : BitVec 3) (va vd : BitVec 4) : Statement (Instr.vtanh la ty m va vd) := by
  have ok : wvFits 0x21 vd.toNat va.toNat 0 m.toNat ty.toNat 4 la.toNat := ⟨by decide, vd.isLt, va.isLt, by decide, m.isLt, ty.isLt, by decide, la.isLt⟩
  obtain ⟨wd, hw⟩ : ∃ wd, wd = Machine.wvWord 0x21 vd.toNat va.toNat 0 m.toNat ty.toNat 4 la.toNat := ⟨_, rfl⟩
  have e : Instr.encode (Instr.vtanh la ty m va vd) = wd := hw.symm ▸ rfl
  refine four e (hw ▸ wv_lt ok) (hw ▸ wv_odd ..) ?_
  have m1 : part wd 1 6 = 33 := hw ▸ wv_op ok
  have m2 : part wd 25 3 = 4 := hw ▸ wv_fn ok
  have e0 : at_ wd 28 4 = la := at_eq (hw ▸ wv_la ok)
  have e1 : at_ wd 22 3 = ty := at_eq (hw ▸ wv_ty ok)
  have e2 : at_ wd 19 3 = m := at_eq (hw ▸ wv_m ok)
  have e3 : at_ wd 11 4 = va := at_eq (hw ▸ wv_va ok)
  have e4 : at_ wd 7 4 = vd := at_eq (hw ▸ wv_vd ok)
  have z0 : part wd 15 4 = 0 := hw ▸ wv_vb ok
  unfold decodeRow32; rw [m1]
  show decVsfu wd = _; unfold decVsfu; rw [m2]
  show zeroed (part wd 15 4) (Instr.vtanh (at_ wd 28 4) (at_ wd 22 3) (at_ wd 19 3) (at_ wd 11 4) (at_ wd 7 4)) = _
  rw [z0]
  show (some (Instr.vtanh (at_ wd 28 4) (at_ wd 22 3) (at_ wd 19 3) (at_ wd 11 4) (at_ wd 7 4)) : Option Instr) = _
  rw [e0, e1, e2, e3, e4]

theorem vsig (la : BitVec 4) (ty m : BitVec 3) (va vd : BitVec 4) : Statement (Instr.vsig la ty m va vd) := by
  have ok : wvFits 0x21 vd.toNat va.toNat 0 m.toNat ty.toNat 5 la.toNat := ⟨by decide, vd.isLt, va.isLt, by decide, m.isLt, ty.isLt, by decide, la.isLt⟩
  obtain ⟨wd, hw⟩ : ∃ wd, wd = Machine.wvWord 0x21 vd.toNat va.toNat 0 m.toNat ty.toNat 5 la.toNat := ⟨_, rfl⟩
  have e : Instr.encode (Instr.vsig la ty m va vd) = wd := hw.symm ▸ rfl
  refine four e (hw ▸ wv_lt ok) (hw ▸ wv_odd ..) ?_
  have m1 : part wd 1 6 = 33 := hw ▸ wv_op ok
  have m2 : part wd 25 3 = 5 := hw ▸ wv_fn ok
  have e0 : at_ wd 28 4 = la := at_eq (hw ▸ wv_la ok)
  have e1 : at_ wd 22 3 = ty := at_eq (hw ▸ wv_ty ok)
  have e2 : at_ wd 19 3 = m := at_eq (hw ▸ wv_m ok)
  have e3 : at_ wd 11 4 = va := at_eq (hw ▸ wv_va ok)
  have e4 : at_ wd 7 4 = vd := at_eq (hw ▸ wv_vd ok)
  have z0 : part wd 15 4 = 0 := hw ▸ wv_vb ok
  unfold decodeRow32; rw [m1]
  show decVsfu wd = _; unfold decVsfu; rw [m2]
  show zeroed (part wd 15 4) (Instr.vsig (at_ wd 28 4) (at_ wd 22 3) (at_ wd 19 3) (at_ wd 11 4) (at_ wd 7 4)) = _
  rw [z0]
  show (some (Instr.vsig (at_ wd 28 4) (at_ wd 22 3) (at_ wd 19 3) (at_ wd 11 4) (at_ wd 7 4)) : Option Instr) = _
  rw [e0, e1, e2, e3, e4]

theorem vsin (la : BitVec 4) (ty m : BitVec 3) (va vd : BitVec 4) : Statement (Instr.vsin la ty m va vd) := by
  have ok : wvFits 0x21 vd.toNat va.toNat 0 m.toNat ty.toNat 6 la.toNat := ⟨by decide, vd.isLt, va.isLt, by decide, m.isLt, ty.isLt, by decide, la.isLt⟩
  obtain ⟨wd, hw⟩ : ∃ wd, wd = Machine.wvWord 0x21 vd.toNat va.toNat 0 m.toNat ty.toNat 6 la.toNat := ⟨_, rfl⟩
  have e : Instr.encode (Instr.vsin la ty m va vd) = wd := hw.symm ▸ rfl
  refine four e (hw ▸ wv_lt ok) (hw ▸ wv_odd ..) ?_
  have m1 : part wd 1 6 = 33 := hw ▸ wv_op ok
  have m2 : part wd 25 3 = 6 := hw ▸ wv_fn ok
  have e0 : at_ wd 28 4 = la := at_eq (hw ▸ wv_la ok)
  have e1 : at_ wd 22 3 = ty := at_eq (hw ▸ wv_ty ok)
  have e2 : at_ wd 19 3 = m := at_eq (hw ▸ wv_m ok)
  have e3 : at_ wd 11 4 = va := at_eq (hw ▸ wv_va ok)
  have e4 : at_ wd 7 4 = vd := at_eq (hw ▸ wv_vd ok)
  have z0 : part wd 15 4 = 0 := hw ▸ wv_vb ok
  unfold decodeRow32; rw [m1]
  show decVsfu wd = _; unfold decVsfu; rw [m2]
  show zeroed (part wd 15 4) (Instr.vsin (at_ wd 28 4) (at_ wd 22 3) (at_ wd 19 3) (at_ wd 11 4) (at_ wd 7 4)) = _
  rw [z0]
  show (some (Instr.vsin (at_ wd 28 4) (at_ wd 22 3) (at_ wd 19 3) (at_ wd 11 4) (at_ wd 7 4)) : Option Instr) = _
  rw [e0, e1, e2, e3, e4]

theorem vcos (la : BitVec 4) (ty m : BitVec 3) (va vd : BitVec 4) : Statement (Instr.vcos la ty m va vd) := by
  have ok : wvFits 0x21 vd.toNat va.toNat 0 m.toNat ty.toNat 7 la.toNat := ⟨by decide, vd.isLt, va.isLt, by decide, m.isLt, ty.isLt, by decide, la.isLt⟩
  obtain ⟨wd, hw⟩ : ∃ wd, wd = Machine.wvWord 0x21 vd.toNat va.toNat 0 m.toNat ty.toNat 7 la.toNat := ⟨_, rfl⟩
  have e : Instr.encode (Instr.vcos la ty m va vd) = wd := hw.symm ▸ rfl
  refine four e (hw ▸ wv_lt ok) (hw ▸ wv_odd ..) ?_
  have m1 : part wd 1 6 = 33 := hw ▸ wv_op ok
  have m2 : part wd 25 3 = 7 := hw ▸ wv_fn ok
  have e0 : at_ wd 28 4 = la := at_eq (hw ▸ wv_la ok)
  have e1 : at_ wd 22 3 = ty := at_eq (hw ▸ wv_ty ok)
  have e2 : at_ wd 19 3 = m := at_eq (hw ▸ wv_m ok)
  have e3 : at_ wd 11 4 = va := at_eq (hw ▸ wv_va ok)
  have e4 : at_ wd 7 4 = vd := at_eq (hw ▸ wv_vd ok)
  have z0 : part wd 15 4 = 0 := hw ▸ wv_vb ok
  unfold decodeRow32; rw [m1]
  show decVsfu wd = _; unfold decVsfu; rw [m2]
  show zeroed (part wd 15 4) (Instr.vcos (at_ wd 28 4) (at_ wd 22 3) (at_ wd 19 3) (at_ wd 11 4) (at_ wd 7 4)) = _
  rw [z0]
  show (some (Instr.vcos (at_ wd 28 4) (at_ wd 22 3) (at_ wd 19 3) (at_ wd 11 4) (at_ wd 7 4)) : Option Instr) = _
  rw [e0, e1, e2, e3, e4]

theorem vcvt (la : BitVec 4) (m rm : BitVec 2) (tyd tys : BitVec 3) (va vd : BitVec 4) : Statement (Instr.vcvt la m rm tyd tys va vd) := by
  have ok : wvtFits 0x22 vd.toNat va.toNat tys.toNat tyd.toNat rm.toNat m.toNat 0 la.toNat := ⟨by decide, vd.isLt, va.isLt, tys.isLt, tyd.isLt, rm.isLt, m.isLt, by decide, la.isLt⟩
  obtain ⟨wd, hw⟩ : ∃ wd, wd = Machine.wvtWord 0x22 vd.toNat va.toNat tys.toNat tyd.toNat rm.toNat m.toNat 0 la.toNat := ⟨_, rfl⟩
  have e : Instr.encode (Instr.vcvt la m rm tyd tys va vd) = wd := hw.symm ▸ rfl
  refine four e (hw ▸ wvt_lt ok) (hw ▸ wvt_odd ..) ?_
  have m1 : part wd 1 6 = 34 := hw ▸ wvt_op ok
  have m2 : part wd 25 3 = 0 := hw ▸ wvt_fn ok
  have e0 : at_ wd 28 4 = la := at_eq (hw ▸ wvt_la ok)
  have e1 : at_ wd 23 2 = m := at_eq (hw ▸ wvt_m ok)
  have e2 : at_ wd 21 2 = rm := at_eq (hw ▸ wvt_rm ok)
  have e3 : at_ wd 18 3 = tyd := at_eq (hw ▸ wvt_tyd ok)
  have e4 : at_ wd 15 3 = tys := at_eq (hw ▸ wvt_tys ok)
  have e5 : at_ wd 11 4 = va := at_eq (hw ▸ wvt_va ok)
  have e6 : at_ wd 7 4 = vd := at_eq (hw ▸ wvt_vd ok)
  unfold decodeRow32; rw [m1]
  show decVcvt wd = _; unfold decVcvt; rw [m2]
  show (some (Instr.vcvt (at_ wd 28 4) (at_ wd 23 2) (at_ wd 21 2) (at_ wd 18 3) (at_ wd 15 3) (at_ wd 11 4) (at_ wd 7 4)) : Option Instr) = _
  rw [e0, e1, e2, e3, e4, e5, e6]

theorem vwiden (la : BitVec 4) (m rm : BitVec 2) (tyd tys : BitVec 3) (va vd : BitVec 4) : Statement (Instr.vwiden la m rm tyd tys va vd) := by
  have ok : wvtFits 0x22 vd.toNat va.toNat tys.toNat tyd.toNat rm.toNat m.toNat 1 la.toNat := ⟨by decide, vd.isLt, va.isLt, tys.isLt, tyd.isLt, rm.isLt, m.isLt, by decide, la.isLt⟩
  obtain ⟨wd, hw⟩ : ∃ wd, wd = Machine.wvtWord 0x22 vd.toNat va.toNat tys.toNat tyd.toNat rm.toNat m.toNat 1 la.toNat := ⟨_, rfl⟩
  have e : Instr.encode (Instr.vwiden la m rm tyd tys va vd) = wd := hw.symm ▸ rfl
  refine four e (hw ▸ wvt_lt ok) (hw ▸ wvt_odd ..) ?_
  have m1 : part wd 1 6 = 34 := hw ▸ wvt_op ok
  have m2 : part wd 25 3 = 1 := hw ▸ wvt_fn ok
  have e0 : at_ wd 28 4 = la := at_eq (hw ▸ wvt_la ok)
  have e1 : at_ wd 23 2 = m := at_eq (hw ▸ wvt_m ok)
  have e2 : at_ wd 21 2 = rm := at_eq (hw ▸ wvt_rm ok)
  have e3 : at_ wd 18 3 = tyd := at_eq (hw ▸ wvt_tyd ok)
  have e4 : at_ wd 15 3 = tys := at_eq (hw ▸ wvt_tys ok)
  have e5 : at_ wd 11 4 = va := at_eq (hw ▸ wvt_va ok)
  have e6 : at_ wd 7 4 = vd := at_eq (hw ▸ wvt_vd ok)
  unfold decodeRow32; rw [m1]
  show decVcvt wd = _; unfold decVcvt; rw [m2]
  show (some (Instr.vwiden (at_ wd 28 4) (at_ wd 23 2) (at_ wd 21 2) (at_ wd 18 3) (at_ wd 15 3) (at_ wd 11 4) (at_ wd 7 4)) : Option Instr) = _
  rw [e0, e1, e2, e3, e4, e5, e6]

theorem vnarrow (la : BitVec 4) (m rm : BitVec 2) (tyd tys : BitVec 3) (va vd : BitVec 4) : Statement (Instr.vnarrow la m rm tyd tys va vd) := by
  have ok : wvtFits 0x22 vd.toNat va.toNat tys.toNat tyd.toNat rm.toNat m.toNat 2 la.toNat := ⟨by decide, vd.isLt, va.isLt, tys.isLt, tyd.isLt, rm.isLt, m.isLt, by decide, la.isLt⟩
  obtain ⟨wd, hw⟩ : ∃ wd, wd = Machine.wvtWord 0x22 vd.toNat va.toNat tys.toNat tyd.toNat rm.toNat m.toNat 2 la.toNat := ⟨_, rfl⟩
  have e : Instr.encode (Instr.vnarrow la m rm tyd tys va vd) = wd := hw.symm ▸ rfl
  refine four e (hw ▸ wvt_lt ok) (hw ▸ wvt_odd ..) ?_
  have m1 : part wd 1 6 = 34 := hw ▸ wvt_op ok
  have m2 : part wd 25 3 = 2 := hw ▸ wvt_fn ok
  have e0 : at_ wd 28 4 = la := at_eq (hw ▸ wvt_la ok)
  have e1 : at_ wd 23 2 = m := at_eq (hw ▸ wvt_m ok)
  have e2 : at_ wd 21 2 = rm := at_eq (hw ▸ wvt_rm ok)
  have e3 : at_ wd 18 3 = tyd := at_eq (hw ▸ wvt_tyd ok)
  have e4 : at_ wd 15 3 = tys := at_eq (hw ▸ wvt_tys ok)
  have e5 : at_ wd 11 4 = va := at_eq (hw ▸ wvt_va ok)
  have e6 : at_ wd 7 4 = vd := at_eq (hw ▸ wvt_vd ok)
  unfold decodeRow32; rw [m1]
  show decVcvt wd = _; unfold decVcvt; rw [m2]
  show (some (Instr.vnarrow (at_ wd 28 4) (at_ wd 23 2) (at_ wd 21 2) (at_ wd 18 3) (at_ wd 15 3) (at_ wd 11 4) (at_ wd 7 4)) : Option Instr) = _
  rw [e0, e1, e2, e3, e4, e5, e6]

theorem vqnt (la : BitVec 4) (m rm : BitVec 2) (tyd tys : BitVec 3) (va vd : BitVec 4) : Statement (Instr.vqnt la m rm tyd tys va vd) := by
  have ok : wvtFits 0x22 vd.toNat va.toNat tys.toNat tyd.toNat rm.toNat m.toNat 3 la.toNat := ⟨by decide, vd.isLt, va.isLt, tys.isLt, tyd.isLt, rm.isLt, m.isLt, by decide, la.isLt⟩
  obtain ⟨wd, hw⟩ : ∃ wd, wd = Machine.wvtWord 0x22 vd.toNat va.toNat tys.toNat tyd.toNat rm.toNat m.toNat 3 la.toNat := ⟨_, rfl⟩
  have e : Instr.encode (Instr.vqnt la m rm tyd tys va vd) = wd := hw.symm ▸ rfl
  refine four e (hw ▸ wvt_lt ok) (hw ▸ wvt_odd ..) ?_
  have m1 : part wd 1 6 = 34 := hw ▸ wvt_op ok
  have m2 : part wd 25 3 = 3 := hw ▸ wvt_fn ok
  have e0 : at_ wd 28 4 = la := at_eq (hw ▸ wvt_la ok)
  have e1 : at_ wd 23 2 = m := at_eq (hw ▸ wvt_m ok)
  have e2 : at_ wd 21 2 = rm := at_eq (hw ▸ wvt_rm ok)
  have e3 : at_ wd 18 3 = tyd := at_eq (hw ▸ wvt_tyd ok)
  have e4 : at_ wd 15 3 = tys := at_eq (hw ▸ wvt_tys ok)
  have e5 : at_ wd 11 4 = va := at_eq (hw ▸ wvt_va ok)
  have e6 : at_ wd 7 4 = vd := at_eq (hw ▸ wvt_vd ok)
  unfold decodeRow32; rw [m1]
  show decVcvt wd = _; unfold decVcvt; rw [m2]
  show (some (Instr.vqnt (at_ wd 28 4) (at_ wd 23 2) (at_ wd 21 2) (at_ wd 18 3) (at_ wd 15 3) (at_ wd 11 4) (at_ wd 7 4)) : Option Instr) = _
  rw [e0, e1, e2, e3, e4, e5, e6]

theorem vqmax (la : BitVec 4) (m : BitVec 2) (tyd tys : BitVec 3) (va vd : BitVec 4) : Statement (Instr.vqmax la m tyd tys va vd) := by
  have ok : wvtFits 0x22 vd.toNat va.toNat tys.toNat tyd.toNat 0 m.toNat 4 la.toNat := ⟨by decide, vd.isLt, va.isLt, tys.isLt, tyd.isLt, by decide, m.isLt, by decide, la.isLt⟩
  obtain ⟨wd, hw⟩ : ∃ wd, wd = Machine.wvtWord 0x22 vd.toNat va.toNat tys.toNat tyd.toNat 0 m.toNat 4 la.toNat := ⟨_, rfl⟩
  have e : Instr.encode (Instr.vqmax la m tyd tys va vd) = wd := hw.symm ▸ rfl
  refine four e (hw ▸ wvt_lt ok) (hw ▸ wvt_odd ..) ?_
  have m1 : part wd 1 6 = 34 := hw ▸ wvt_op ok
  have m2 : part wd 25 3 = 4 := hw ▸ wvt_fn ok
  have e0 : at_ wd 28 4 = la := at_eq (hw ▸ wvt_la ok)
  have e1 : at_ wd 23 2 = m := at_eq (hw ▸ wvt_m ok)
  have e2 : at_ wd 18 3 = tyd := at_eq (hw ▸ wvt_tyd ok)
  have e3 : at_ wd 15 3 = tys := at_eq (hw ▸ wvt_tys ok)
  have e4 : at_ wd 11 4 = va := at_eq (hw ▸ wvt_va ok)
  have e5 : at_ wd 7 4 = vd := at_eq (hw ▸ wvt_vd ok)
  have z0 : part wd 21 2 = 0 := hw ▸ wvt_rm ok
  unfold decodeRow32; rw [m1]
  show decVcvt wd = _; unfold decVcvt; rw [m2]
  show zeroed (part wd 21 2) (Instr.vqmax (at_ wd 28 4) (at_ wd 23 2) (at_ wd 18 3) (at_ wd 15 3) (at_ wd 11 4) (at_ wd 7 4)) = _
  rw [z0]
  show (some (Instr.vqmax (at_ wd 28 4) (at_ wd 23 2) (at_ wd 18 3) (at_ wd 15 3) (at_ wd 11 4) (at_ wd 7 4)) : Option Instr) = _
  rw [e0, e1, e2, e3, e4, e5]

theorem vrng (la : BitVec 4) (m : BitVec 2) (tyd : BitVec 3) (vd : BitVec 4) : Statement (Instr.vrng la m tyd vd) := by
  have h_la := la.isLt
  have h_m := m.isLt
  have h_tyd := tyd.isLt
  have h_vd := vd.isLt
  have ok : wvtFits 0x22 vd.toNat 0 0 tyd.toNat 0 m.toNat 5 la.toNat := ⟨by decide, vd.isLt, by decide, by decide, tyd.isLt, by decide, m.isLt, by decide, la.isLt⟩
  obtain ⟨wd, hw⟩ : ∃ wd, wd = Machine.wvtWord 0x22 vd.toNat 0 0 tyd.toNat 0 m.toNat 5 la.toNat := ⟨_, rfl⟩
  have e : Instr.encode (Instr.vrng la m tyd vd) = wd := hw.symm ▸ rfl
  refine four e (hw ▸ wvt_lt ok) (hw ▸ wvt_odd ..) ?_
  have m1 : part wd 1 6 = 34 := hw ▸ wvt_op ok
  have m2 : part wd 25 3 = 5 := hw ▸ wvt_fn ok
  have e0 : at_ wd 28 4 = la := at_eq (hw ▸ wvt_la ok)
  have e1 : at_ wd 23 2 = m := at_eq (hw ▸ wvt_m ok)
  have e2 : at_ wd 18 3 = tyd := at_eq (hw ▸ wvt_tyd ok)
  have e3 : at_ wd 7 4 = vd := at_eq (hw ▸ wvt_vd ok)
  have z0 : part wd 11 7 = 0 := by unfold Machine.wvtWord at hw; unfold part; omega
  have z1 : part wd 21 2 = 0 := hw ▸ wvt_rm ok
  unfold decodeRow32; rw [m1]
  show decVcvt wd = _; unfold decVcvt; rw [m2]
  show zeroed (part wd 11 7 + part wd 21 2) (Instr.vrng (at_ wd 28 4) (at_ wd 23 2) (at_ wd 18 3) (at_ wd 7 4)) = _
  rw [z0, z1]
  show (some (Instr.vrng (at_ wd 28 4) (at_ wd 23 2) (at_ wd 18 3) (at_ wd 7 4)) : Option Instr) = _
  rw [e0, e1, e2, e3]

theorem vrsum (la : BitVec 4) (ty m : BitVec 3) (va vd : BitVec 4) : Statement (Instr.vrsum la ty m va vd) := by
  have ok : wvFits 0x23 vd.toNat va.toNat 0 m.toNat ty.toNat 0 la.toNat := ⟨by decide, vd.isLt, va.isLt, by decide, m.isLt, ty.isLt, by decide, la.isLt⟩
  obtain ⟨wd, hw⟩ : ∃ wd, wd = Machine.wvWord 0x23 vd.toNat va.toNat 0 m.toNat ty.toNat 0 la.toNat := ⟨_, rfl⟩
  have e : Instr.encode (Instr.vrsum la ty m va vd) = wd := hw.symm ▸ rfl
  refine four e (hw ▸ wv_lt ok) (hw ▸ wv_odd ..) ?_
  have m1 : part wd 1 6 = 35 := hw ▸ wv_op ok
  have m2 : part wd 25 3 = 0 := hw ▸ wv_fn ok
  have e0 : at_ wd 28 4 = la := at_eq (hw ▸ wv_la ok)
  have e1 : at_ wd 22 3 = ty := at_eq (hw ▸ wv_ty ok)
  have e2 : at_ wd 19 3 = m := at_eq (hw ▸ wv_m ok)
  have e3 : at_ wd 11 4 = va := at_eq (hw ▸ wv_va ok)
  have e4 : at_ wd 7 4 = vd := at_eq (hw ▸ wv_vd ok)
  have z0 : part wd 15 4 = 0 := hw ▸ wv_vb ok
  unfold decodeRow32; rw [m1]
  show decVred wd = _; unfold decVred; rw [m2]
  show zeroed (part wd 15 4) (Instr.vrsum (at_ wd 28 4) (at_ wd 22 3) (at_ wd 19 3) (at_ wd 11 4) (at_ wd 7 4)) = _
  rw [z0]
  show (some (Instr.vrsum (at_ wd 28 4) (at_ wd 22 3) (at_ wd 19 3) (at_ wd 11 4) (at_ wd 7 4)) : Option Instr) = _
  rw [e0, e1, e2, e3, e4]

theorem vrmax (la : BitVec 4) (ty m : BitVec 3) (va vd : BitVec 4) : Statement (Instr.vrmax la ty m va vd) := by
  have ok : wvFits 0x23 vd.toNat va.toNat 0 m.toNat ty.toNat 1 la.toNat := ⟨by decide, vd.isLt, va.isLt, by decide, m.isLt, ty.isLt, by decide, la.isLt⟩
  obtain ⟨wd, hw⟩ : ∃ wd, wd = Machine.wvWord 0x23 vd.toNat va.toNat 0 m.toNat ty.toNat 1 la.toNat := ⟨_, rfl⟩
  have e : Instr.encode (Instr.vrmax la ty m va vd) = wd := hw.symm ▸ rfl
  refine four e (hw ▸ wv_lt ok) (hw ▸ wv_odd ..) ?_
  have m1 : part wd 1 6 = 35 := hw ▸ wv_op ok
  have m2 : part wd 25 3 = 1 := hw ▸ wv_fn ok
  have e0 : at_ wd 28 4 = la := at_eq (hw ▸ wv_la ok)
  have e1 : at_ wd 22 3 = ty := at_eq (hw ▸ wv_ty ok)
  have e2 : at_ wd 19 3 = m := at_eq (hw ▸ wv_m ok)
  have e3 : at_ wd 11 4 = va := at_eq (hw ▸ wv_va ok)
  have e4 : at_ wd 7 4 = vd := at_eq (hw ▸ wv_vd ok)
  have z0 : part wd 15 4 = 0 := hw ▸ wv_vb ok
  unfold decodeRow32; rw [m1]
  show decVred wd = _; unfold decVred; rw [m2]
  show zeroed (part wd 15 4) (Instr.vrmax (at_ wd 28 4) (at_ wd 22 3) (at_ wd 19 3) (at_ wd 11 4) (at_ wd 7 4)) = _
  rw [z0]
  show (some (Instr.vrmax (at_ wd 28 4) (at_ wd 22 3) (at_ wd 19 3) (at_ wd 11 4) (at_ wd 7 4)) : Option Instr) = _
  rw [e0, e1, e2, e3, e4]

theorem vrmin (la : BitVec 4) (ty m : BitVec 3) (va vd : BitVec 4) : Statement (Instr.vrmin la ty m va vd) := by
  have ok : wvFits 0x23 vd.toNat va.toNat 0 m.toNat ty.toNat 2 la.toNat := ⟨by decide, vd.isLt, va.isLt, by decide, m.isLt, ty.isLt, by decide, la.isLt⟩
  obtain ⟨wd, hw⟩ : ∃ wd, wd = Machine.wvWord 0x23 vd.toNat va.toNat 0 m.toNat ty.toNat 2 la.toNat := ⟨_, rfl⟩
  have e : Instr.encode (Instr.vrmin la ty m va vd) = wd := hw.symm ▸ rfl
  refine four e (hw ▸ wv_lt ok) (hw ▸ wv_odd ..) ?_
  have m1 : part wd 1 6 = 35 := hw ▸ wv_op ok
  have m2 : part wd 25 3 = 2 := hw ▸ wv_fn ok
  have e0 : at_ wd 28 4 = la := at_eq (hw ▸ wv_la ok)
  have e1 : at_ wd 22 3 = ty := at_eq (hw ▸ wv_ty ok)
  have e2 : at_ wd 19 3 = m := at_eq (hw ▸ wv_m ok)
  have e3 : at_ wd 11 4 = va := at_eq (hw ▸ wv_va ok)
  have e4 : at_ wd 7 4 = vd := at_eq (hw ▸ wv_vd ok)
  have z0 : part wd 15 4 = 0 := hw ▸ wv_vb ok
  unfold decodeRow32; rw [m1]
  show decVred wd = _; unfold decVred; rw [m2]
  show zeroed (part wd 15 4) (Instr.vrmin (at_ wd 28 4) (at_ wd 22 3) (at_ wd 19 3) (at_ wd 11 4) (at_ wd 7 4)) = _
  rw [z0]
  show (some (Instr.vrmin (at_ wd 28 4) (at_ wd 22 3) (at_ wd 19 3) (at_ wd 11 4) (at_ wd 7 4)) : Option Instr) = _
  rw [e0, e1, e2, e3, e4]

theorem vrband (la : BitVec 4) (ty m : BitVec 3) (va vd : BitVec 4) : Statement (Instr.vrband la ty m va vd) := by
  have ok : wvFits 0x23 vd.toNat va.toNat 0 m.toNat ty.toNat 3 la.toNat := ⟨by decide, vd.isLt, va.isLt, by decide, m.isLt, ty.isLt, by decide, la.isLt⟩
  obtain ⟨wd, hw⟩ : ∃ wd, wd = Machine.wvWord 0x23 vd.toNat va.toNat 0 m.toNat ty.toNat 3 la.toNat := ⟨_, rfl⟩
  have e : Instr.encode (Instr.vrband la ty m va vd) = wd := hw.symm ▸ rfl
  refine four e (hw ▸ wv_lt ok) (hw ▸ wv_odd ..) ?_
  have m1 : part wd 1 6 = 35 := hw ▸ wv_op ok
  have m2 : part wd 25 3 = 3 := hw ▸ wv_fn ok
  have e0 : at_ wd 28 4 = la := at_eq (hw ▸ wv_la ok)
  have e1 : at_ wd 22 3 = ty := at_eq (hw ▸ wv_ty ok)
  have e2 : at_ wd 19 3 = m := at_eq (hw ▸ wv_m ok)
  have e3 : at_ wd 11 4 = va := at_eq (hw ▸ wv_va ok)
  have e4 : at_ wd 7 4 = vd := at_eq (hw ▸ wv_vd ok)
  have z0 : part wd 15 4 = 0 := hw ▸ wv_vb ok
  unfold decodeRow32; rw [m1]
  show decVred wd = _; unfold decVred; rw [m2]
  show zeroed (part wd 15 4) (Instr.vrband (at_ wd 28 4) (at_ wd 22 3) (at_ wd 19 3) (at_ wd 11 4) (at_ wd 7 4)) = _
  rw [z0]
  show (some (Instr.vrband (at_ wd 28 4) (at_ wd 22 3) (at_ wd 19 3) (at_ wd 11 4) (at_ wd 7 4)) : Option Instr) = _
  rw [e0, e1, e2, e3, e4]

theorem vrbor (la : BitVec 4) (ty m : BitVec 3) (va vd : BitVec 4) : Statement (Instr.vrbor la ty m va vd) := by
  have ok : wvFits 0x23 vd.toNat va.toNat 0 m.toNat ty.toNat 4 la.toNat := ⟨by decide, vd.isLt, va.isLt, by decide, m.isLt, ty.isLt, by decide, la.isLt⟩
  obtain ⟨wd, hw⟩ : ∃ wd, wd = Machine.wvWord 0x23 vd.toNat va.toNat 0 m.toNat ty.toNat 4 la.toNat := ⟨_, rfl⟩
  have e : Instr.encode (Instr.vrbor la ty m va vd) = wd := hw.symm ▸ rfl
  refine four e (hw ▸ wv_lt ok) (hw ▸ wv_odd ..) ?_
  have m1 : part wd 1 6 = 35 := hw ▸ wv_op ok
  have m2 : part wd 25 3 = 4 := hw ▸ wv_fn ok
  have e0 : at_ wd 28 4 = la := at_eq (hw ▸ wv_la ok)
  have e1 : at_ wd 22 3 = ty := at_eq (hw ▸ wv_ty ok)
  have e2 : at_ wd 19 3 = m := at_eq (hw ▸ wv_m ok)
  have e3 : at_ wd 11 4 = va := at_eq (hw ▸ wv_va ok)
  have e4 : at_ wd 7 4 = vd := at_eq (hw ▸ wv_vd ok)
  have z0 : part wd 15 4 = 0 := hw ▸ wv_vb ok
  unfold decodeRow32; rw [m1]
  show decVred wd = _; unfold decVred; rw [m2]
  show zeroed (part wd 15 4) (Instr.vrbor (at_ wd 28 4) (at_ wd 22 3) (at_ wd 19 3) (at_ wd 11 4) (at_ wd 7 4)) = _
  rw [z0]
  show (some (Instr.vrbor (at_ wd 28 4) (at_ wd 22 3) (at_ wd 19 3) (at_ wd 11 4) (at_ wd 7 4)) : Option Instr) = _
  rw [e0, e1, e2, e3, e4]

theorem vrbxor (la : BitVec 4) (ty m : BitVec 3) (va vd : BitVec 4) : Statement (Instr.vrbxor la ty m va vd) := by
  have ok : wvFits 0x23 vd.toNat va.toNat 0 m.toNat ty.toNat 5 la.toNat := ⟨by decide, vd.isLt, va.isLt, by decide, m.isLt, ty.isLt, by decide, la.isLt⟩
  obtain ⟨wd, hw⟩ : ∃ wd, wd = Machine.wvWord 0x23 vd.toNat va.toNat 0 m.toNat ty.toNat 5 la.toNat := ⟨_, rfl⟩
  have e : Instr.encode (Instr.vrbxor la ty m va vd) = wd := hw.symm ▸ rfl
  refine four e (hw ▸ wv_lt ok) (hw ▸ wv_odd ..) ?_
  have m1 : part wd 1 6 = 35 := hw ▸ wv_op ok
  have m2 : part wd 25 3 = 5 := hw ▸ wv_fn ok
  have e0 : at_ wd 28 4 = la := at_eq (hw ▸ wv_la ok)
  have e1 : at_ wd 22 3 = ty := at_eq (hw ▸ wv_ty ok)
  have e2 : at_ wd 19 3 = m := at_eq (hw ▸ wv_m ok)
  have e3 : at_ wd 11 4 = va := at_eq (hw ▸ wv_va ok)
  have e4 : at_ wd 7 4 = vd := at_eq (hw ▸ wv_vd ok)
  have z0 : part wd 15 4 = 0 := hw ▸ wv_vb ok
  unfold decodeRow32; rw [m1]
  show decVred wd = _; unfold decVred; rw [m2]
  show zeroed (part wd 15 4) (Instr.vrbxor (at_ wd 28 4) (at_ wd 22 3) (at_ wd 19 3) (at_ wd 11 4) (at_ wd 7 4)) = _
  rw [z0]
  show (some (Instr.vrbxor (at_ wd 28 4) (at_ wd 22 3) (at_ wd 19 3) (at_ wd 11 4) (at_ wd 7 4)) : Option Instr) = _
  rw [e0, e1, e2, e3, e4]

theorem vdot (la : BitVec 4) (ty m : BitVec 3) (vb va vd : BitVec 4) : Statement (Instr.vdot la ty m vb va vd) := by
  have ok : wvFits 0x23 vd.toNat va.toNat vb.toNat m.toNat ty.toNat 6 la.toNat := ⟨by decide, vd.isLt, va.isLt, vb.isLt, m.isLt, ty.isLt, by decide, la.isLt⟩
  obtain ⟨wd, hw⟩ : ∃ wd, wd = Machine.wvWord 0x23 vd.toNat va.toNat vb.toNat m.toNat ty.toNat 6 la.toNat := ⟨_, rfl⟩
  have e : Instr.encode (Instr.vdot la ty m vb va vd) = wd := hw.symm ▸ rfl
  refine four e (hw ▸ wv_lt ok) (hw ▸ wv_odd ..) ?_
  have m1 : part wd 1 6 = 35 := hw ▸ wv_op ok
  have m2 : part wd 25 3 = 6 := hw ▸ wv_fn ok
  have e0 : at_ wd 28 4 = la := at_eq (hw ▸ wv_la ok)
  have e1 : at_ wd 22 3 = ty := at_eq (hw ▸ wv_ty ok)
  have e2 : at_ wd 19 3 = m := at_eq (hw ▸ wv_m ok)
  have e3 : at_ wd 15 4 = vb := at_eq (hw ▸ wv_vb ok)
  have e4 : at_ wd 11 4 = va := at_eq (hw ▸ wv_va ok)
  have e5 : at_ wd 7 4 = vd := at_eq (hw ▸ wv_vd ok)
  unfold decodeRow32; rw [m1]
  show decVred wd = _; unfold decVred; rw [m2]
  show (some (Instr.vdot (at_ wd 28 4) (at_ wd 22 3) (at_ wd 19 3) (at_ wd 15 4) (at_ wd 11 4) (at_ wd 7 4)) : Option Instr) = _
  rw [e0, e1, e2, e3, e4, e5]

theorem vrsuma (la : BitVec 4) (ty m : BitVec 3) (vb va vd : BitVec 4) : Statement (Instr.vrsuma la ty m vb va vd) := by
  have ok : wvFits 0x23 vd.toNat va.toNat vb.toNat m.toNat ty.toNat 7 la.toNat := ⟨by decide, vd.isLt, va.isLt, vb.isLt, m.isLt, ty.isLt, by decide, la.isLt⟩
  obtain ⟨wd, hw⟩ : ∃ wd, wd = Machine.wvWord 0x23 vd.toNat va.toNat vb.toNat m.toNat ty.toNat 7 la.toNat := ⟨_, rfl⟩
  have e : Instr.encode (Instr.vrsuma la ty m vb va vd) = wd := hw.symm ▸ rfl
  refine four e (hw ▸ wv_lt ok) (hw ▸ wv_odd ..) ?_
  have m1 : part wd 1 6 = 35 := hw ▸ wv_op ok
  have m2 : part wd 25 3 = 7 := hw ▸ wv_fn ok
  have e0 : at_ wd 28 4 = la := at_eq (hw ▸ wv_la ok)
  have e1 : at_ wd 22 3 = ty := at_eq (hw ▸ wv_ty ok)
  have e2 : at_ wd 19 3 = m := at_eq (hw ▸ wv_m ok)
  have e3 : at_ wd 15 4 = vb := at_eq (hw ▸ wv_vb ok)
  have e4 : at_ wd 11 4 = va := at_eq (hw ▸ wv_va ok)
  have e5 : at_ wd 7 4 = vd := at_eq (hw ▸ wv_vd ok)
  unfold decodeRow32; rw [m1]
  show decVred wd = _; unfold decVred; rw [m2]
  show (some (Instr.vrsuma (at_ wd 28 4) (at_ wd 22 3) (at_ wd 19 3) (at_ wd 15 4) (at_ wd 11 4) (at_ wd 7 4)) : Option Instr) = _
  rw [e0, e1, e2, e3, e4, e5]

theorem vshuf (la : BitVec 4) (ty m : BitVec 3) (vb va vd : BitVec 4) : Statement (Instr.vshuf la ty m vb va vd) := by
  have ok : wvFits 0x24 vd.toNat va.toNat vb.toNat m.toNat ty.toNat 0 la.toNat := ⟨by decide, vd.isLt, va.isLt, vb.isLt, m.isLt, ty.isLt, by decide, la.isLt⟩
  obtain ⟨wd, hw⟩ : ∃ wd, wd = Machine.wvWord 0x24 vd.toNat va.toNat vb.toNat m.toNat ty.toNat 0 la.toNat := ⟨_, rfl⟩
  have e : Instr.encode (Instr.vshuf la ty m vb va vd) = wd := hw.symm ▸ rfl
  refine four e (hw ▸ wv_lt ok) (hw ▸ wv_odd ..) ?_
  have m1 : part wd 1 6 = 36 := hw ▸ wv_op ok
  have m2 : part wd 25 3 = 0 := hw ▸ wv_fn ok
  have e0 : at_ wd 28 4 = la := at_eq (hw ▸ wv_la ok)
  have e1 : at_ wd 22 3 = ty := at_eq (hw ▸ wv_ty ok)
  have e2 : at_ wd 19 3 = m := at_eq (hw ▸ wv_m ok)
  have e3 : at_ wd 15 4 = vb := at_eq (hw ▸ wv_vb ok)
  have e4 : at_ wd 11 4 = va := at_eq (hw ▸ wv_va ok)
  have e5 : at_ wd 7 4 = vd := at_eq (hw ▸ wv_vd ok)
  unfold decodeRow32; rw [m1]
  show decVperm wd = _; unfold decVperm; rw [m2]
  show (some (Instr.vshuf (at_ wd 28 4) (at_ wd 22 3) (at_ wd 19 3) (at_ wd 15 4) (at_ wd 11 4) (at_ wd 7 4)) : Option Instr) = _
  rw [e0, e1, e2, e3, e4, e5]

theorem vrot (la : BitVec 4) (ty m : BitVec 3) (vb va vd : BitVec 4) : Statement (Instr.vrot la ty m vb va vd) := by
  have ok : wvFits 0x24 vd.toNat va.toNat vb.toNat m.toNat ty.toNat 1 la.toNat := ⟨by decide, vd.isLt, va.isLt, vb.isLt, m.isLt, ty.isLt, by decide, la.isLt⟩
  obtain ⟨wd, hw⟩ : ∃ wd, wd = Machine.wvWord 0x24 vd.toNat va.toNat vb.toNat m.toNat ty.toNat 1 la.toNat := ⟨_, rfl⟩
  have e : Instr.encode (Instr.vrot la ty m vb va vd) = wd := hw.symm ▸ rfl
  refine four e (hw ▸ wv_lt ok) (hw ▸ wv_odd ..) ?_
  have m1 : part wd 1 6 = 36 := hw ▸ wv_op ok
  have m2 : part wd 25 3 = 1 := hw ▸ wv_fn ok
  have e0 : at_ wd 28 4 = la := at_eq (hw ▸ wv_la ok)
  have e1 : at_ wd 22 3 = ty := at_eq (hw ▸ wv_ty ok)
  have e2 : at_ wd 19 3 = m := at_eq (hw ▸ wv_m ok)
  have e3 : at_ wd 15 4 = vb := at_eq (hw ▸ wv_vb ok)
  have e4 : at_ wd 11 4 = va := at_eq (hw ▸ wv_va ok)
  have e5 : at_ wd 7 4 = vd := at_eq (hw ▸ wv_vd ok)
  unfold decodeRow32; rw [m1]
  show decVperm wd = _; unfold decVperm; rw [m2]
  show (some (Instr.vrot (at_ wd 28 4) (at_ wd 22 3) (at_ wd 19 3) (at_ wd 15 4) (at_ wd 11 4) (at_ wd 7 4)) : Option Instr) = _
  rw [e0, e1, e2, e3, e4, e5]

theorem vslide (la : BitVec 4) (ty m : BitVec 3) (vb va vd : BitVec 4) : Statement (Instr.vslide la ty m vb va vd) := by
  have ok : wvFits 0x24 vd.toNat va.toNat vb.toNat m.toNat ty.toNat 2 la.toNat := ⟨by decide, vd.isLt, va.isLt, vb.isLt, m.isLt, ty.isLt, by decide, la.isLt⟩
  obtain ⟨wd, hw⟩ : ∃ wd, wd = Machine.wvWord 0x24 vd.toNat va.toNat vb.toNat m.toNat ty.toNat 2 la.toNat := ⟨_, rfl⟩
  have e : Instr.encode (Instr.vslide la ty m vb va vd) = wd := hw.symm ▸ rfl
  refine four e (hw ▸ wv_lt ok) (hw ▸ wv_odd ..) ?_
  have m1 : part wd 1 6 = 36 := hw ▸ wv_op ok
  have m2 : part wd 25 3 = 2 := hw ▸ wv_fn ok
  have e0 : at_ wd 28 4 = la := at_eq (hw ▸ wv_la ok)
  have e1 : at_ wd 22 3 = ty := at_eq (hw ▸ wv_ty ok)
  have e2 : at_ wd 19 3 = m := at_eq (hw ▸ wv_m ok)
  have e3 : at_ wd 15 4 = vb := at_eq (hw ▸ wv_vb ok)
  have e4 : at_ wd 11 4 = va := at_eq (hw ▸ wv_va ok)
  have e5 : at_ wd 7 4 = vd := at_eq (hw ▸ wv_vd ok)
  unfold decodeRow32; rw [m1]
  show decVperm wd = _; unfold decVperm; rw [m2]
  show (some (Instr.vslide (at_ wd 28 4) (at_ wd 22 3) (at_ wd 19 3) (at_ wd 15 4) (at_ wd 11 4) (at_ wd 7 4)) : Option Instr) = _
  rw [e0, e1, e2, e3, e4, e5]

theorem vcmpr (la : BitVec 4) (ty m : BitVec 3) (va vd : BitVec 4) : Statement (Instr.vcmpr la ty m va vd) := by
  have ok : wvFits 0x24 vd.toNat va.toNat 0 m.toNat ty.toNat 3 la.toNat := ⟨by decide, vd.isLt, va.isLt, by decide, m.isLt, ty.isLt, by decide, la.isLt⟩
  obtain ⟨wd, hw⟩ : ∃ wd, wd = Machine.wvWord 0x24 vd.toNat va.toNat 0 m.toNat ty.toNat 3 la.toNat := ⟨_, rfl⟩
  have e : Instr.encode (Instr.vcmpr la ty m va vd) = wd := hw.symm ▸ rfl
  refine four e (hw ▸ wv_lt ok) (hw ▸ wv_odd ..) ?_
  have m1 : part wd 1 6 = 36 := hw ▸ wv_op ok
  have m2 : part wd 25 3 = 3 := hw ▸ wv_fn ok
  have e0 : at_ wd 28 4 = la := at_eq (hw ▸ wv_la ok)
  have e1 : at_ wd 22 3 = ty := at_eq (hw ▸ wv_ty ok)
  have e2 : at_ wd 19 3 = m := at_eq (hw ▸ wv_m ok)
  have e3 : at_ wd 11 4 = va := at_eq (hw ▸ wv_va ok)
  have e4 : at_ wd 7 4 = vd := at_eq (hw ▸ wv_vd ok)
  have z0 : part wd 15 4 = 0 := hw ▸ wv_vb ok
  unfold decodeRow32; rw [m1]
  show decVperm wd = _; unfold decVperm; rw [m2]
  show zeroed (part wd 15 4) (Instr.vcmpr (at_ wd 28 4) (at_ wd 22 3) (at_ wd 19 3) (at_ wd 11 4) (at_ wd 7 4)) = _
  rw [z0]
  show (some (Instr.vcmpr (at_ wd 28 4) (at_ wd 22 3) (at_ wd 19 3) (at_ wd 11 4) (at_ wd 7 4)) : Option Instr) = _
  rw [e0, e1, e2, e3, e4]

theorem vexpd (la : BitVec 4) (ty m : BitVec 3) (va vd : BitVec 4) : Statement (Instr.vexpd la ty m va vd) := by
  have ok : wvFits 0x24 vd.toNat va.toNat 0 m.toNat ty.toNat 4 la.toNat := ⟨by decide, vd.isLt, va.isLt, by decide, m.isLt, ty.isLt, by decide, la.isLt⟩
  obtain ⟨wd, hw⟩ : ∃ wd, wd = Machine.wvWord 0x24 vd.toNat va.toNat 0 m.toNat ty.toNat 4 la.toNat := ⟨_, rfl⟩
  have e : Instr.encode (Instr.vexpd la ty m va vd) = wd := hw.symm ▸ rfl
  refine four e (hw ▸ wv_lt ok) (hw ▸ wv_odd ..) ?_
  have m1 : part wd 1 6 = 36 := hw ▸ wv_op ok
  have m2 : part wd 25 3 = 4 := hw ▸ wv_fn ok
  have e0 : at_ wd 28 4 = la := at_eq (hw ▸ wv_la ok)
  have e1 : at_ wd 22 3 = ty := at_eq (hw ▸ wv_ty ok)
  have e2 : at_ wd 19 3 = m := at_eq (hw ▸ wv_m ok)
  have e3 : at_ wd 11 4 = va := at_eq (hw ▸ wv_va ok)
  have e4 : at_ wd 7 4 = vd := at_eq (hw ▸ wv_vd ok)
  have z0 : part wd 15 4 = 0 := hw ▸ wv_vb ok
  unfold decodeRow32; rw [m1]
  show decVperm wd = _; unfold decVperm; rw [m2]
  show zeroed (part wd 15 4) (Instr.vexpd (at_ wd 28 4) (at_ wd 22 3) (at_ wd 19 3) (at_ wd 11 4) (at_ wd 7 4)) = _
  rw [z0]
  show (some (Instr.vexpd (at_ wd 28 4) (at_ wd 22 3) (at_ wd 19 3) (at_ wd 11 4) (at_ wd 7 4)) : Option Instr) = _
  rw [e0, e1, e2, e3, e4]

theorem viota (la : BitVec 4) (ty m : BitVec 3) (vd : BitVec 4) : Statement (Instr.viota la ty m vd) := by
  have h_la := la.isLt
  have h_ty := ty.isLt
  have h_m := m.isLt
  have h_vd := vd.isLt
  have ok : wvFits 0x24 vd.toNat 0 0 m.toNat ty.toNat 5 la.toNat := ⟨by decide, vd.isLt, by decide, by decide, m.isLt, ty.isLt, by decide, la.isLt⟩
  obtain ⟨wd, hw⟩ : ∃ wd, wd = Machine.wvWord 0x24 vd.toNat 0 0 m.toNat ty.toNat 5 la.toNat := ⟨_, rfl⟩
  have e : Instr.encode (Instr.viota la ty m vd) = wd := hw.symm ▸ rfl
  refine four e (hw ▸ wv_lt ok) (hw ▸ wv_odd ..) ?_
  have m1 : part wd 1 6 = 36 := hw ▸ wv_op ok
  have m2 : part wd 25 3 = 5 := hw ▸ wv_fn ok
  have e0 : at_ wd 28 4 = la := at_eq (hw ▸ wv_la ok)
  have e1 : at_ wd 22 3 = ty := at_eq (hw ▸ wv_ty ok)
  have e2 : at_ wd 19 3 = m := at_eq (hw ▸ wv_m ok)
  have e3 : at_ wd 7 4 = vd := at_eq (hw ▸ wv_vd ok)
  have z0 : part wd 11 8 = 0 := by unfold Machine.wvWord at hw; unfold part; omega
  unfold decodeRow32; rw [m1]
  show decVperm wd = _; unfold decVperm; rw [m2]
  show zeroed (part wd 11 8) (Instr.viota (at_ wd 28 4) (at_ wd 22 3) (at_ wd 19 3) (at_ wd 7 4)) = _
  rw [z0]
  show (some (Instr.viota (at_ wd 28 4) (at_ wd 22 3) (at_ wd 19 3) (at_ wd 7 4)) : Option Instr) = _
  rw [e0, e1, e2, e3]

theorem vbcast (la : BitVec 4) (ty m : BitVec 3) (va vd : BitVec 4) : Statement (Instr.vbcast la ty m va vd) := by
  have ok : wvFits 0x24 vd.toNat va.toNat 0 m.toNat ty.toNat 6 la.toNat := ⟨by decide, vd.isLt, va.isLt, by decide, m.isLt, ty.isLt, by decide, la.isLt⟩
  obtain ⟨wd, hw⟩ : ∃ wd, wd = Machine.wvWord 0x24 vd.toNat va.toNat 0 m.toNat ty.toNat 6 la.toNat := ⟨_, rfl⟩
  have e : Instr.encode (Instr.vbcast la ty m va vd) = wd := hw.symm ▸ rfl
  refine four e (hw ▸ wv_lt ok) (hw ▸ wv_odd ..) ?_
  have m1 : part wd 1 6 = 36 := hw ▸ wv_op ok
  have m2 : part wd 25 3 = 6 := hw ▸ wv_fn ok
  have e0 : at_ wd 28 4 = la := at_eq (hw ▸ wv_la ok)
  have e1 : at_ wd 22 3 = ty := at_eq (hw ▸ wv_ty ok)
  have e2 : at_ wd 19 3 = m := at_eq (hw ▸ wv_m ok)
  have e3 : at_ wd 11 4 = va := at_eq (hw ▸ wv_va ok)
  have e4 : at_ wd 7 4 = vd := at_eq (hw ▸ wv_vd ok)
  have z0 : part wd 15 4 = 0 := hw ▸ wv_vb ok
  unfold decodeRow32; rw [m1]
  show decVperm wd = _; unfold decVperm; rw [m2]
  show zeroed (part wd 15 4) (Instr.vbcast (at_ wd 28 4) (at_ wd 22 3) (at_ wd 19 3) (at_ wd 11 4) (at_ wd 7 4)) = _
  rw [z0]
  show (some (Instr.vbcast (at_ wd 28 4) (at_ wd 22 3) (at_ wd 19 3) (at_ wd 11 4) (at_ wd 7 4)) : Option Instr) = _
  rw [e0, e1, e2, e3, e4]

theorem vzip (la : BitVec 4) (ty m : BitVec 3) (vb va vd : BitVec 4) : Statement (Instr.vzip la ty m vb va vd) := by
  have ok : wvFits 0x24 vd.toNat va.toNat vb.toNat m.toNat ty.toNat 7 la.toNat := ⟨by decide, vd.isLt, va.isLt, vb.isLt, m.isLt, ty.isLt, by decide, la.isLt⟩
  obtain ⟨wd, hw⟩ : ∃ wd, wd = Machine.wvWord 0x24 vd.toNat va.toNat vb.toNat m.toNat ty.toNat 7 la.toNat := ⟨_, rfl⟩
  have e : Instr.encode (Instr.vzip la ty m vb va vd) = wd := hw.symm ▸ rfl
  refine four e (hw ▸ wv_lt ok) (hw ▸ wv_odd ..) ?_
  have m1 : part wd 1 6 = 36 := hw ▸ wv_op ok
  have m2 : part wd 25 3 = 7 := hw ▸ wv_fn ok
  have e0 : at_ wd 28 4 = la := at_eq (hw ▸ wv_la ok)
  have e1 : at_ wd 22 3 = ty := at_eq (hw ▸ wv_ty ok)
  have e2 : at_ wd 19 3 = m := at_eq (hw ▸ wv_m ok)
  have e3 : at_ wd 15 4 = vb := at_eq (hw ▸ wv_vb ok)
  have e4 : at_ wd 11 4 = va := at_eq (hw ▸ wv_va ok)
  have e5 : at_ wd 7 4 = vd := at_eq (hw ▸ wv_vd ok)
  unfold decodeRow32; rw [m1]
  show decVperm wd = _; unfold decVperm; rw [m2]
  show (some (Instr.vzip (at_ wd 28 4) (at_ wd 22 3) (at_ wd 19 3) (at_ wd 15 4) (at_ wd 11 4) (at_ wd 7 4)) : Option Instr) = _
  rw [e0, e1, e2, e3, e4, e5]

theorem vget (la : BitVec 4) (ty : BitVec 3) (x : Reg) (va : BitVec 4) : Statement (Instr.vget la ty x va) := by
  have ok : wvxFits 0x25 0 va.toNat x.toNat 0 ty.toNat 0 la.toNat := ⟨by decide, by decide, va.isLt, x.isLt, by decide, ty.isLt, by decide, la.isLt⟩
  obtain ⟨wd, hw⟩ : ∃ wd, wd = Machine.wvxWord 0x25 0 va.toNat x.toNat 0 ty.toNat 0 la.toNat := ⟨_, rfl⟩
  have e : Instr.encode (Instr.vget la ty x va) = wd := hw.symm ▸ rfl
  refine four e (hw ▸ wvx_lt ok) (hw ▸ wvx_odd ..) ?_
  have m1 : part wd 1 6 = 37 := hw ▸ wvx_op ok
  have m2 : part wd 26 2 = 0 := hw ▸ wvx_fn ok
  have e0 : at_ wd 28 4 = la := at_eq (hw ▸ wvx_la ok)
  have e1 : at_ wd 23 3 = ty := at_eq (hw ▸ wvx_ty ok)
  have e2 : at_ wd 15 5 = x := at_eq (hw ▸ wvx_x ok)
  have e3 : at_ wd 11 4 = va := at_eq (hw ▸ wvx_va ok)
  have z0 : part wd 7 4 = 0 := hw ▸ wvx_vd ok
  have z1 : part wd 20 3 = 0 := hw ▸ wvx_m ok
  unfold decodeRow32; rw [m1]
  show decVxs wd = _; unfold decVxs; rw [m2]
  show zeroed (part wd 7 4 + part wd 20 3) (Instr.vget (at_ wd 28 4) (at_ wd 23 3) (at_ wd 15 5) (at_ wd 11 4)) = _
  rw [z0, z1]
  show (some (Instr.vget (at_ wd 28 4) (at_ wd 23 3) (at_ wd 15 5) (at_ wd 11 4)) : Option Instr) = _
  rw [e0, e1, e2, e3]

theorem vput (la : BitVec 4) (ty : BitVec 3) (x : Reg) (va vd : BitVec 4) : Statement (Instr.vput la ty x va vd) := by
  have ok : wvxFits 0x25 vd.toNat va.toNat x.toNat 0 ty.toNat 1 la.toNat := ⟨by decide, vd.isLt, va.isLt, x.isLt, by decide, ty.isLt, by decide, la.isLt⟩
  obtain ⟨wd, hw⟩ : ∃ wd, wd = Machine.wvxWord 0x25 vd.toNat va.toNat x.toNat 0 ty.toNat 1 la.toNat := ⟨_, rfl⟩
  have e : Instr.encode (Instr.vput la ty x va vd) = wd := hw.symm ▸ rfl
  refine four e (hw ▸ wvx_lt ok) (hw ▸ wvx_odd ..) ?_
  have m1 : part wd 1 6 = 37 := hw ▸ wvx_op ok
  have m2 : part wd 26 2 = 1 := hw ▸ wvx_fn ok
  have e0 : at_ wd 28 4 = la := at_eq (hw ▸ wvx_la ok)
  have e1 : at_ wd 23 3 = ty := at_eq (hw ▸ wvx_ty ok)
  have e2 : at_ wd 15 5 = x := at_eq (hw ▸ wvx_x ok)
  have e3 : at_ wd 11 4 = va := at_eq (hw ▸ wvx_va ok)
  have e4 : at_ wd 7 4 = vd := at_eq (hw ▸ wvx_vd ok)
  have z0 : part wd 20 3 = 0 := hw ▸ wvx_m ok
  unfold decodeRow32; rw [m1]
  show decVxs wd = _; unfold decVxs; rw [m2]
  show zeroed (part wd 20 3) (Instr.vput (at_ wd 28 4) (at_ wd 23 3) (at_ wd 15 5) (at_ wd 11 4) (at_ wd 7 4)) = _
  rw [z0]
  show (some (Instr.vput (at_ wd 28 4) (at_ wd 23 3) (at_ wd 15 5) (at_ wd 11 4) (at_ wd 7 4)) : Option Instr) = _
  rw [e0, e1, e2, e3, e4]

theorem vsplat (la : BitVec 4) (ty m : BitVec 3) (x : Reg) (vd : BitVec 4) : Statement (Instr.vsplat la ty m x vd) := by
  have ok : wvxFits 0x25 vd.toNat 0 x.toNat m.toNat ty.toNat 2 la.toNat := ⟨by decide, vd.isLt, by decide, x.isLt, m.isLt, ty.isLt, by decide, la.isLt⟩
  obtain ⟨wd, hw⟩ : ∃ wd, wd = Machine.wvxWord 0x25 vd.toNat 0 x.toNat m.toNat ty.toNat 2 la.toNat := ⟨_, rfl⟩
  have e : Instr.encode (Instr.vsplat la ty m x vd) = wd := hw.symm ▸ rfl
  refine four e (hw ▸ wvx_lt ok) (hw ▸ wvx_odd ..) ?_
  have m1 : part wd 1 6 = 37 := hw ▸ wvx_op ok
  have m2 : part wd 26 2 = 2 := hw ▸ wvx_fn ok
  have e0 : at_ wd 28 4 = la := at_eq (hw ▸ wvx_la ok)
  have e1 : at_ wd 23 3 = ty := at_eq (hw ▸ wvx_ty ok)
  have e2 : at_ wd 20 3 = m := at_eq (hw ▸ wvx_m ok)
  have e3 : at_ wd 15 5 = x := at_eq (hw ▸ wvx_x ok)
  have e4 : at_ wd 7 4 = vd := at_eq (hw ▸ wvx_vd ok)
  have z0 : part wd 11 4 = 0 := hw ▸ wvx_va ok
  unfold decodeRow32; rw [m1]
  show decVxs wd = _; unfold decVxs; rw [m2]
  show zeroed (part wd 11 4) (Instr.vsplat (at_ wd 28 4) (at_ wd 23 3) (at_ wd 20 3) (at_ wd 15 5) (at_ wd 7 4)) = _
  rw [z0]
  show (some (Instr.vsplat (at_ wd 28 4) (at_ wd 23 3) (at_ wd 20 3) (at_ wd 15 5) (at_ wd 7 4)) : Option Instr) = _
  rw [e0, e1, e2, e3, e4]

theorem vmov (la : BitVec 4) (ty m : BitVec 3) (va vd : BitVec 4) : Statement (Instr.vmov la ty m va vd) := by
  have ok : wvxFits 0x25 vd.toNat va.toNat 0 m.toNat ty.toNat 3 la.toNat := ⟨by decide, vd.isLt, va.isLt, by decide, m.isLt, ty.isLt, by decide, la.isLt⟩
  obtain ⟨wd, hw⟩ : ∃ wd, wd = Machine.wvxWord 0x25 vd.toNat va.toNat 0 m.toNat ty.toNat 3 la.toNat := ⟨_, rfl⟩
  have e : Instr.encode (Instr.vmov la ty m va vd) = wd := hw.symm ▸ rfl
  refine four e (hw ▸ wvx_lt ok) (hw ▸ wvx_odd ..) ?_
  have m1 : part wd 1 6 = 37 := hw ▸ wvx_op ok
  have m2 : part wd 26 2 = 3 := hw ▸ wvx_fn ok
  have e0 : at_ wd 28 4 = la := at_eq (hw ▸ wvx_la ok)
  have e1 : at_ wd 23 3 = ty := at_eq (hw ▸ wvx_ty ok)
  have e2 : at_ wd 20 3 = m := at_eq (hw ▸ wvx_m ok)
  have e3 : at_ wd 11 4 = va := at_eq (hw ▸ wvx_va ok)
  have e4 : at_ wd 7 4 = vd := at_eq (hw ▸ wvx_vd ok)
  have z0 : part wd 15 5 = 0 := hw ▸ wvx_x ok
  unfold decodeRow32; rw [m1]
  show decVxs wd = _; unfold decVxs; rw [m2]
  show zeroed (part wd 15 5) (Instr.vmov (at_ wd 28 4) (at_ wd 23 3) (at_ wd 20 3) (at_ wd 11 4) (at_ wd 7 4)) = _
  rw [z0]
  show (some (Instr.vmov (at_ wd 28 4) (at_ wd 23 3) (at_ wd 20 3) (at_ wd 11 4) (at_ wd 7 4)) : Option Instr) = _
  rw [e0, e1, e2, e3, e4]

theorem mand (la : BitVec 4) (vb va vd : BitVec 3) : Statement (Instr.mand la vb va vd) := by
  have h_la := la.isLt
  have h_vb := vb.isLt
  have h_va := va.isLt
  have h_vd := vd.isLt
  have ok : wvFits 0x26 vd.toNat va.toNat vb.toNat 0 0 0 la.toNat := ⟨by decide, lt_of_lt_of_le vd.isLt (by decide), lt_of_lt_of_le va.isLt (by decide), lt_of_lt_of_le vb.isLt (by decide), by decide, by decide, by decide, la.isLt⟩
  obtain ⟨wd, hw⟩ : ∃ wd, wd = Machine.wvWord 0x26 vd.toNat va.toNat vb.toNat 0 0 0 la.toNat := ⟨_, rfl⟩
  have e : Instr.encode (Instr.mand la vb va vd) = wd := hw.symm ▸ rfl
  refine four e (hw ▸ wv_lt ok) (hw ▸ wv_odd ..) ?_
  have m1 : part wd 1 6 = 38 := hw ▸ wv_op ok
  have m2 : part wd 25 3 = 0 := hw ▸ wv_fn ok
  have e0 : at_ wd 28 4 = la := at_eq (hw ▸ wv_la ok)
  have e1 : at_ wd 15 3 = vb := at_eq (by unfold Machine.wvWord at hw; unfold part; omega)
  have e2 : at_ wd 11 3 = va := at_eq (by unfold Machine.wvWord at hw; unfold part; omega)
  have e3 : at_ wd 7 3 = vd := at_eq (by unfold Machine.wvWord at hw; unfold part; omega)
  have z0 : part wd 10 1 = 0 := by unfold Machine.wvWord at hw; unfold part; omega
  have z1 : part wd 14 1 = 0 := by unfold Machine.wvWord at hw; unfold part; omega
  have z2 : part wd 18 7 = 0 := by unfold Machine.wvWord at hw; unfold part; omega
  unfold decodeRow32; rw [m1]
  show decVmsk wd = _; unfold decVmsk; rw [m2]
  show zeroed (part wd 10 1 + part wd 14 1 + part wd 18 7) (Instr.mand (at_ wd 28 4) (at_ wd 15 3) (at_ wd 11 3) (at_ wd 7 3)) = _
  rw [z0, z1, z2]
  show (some (Instr.mand (at_ wd 28 4) (at_ wd 15 3) (at_ wd 11 3) (at_ wd 7 3)) : Option Instr) = _
  rw [e0, e1, e2, e3]

theorem mor (la : BitVec 4) (vb va vd : BitVec 3) : Statement (Instr.mor la vb va vd) := by
  have h_la := la.isLt
  have h_vb := vb.isLt
  have h_va := va.isLt
  have h_vd := vd.isLt
  have ok : wvFits 0x26 vd.toNat va.toNat vb.toNat 0 0 1 la.toNat := ⟨by decide, lt_of_lt_of_le vd.isLt (by decide), lt_of_lt_of_le va.isLt (by decide), lt_of_lt_of_le vb.isLt (by decide), by decide, by decide, by decide, la.isLt⟩
  obtain ⟨wd, hw⟩ : ∃ wd, wd = Machine.wvWord 0x26 vd.toNat va.toNat vb.toNat 0 0 1 la.toNat := ⟨_, rfl⟩
  have e : Instr.encode (Instr.mor la vb va vd) = wd := hw.symm ▸ rfl
  refine four e (hw ▸ wv_lt ok) (hw ▸ wv_odd ..) ?_
  have m1 : part wd 1 6 = 38 := hw ▸ wv_op ok
  have m2 : part wd 25 3 = 1 := hw ▸ wv_fn ok
  have e0 : at_ wd 28 4 = la := at_eq (hw ▸ wv_la ok)
  have e1 : at_ wd 15 3 = vb := at_eq (by unfold Machine.wvWord at hw; unfold part; omega)
  have e2 : at_ wd 11 3 = va := at_eq (by unfold Machine.wvWord at hw; unfold part; omega)
  have e3 : at_ wd 7 3 = vd := at_eq (by unfold Machine.wvWord at hw; unfold part; omega)
  have z0 : part wd 10 1 = 0 := by unfold Machine.wvWord at hw; unfold part; omega
  have z1 : part wd 14 1 = 0 := by unfold Machine.wvWord at hw; unfold part; omega
  have z2 : part wd 18 7 = 0 := by unfold Machine.wvWord at hw; unfold part; omega
  unfold decodeRow32; rw [m1]
  show decVmsk wd = _; unfold decVmsk; rw [m2]
  show zeroed (part wd 10 1 + part wd 14 1 + part wd 18 7) (Instr.mor (at_ wd 28 4) (at_ wd 15 3) (at_ wd 11 3) (at_ wd 7 3)) = _
  rw [z0, z1, z2]
  show (some (Instr.mor (at_ wd 28 4) (at_ wd 15 3) (at_ wd 11 3) (at_ wd 7 3)) : Option Instr) = _
  rw [e0, e1, e2, e3]

theorem mxor (la : BitVec 4) (vb va vd : BitVec 3) : Statement (Instr.mxor la vb va vd) := by
  have h_la := la.isLt
  have h_vb := vb.isLt
  have h_va := va.isLt
  have h_vd := vd.isLt
  have ok : wvFits 0x26 vd.toNat va.toNat vb.toNat 0 0 2 la.toNat := ⟨by decide, lt_of_lt_of_le vd.isLt (by decide), lt_of_lt_of_le va.isLt (by decide), lt_of_lt_of_le vb.isLt (by decide), by decide, by decide, by decide, la.isLt⟩
  obtain ⟨wd, hw⟩ : ∃ wd, wd = Machine.wvWord 0x26 vd.toNat va.toNat vb.toNat 0 0 2 la.toNat := ⟨_, rfl⟩
  have e : Instr.encode (Instr.mxor la vb va vd) = wd := hw.symm ▸ rfl
  refine four e (hw ▸ wv_lt ok) (hw ▸ wv_odd ..) ?_
  have m1 : part wd 1 6 = 38 := hw ▸ wv_op ok
  have m2 : part wd 25 3 = 2 := hw ▸ wv_fn ok
  have e0 : at_ wd 28 4 = la := at_eq (hw ▸ wv_la ok)
  have e1 : at_ wd 15 3 = vb := at_eq (by unfold Machine.wvWord at hw; unfold part; omega)
  have e2 : at_ wd 11 3 = va := at_eq (by unfold Machine.wvWord at hw; unfold part; omega)
  have e3 : at_ wd 7 3 = vd := at_eq (by unfold Machine.wvWord at hw; unfold part; omega)
  have z0 : part wd 10 1 = 0 := by unfold Machine.wvWord at hw; unfold part; omega
  have z1 : part wd 14 1 = 0 := by unfold Machine.wvWord at hw; unfold part; omega
  have z2 : part wd 18 7 = 0 := by unfold Machine.wvWord at hw; unfold part; omega
  unfold decodeRow32; rw [m1]
  show decVmsk wd = _; unfold decVmsk; rw [m2]
  show zeroed (part wd 10 1 + part wd 14 1 + part wd 18 7) (Instr.mxor (at_ wd 28 4) (at_ wd 15 3) (at_ wd 11 3) (at_ wd 7 3)) = _
  rw [z0, z1, z2]
  show (some (Instr.mxor (at_ wd 28 4) (at_ wd 15 3) (at_ wd 11 3) (at_ wd 7 3)) : Option Instr) = _
  rw [e0, e1, e2, e3]

theorem mnot (la : BitVec 4) (va vd : BitVec 3) : Statement (Instr.mnot la va vd) := by
  have h_la := la.isLt
  have h_va := va.isLt
  have h_vd := vd.isLt
  have ok : wvFits 0x26 vd.toNat va.toNat 0 0 0 3 la.toNat := ⟨by decide, lt_of_lt_of_le vd.isLt (by decide), lt_of_lt_of_le va.isLt (by decide), by decide, by decide, by decide, by decide, la.isLt⟩
  obtain ⟨wd, hw⟩ : ∃ wd, wd = Machine.wvWord 0x26 vd.toNat va.toNat 0 0 0 3 la.toNat := ⟨_, rfl⟩
  have e : Instr.encode (Instr.mnot la va vd) = wd := hw.symm ▸ rfl
  refine four e (hw ▸ wv_lt ok) (hw ▸ wv_odd ..) ?_
  have m1 : part wd 1 6 = 38 := hw ▸ wv_op ok
  have m2 : part wd 25 3 = 3 := hw ▸ wv_fn ok
  have e0 : at_ wd 28 4 = la := at_eq (hw ▸ wv_la ok)
  have e1 : at_ wd 11 3 = va := at_eq (by unfold Machine.wvWord at hw; unfold part; omega)
  have e2 : at_ wd 7 3 = vd := at_eq (by unfold Machine.wvWord at hw; unfold part; omega)
  have z0 : part wd 10 1 = 0 := by unfold Machine.wvWord at hw; unfold part; omega
  have z1 : part wd 14 11 = 0 := by unfold Machine.wvWord at hw; unfold part; omega
  unfold decodeRow32; rw [m1]
  show decVmsk wd = _; unfold decVmsk; rw [m2]
  show zeroed (part wd 10 1 + part wd 14 11) (Instr.mnot (at_ wd 28 4) (at_ wd 11 3) (at_ wd 7 3)) = _
  rw [z0, z1]
  show (some (Instr.mnot (at_ wd 28 4) (at_ wd 11 3) (at_ wd 7 3)) : Option Instr) = _
  rw [e0, e1, e2]

theorem mpopc (la : BitVec 4) (va : BitVec 3) (vd : BitVec 4) : Statement (Instr.mpopc la va vd) := by
  have h_la := la.isLt
  have h_va := va.isLt
  have h_vd := vd.isLt
  have ok : wvFits 0x26 vd.toNat va.toNat 0 0 0 4 la.toNat := ⟨by decide, vd.isLt, lt_of_lt_of_le va.isLt (by decide), by decide, by decide, by decide, by decide, la.isLt⟩
  obtain ⟨wd, hw⟩ : ∃ wd, wd = Machine.wvWord 0x26 vd.toNat va.toNat 0 0 0 4 la.toNat := ⟨_, rfl⟩
  have e : Instr.encode (Instr.mpopc la va vd) = wd := hw.symm ▸ rfl
  refine four e (hw ▸ wv_lt ok) (hw ▸ wv_odd ..) ?_
  have m1 : part wd 1 6 = 38 := hw ▸ wv_op ok
  have m2 : part wd 25 3 = 4 := hw ▸ wv_fn ok
  have e0 : at_ wd 28 4 = la := at_eq (hw ▸ wv_la ok)
  have e1 : at_ wd 11 3 = va := at_eq (by unfold Machine.wvWord at hw; unfold part; omega)
  have e2 : at_ wd 7 4 = vd := at_eq (hw ▸ wv_vd ok)
  have z0 : part wd 14 11 = 0 := by unfold Machine.wvWord at hw; unfold part; omega
  unfold decodeRow32; rw [m1]
  show decVmsk wd = _; unfold decVmsk; rw [m2]
  show zeroed (part wd 14 11) (Instr.mpopc (at_ wd 28 4) (at_ wd 11 3) (at_ wd 7 4)) = _
  rw [z0]
  show (some (Instr.mpopc (at_ wd 28 4) (at_ wd 11 3) (at_ wd 7 4)) : Option Instr) = _
  rw [e0, e1, e2]

theorem mfirst (la : BitVec 4) (va : BitVec 3) (vd : BitVec 4) : Statement (Instr.mfirst la va vd) := by
  have h_la := la.isLt
  have h_va := va.isLt
  have h_vd := vd.isLt
  have ok : wvFits 0x26 vd.toNat va.toNat 0 0 0 5 la.toNat := ⟨by decide, vd.isLt, lt_of_lt_of_le va.isLt (by decide), by decide, by decide, by decide, by decide, la.isLt⟩
  obtain ⟨wd, hw⟩ : ∃ wd, wd = Machine.wvWord 0x26 vd.toNat va.toNat 0 0 0 5 la.toNat := ⟨_, rfl⟩
  have e : Instr.encode (Instr.mfirst la va vd) = wd := hw.symm ▸ rfl
  refine four e (hw ▸ wv_lt ok) (hw ▸ wv_odd ..) ?_
  have m1 : part wd 1 6 = 38 := hw ▸ wv_op ok
  have m2 : part wd 25 3 = 5 := hw ▸ wv_fn ok
  have e0 : at_ wd 28 4 = la := at_eq (hw ▸ wv_la ok)
  have e1 : at_ wd 11 3 = va := at_eq (by unfold Machine.wvWord at hw; unfold part; omega)
  have e2 : at_ wd 7 4 = vd := at_eq (hw ▸ wv_vd ok)
  have z0 : part wd 14 11 = 0 := by unfold Machine.wvWord at hw; unfold part; omega
  unfold decodeRow32; rw [m1]
  show decVmsk wd = _; unfold decVmsk; rw [m2]
  show zeroed (part wd 14 11) (Instr.mfirst (at_ wd 28 4) (at_ wd 11 3) (at_ wd 7 4)) = _
  rw [z0]
  show (some (Instr.mfirst (at_ wd 28 4) (at_ wd 11 3) (at_ wd 7 4)) : Option Instr) = _
  rw [e0, e1, e2]

theorem mset (la vb va : BitVec 4) (vd : BitVec 3) : Statement (Instr.mset la vb va vd) := by
  have h_la := la.isLt
  have h_vb := vb.isLt
  have h_va := va.isLt
  have h_vd := vd.isLt
  have ok : wvFits 0x26 vd.toNat va.toNat vb.toNat 0 0 6 la.toNat := ⟨by decide, lt_of_lt_of_le vd.isLt (by decide), va.isLt, vb.isLt, by decide, by decide, by decide, la.isLt⟩
  obtain ⟨wd, hw⟩ : ∃ wd, wd = Machine.wvWord 0x26 vd.toNat va.toNat vb.toNat 0 0 6 la.toNat := ⟨_, rfl⟩
  have e : Instr.encode (Instr.mset la vb va vd) = wd := hw.symm ▸ rfl
  refine four e (hw ▸ wv_lt ok) (hw ▸ wv_odd ..) ?_
  have m1 : part wd 1 6 = 38 := hw ▸ wv_op ok
  have m2 : part wd 25 3 = 6 := hw ▸ wv_fn ok
  have e0 : at_ wd 28 4 = la := at_eq (hw ▸ wv_la ok)
  have e1 : at_ wd 15 4 = vb := at_eq (hw ▸ wv_vb ok)
  have e2 : at_ wd 11 4 = va := at_eq (hw ▸ wv_va ok)
  have e3 : at_ wd 7 3 = vd := at_eq (by unfold Machine.wvWord at hw; unfold part; omega)
  have z0 : part wd 10 1 = 0 := by unfold Machine.wvWord at hw; unfold part; omega
  have z1 : part wd 19 6 = 0 := by unfold Machine.wvWord at hw; unfold part; omega
  unfold decodeRow32; rw [m1]
  show decVmsk wd = _; unfold decVmsk; rw [m2]
  show zeroed (part wd 10 1 + part wd 19 6) (Instr.mset (at_ wd 28 4) (at_ wd 15 4) (at_ wd 11 4) (at_ wd 7 3)) = _
  rw [z0, z1]
  show (some (Instr.mset (at_ wd 28 4) (at_ wd 15 4) (at_ wd 11 4) (at_ wd 7 3)) : Option Instr) = _
  rw [e0, e1, e2, e3]

theorem mget (la vb : BitVec 4) (va : BitVec 3) (vd : BitVec 4) : Statement (Instr.mget la vb va vd) := by
  have h_la := la.isLt
  have h_vb := vb.isLt
  have h_va := va.isLt
  have h_vd := vd.isLt
  have ok : wvFits 0x26 vd.toNat va.toNat vb.toNat 0 0 7 la.toNat := ⟨by decide, vd.isLt, lt_of_lt_of_le va.isLt (by decide), vb.isLt, by decide, by decide, by decide, la.isLt⟩
  obtain ⟨wd, hw⟩ : ∃ wd, wd = Machine.wvWord 0x26 vd.toNat va.toNat vb.toNat 0 0 7 la.toNat := ⟨_, rfl⟩
  have e : Instr.encode (Instr.mget la vb va vd) = wd := hw.symm ▸ rfl
  refine four e (hw ▸ wv_lt ok) (hw ▸ wv_odd ..) ?_
  have m1 : part wd 1 6 = 38 := hw ▸ wv_op ok
  have m2 : part wd 25 3 = 7 := hw ▸ wv_fn ok
  have e0 : at_ wd 28 4 = la := at_eq (hw ▸ wv_la ok)
  have e1 : at_ wd 15 4 = vb := at_eq (hw ▸ wv_vb ok)
  have e2 : at_ wd 11 3 = va := at_eq (by unfold Machine.wvWord at hw; unfold part; omega)
  have e3 : at_ wd 7 4 = vd := at_eq (hw ▸ wv_vd ok)
  have z0 : part wd 14 1 = 0 := by unfold Machine.wvWord at hw; unfold part; omega
  have z1 : part wd 19 6 = 0 := by unfold Machine.wvWord at hw; unfold part; omega
  unfold decodeRow32; rw [m1]
  show decVmsk wd = _; unfold decVmsk; rw [m2]
  show zeroed (part wd 14 1 + part wd 19 6) (Instr.mget (at_ wd 28 4) (at_ wd 15 4) (at_ wd 11 3) (at_ wd 7 4)) = _
  rw [z0, z1]
  show (some (Instr.mget (at_ wd 28 4) (at_ wd 15 4) (at_ wd 11 3) (at_ wd 7 4)) : Option Instr) = _
  rw [e0, e1, e2, e3]

theorem vchain (la : BitVec 4) (ty : BitVec 3) (va vd : BitVec 4) : Statement (Instr.vchain la ty va vd) := by
  have h_la := la.isLt
  have h_ty := ty.isLt
  have h_va := va.isLt
  have h_vd := vd.isLt
  have ok : wvFits 0x27 vd.toNat va.toNat 0 0 ty.toNat 0 la.toNat := ⟨by decide, vd.isLt, va.isLt, by decide, by decide, ty.isLt, by decide, la.isLt⟩
  obtain ⟨wd, hw⟩ : ∃ wd, wd = Machine.wvWord 0x27 vd.toNat va.toNat 0 0 ty.toNat 0 la.toNat := ⟨_, rfl⟩
  have e : Instr.encode (Instr.vchain la ty va vd) = wd := hw.symm ▸ rfl
  refine four e (hw ▸ wv_lt ok) (hw ▸ wv_odd ..) ?_
  have m1 : part wd 1 6 = 39 := hw ▸ wv_op ok
  have m2 : part wd 25 3 = 0 := hw ▸ wv_fn ok
  have e0 : at_ wd 28 4 = la := at_eq (hw ▸ wv_la ok)
  have e1 : at_ wd 22 3 = ty := at_eq (hw ▸ wv_ty ok)
  have e2 : at_ wd 11 4 = va := at_eq (hw ▸ wv_va ok)
  have e3 : at_ wd 7 4 = vd := at_eq (hw ▸ wv_vd ok)
  have z0 : part wd 15 7 = 0 := by unfold Machine.wvWord at hw; unfold part; omega
  unfold decodeRow32; rw [m1]
  show decChain wd = _; unfold decChain; rw [m2]
  show zeroed (part wd 15 7) (Instr.vchain (at_ wd 28 4) (at_ wd 22 3) (at_ wd 11 4) (at_ wd 7 4)) = _
  rw [z0]
  show (some (Instr.vchain (at_ wd 28 4) (at_ wd 22 3) (at_ wd 11 4) (at_ wd 7 4)) : Option Instr) = _
  rw [e0, e1, e2, e3]

theorem vchainr (la : BitVec 4) (ty : BitVec 3) (va vd : BitVec 4) : Statement (Instr.vchainr la ty va vd) := by
  have h_la := la.isLt
  have h_ty := ty.isLt
  have h_va := va.isLt
  have h_vd := vd.isLt
  have ok : wvFits 0x27 vd.toNat va.toNat 0 0 ty.toNat 1 la.toNat := ⟨by decide, vd.isLt, va.isLt, by decide, by decide, ty.isLt, by decide, la.isLt⟩
  obtain ⟨wd, hw⟩ : ∃ wd, wd = Machine.wvWord 0x27 vd.toNat va.toNat 0 0 ty.toNat 1 la.toNat := ⟨_, rfl⟩
  have e : Instr.encode (Instr.vchainr la ty va vd) = wd := hw.symm ▸ rfl
  refine four e (hw ▸ wv_lt ok) (hw ▸ wv_odd ..) ?_
  have m1 : part wd 1 6 = 39 := hw ▸ wv_op ok
  have m2 : part wd 25 3 = 1 := hw ▸ wv_fn ok
  have e0 : at_ wd 28 4 = la := at_eq (hw ▸ wv_la ok)
  have e1 : at_ wd 22 3 = ty := at_eq (hw ▸ wv_ty ok)
  have e2 : at_ wd 11 4 = va := at_eq (hw ▸ wv_va ok)
  have e3 : at_ wd 7 4 = vd := at_eq (hw ▸ wv_vd ok)
  have z0 : part wd 15 7 = 0 := by unfold Machine.wvWord at hw; unfold part; omega
  unfold decodeRow32; rw [m1]
  show decChain wd = _; unfold decChain; rw [m2]
  show zeroed (part wd 15 7) (Instr.vchainr (at_ wd 28 4) (at_ wd 22 3) (at_ wd 11 4) (at_ wd 7 4)) = _
  rw [z0]
  show (some (Instr.vchainr (at_ wd 28 4) (at_ wd 22 3) (at_ wd 11 4) (at_ wd 7 4)) : Option Instr) = _
  rw [e0, e1, e2, e3]

theorem fork (d a b : Reg) : Statement (Instr.fork d a b) := by
  have ok : wrFits 0x28 d.toNat a.toNat b.toNat 0 0 := ⟨by decide, d.isLt, a.isLt, b.isLt, by decide, by decide⟩
  obtain ⟨wd, hw⟩ : ∃ wd, wd = Machine.wrWord 0x28 d.toNat a.toNat b.toNat 0 0 := ⟨_, rfl⟩
  have e : Instr.encode (Instr.fork d a b) = wd := hw.symm ▸ rfl
  refine four e (hw ▸ wr_lt ok) (hw ▸ wr_odd ..) ?_
  have m1 : part wd 1 6 = 40 := hw ▸ wr_op ok
  have m2 : part wd 22 6 = 0 := hw ▸ wr_fn ok
  have e0 : at_ wd 7 5 = d := at_eq (hw ▸ wr_d ok)
  have e1 : at_ wd 12 5 = a := at_eq (hw ▸ wr_a ok)
  have e2 : at_ wd 17 5 = b := at_eq (hw ▸ wr_b ok)
  have z0 : part wd 28 4 = 0 := hw ▸ wr_xf ok
  unfold decodeRow32; rw [m1]
  show decTask wd = _; unfold decTask; rw [m2]
  show zeroed (part wd 28 4) (Instr.fork (at_ wd 7 5) (at_ wd 12 5) (at_ wd 17 5)) = _
  rw [z0]
  show (some (Instr.fork (at_ wd 7 5) (at_ wd 12 5) (at_ wd 17 5)) : Option Instr) = _
  rw [e0, e1, e2]

theorem join (d : Reg) : Statement (Instr.join d) := by
  have h_d := d.isLt
  have ok : wrFits 0x28 d.toNat 0 0 1 0 := ⟨by decide, d.isLt, by decide, by decide, by decide, by decide⟩
  obtain ⟨wd, hw⟩ : ∃ wd, wd = Machine.wrWord 0x28 d.toNat 0 0 1 0 := ⟨_, rfl⟩
  have e : Instr.encode (Instr.join d) = wd := hw.symm ▸ rfl
  refine four e (hw ▸ wr_lt ok) (hw ▸ wr_odd ..) ?_
  have m1 : part wd 1 6 = 40 := hw ▸ wr_op ok
  have m2 : part wd 22 6 = 1 := hw ▸ wr_fn ok
  have e0 : at_ wd 7 5 = d := at_eq (hw ▸ wr_d ok)
  have z0 : part wd 12 10 = 0 := by unfold Machine.wrWord at hw; unfold part; omega
  have z1 : part wd 28 4 = 0 := hw ▸ wr_xf ok
  unfold decodeRow32; rw [m1]
  show decTask wd = _; unfold decTask; rw [m2]
  show zeroed (part wd 12 10 + part wd 28 4) (Instr.join (at_ wd 7 5)) = _
  rw [z0, z1]
  show (some (Instr.join (at_ wd 7 5)) : Option Instr) = _
  rw [e0]

theorem yield (d : Reg) : Statement (Instr.yield d) := by
  have h_d := d.isLt
  have ok : wrFits 0x28 d.toNat 0 0 3 0 := ⟨by decide, d.isLt, by decide, by decide, by decide, by decide⟩
  obtain ⟨wd, hw⟩ : ∃ wd, wd = Machine.wrWord 0x28 d.toNat 0 0 3 0 := ⟨_, rfl⟩
  have e : Instr.encode (Instr.yield d) = wd := hw.symm ▸ rfl
  refine four e (hw ▸ wr_lt ok) (hw ▸ wr_odd ..) ?_
  have m1 : part wd 1 6 = 40 := hw ▸ wr_op ok
  have m2 : part wd 22 6 = 3 := hw ▸ wr_fn ok
  have e0 : at_ wd 7 5 = d := at_eq (hw ▸ wr_d ok)
  have z0 : part wd 12 10 = 0 := by unfold Machine.wrWord at hw; unfold part; omega
  have z1 : part wd 28 4 = 0 := hw ▸ wr_xf ok
  unfold decodeRow32; rw [m1]
  show decTask wd = _; unfold decTask; rw [m2]
  show zeroed (part wd 12 10 + part wd 28 4) (Instr.yield (at_ wd 7 5)) = _
  rw [z0, z1]
  show (some (Instr.yield (at_ wd 7 5)) : Option Instr) = _
  rw [e0]

theorem domain (d a : Reg) : Statement (Instr.domain d a) := by
  have ok : wrFits 0x28 d.toNat a.toNat 0 4 0 := ⟨by decide, d.isLt, a.isLt, by decide, by decide, by decide⟩
  obtain ⟨wd, hw⟩ : ∃ wd, wd = Machine.wrWord 0x28 d.toNat a.toNat 0 4 0 := ⟨_, rfl⟩
  have e : Instr.encode (Instr.domain d a) = wd := hw.symm ▸ rfl
  refine four e (hw ▸ wr_lt ok) (hw ▸ wr_odd ..) ?_
  have m1 : part wd 1 6 = 40 := hw ▸ wr_op ok
  have m2 : part wd 22 6 = 4 := hw ▸ wr_fn ok
  have e0 : at_ wd 7 5 = d := at_eq (hw ▸ wr_d ok)
  have e1 : at_ wd 12 5 = a := at_eq (hw ▸ wr_a ok)
  have z0 : part wd 17 5 = 0 := hw ▸ wr_b ok
  have z1 : part wd 28 4 = 0 := hw ▸ wr_xf ok
  unfold decodeRow32; rw [m1]
  show decTask wd = _; unfold decTask; rw [m2]
  show zeroed (part wd 17 5 + part wd 28 4) (Instr.domain (at_ wd 7 5) (at_ wd 12 5)) = _
  rw [z0, z1]
  show (some (Instr.domain (at_ wd 7 5) (at_ wd 12 5)) : Option Instr) = _
  rw [e0, e1]

theorem spawnq (d : Reg) : Statement (Instr.spawnq d) := by
  have h_d := d.isLt
  have ok : wrFits 0x28 d.toNat 0 0 5 0 := ⟨by decide, d.isLt, by decide, by decide, by decide, by decide⟩
  obtain ⟨wd, hw⟩ : ∃ wd, wd = Machine.wrWord 0x28 d.toNat 0 0 5 0 := ⟨_, rfl⟩
  have e : Instr.encode (Instr.spawnq d) = wd := hw.symm ▸ rfl
  refine four e (hw ▸ wr_lt ok) (hw ▸ wr_odd ..) ?_
  have m1 : part wd 1 6 = 40 := hw ▸ wr_op ok
  have m2 : part wd 22 6 = 5 := hw ▸ wr_fn ok
  have e0 : at_ wd 7 5 = d := at_eq (hw ▸ wr_d ok)
  have z0 : part wd 12 10 = 0 := by unfold Machine.wrWord at hw; unfold part; omega
  have z1 : part wd 28 4 = 0 := hw ▸ wr_xf ok
  unfold decodeRow32; rw [m1]
  show decTask wd = _; unfold decTask; rw [m2]
  show zeroed (part wd 12 10 + part wd 28 4) (Instr.spawnq (at_ wd 7 5)) = _
  rw [z0, z1]
  show (some (Instr.spawnq (at_ wd 7 5)) : Option Instr) = _
  rw [e0]

theorem lead (d a b : Reg) : Statement (Instr.lead d a b) := by
  have ok : wrFits 0x29 d.toNat a.toNat b.toNat 0 0 := ⟨by decide, d.isLt, a.isLt, b.isLt, by decide, by decide⟩
  obtain ⟨wd, hw⟩ : ∃ wd, wd = Machine.wrWord 0x29 d.toNat a.toNat b.toNat 0 0 := ⟨_, rfl⟩
  have e : Instr.encode (Instr.lead d a b) = wd := hw.symm ▸ rfl
  refine four e (hw ▸ wr_lt ok) (hw ▸ wr_odd ..) ?_
  have m1 : part wd 1 6 = 41 := hw ▸ wr_op ok
  have m2 : part wd 22 6 = 0 := hw ▸ wr_fn ok
  have e0 : at_ wd 7 5 = d := at_eq (hw ▸ wr_d ok)
  have e1 : at_ wd 12 5 = a := at_eq (hw ▸ wr_a ok)
  have e2 : at_ wd 17 5 = b := at_eq (hw ▸ wr_b ok)
  have z0 : part wd 28 4 = 0 := hw ▸ wr_xf ok
  unfold decodeRow32; rw [m1]
  show decFgrp wd = _; unfold decFgrp; rw [m2]
  show zeroed (part wd 28 4) (Instr.lead (at_ wd 7 5) (at_ wd 12 5) (at_ wd 17 5)) = _
  rw [z0]
  show (some (Instr.lead (at_ wd 7 5) (at_ wd 12 5) (at_ wd 17 5)) : Option Instr) = _
  rw [e0, e1, e2]

theorem follow (d a b : Reg) : Statement (Instr.follow d a b) := by
  have ok : wrFits 0x29 d.toNat a.toNat b.toNat 1 0 := ⟨by decide, d.isLt, a.isLt, b.isLt, by decide, by decide⟩
  obtain ⟨wd, hw⟩ : ∃ wd, wd = Machine.wrWord 0x29 d.toNat a.toNat b.toNat 1 0 := ⟨_, rfl⟩
  have e : Instr.encode (Instr.follow d a b) = wd := hw.symm ▸ rfl
  refine four e (hw ▸ wr_lt ok) (hw ▸ wr_odd ..) ?_
  have m1 : part wd 1 6 = 41 := hw ▸ wr_op ok
  have m2 : part wd 22 6 = 1 := hw ▸ wr_fn ok
  have e0 : at_ wd 7 5 = d := at_eq (hw ▸ wr_d ok)
  have e1 : at_ wd 12 5 = a := at_eq (hw ▸ wr_a ok)
  have e2 : at_ wd 17 5 = b := at_eq (hw ▸ wr_b ok)
  have z0 : part wd 28 4 = 0 := hw ▸ wr_xf ok
  unfold decodeRow32; rw [m1]
  show decFgrp wd = _; unfold decFgrp; rw [m2]
  show zeroed (part wd 28 4) (Instr.follow (at_ wd 7 5) (at_ wd 12 5) (at_ wd 17 5)) = _
  rw [z0]
  show (some (Instr.follow (at_ wd 7 5) (at_ wd 12 5) (at_ wd 17 5)) : Option Instr) = _
  rw [e0, e1, e2]

theorem bri (a b : Reg) (off : BitVec 12) : Statement (Instr.bri a b off) := by
  have ok : wbFits 0x2a a.toNat b.toNat 0 off.toNat := ⟨by decide, a.isLt, b.isLt, by decide, off.isLt⟩
  obtain ⟨wd, hw⟩ : ∃ wd, wd = Machine.wbWord 0x2a a.toNat b.toNat 0 off.toNat := ⟨_, rfl⟩
  have e : Instr.encode (Instr.bri a b off) = wd := hw.symm ▸ rfl
  refine four e (hw ▸ wb_lt ok) (hw ▸ wb_odd ..) ?_
  have m1 : part wd 1 6 = 42 := hw ▸ wb_op ok
  have m2 : part wd 17 3 = 0 := hw ▸ wb_fn ok
  have e0 : at_ wd 7 5 = a := at_eq (hw ▸ wb_a ok)
  have e1 : at_ wd 12 5 = b := at_eq (hw ▸ wb_b ok)
  have e2 : at_ wd 20 12 = off := at_eq (hw ▸ wb_off ok)
  unfold decodeRow32; rw [m1]
  show decBri wd = _; unfold decBri; rw [m2]
  show (some (Instr.bri (at_ wd 7 5) (at_ wd 12 5) (at_ wd 20 12)) : Option Instr) = _
  rw [e0, e1, e2]

theorem post (d a b : Reg) : Statement (Instr.post d a b) := by
  have ok : wrFits 0x2b d.toNat a.toNat b.toNat 0 0 := ⟨by decide, d.isLt, a.isLt, b.isLt, by decide, by decide⟩
  obtain ⟨wd, hw⟩ : ∃ wd, wd = Machine.wrWord 0x2b d.toNat a.toNat b.toNat 0 0 := ⟨_, rfl⟩
  have e : Instr.encode (Instr.post d a b) = wd := hw.symm ▸ rfl
  refine four e (hw ▸ wr_lt ok) (hw ▸ wr_odd ..) ?_
  have m1 : part wd 1 6 = 43 := hw ▸ wr_op ok
  have m2 : part wd 22 6 = 0 := hw ▸ wr_fn ok
  have e0 : at_ wd 7 5 = d := at_eq (hw ▸ wr_d ok)
  have e1 : at_ wd 12 5 = a := at_eq (hw ▸ wr_a ok)
  have e2 : at_ wd 17 5 = b := at_eq (hw ▸ wr_b ok)
  have z0 : part wd 28 4 = 0 := hw ▸ wr_xf ok
  unfold decodeRow32; rw [m1]
  show decEvent wd = _; unfold decEvent; rw [m2]
  show zeroed (part wd 28 4) (Instr.post (at_ wd 7 5) (at_ wd 12 5) (at_ wd 17 5)) = _
  rw [z0]
  show (some (Instr.post (at_ wd 7 5) (at_ wd 12 5) (at_ wd 17 5)) : Option Instr) = _
  rw [e0, e1, e2]

theorem postd (d a b : Reg) : Statement (Instr.postd d a b) := by
  have ok : wrFits 0x2b d.toNat a.toNat b.toNat 1 0 := ⟨by decide, d.isLt, a.isLt, b.isLt, by decide, by decide⟩
  obtain ⟨wd, hw⟩ : ∃ wd, wd = Machine.wrWord 0x2b d.toNat a.toNat b.toNat 1 0 := ⟨_, rfl⟩
  have e : Instr.encode (Instr.postd d a b) = wd := hw.symm ▸ rfl
  refine four e (hw ▸ wr_lt ok) (hw ▸ wr_odd ..) ?_
  have m1 : part wd 1 6 = 43 := hw ▸ wr_op ok
  have m2 : part wd 22 6 = 1 := hw ▸ wr_fn ok
  have e0 : at_ wd 7 5 = d := at_eq (hw ▸ wr_d ok)
  have e1 : at_ wd 12 5 = a := at_eq (hw ▸ wr_a ok)
  have e2 : at_ wd 17 5 = b := at_eq (hw ▸ wr_b ok)
  have z0 : part wd 28 4 = 0 := hw ▸ wr_xf ok
  unfold decodeRow32; rw [m1]
  show decEvent wd = _; unfold decEvent; rw [m2]
  show zeroed (part wd 28 4) (Instr.postd (at_ wd 7 5) (at_ wd 12 5) (at_ wd 17 5)) = _
  rw [z0]
  show (some (Instr.postd (at_ wd 7 5) (at_ wd 12 5) (at_ wd 17 5)) : Option Instr) = _
  rw [e0, e1, e2]

theorem safew (d a : Reg) : Statement (Instr.safew d a) := by
  have ok : wrFits 0x2b d.toNat a.toNat 0 3 0 := ⟨by decide, d.isLt, a.isLt, by decide, by decide, by decide⟩
  obtain ⟨wd, hw⟩ : ∃ wd, wd = Machine.wrWord 0x2b d.toNat a.toNat 0 3 0 := ⟨_, rfl⟩
  have e : Instr.encode (Instr.safew d a) = wd := hw.symm ▸ rfl
  refine four e (hw ▸ wr_lt ok) (hw ▸ wr_odd ..) ?_
  have m1 : part wd 1 6 = 43 := hw ▸ wr_op ok
  have m2 : part wd 22 6 = 3 := hw ▸ wr_fn ok
  have e0 : at_ wd 7 5 = d := at_eq (hw ▸ wr_d ok)
  have e1 : at_ wd 12 5 = a := at_eq (hw ▸ wr_a ok)
  have z0 : part wd 17 5 = 0 := hw ▸ wr_b ok
  have z1 : part wd 28 4 = 0 := hw ▸ wr_xf ok
  unfold decodeRow32; rw [m1]
  show decEvent wd = _; unfold decEvent; rw [m2]
  show zeroed (part wd 17 5 + part wd 28 4) (Instr.safew (at_ wd 7 5) (at_ wd 12 5)) = _
  rw [z0, z1]
  show (some (Instr.safew (at_ wd 7 5) (at_ wd 12 5)) : Option Instr) = _
  rw [e0, e1]

theorem dln (d a : Reg) : Statement (Instr.dln d a) := by
  have ok : wrFits 0x2b d.toNat a.toNat 0 4 0 := ⟨by decide, d.isLt, a.isLt, by decide, by decide, by decide⟩
  obtain ⟨wd, hw⟩ : ∃ wd, wd = Machine.wrWord 0x2b d.toNat a.toNat 0 4 0 := ⟨_, rfl⟩
  have e : Instr.encode (Instr.dln d a) = wd := hw.symm ▸ rfl
  refine four e (hw ▸ wr_lt ok) (hw ▸ wr_odd ..) ?_
  have m1 : part wd 1 6 = 43 := hw ▸ wr_op ok
  have m2 : part wd 22 6 = 4 := hw ▸ wr_fn ok
  have e0 : at_ wd 7 5 = d := at_eq (hw ▸ wr_d ok)
  have e1 : at_ wd 12 5 = a := at_eq (hw ▸ wr_a ok)
  have z0 : part wd 17 5 = 0 := hw ▸ wr_b ok
  have z1 : part wd 28 4 = 0 := hw ▸ wr_xf ok
  unfold decodeRow32; rw [m1]
  show decEvent wd = _; unfold decEvent; rw [m2]
  show zeroed (part wd 17 5 + part wd 28 4) (Instr.dln (at_ wd 7 5) (at_ wd 12 5)) = _
  rw [z0, z1]
  show (some (Instr.dln (at_ wd 7 5) (at_ wd 12 5)) : Option Instr) = _
  rw [e0, e1]

theorem tagr (d a : Reg) : Statement (Instr.tagr d a) := by
  have ok : wrFits 0x2b d.toNat a.toNat 0 5 0 := ⟨by decide, d.isLt, a.isLt, by decide, by decide, by decide⟩
  obtain ⟨wd, hw⟩ : ∃ wd, wd = Machine.wrWord 0x2b d.toNat a.toNat 0 5 0 := ⟨_, rfl⟩
  have e : Instr.encode (Instr.tagr d a) = wd := hw.symm ▸ rfl
  refine four e (hw ▸ wr_lt ok) (hw ▸ wr_odd ..) ?_
  have m1 : part wd 1 6 = 43 := hw ▸ wr_op ok
  have m2 : part wd 22 6 = 5 := hw ▸ wr_fn ok
  have e0 : at_ wd 7 5 = d := at_eq (hw ▸ wr_d ok)
  have e1 : at_ wd 12 5 = a := at_eq (hw ▸ wr_a ok)
  have z0 : part wd 17 5 = 0 := hw ▸ wr_b ok
  have z1 : part wd 28 4 = 0 := hw ▸ wr_xf ok
  unfold decodeRow32; rw [m1]
  show decEvent wd = _; unfold decEvent; rw [m2]
  show zeroed (part wd 17 5 + part wd 28 4) (Instr.tagr (at_ wd 7 5) (at_ wd 12 5)) = _
  rw [z0, z1]
  show (some (Instr.tagr (at_ wd 7 5) (at_ wd 12 5)) : Option Instr) = _
  rw [e0, e1]

theorem clkr (d : Reg) : Statement (Instr.clkr d) := by
  have h_d := d.isLt
  have ok : wrFits 0x2b d.toNat 0 0 6 0 := ⟨by decide, d.isLt, by decide, by decide, by decide, by decide⟩
  obtain ⟨wd, hw⟩ : ∃ wd, wd = Machine.wrWord 0x2b d.toNat 0 0 6 0 := ⟨_, rfl⟩
  have e : Instr.encode (Instr.clkr d) = wd := hw.symm ▸ rfl
  refine four e (hw ▸ wr_lt ok) (hw ▸ wr_odd ..) ?_
  have m1 : part wd 1 6 = 43 := hw ▸ wr_op ok
  have m2 : part wd 22 6 = 6 := hw ▸ wr_fn ok
  have e0 : at_ wd 7 5 = d := at_eq (hw ▸ wr_d ok)
  have z0 : part wd 12 10 = 0 := by unfold Machine.wrWord at hw; unfold part; omega
  have z1 : part wd 28 4 = 0 := hw ▸ wr_xf ok
  unfold decodeRow32; rw [m1]
  show decEvent wd = _; unfold decEvent; rw [m2]
  show zeroed (part wd 12 10 + part wd 28 4) (Instr.clkr (at_ wd 7 5)) = _
  rw [z0, z1]
  show (some (Instr.clkr (at_ wd 7 5)) : Option Instr) = _
  rw [e0]

theorem lateq (d a : Reg) : Statement (Instr.lateq d a) := by
  have ok : wrFits 0x2b d.toNat a.toNat 0 7 0 := ⟨by decide, d.isLt, a.isLt, by decide, by decide, by decide⟩
  obtain ⟨wd, hw⟩ : ∃ wd, wd = Machine.wrWord 0x2b d.toNat a.toNat 0 7 0 := ⟨_, rfl⟩
  have e : Instr.encode (Instr.lateq d a) = wd := hw.symm ▸ rfl
  refine four e (hw ▸ wr_lt ok) (hw ▸ wr_odd ..) ?_
  have m1 : part wd 1 6 = 43 := hw ▸ wr_op ok
  have m2 : part wd 22 6 = 7 := hw ▸ wr_fn ok
  have e0 : at_ wd 7 5 = d := at_eq (hw ▸ wr_d ok)
  have e1 : at_ wd 12 5 = a := at_eq (hw ▸ wr_a ok)
  have z0 : part wd 17 5 = 0 := hw ▸ wr_b ok
  have z1 : part wd 28 4 = 0 := hw ▸ wr_xf ok
  unfold decodeRow32; rw [m1]
  show decEvent wd = _; unfold decEvent; rw [m2]
  show zeroed (part wd 17 5 + part wd 28 4) (Instr.lateq (at_ wd 7 5) (at_ wd 12 5)) = _
  rw [z0, z1]
  show (some (Instr.lateq (at_ wd 7 5) (at_ wd 12 5)) : Option Instr) = _
  rw [e0, e1]

theorem send (la : BitVec 4) (d a b : Reg) : Statement (Instr.send la d a b) := by
  have ok : wrFits 0x2c d.toNat a.toNat b.toNat 0 la.toNat := ⟨by decide, d.isLt, a.isLt, b.isLt, by decide, la.isLt⟩
  obtain ⟨wd, hw⟩ : ∃ wd, wd = Machine.wrWord 0x2c d.toNat a.toNat b.toNat 0 la.toNat := ⟨_, rfl⟩
  have e : Instr.encode (Instr.send la d a b) = wd := hw.symm ▸ rfl
  refine four e (hw ▸ wr_lt ok) (hw ▸ wr_odd ..) ?_
  have m1 : part wd 1 6 = 44 := hw ▸ wr_op ok
  have m2 : part wd 22 6 = 0 := hw ▸ wr_fn ok
  have e0 : at_ wd 28 4 = la := at_eq (hw ▸ wr_xf ok)
  have e1 : at_ wd 7 5 = d := at_eq (hw ▸ wr_d ok)
  have e2 : at_ wd 12 5 = a := at_eq (hw ▸ wr_a ok)
  have e3 : at_ wd 17 5 = b := at_eq (hw ▸ wr_b ok)
  unfold decodeRow32; rw [m1]
  show decMsg wd = _; unfold decMsg; rw [m2]
  show (some (Instr.send (at_ wd 28 4) (at_ wd 7 5) (at_ wd 12 5) (at_ wd 17 5)) : Option Instr) = _
  rw [e0, e1, e2, e3]

theorem recv (la : BitVec 4) (d a b : Reg) : Statement (Instr.recv la d a b) := by
  have ok : wrFits 0x2c d.toNat a.toNat b.toNat 1 la.toNat := ⟨by decide, d.isLt, a.isLt, b.isLt, by decide, la.isLt⟩
  obtain ⟨wd, hw⟩ : ∃ wd, wd = Machine.wrWord 0x2c d.toNat a.toNat b.toNat 1 la.toNat := ⟨_, rfl⟩
  have e : Instr.encode (Instr.recv la d a b) = wd := hw.symm ▸ rfl
  refine four e (hw ▸ wr_lt ok) (hw ▸ wr_odd ..) ?_
  have m1 : part wd 1 6 = 44 := hw ▸ wr_op ok
  have m2 : part wd 22 6 = 1 := hw ▸ wr_fn ok
  have e0 : at_ wd 28 4 = la := at_eq (hw ▸ wr_xf ok)
  have e1 : at_ wd 7 5 = d := at_eq (hw ▸ wr_d ok)
  have e2 : at_ wd 12 5 = a := at_eq (hw ▸ wr_a ok)
  have e3 : at_ wd 17 5 = b := at_eq (hw ▸ wr_b ok)
  unfold decodeRow32; rw [m1]
  show decMsg wd = _; unfold decMsg; rw [m2]
  show (some (Instr.recv (at_ wd 28 4) (at_ wd 7 5) (at_ wd 12 5) (at_ wd 17 5)) : Option Instr) = _
  rw [e0, e1, e2, e3]

theorem recvw (la : BitVec 4) (d a b : Reg) : Statement (Instr.recvw la d a b) := by
  have ok : wrFits 0x2c d.toNat a.toNat b.toNat 2 la.toNat := ⟨by decide, d.isLt, a.isLt, b.isLt, by decide, la.isLt⟩
  obtain ⟨wd, hw⟩ : ∃ wd, wd = Machine.wrWord 0x2c d.toNat a.toNat b.toNat 2 la.toNat := ⟨_, rfl⟩
  have e : Instr.encode (Instr.recvw la d a b) = wd := hw.symm ▸ rfl
  refine four e (hw ▸ wr_lt ok) (hw ▸ wr_odd ..) ?_
  have m1 : part wd 1 6 = 44 := hw ▸ wr_op ok
  have m2 : part wd 22 6 = 2 := hw ▸ wr_fn ok
  have e0 : at_ wd 28 4 = la := at_eq (hw ▸ wr_xf ok)
  have e1 : at_ wd 7 5 = d := at_eq (hw ▸ wr_d ok)
  have e2 : at_ wd 12 5 = a := at_eq (hw ▸ wr_a ok)
  have e3 : at_ wd 17 5 = b := at_eq (hw ▸ wr_b ok)
  unfold decodeRow32; rw [m1]
  show decMsg wd = _; unfold decMsg; rw [m2]
  show (some (Instr.recvw (at_ wd 28 4) (at_ wd 7 5) (at_ wd 12 5) (at_ wd 17 5)) : Option Instr) = _
  rw [e0, e1, e2, e3]

theorem epbind (la : BitVec 4) (d a : Reg) : Statement (Instr.epbind la d a) := by
  have ok : wrFits 0x2c d.toNat a.toNat 0 3 la.toNat := ⟨by decide, d.isLt, a.isLt, by decide, by decide, la.isLt⟩
  obtain ⟨wd, hw⟩ : ∃ wd, wd = Machine.wrWord 0x2c d.toNat a.toNat 0 3 la.toNat := ⟨_, rfl⟩
  have e : Instr.encode (Instr.epbind la d a) = wd := hw.symm ▸ rfl
  refine four e (hw ▸ wr_lt ok) (hw ▸ wr_odd ..) ?_
  have m1 : part wd 1 6 = 44 := hw ▸ wr_op ok
  have m2 : part wd 22 6 = 3 := hw ▸ wr_fn ok
  have e0 : at_ wd 28 4 = la := at_eq (hw ▸ wr_xf ok)
  have e1 : at_ wd 7 5 = d := at_eq (hw ▸ wr_d ok)
  have e2 : at_ wd 12 5 = a := at_eq (hw ▸ wr_a ok)
  have z0 : part wd 17 5 = 0 := hw ▸ wr_b ok
  unfold decodeRow32; rw [m1]
  show decMsg wd = _; unfold decMsg; rw [m2]
  show zeroed (part wd 17 5) (Instr.epbind (at_ wd 28 4) (at_ wd 7 5) (at_ wd 12 5)) = _
  rw [z0]
  show (some (Instr.epbind (at_ wd 28 4) (at_ wd 7 5) (at_ wd 12 5)) : Option Instr) = _
  rw [e0, e1, e2]

theorem epfree (la : BitVec 4) (d a : Reg) : Statement (Instr.epfree la d a) := by
  have ok : wrFits 0x2c d.toNat a.toNat 0 4 la.toNat := ⟨by decide, d.isLt, a.isLt, by decide, by decide, la.isLt⟩
  obtain ⟨wd, hw⟩ : ∃ wd, wd = Machine.wrWord 0x2c d.toNat a.toNat 0 4 la.toNat := ⟨_, rfl⟩
  have e : Instr.encode (Instr.epfree la d a) = wd := hw.symm ▸ rfl
  refine four e (hw ▸ wr_lt ok) (hw ▸ wr_odd ..) ?_
  have m1 : part wd 1 6 = 44 := hw ▸ wr_op ok
  have m2 : part wd 22 6 = 4 := hw ▸ wr_fn ok
  have e0 : at_ wd 28 4 = la := at_eq (hw ▸ wr_xf ok)
  have e1 : at_ wd 7 5 = d := at_eq (hw ▸ wr_d ok)
  have e2 : at_ wd 12 5 = a := at_eq (hw ▸ wr_a ok)
  have z0 : part wd 17 5 = 0 := hw ▸ wr_b ok
  unfold decodeRow32; rw [m1]
  show decMsg wd = _; unfold decMsg; rw [m2]
  show zeroed (part wd 17 5) (Instr.epfree (at_ wd 28 4) (at_ wd 7 5) (at_ wd 12 5)) = _
  rw [z0]
  show (some (Instr.epfree (at_ wd 28 4) (at_ wd 7 5) (at_ wd 12 5)) : Option Instr) = _
  rw [e0, e1, e2]

theorem epwhere (la : BitVec 4) (d a : Reg) : Statement (Instr.epwhere la d a) := by
  have ok : wrFits 0x2c d.toNat a.toNat 0 5 la.toNat := ⟨by decide, d.isLt, a.isLt, by decide, by decide, la.isLt⟩
  obtain ⟨wd, hw⟩ : ∃ wd, wd = Machine.wrWord 0x2c d.toNat a.toNat 0 5 la.toNat := ⟨_, rfl⟩
  have e : Instr.encode (Instr.epwhere la d a) = wd := hw.symm ▸ rfl
  refine four e (hw ▸ wr_lt ok) (hw ▸ wr_odd ..) ?_
  have m1 : part wd 1 6 = 44 := hw ▸ wr_op ok
  have m2 : part wd 22 6 = 5 := hw ▸ wr_fn ok
  have e0 : at_ wd 28 4 = la := at_eq (hw ▸ wr_xf ok)
  have e1 : at_ wd 7 5 = d := at_eq (hw ▸ wr_d ok)
  have e2 : at_ wd 12 5 = a := at_eq (hw ▸ wr_a ok)
  have z0 : part wd 17 5 = 0 := hw ▸ wr_b ok
  unfold decodeRow32; rw [m1]
  show decMsg wd = _; unfold decMsg; rw [m2]
  show zeroed (part wd 17 5) (Instr.epwhere (at_ wd 28 4) (at_ wd 7 5) (at_ wd 12 5)) = _
  rw [z0]
  show (some (Instr.epwhere (at_ wd 28 4) (at_ wd 7 5) (at_ wd 12 5)) : Option Instr) = _
  rw [e0, e1, e2]

theorem prio (d a : Reg) : Statement (Instr.prio d a) := by
  have ok : wrFits 0x2d d.toNat a.toNat 0 0 0 := ⟨by decide, d.isLt, a.isLt, by decide, by decide, by decide⟩
  obtain ⟨wd, hw⟩ : ∃ wd, wd = Machine.wrWord 0x2d d.toNat a.toNat 0 0 0 := ⟨_, rfl⟩
  have e : Instr.encode (Instr.prio d a) = wd := hw.symm ▸ rfl
  refine four e (hw ▸ wr_lt ok) (hw ▸ wr_odd ..) ?_
  have m1 : part wd 1 6 = 45 := hw ▸ wr_op ok
  have m2 : part wd 22 6 = 0 := hw ▸ wr_fn ok
  have e0 : at_ wd 7 5 = d := at_eq (hw ▸ wr_d ok)
  have e1 : at_ wd 12 5 = a := at_eq (hw ▸ wr_a ok)
  have z0 : part wd 17 5 = 0 := hw ▸ wr_b ok
  have z1 : part wd 28 4 = 0 := hw ▸ wr_xf ok
  unfold decodeRow32; rw [m1]
  show decPri wd = _; unfold decPri; rw [m2]
  show zeroed (part wd 17 5 + part wd 28 4) (Instr.prio (at_ wd 7 5) (at_ wd 12 5)) = _
  rw [z0, z1]
  show (some (Instr.prio (at_ wd 7 5) (at_ wd 12 5)) : Option Instr) = _
  rw [e0, e1]

theorem prioq (d a : Reg) : Statement (Instr.prioq d a) := by
  have ok : wrFits 0x2d d.toNat a.toNat 0 1 0 := ⟨by decide, d.isLt, a.isLt, by decide, by decide, by decide⟩
  obtain ⟨wd, hw⟩ : ∃ wd, wd = Machine.wrWord 0x2d d.toNat a.toNat 0 1 0 := ⟨_, rfl⟩
  have e : Instr.encode (Instr.prioq d a) = wd := hw.symm ▸ rfl
  refine four e (hw ▸ wr_lt ok) (hw ▸ wr_odd ..) ?_
  have m1 : part wd 1 6 = 45 := hw ▸ wr_op ok
  have m2 : part wd 22 6 = 1 := hw ▸ wr_fn ok
  have e0 : at_ wd 7 5 = d := at_eq (hw ▸ wr_d ok)
  have e1 : at_ wd 12 5 = a := at_eq (hw ▸ wr_a ok)
  have z0 : part wd 17 5 = 0 := hw ▸ wr_b ok
  have z1 : part wd 28 4 = 0 := hw ▸ wr_xf ok
  unfold decodeRow32; rw [m1]
  show decPri wd = _; unfold decPri; rw [m2]
  show zeroed (part wd 17 5 + part wd 28 4) (Instr.prioq (at_ wd 7 5) (at_ wd 12 5)) = _
  rw [z0, z1]
  show (some (Instr.prioq (at_ wd 7 5) (at_ wd 12 5)) : Option Instr) = _
  rw [e0, e1]

theorem phase (sc : BitVec 2) : Statement (Instr.phase sc) := by
  have h_sc := sc.isLt
  have ok : wcFits 0x2e 0 0 0 sc.toNat 0 0 := ⟨by decide, by decide, by decide, by decide, sc.isLt, by decide, by decide⟩
  obtain ⟨wd, hw⟩ : ∃ wd, wd = Machine.wcWord 0x2e 0 0 0 sc.toNat 0 0 := ⟨_, rfl⟩
  have e : Instr.encode (Instr.phase sc) = wd := hw.symm ▸ rfl
  refine four e (hw ▸ wc_lt ok) (hw ▸ wc_odd ..) ?_
  have m1 : part wd 1 6 = 46 := hw ▸ wc_op ok
  have m2 : part wd 24 4 = 0 := hw ▸ wc_fn ok
  have e0 : at_ wd 22 2 = sc := at_eq (hw ▸ wc_sc ok)
  have z0 : part wd 7 15 = 0 := by unfold Machine.wcWord at hw; unfold part; omega
  have z1 : part wd 28 4 = 0 := hw ▸ wc_la ok
  unfold decodeRow32; rw [m1]
  show decSync wd = _; unfold decSync; rw [m2]
  show zeroed (part wd 7 15 + part wd 28 4) (Instr.phase (at_ wd 22 2)) = _
  rw [z0, z1]
  show (some (Instr.phase (at_ wd 22 2)) : Option Instr) = _
  rw [e0]

theorem fence (sc : BitVec 2) : Statement (Instr.fence sc) := by
  have h_sc := sc.isLt
  have ok : wcFits 0x2e 0 0 0 sc.toNat 1 0 := ⟨by decide, by decide, by decide, by decide, sc.isLt, by decide, by decide⟩
  obtain ⟨wd, hw⟩ : ∃ wd, wd = Machine.wcWord 0x2e 0 0 0 sc.toNat 1 0 := ⟨_, rfl⟩
  have e : Instr.encode (Instr.fence sc) = wd := hw.symm ▸ rfl
  refine four e (hw ▸ wc_lt ok) (hw ▸ wc_odd ..) ?_
  have m1 : part wd 1 6 = 46 := hw ▸ wc_op ok
  have m2 : part wd 24 4 = 1 := hw ▸ wc_fn ok
  have e0 : at_ wd 22 2 = sc := at_eq (hw ▸ wc_sc ok)
  have z0 : part wd 7 15 = 0 := by unfold Machine.wcWord at hw; unfold part; omega
  have z1 : part wd 28 4 = 0 := hw ▸ wc_la ok
  unfold decodeRow32; rw [m1]
  show decSync wd = _; unfold decSync; rw [m2]
  show zeroed (part wd 7 15 + part wd 28 4) (Instr.fence (at_ wd 22 2)) = _
  rw [z0, z1]
  show (some (Instr.fence (at_ wd 22 2)) : Option Instr) = _
  rw [e0]

theorem acq (sc : BitVec 2) : Statement (Instr.acq sc) := by
  have h_sc := sc.isLt
  have ok : wcFits 0x2e 0 0 0 sc.toNat 2 0 := ⟨by decide, by decide, by decide, by decide, sc.isLt, by decide, by decide⟩
  obtain ⟨wd, hw⟩ : ∃ wd, wd = Machine.wcWord 0x2e 0 0 0 sc.toNat 2 0 := ⟨_, rfl⟩
  have e : Instr.encode (Instr.acq sc) = wd := hw.symm ▸ rfl
  refine four e (hw ▸ wc_lt ok) (hw ▸ wc_odd ..) ?_
  have m1 : part wd 1 6 = 46 := hw ▸ wc_op ok
  have m2 : part wd 24 4 = 2 := hw ▸ wc_fn ok
  have e0 : at_ wd 22 2 = sc := at_eq (hw ▸ wc_sc ok)
  have z0 : part wd 7 15 = 0 := by unfold Machine.wcWord at hw; unfold part; omega
  have z1 : part wd 28 4 = 0 := hw ▸ wc_la ok
  unfold decodeRow32; rw [m1]
  show decSync wd = _; unfold decSync; rw [m2]
  show zeroed (part wd 7 15 + part wd 28 4) (Instr.acq (at_ wd 22 2)) = _
  rw [z0, z1]
  show (some (Instr.acq (at_ wd 22 2)) : Option Instr) = _
  rw [e0]

theorem rel (sc : BitVec 2) : Statement (Instr.rel sc) := by
  have h_sc := sc.isLt
  have ok : wcFits 0x2e 0 0 0 sc.toNat 3 0 := ⟨by decide, by decide, by decide, by decide, sc.isLt, by decide, by decide⟩
  obtain ⟨wd, hw⟩ : ∃ wd, wd = Machine.wcWord 0x2e 0 0 0 sc.toNat 3 0 := ⟨_, rfl⟩
  have e : Instr.encode (Instr.rel sc) = wd := hw.symm ▸ rfl
  refine four e (hw ▸ wc_lt ok) (hw ▸ wc_odd ..) ?_
  have m1 : part wd 1 6 = 46 := hw ▸ wc_op ok
  have m2 : part wd 24 4 = 3 := hw ▸ wc_fn ok
  have e0 : at_ wd 22 2 = sc := at_eq (hw ▸ wc_sc ok)
  have z0 : part wd 7 15 = 0 := by unfold Machine.wcWord at hw; unfold part; omega
  have z1 : part wd 28 4 = 0 := hw ▸ wc_la ok
  unfold decodeRow32; rw [m1]
  show decSync wd = _; unfold decSync; rw [m2]
  show zeroed (part wd 7 15 + part wd 28 4) (Instr.rel (at_ wd 22 2)) = _
  rw [z0, z1]
  show (some (Instr.rel (at_ wd 22 2)) : Option Instr) = _
  rw [e0]

theorem pwait (sc : BitVec 2) (d a b : Reg) : Statement (Instr.pwait sc d a b) := by
  have ok : wcFits 0x2e d.toNat a.toNat b.toNat sc.toNat 4 0 := ⟨by decide, d.isLt, a.isLt, b.isLt, sc.isLt, by decide, by decide⟩
  obtain ⟨wd, hw⟩ : ∃ wd, wd = Machine.wcWord 0x2e d.toNat a.toNat b.toNat sc.toNat 4 0 := ⟨_, rfl⟩
  have e : Instr.encode (Instr.pwait sc d a b) = wd := hw.symm ▸ rfl
  refine four e (hw ▸ wc_lt ok) (hw ▸ wc_odd ..) ?_
  have m1 : part wd 1 6 = 46 := hw ▸ wc_op ok
  have m2 : part wd 24 4 = 4 := hw ▸ wc_fn ok
  have e0 : at_ wd 22 2 = sc := at_eq (hw ▸ wc_sc ok)
  have e1 : at_ wd 7 5 = d := at_eq (hw ▸ wc_d ok)
  have e2 : at_ wd 12 5 = a := at_eq (hw ▸ wc_a ok)
  have e3 : at_ wd 17 5 = b := at_eq (hw ▸ wc_b ok)
  have z0 : part wd 28 4 = 0 := hw ▸ wc_la ok
  unfold decodeRow32; rw [m1]
  show decSync wd = _; unfold decSync; rw [m2]
  show zeroed (part wd 28 4) (Instr.pwait (at_ wd 22 2) (at_ wd 7 5) (at_ wd 12 5) (at_ wd 17 5)) = _
  rw [z0]
  show (some (Instr.pwait (at_ wd 22 2) (at_ wd 7 5) (at_ wd 12 5) (at_ wd 17 5)) : Option Instr) = _
  rw [e0, e1, e2, e3]

theorem phint (d a b : Reg) : Statement (Instr.phint d a b) := by
  have ok : wcFits 0x2e d.toNat a.toNat b.toNat 0 5 0 := ⟨by decide, d.isLt, a.isLt, b.isLt, by decide, by decide, by decide⟩
  obtain ⟨wd, hw⟩ : ∃ wd, wd = Machine.wcWord 0x2e d.toNat a.toNat b.toNat 0 5 0 := ⟨_, rfl⟩
  have e : Instr.encode (Instr.phint d a b) = wd := hw.symm ▸ rfl
  refine four e (hw ▸ wc_lt ok) (hw ▸ wc_odd ..) ?_
  have m1 : part wd 1 6 = 46 := hw ▸ wc_op ok
  have m2 : part wd 24 4 = 5 := hw ▸ wc_fn ok
  have e0 : at_ wd 7 5 = d := at_eq (hw ▸ wc_d ok)
  have e1 : at_ wd 12 5 = a := at_eq (hw ▸ wc_a ok)
  have e2 : at_ wd 17 5 = b := at_eq (hw ▸ wc_b ok)
  have z0 : part wd 22 2 = 0 := hw ▸ wc_sc ok
  have z1 : part wd 28 4 = 0 := hw ▸ wc_la ok
  unfold decodeRow32; rw [m1]
  show decSync wd = _; unfold decSync; rw [m2]
  show zeroed (part wd 22 2 + part wd 28 4) (Instr.phint (at_ wd 7 5) (at_ wd 12 5) (at_ wd 17 5)) = _
  rw [z0, z1]
  show (some (Instr.phint (at_ wd 7 5) (at_ wd 12 5) (at_ wd 17 5)) : Option Instr) = _
  rw [e0, e1, e2]

theorem cadd (la : BitVec 4) (sc : BitVec 2) (d a b : Reg) : Statement (Instr.cadd la sc d a b) := by
  have ok : wcFits 0x2f d.toNat a.toNat b.toNat sc.toNat 0 la.toNat := ⟨by decide, d.isLt, a.isLt, b.isLt, sc.isLt, by decide, la.isLt⟩
  obtain ⟨wd, hw⟩ : ∃ wd, wd = Machine.wcWord 0x2f d.toNat a.toNat b.toNat sc.toNat 0 la.toNat := ⟨_, rfl⟩
  have e : Instr.encode (Instr.cadd la sc d a b) = wd := hw.symm ▸ rfl
  refine four e (hw ▸ wc_lt ok) (hw ▸ wc_odd ..) ?_
  have m1 : part wd 1 6 = 47 := hw ▸ wc_op ok
  have m2 : part wd 24 4 = 0 := hw ▸ wc_fn ok
  have e0 : at_ wd 28 4 = la := at_eq (hw ▸ wc_la ok)
  have e1 : at_ wd 22 2 = sc := at_eq (hw ▸ wc_sc ok)
  have e2 : at_ wd 7 5 = d := at_eq (hw ▸ wc_d ok)
  have e3 : at_ wd 12 5 = a := at_eq (hw ▸ wc_a ok)
  have e4 : at_ wd 17 5 = b := at_eq (hw ▸ wc_b ok)
  unfold decodeRow32; rw [m1]
  show decCtr wd = _; unfold decCtr; rw [m2]
  show (some (Instr.cadd (at_ wd 28 4) (at_ wd 22 2) (at_ wd 7 5) (at_ wd 12 5) (at_ wd 17 5)) : Option Instr) = _
  rw [e0, e1, e2, e3, e4]

theorem cwait (la : BitVec 4) (sc : BitVec 2) (d a b : Reg) : Statement (Instr.cwait la sc d a b) := by
  have ok : wcFits 0x2f d.toNat a.toNat b.toNat sc.toNat 1 la.toNat := ⟨by decide, d.isLt, a.isLt, b.isLt, sc.isLt, by decide, la.isLt⟩
  obtain ⟨wd, hw⟩ : ∃ wd, wd = Machine.wcWord 0x2f d.toNat a.toNat b.toNat sc.toNat 1 la.toNat := ⟨_, rfl⟩
  have e : Instr.encode (Instr.cwait la sc d a b) = wd := hw.symm ▸ rfl
  refine four e (hw ▸ wc_lt ok) (hw ▸ wc_odd ..) ?_
  have m1 : part wd 1 6 = 47 := hw ▸ wc_op ok
  have m2 : part wd 24 4 = 1 := hw ▸ wc_fn ok
  have e0 : at_ wd 28 4 = la := at_eq (hw ▸ wc_la ok)
  have e1 : at_ wd 22 2 = sc := at_eq (hw ▸ wc_sc ok)
  have e2 : at_ wd 7 5 = d := at_eq (hw ▸ wc_d ok)
  have e3 : at_ wd 12 5 = a := at_eq (hw ▸ wc_a ok)
  have e4 : at_ wd 17 5 = b := at_eq (hw ▸ wc_b ok)
  unfold decodeRow32; rw [m1]
  show decCtr wd = _; unfold decCtr; rw [m2]
  show (some (Instr.cwait (at_ wd 28 4) (at_ wd 22 2) (at_ wd 7 5) (at_ wd 12 5) (at_ wd 17 5)) : Option Instr) = _
  rw [e0, e1, e2, e3, e4]

theorem cread (la : BitVec 4) (sc : BitVec 2) (d a : Reg) : Statement (Instr.cread la sc d a) := by
  have ok : wcFits 0x2f d.toNat a.toNat 0 sc.toNat 2 la.toNat := ⟨by decide, d.isLt, a.isLt, by decide, sc.isLt, by decide, la.isLt⟩
  obtain ⟨wd, hw⟩ : ∃ wd, wd = Machine.wcWord 0x2f d.toNat a.toNat 0 sc.toNat 2 la.toNat := ⟨_, rfl⟩
  have e : Instr.encode (Instr.cread la sc d a) = wd := hw.symm ▸ rfl
  refine four e (hw ▸ wc_lt ok) (hw ▸ wc_odd ..) ?_
  have m1 : part wd 1 6 = 47 := hw ▸ wc_op ok
  have m2 : part wd 24 4 = 2 := hw ▸ wc_fn ok
  have e0 : at_ wd 28 4 = la := at_eq (hw ▸ wc_la ok)
  have e1 : at_ wd 22 2 = sc := at_eq (hw ▸ wc_sc ok)
  have e2 : at_ wd 7 5 = d := at_eq (hw ▸ wc_d ok)
  have e3 : at_ wd 12 5 = a := at_eq (hw ▸ wc_a ok)
  have z0 : part wd 17 5 = 0 := hw ▸ wc_b ok
  unfold decodeRow32; rw [m1]
  show decCtr wd = _; unfold decCtr; rw [m2]
  show zeroed (part wd 17 5) (Instr.cread (at_ wd 28 4) (at_ wd 22 2) (at_ wd 7 5) (at_ wd 12 5)) = _
  rw [z0]
  show (some (Instr.cread (at_ wd 28 4) (at_ wd 22 2) (at_ wd 7 5) (at_ wd 12 5)) : Option Instr) = _
  rw [e0, e1, e2, e3]

theorem creg (la : BitVec 4) (sc : BitVec 2) (d a b : Reg) : Statement (Instr.creg la sc d a b) := by
  have ok : wcFits 0x2f d.toNat a.toNat b.toNat sc.toNat 3 la.toNat := ⟨by decide, d.isLt, a.isLt, b.isLt, sc.isLt, by decide, la.isLt⟩
  obtain ⟨wd, hw⟩ : ∃ wd, wd = Machine.wcWord 0x2f d.toNat a.toNat b.toNat sc.toNat 3 la.toNat := ⟨_, rfl⟩
  have e : Instr.encode (Instr.creg la sc d a b) = wd := hw.symm ▸ rfl
  refine four e (hw ▸ wc_lt ok) (hw ▸ wc_odd ..) ?_
  have m1 : part wd 1 6 = 47 := hw ▸ wc_op ok
  have m2 : part wd 24 4 = 3 := hw ▸ wc_fn ok
  have e0 : at_ wd 28 4 = la := at_eq (hw ▸ wc_la ok)
  have e1 : at_ wd 22 2 = sc := at_eq (hw ▸ wc_sc ok)
  have e2 : at_ wd 7 5 = d := at_eq (hw ▸ wc_d ok)
  have e3 : at_ wd 12 5 = a := at_eq (hw ▸ wc_a ok)
  have e4 : at_ wd 17 5 = b := at_eq (hw ▸ wc_b ok)
  unfold decodeRow32; rw [m1]
  show decCtr wd = _; unfold decCtr; rw [m2]
  show (some (Instr.creg (at_ wd 28 4) (at_ wd 22 2) (at_ wd 7 5) (at_ wd 12 5) (at_ wd 17 5)) : Option Instr) = _
  rw [e0, e1, e2, e3, e4]

theorem cunreg (la : BitVec 4) (d a : Reg) : Statement (Instr.cunreg la d a) := by
  have h_la := la.isLt
  have h_d := d.isLt
  have h_a := a.isLt
  have ok : wcFits 0x2f d.toNat a.toNat 0 0 4 la.toNat := ⟨by decide, d.isLt, a.isLt, by decide, by decide, by decide, la.isLt⟩
  obtain ⟨wd, hw⟩ : ∃ wd, wd = Machine.wcWord 0x2f d.toNat a.toNat 0 0 4 la.toNat := ⟨_, rfl⟩
  have e : Instr.encode (Instr.cunreg la d a) = wd := hw.symm ▸ rfl
  refine four e (hw ▸ wc_lt ok) (hw ▸ wc_odd ..) ?_
  have m1 : part wd 1 6 = 47 := hw ▸ wc_op ok
  have m2 : part wd 24 4 = 4 := hw ▸ wc_fn ok
  have e0 : at_ wd 28 4 = la := at_eq (hw ▸ wc_la ok)
  have e1 : at_ wd 7 5 = d := at_eq (hw ▸ wc_d ok)
  have e2 : at_ wd 12 5 = a := at_eq (hw ▸ wc_a ok)
  have z0 : part wd 17 7 = 0 := by unfold Machine.wcWord at hw; unfold part; omega
  unfold decodeRow32; rw [m1]
  show decCtr wd = _; unfold decCtr; rw [m2]
  show zeroed (part wd 17 7) (Instr.cunreg (at_ wd 28 4) (at_ wd 7 5) (at_ wd 12 5)) = _
  rw [z0]
  show (some (Instr.cunreg (at_ wd 28 4) (at_ wd 7 5) (at_ wd 12 5)) : Option Instr) = _
  rw [e0, e1, e2]

theorem waita (la : BitVec 4) (sc : BitVec 2) (d a b : Reg) : Statement (Instr.waita la sc d a b) := by
  have ok : wcFits 0x30 d.toNat a.toNat b.toNat sc.toNat 0 la.toNat := ⟨by decide, d.isLt, a.isLt, b.isLt, sc.isLt, by decide, la.isLt⟩
  obtain ⟨wd, hw⟩ : ∃ wd, wd = Machine.wcWord 0x30 d.toNat a.toNat b.toNat sc.toNat 0 la.toNat := ⟨_, rfl⟩
  have e : Instr.encode (Instr.waita la sc d a b) = wd := hw.symm ▸ rfl
  refine four e (hw ▸ wc_lt ok) (hw ▸ wc_odd ..) ?_
  have m1 : part wd 1 6 = 48 := hw ▸ wc_op ok
  have m2 : part wd 24 4 = 0 := hw ▸ wc_fn ok
  have e0 : at_ wd 28 4 = la := at_eq (hw ▸ wc_la ok)
  have e1 : at_ wd 22 2 = sc := at_eq (hw ▸ wc_sc ok)
  have e2 : at_ wd 7 5 = d := at_eq (hw ▸ wc_d ok)
  have e3 : at_ wd 12 5 = a := at_eq (hw ▸ wc_a ok)
  have e4 : at_ wd 17 5 = b := at_eq (hw ▸ wc_b ok)
  unfold decodeRow32; rw [m1]
  show decWait wd = _; unfold decWait; rw [m2]
  show (some (Instr.waita (at_ wd 28 4) (at_ wd 22 2) (at_ wd 7 5) (at_ wd 12 5) (at_ wd 17 5)) : Option Instr) = _
  rw [e0, e1, e2, e3, e4]

theorem waitat (la : BitVec 4) (sc : BitVec 2) (d a b : Reg) : Statement (Instr.waitat la sc d a b) := by
  have ok : wcFits 0x30 d.toNat a.toNat b.toNat sc.toNat 1 la.toNat := ⟨by decide, d.isLt, a.isLt, b.isLt, sc.isLt, by decide, la.isLt⟩
  obtain ⟨wd, hw⟩ : ∃ wd, wd = Machine.wcWord 0x30 d.toNat a.toNat b.toNat sc.toNat 1 la.toNat := ⟨_, rfl⟩
  have e : Instr.encode (Instr.waitat la sc d a b) = wd := hw.symm ▸ rfl
  refine four e (hw ▸ wc_lt ok) (hw ▸ wc_odd ..) ?_
  have m1 : part wd 1 6 = 48 := hw ▸ wc_op ok
  have m2 : part wd 24 4 = 1 := hw ▸ wc_fn ok
  have e0 : at_ wd 28 4 = la := at_eq (hw ▸ wc_la ok)
  have e1 : at_ wd 22 2 = sc := at_eq (hw ▸ wc_sc ok)
  have e2 : at_ wd 7 5 = d := at_eq (hw ▸ wc_d ok)
  have e3 : at_ wd 12 5 = a := at_eq (hw ▸ wc_a ok)
  have e4 : at_ wd 17 5 = b := at_eq (hw ▸ wc_b ok)
  unfold decodeRow32; rw [m1]
  show decWait wd = _; unfold decWait; rw [m2]
  show (some (Instr.waitat (at_ wd 28 4) (at_ wd 22 2) (at_ wd 7 5) (at_ wd 12 5) (at_ wd 17 5)) : Option Instr) = _
  rw [e0, e1, e2, e3, e4]

theorem rdadd (la : BitVec 4) (sc : BitVec 2) (d a b : Reg) : Statement (Instr.rdadd la sc d a b) := by
  have ok : wcFits 0x31 d.toNat a.toNat b.toNat sc.toNat 0 la.toNat := ⟨by decide, d.isLt, a.isLt, b.isLt, sc.isLt, by decide, la.isLt⟩
  obtain ⟨wd, hw⟩ : ∃ wd, wd = Machine.wcWord 0x31 d.toNat a.toNat b.toNat sc.toNat 0 la.toNat := ⟨_, rfl⟩
  have e : Instr.encode (Instr.rdadd la sc d a b) = wd := hw.symm ▸ rfl
  refine four e (hw ▸ wc_lt ok) (hw ▸ wc_odd ..) ?_
  have m1 : part wd 1 6 = 49 := hw ▸ wc_op ok
  have m2 : part wd 24 4 = 0 := hw ▸ wc_fn ok
  have e0 : at_ wd 28 4 = la := at_eq (hw ▸ wc_la ok)
  have e1 : at_ wd 22 2 = sc := at_eq (hw ▸ wc_sc ok)
  have e2 : at_ wd 7 5 = d := at_eq (hw ▸ wc_d ok)
  have e3 : at_ wd 12 5 = a := at_eq (hw ▸ wc_a ok)
  have e4 : at_ wd 17 5 = b := at_eq (hw ▸ wc_b ok)
  unfold decodeRow32; rw [m1]
  show decRed wd = _; unfold decRed; rw [m2]
  show (some (Instr.rdadd (at_ wd 28 4) (at_ wd 22 2) (at_ wd 7 5) (at_ wd 12 5) (at_ wd 17 5)) : Option Instr) = _
  rw [e0, e1, e2, e3, e4]

theorem rdaddf (la : BitVec 4) (sc : BitVec 2) (d a b : Reg) : Statement (Instr.rdaddf la sc d a b) := by
  have ok : wcFits 0x31 d.toNat a.toNat b.toNat sc.toNat 1 la.toNat := ⟨by decide, d.isLt, a.isLt, b.isLt, sc.isLt, by decide, la.isLt⟩
  obtain ⟨wd, hw⟩ : ∃ wd, wd = Machine.wcWord 0x31 d.toNat a.toNat b.toNat sc.toNat 1 la.toNat := ⟨_, rfl⟩
  have e : Instr.encode (Instr.rdaddf la sc d a b) = wd := hw.symm ▸ rfl
  refine four e (hw ▸ wc_lt ok) (hw ▸ wc_odd ..) ?_
  have m1 : part wd 1 6 = 49 := hw ▸ wc_op ok
  have m2 : part wd 24 4 = 1 := hw ▸ wc_fn ok
  have e0 : at_ wd 28 4 = la := at_eq (hw ▸ wc_la ok)
  have e1 : at_ wd 22 2 = sc := at_eq (hw ▸ wc_sc ok)
  have e2 : at_ wd 7 5 = d := at_eq (hw ▸ wc_d ok)
  have e3 : at_ wd 12 5 = a := at_eq (hw ▸ wc_a ok)
  have e4 : at_ wd 17 5 = b := at_eq (hw ▸ wc_b ok)
  unfold decodeRow32; rw [m1]
  show decRed wd = _; unfold decRed; rw [m2]
  show (some (Instr.rdaddf (at_ wd 28 4) (at_ wd 22 2) (at_ wd 7 5) (at_ wd 12 5) (at_ wd 17 5)) : Option Instr) = _
  rw [e0, e1, e2, e3, e4]

theorem rdadda (la : BitVec 4) (sc : BitVec 2) (d a b : Reg) : Statement (Instr.rdadda la sc d a b) := by
  have ok : wcFits 0x31 d.toNat a.toNat b.toNat sc.toNat 2 la.toNat := ⟨by decide, d.isLt, a.isLt, b.isLt, sc.isLt, by decide, la.isLt⟩
  obtain ⟨wd, hw⟩ : ∃ wd, wd = Machine.wcWord 0x31 d.toNat a.toNat b.toNat sc.toNat 2 la.toNat := ⟨_, rfl⟩
  have e : Instr.encode (Instr.rdadda la sc d a b) = wd := hw.symm ▸ rfl
  refine four e (hw ▸ wc_lt ok) (hw ▸ wc_odd ..) ?_
  have m1 : part wd 1 6 = 49 := hw ▸ wc_op ok
  have m2 : part wd 24 4 = 2 := hw ▸ wc_fn ok
  have e0 : at_ wd 28 4 = la := at_eq (hw ▸ wc_la ok)
  have e1 : at_ wd 22 2 = sc := at_eq (hw ▸ wc_sc ok)
  have e2 : at_ wd 7 5 = d := at_eq (hw ▸ wc_d ok)
  have e3 : at_ wd 12 5 = a := at_eq (hw ▸ wc_a ok)
  have e4 : at_ wd 17 5 = b := at_eq (hw ▸ wc_b ok)
  unfold decodeRow32; rw [m1]
  show decRed wd = _; unfold decRed; rw [m2]
  show (some (Instr.rdadda (at_ wd 28 4) (at_ wd 22 2) (at_ wd 7 5) (at_ wd 12 5) (at_ wd 17 5)) : Option Instr) = _
  rw [e0, e1, e2, e3, e4]

theorem rdmax (la : BitVec 4) (sc : BitVec 2) (d a b : Reg) : Statement (Instr.rdmax la sc d a b) := by
  have ok : wcFits 0x31 d.toNat a.toNat b.toNat sc.toNat 3 la.toNat := ⟨by decide, d.isLt, a.isLt, b.isLt, sc.isLt, by decide, la.isLt⟩
  obtain ⟨wd, hw⟩ : ∃ wd, wd = Machine.wcWord 0x31 d.toNat a.toNat b.toNat sc.toNat 3 la.toNat := ⟨_, rfl⟩
  have e : Instr.encode (Instr.rdmax la sc d a b) = wd := hw.symm ▸ rfl
  refine four e (hw ▸ wc_lt ok) (hw ▸ wc_odd ..) ?_
  have m1 : part wd 1 6 = 49 := hw ▸ wc_op ok
  have m2 : part wd 24 4 = 3 := hw ▸ wc_fn ok
  have e0 : at_ wd 28 4 = la := at_eq (hw ▸ wc_la ok)
  have e1 : at_ wd 22 2 = sc := at_eq (hw ▸ wc_sc ok)
  have e2 : at_ wd 7 5 = d := at_eq (hw ▸ wc_d ok)
  have e3 : at_ wd 12 5 = a := at_eq (hw ▸ wc_a ok)
  have e4 : at_ wd 17 5 = b := at_eq (hw ▸ wc_b ok)
  unfold decodeRow32; rw [m1]
  show decRed wd = _; unfold decRed; rw [m2]
  show (some (Instr.rdmax (at_ wd 28 4) (at_ wd 22 2) (at_ wd 7 5) (at_ wd 12 5) (at_ wd 17 5)) : Option Instr) = _
  rw [e0, e1, e2, e3, e4]

theorem rdmin (la : BitVec 4) (sc : BitVec 2) (d a b : Reg) : Statement (Instr.rdmin la sc d a b) := by
  have ok : wcFits 0x31 d.toNat a.toNat b.toNat sc.toNat 4 la.toNat := ⟨by decide, d.isLt, a.isLt, b.isLt, sc.isLt, by decide, la.isLt⟩
  obtain ⟨wd, hw⟩ : ∃ wd, wd = Machine.wcWord 0x31 d.toNat a.toNat b.toNat sc.toNat 4 la.toNat := ⟨_, rfl⟩
  have e : Instr.encode (Instr.rdmin la sc d a b) = wd := hw.symm ▸ rfl
  refine four e (hw ▸ wc_lt ok) (hw ▸ wc_odd ..) ?_
  have m1 : part wd 1 6 = 49 := hw ▸ wc_op ok
  have m2 : part wd 24 4 = 4 := hw ▸ wc_fn ok
  have e0 : at_ wd 28 4 = la := at_eq (hw ▸ wc_la ok)
  have e1 : at_ wd 22 2 = sc := at_eq (hw ▸ wc_sc ok)
  have e2 : at_ wd 7 5 = d := at_eq (hw ▸ wc_d ok)
  have e3 : at_ wd 12 5 = a := at_eq (hw ▸ wc_a ok)
  have e4 : at_ wd 17 5 = b := at_eq (hw ▸ wc_b ok)
  unfold decodeRow32; rw [m1]
  show decRed wd = _; unfold decRed; rw [m2]
  show (some (Instr.rdmin (at_ wd 28 4) (at_ wd 22 2) (at_ wd 7 5) (at_ wd 12 5) (at_ wd 17 5)) : Option Instr) = _
  rw [e0, e1, e2, e3, e4]

theorem rdand (la : BitVec 4) (sc : BitVec 2) (d a b : Reg) : Statement (Instr.rdand la sc d a b) := by
  have ok : wcFits 0x31 d.toNat a.toNat b.toNat sc.toNat 5 la.toNat := ⟨by decide, d.isLt, a.isLt, b.isLt, sc.isLt, by decide, la.isLt⟩
  obtain ⟨wd, hw⟩ : ∃ wd, wd = Machine.wcWord 0x31 d.toNat a.toNat b.toNat sc.toNat 5 la.toNat := ⟨_, rfl⟩
  have e : Instr.encode (Instr.rdand la sc d a b) = wd := hw.symm ▸ rfl
  refine four e (hw ▸ wc_lt ok) (hw ▸ wc_odd ..) ?_
  have m1 : part wd 1 6 = 49 := hw ▸ wc_op ok
  have m2 : part wd 24 4 = 5 := hw ▸ wc_fn ok
  have e0 : at_ wd 28 4 = la := at_eq (hw ▸ wc_la ok)
  have e1 : at_ wd 22 2 = sc := at_eq (hw ▸ wc_sc ok)
  have e2 : at_ wd 7 5 = d := at_eq (hw ▸ wc_d ok)
  have e3 : at_ wd 12 5 = a := at_eq (hw ▸ wc_a ok)
  have e4 : at_ wd 17 5 = b := at_eq (hw ▸ wc_b ok)
  unfold decodeRow32; rw [m1]
  show decRed wd = _; unfold decRed; rw [m2]
  show (some (Instr.rdand (at_ wd 28 4) (at_ wd 22 2) (at_ wd 7 5) (at_ wd 12 5) (at_ wd 17 5)) : Option Instr) = _
  rw [e0, e1, e2, e3, e4]

theorem rdior (la : BitVec 4) (sc : BitVec 2) (d a b : Reg) : Statement (Instr.rdior la sc d a b) := by
  have ok : wcFits 0x31 d.toNat a.toNat b.toNat sc.toNat 6 la.toNat := ⟨by decide, d.isLt, a.isLt, b.isLt, sc.isLt, by decide, la.isLt⟩
  obtain ⟨wd, hw⟩ : ∃ wd, wd = Machine.wcWord 0x31 d.toNat a.toNat b.toNat sc.toNat 6 la.toNat := ⟨_, rfl⟩
  have e : Instr.encode (Instr.rdior la sc d a b) = wd := hw.symm ▸ rfl
  refine four e (hw ▸ wc_lt ok) (hw ▸ wc_odd ..) ?_
  have m1 : part wd 1 6 = 49 := hw ▸ wc_op ok
  have m2 : part wd 24 4 = 6 := hw ▸ wc_fn ok
  have e0 : at_ wd 28 4 = la := at_eq (hw ▸ wc_la ok)
  have e1 : at_ wd 22 2 = sc := at_eq (hw ▸ wc_sc ok)
  have e2 : at_ wd 7 5 = d := at_eq (hw ▸ wc_d ok)
  have e3 : at_ wd 12 5 = a := at_eq (hw ▸ wc_a ok)
  have e4 : at_ wd 17 5 = b := at_eq (hw ▸ wc_b ok)
  unfold decodeRow32; rw [m1]
  show decRed wd = _; unfold decRed; rw [m2]
  show (some (Instr.rdior (at_ wd 28 4) (at_ wd 22 2) (at_ wd 7 5) (at_ wd 12 5) (at_ wd 17 5)) : Option Instr) = _
  rw [e0, e1, e2, e3, e4]

theorem rdxor (la : BitVec 4) (sc : BitVec 2) (d a b : Reg) : Statement (Instr.rdxor la sc d a b) := by
  have ok : wcFits 0x31 d.toNat a.toNat b.toNat sc.toNat 7 la.toNat := ⟨by decide, d.isLt, a.isLt, b.isLt, sc.isLt, by decide, la.isLt⟩
  obtain ⟨wd, hw⟩ : ∃ wd, wd = Machine.wcWord 0x31 d.toNat a.toNat b.toNat sc.toNat 7 la.toNat := ⟨_, rfl⟩
  have e : Instr.encode (Instr.rdxor la sc d a b) = wd := hw.symm ▸ rfl
  refine four e (hw ▸ wc_lt ok) (hw ▸ wc_odd ..) ?_
  have m1 : part wd 1 6 = 49 := hw ▸ wc_op ok
  have m2 : part wd 24 4 = 7 := hw ▸ wc_fn ok
  have e0 : at_ wd 28 4 = la := at_eq (hw ▸ wc_la ok)
  have e1 : at_ wd 22 2 = sc := at_eq (hw ▸ wc_sc ok)
  have e2 : at_ wd 7 5 = d := at_eq (hw ▸ wc_d ok)
  have e3 : at_ wd 12 5 = a := at_eq (hw ▸ wc_a ok)
  have e4 : at_ wd 17 5 = b := at_eq (hw ▸ wc_b ok)
  unfold decodeRow32; rw [m1]
  show decRed wd = _; unfold decRed; rw [m2]
  show (some (Instr.rdxor (at_ wd 28 4) (at_ wd 22 2) (at_ wd 7 5) (at_ wd 12 5) (at_ wd 17 5)) : Option Instr) = _
  rw [e0, e1, e2, e3, e4]

theorem subs (d a b : Reg) : Statement (Instr.subs d a b) := by
  have ok : wcFits 0x32 d.toNat a.toNat b.toNat 0 0 0 := ⟨by decide, d.isLt, a.isLt, b.isLt, by decide, by decide, by decide⟩
  obtain ⟨wd, hw⟩ : ∃ wd, wd = Machine.wcWord 0x32 d.toNat a.toNat b.toNat 0 0 0 := ⟨_, rfl⟩
  have e : Instr.encode (Instr.subs d a b) = wd := hw.symm ▸ rfl
  refine four e (hw ▸ wc_lt ok) (hw ▸ wc_odd ..) ?_
  have m1 : part wd 1 6 = 50 := hw ▸ wc_op ok
  have m2 : part wd 24 4 = 0 := hw ▸ wc_fn ok
  have e0 : at_ wd 7 5 = d := at_eq (hw ▸ wc_d ok)
  have e1 : at_ wd 12 5 = a := at_eq (hw ▸ wc_a ok)
  have e2 : at_ wd 17 5 = b := at_eq (hw ▸ wc_b ok)
  have z0 : part wd 22 2 = 0 := hw ▸ wc_sc ok
  have z1 : part wd 28 4 = 0 := hw ▸ wc_la ok
  unfold decodeRow32; rw [m1]
  show decSubs wd = _; unfold decSubs; rw [m2]
  show zeroed (part wd 22 2 + part wd 28 4) (Instr.subs (at_ wd 7 5) (at_ wd 12 5) (at_ wd 17 5)) = _
  rw [z0, z1]
  show (some (Instr.subs (at_ wd 7 5) (at_ wd 12 5) (at_ wd 17 5)) : Option Instr) = _
  rw [e0, e1, e2]

theorem unsub (d a : Reg) : Statement (Instr.unsub d a) := by
  have h_d := d.isLt
  have h_a := a.isLt
  have ok : wcFits 0x32 d.toNat a.toNat 0 0 1 0 := ⟨by decide, d.isLt, a.isLt, by decide, by decide, by decide, by decide⟩
  obtain ⟨wd, hw⟩ : ∃ wd, wd = Machine.wcWord 0x32 d.toNat a.toNat 0 0 1 0 := ⟨_, rfl⟩
  have e : Instr.encode (Instr.unsub d a) = wd := hw.symm ▸ rfl
  refine four e (hw ▸ wc_lt ok) (hw ▸ wc_odd ..) ?_
  have m1 : part wd 1 6 = 50 := hw ▸ wc_op ok
  have m2 : part wd 24 4 = 1 := hw ▸ wc_fn ok
  have e0 : at_ wd 7 5 = d := at_eq (hw ▸ wc_d ok)
  have e1 : at_ wd 12 5 = a := at_eq (hw ▸ wc_a ok)
  have z0 : part wd 17 7 = 0 := by unfold Machine.wcWord at hw; unfold part; omega
  have z1 : part wd 28 4 = 0 := hw ▸ wc_la ok
  unfold decodeRow32; rw [m1]
  show decSubs wd = _; unfold decSubs; rw [m2]
  show zeroed (part wd 17 7 + part wd 28 4) (Instr.unsub (at_ wd 7 5) (at_ wd 12 5)) = _
  rw [z0, z1]
  show (some (Instr.unsub (at_ wd 7 5) (at_ wd 12 5)) : Option Instr) = _
  rw [e0, e1]

theorem sflush (d : Reg) : Statement (Instr.sflush d) := by
  have h_d := d.isLt
  have ok : wcFits 0x32 d.toNat 0 0 0 2 0 := ⟨by decide, d.isLt, by decide, by decide, by decide, by decide, by decide⟩
  obtain ⟨wd, hw⟩ : ∃ wd, wd = Machine.wcWord 0x32 d.toNat 0 0 0 2 0 := ⟨_, rfl⟩
  have e : Instr.encode (Instr.sflush d) = wd := hw.symm ▸ rfl
  refine four e (hw ▸ wc_lt ok) (hw ▸ wc_odd ..) ?_
  have m1 : part wd 1 6 = 50 := hw ▸ wc_op ok
  have m2 : part wd 24 4 = 2 := hw ▸ wc_fn ok
  have e0 : at_ wd 7 5 = d := at_eq (hw ▸ wc_d ok)
  have z0 : part wd 12 12 = 0 := by unfold Machine.wcWord at hw; unfold part; omega
  have z1 : part wd 28 4 = 0 := hw ▸ wc_la ok
  unfold decodeRow32; rw [m1]
  show decSubs wd = _; unfold decSubs; rw [m2]
  show zeroed (part wd 12 12 + part wd 28 4) (Instr.sflush (at_ wd 7 5)) = _
  rw [z0, z1]
  show (some (Instr.sflush (at_ wd 7 5)) : Option Instr) = _
  rw [e0]

theorem sstat (d a : Reg) : Statement (Instr.sstat d a) := by
  have h_d := d.isLt
  have h_a := a.isLt
  have ok : wcFits 0x32 d.toNat a.toNat 0 0 3 0 := ⟨by decide, d.isLt, a.isLt, by decide, by decide, by decide, by decide⟩
  obtain ⟨wd, hw⟩ : ∃ wd, wd = Machine.wcWord 0x32 d.toNat a.toNat 0 0 3 0 := ⟨_, rfl⟩
  have e : Instr.encode (Instr.sstat d a) = wd := hw.symm ▸ rfl
  refine four e (hw ▸ wc_lt ok) (hw ▸ wc_odd ..) ?_
  have m1 : part wd 1 6 = 50 := hw ▸ wc_op ok
  have m2 : part wd 24 4 = 3 := hw ▸ wc_fn ok
  have e0 : at_ wd 7 5 = d := at_eq (hw ▸ wc_d ok)
  have e1 : at_ wd 12 5 = a := at_eq (hw ▸ wc_a ok)
  have z0 : part wd 17 7 = 0 := by unfold Machine.wcWord at hw; unfold part; omega
  have z1 : part wd 28 4 = 0 := hw ▸ wc_la ok
  unfold decodeRow32; rw [m1]
  show decSubs wd = _; unfold decSubs; rw [m2]
  show zeroed (part wd 17 7 + part wd 28 4) (Instr.sstat (at_ wd 7 5) (at_ wd 12 5)) = _
  rw [z0, z1]
  show (some (Instr.sstat (at_ wd 7 5) (at_ wd 12 5)) : Option Instr) = _
  rw [e0, e1]

theorem claim (d a b : Reg) : Statement (Instr.claim d a b) := by
  have ok : wcFits 0x33 d.toNat a.toNat b.toNat 0 0 0 := ⟨by decide, d.isLt, a.isLt, b.isLt, by decide, by decide, by decide⟩
  obtain ⟨wd, hw⟩ : ∃ wd, wd = Machine.wcWord 0x33 d.toNat a.toNat b.toNat 0 0 0 := ⟨_, rfl⟩
  have e : Instr.encode (Instr.claim d a b) = wd := hw.symm ▸ rfl
  refine four e (hw ▸ wc_lt ok) (hw ▸ wc_odd ..) ?_
  have m1 : part wd 1 6 = 51 := hw ▸ wc_op ok
  have m2 : part wd 24 4 = 0 := hw ▸ wc_fn ok
  have e0 : at_ wd 7 5 = d := at_eq (hw ▸ wc_d ok)
  have e1 : at_ wd 12 5 = a := at_eq (hw ▸ wc_a ok)
  have e2 : at_ wd 17 5 = b := at_eq (hw ▸ wc_b ok)
  have z0 : part wd 22 2 = 0 := hw ▸ wc_sc ok
  have z1 : part wd 28 4 = 0 := hw ▸ wc_la ok
  unfold decodeRow32; rw [m1]
  show decClaim wd = _; unfold decClaim; rw [m2]
  show zeroed (part wd 22 2 + part wd 28 4) (Instr.claim (at_ wd 7 5) (at_ wd 12 5) (at_ wd 17 5)) = _
  rw [z0, z1]
  show (some (Instr.claim (at_ wd 7 5) (at_ wd 12 5) (at_ wd 17 5)) : Option Instr) = _
  rw [e0, e1, e2]

theorem object (d a b : Reg) : Statement (Instr.object d a b) := by
  have ok : wcFits 0x33 d.toNat a.toNat b.toNat 0 1 0 := ⟨by decide, d.isLt, a.isLt, b.isLt, by decide, by decide, by decide⟩
  obtain ⟨wd, hw⟩ : ∃ wd, wd = Machine.wcWord 0x33 d.toNat a.toNat b.toNat 0 1 0 := ⟨_, rfl⟩
  have e : Instr.encode (Instr.object d a b) = wd := hw.symm ▸ rfl
  refine four e (hw ▸ wc_lt ok) (hw ▸ wc_odd ..) ?_
  have m1 : part wd 1 6 = 51 := hw ▸ wc_op ok
  have m2 : part wd 24 4 = 1 := hw ▸ wc_fn ok
  have e0 : at_ wd 7 5 = d := at_eq (hw ▸ wc_d ok)
  have e1 : at_ wd 12 5 = a := at_eq (hw ▸ wc_a ok)
  have e2 : at_ wd 17 5 = b := at_eq (hw ▸ wc_b ok)
  have z0 : part wd 22 2 = 0 := hw ▸ wc_sc ok
  have z1 : part wd 28 4 = 0 := hw ▸ wc_la ok
  unfold decodeRow32; rw [m1]
  show decClaim wd = _; unfold decClaim; rw [m2]
  show zeroed (part wd 22 2 + part wd 28 4) (Instr.object (at_ wd 7 5) (at_ wd 12 5) (at_ wd 17 5)) = _
  rw [z0, z1]
  show (some (Instr.object (at_ wd 7 5) (at_ wd 12 5) (at_ wd 17 5)) : Option Instr) = _
  rw [e0, e1, e2]

theorem claimw (d a : Reg) : Statement (Instr.claimw d a) := by
  have h_d := d.isLt
  have h_a := a.isLt
  have ok : wcFits 0x33 d.toNat a.toNat 0 0 2 0 := ⟨by decide, d.isLt, a.isLt, by decide, by decide, by decide, by decide⟩
  obtain ⟨wd, hw⟩ : ∃ wd, wd = Machine.wcWord 0x33 d.toNat a.toNat 0 0 2 0 := ⟨_, rfl⟩
  have e : Instr.encode (Instr.claimw d a) = wd := hw.symm ▸ rfl
  refine four e (hw ▸ wc_lt ok) (hw ▸ wc_odd ..) ?_
  have m1 : part wd 1 6 = 51 := hw ▸ wc_op ok
  have m2 : part wd 24 4 = 2 := hw ▸ wc_fn ok
  have e0 : at_ wd 7 5 = d := at_eq (hw ▸ wc_d ok)
  have e1 : at_ wd 12 5 = a := at_eq (hw ▸ wc_a ok)
  have z0 : part wd 17 7 = 0 := by unfold Machine.wcWord at hw; unfold part; omega
  have z1 : part wd 28 4 = 0 := hw ▸ wc_la ok
  unfold decodeRow32; rw [m1]
  show decClaim wd = _; unfold decClaim; rw [m2]
  show zeroed (part wd 17 7 + part wd 28 4) (Instr.claimw (at_ wd 7 5) (at_ wd 12 5)) = _
  rw [z0, z1]
  show (some (Instr.claimw (at_ wd 7 5) (at_ wd 12 5)) : Option Instr) = _
  rw [e0, e1]

theorem cwin (d a b : Reg) : Statement (Instr.cwin d a b) := by
  have ok : wcFits 0x33 d.toNat a.toNat b.toNat 0 3 0 := ⟨by decide, d.isLt, a.isLt, b.isLt, by decide, by decide, by decide⟩
  obtain ⟨wd, hw⟩ : ∃ wd, wd = Machine.wcWord 0x33 d.toNat a.toNat b.toNat 0 3 0 := ⟨_, rfl⟩
  have e : Instr.encode (Instr.cwin d a b) = wd := hw.symm ▸ rfl
  refine four e (hw ▸ wc_lt ok) (hw ▸ wc_odd ..) ?_
  have m1 : part wd 1 6 = 51 := hw ▸ wc_op ok
  have m2 : part wd 24 4 = 3 := hw ▸ wc_fn ok
  have e0 : at_ wd 7 5 = d := at_eq (hw ▸ wc_d ok)
  have e1 : at_ wd 12 5 = a := at_eq (hw ▸ wc_a ok)
  have e2 : at_ wd 17 5 = b := at_eq (hw ▸ wc_b ok)
  have z0 : part wd 22 2 = 0 := hw ▸ wc_sc ok
  have z1 : part wd 28 4 = 0 := hw ▸ wc_la ok
  unfold decodeRow32; rw [m1]
  show decClaim wd = _; unfold decClaim; rw [m2]
  show zeroed (part wd 22 2 + part wd 28 4) (Instr.cwin (at_ wd 7 5) (at_ wd 12 5) (at_ wd 17 5)) = _
  rw [z0, z1]
  show (some (Instr.cwin (at_ wd 7 5) (at_ wd 12 5) (at_ wd 17 5)) : Option Instr) = _
  rw [e0, e1, e2]

theorem cflush (d a b : Reg) : Statement (Instr.cflush d a b) := by
  have ok : wcFits 0x34 d.toNat a.toNat b.toNat 0 0 0 := ⟨by decide, d.isLt, a.isLt, b.isLt, by decide, by decide, by decide⟩
  obtain ⟨wd, hw⟩ : ∃ wd, wd = Machine.wcWord 0x34 d.toNat a.toNat b.toNat 0 0 0 := ⟨_, rfl⟩
  have e : Instr.encode (Instr.cflush d a b) = wd := hw.symm ▸ rfl
  refine four e (hw ▸ wc_lt ok) (hw ▸ wc_odd ..) ?_
  have m1 : part wd 1 6 = 52 := hw ▸ wc_op ok
  have m2 : part wd 24 4 = 0 := hw ▸ wc_fn ok
  have e0 : at_ wd 7 5 = d := at_eq (hw ▸ wc_d ok)
  have e1 : at_ wd 12 5 = a := at_eq (hw ▸ wc_a ok)
  have e2 : at_ wd 17 5 = b := at_eq (hw ▸ wc_b ok)
  have z0 : part wd 22 2 = 0 := hw ▸ wc_sc ok
  have z1 : part wd 28 4 = 0 := hw ▸ wc_la ok
  unfold decodeRow32; rw [m1]
  show decCache wd = _; unfold decCache; rw [m2]
  show zeroed (part wd 22 2 + part wd 28 4) (Instr.cflush (at_ wd 7 5) (at_ wd 12 5) (at_ wd 17 5)) = _
  rw [z0, z1]
  show (some (Instr.cflush (at_ wd 7 5) (at_ wd 12 5) (at_ wd 17 5)) : Option Instr) = _
  rw [e0, e1, e2]

theorem cinv (d a b : Reg) : Statement (Instr.cinv d a b) := by
  have ok : wcFits 0x34 d.toNat a.toNat b.toNat 0 1 0 := ⟨by decide, d.isLt, a.isLt, b.isLt, by decide, by decide, by decide⟩
  obtain ⟨wd, hw⟩ : ∃ wd, wd = Machine.wcWord 0x34 d.toNat a.toNat b.toNat 0 1 0 := ⟨_, rfl⟩
  have e : Instr.encode (Instr.cinv d a b) = wd := hw.symm ▸ rfl
  refine four e (hw ▸ wc_lt ok) (hw ▸ wc_odd ..) ?_
  have m1 : part wd 1 6 = 52 := hw ▸ wc_op ok
  have m2 : part wd 24 4 = 1 := hw ▸ wc_fn ok
  have e0 : at_ wd 7 5 = d := at_eq (hw ▸ wc_d ok)
  have e1 : at_ wd 12 5 = a := at_eq (hw ▸ wc_a ok)
  have e2 : at_ wd 17 5 = b := at_eq (hw ▸ wc_b ok)
  have z0 : part wd 22 2 = 0 := hw ▸ wc_sc ok
  have z1 : part wd 28 4 = 0 := hw ▸ wc_la ok
  unfold decodeRow32; rw [m1]
  show decCache wd = _; unfold decCache; rw [m2]
  show zeroed (part wd 22 2 + part wd 28 4) (Instr.cinv (at_ wd 7 5) (at_ wd 12 5) (at_ wd 17 5)) = _
  rw [z0, z1]
  show (some (Instr.cinv (at_ wd 7 5) (at_ wd 12 5) (at_ wd 17 5)) : Option Instr) = _
  rw [e0, e1, e2]

theorem bmode (d a b : Reg) : Statement (Instr.bmode d a b) := by
  have ok : wcFits 0x34 d.toNat a.toNat b.toNat 0 2 0 := ⟨by decide, d.isLt, a.isLt, b.isLt, by decide, by decide, by decide⟩
  obtain ⟨wd, hw⟩ : ∃ wd, wd = Machine.wcWord 0x34 d.toNat a.toNat b.toNat 0 2 0 := ⟨_, rfl⟩
  have e : Instr.encode (Instr.bmode d a b) = wd := hw.symm ▸ rfl
  refine four e (hw ▸ wc_lt ok) (hw ▸ wc_odd ..) ?_
  have m1 : part wd 1 6 = 52 := hw ▸ wc_op ok
  have m2 : part wd 24 4 = 2 := hw ▸ wc_fn ok
  have e0 : at_ wd 7 5 = d := at_eq (hw ▸ wc_d ok)
  have e1 : at_ wd 12 5 = a := at_eq (hw ▸ wc_a ok)
  have e2 : at_ wd 17 5 = b := at_eq (hw ▸ wc_b ok)
  have z0 : part wd 22 2 = 0 := hw ▸ wc_sc ok
  have z1 : part wd 28 4 = 0 := hw ▸ wc_la ok
  unfold decodeRow32; rw [m1]
  show decCache wd = _; unfold decCache; rw [m2]
  show zeroed (part wd 22 2 + part wd 28 4) (Instr.bmode (at_ wd 7 5) (at_ wd 12 5) (at_ wd 17 5)) = _
  rw [z0, z1]
  show (some (Instr.bmode (at_ wd 7 5) (at_ wd 12 5) (at_ wd 17 5)) : Option Instr) = _
  rw [e0, e1, e2]

theorem bqry (d a : Reg) : Statement (Instr.bqry d a) := by
  have h_d := d.isLt
  have h_a := a.isLt
  have ok : wcFits 0x34 d.toNat a.toNat 0 0 3 0 := ⟨by decide, d.isLt, a.isLt, by decide, by decide, by decide, by decide⟩
  obtain ⟨wd, hw⟩ : ∃ wd, wd = Machine.wcWord 0x34 d.toNat a.toNat 0 0 3 0 := ⟨_, rfl⟩
  have e : Instr.encode (Instr.bqry d a) = wd := hw.symm ▸ rfl
  refine four e (hw ▸ wc_lt ok) (hw ▸ wc_odd ..) ?_
  have m1 : part wd 1 6 = 52 := hw ▸ wc_op ok
  have m2 : part wd 24 4 = 3 := hw ▸ wc_fn ok
  have e0 : at_ wd 7 5 = d := at_eq (hw ▸ wc_d ok)
  have e1 : at_ wd 12 5 = a := at_eq (hw ▸ wc_a ok)
  have z0 : part wd 17 7 = 0 := by unfold Machine.wcWord at hw; unfold part; omega
  have z1 : part wd 28 4 = 0 := hw ▸ wc_la ok
  unfold decodeRow32; rw [m1]
  show decCache wd = _; unfold decCache; rw [m2]
  show zeroed (part wd 17 7 + part wd 28 4) (Instr.bqry (at_ wd 7 5) (at_ wd 12 5)) = _
  rw [z0, z1]
  show (some (Instr.bqry (at_ wd 7 5) (at_ wd 12 5)) : Option Instr) = _
  rw [e0, e1]

theorem pref (a : Reg) : Statement (Instr.pref a) := by
  have h_a := a.isLt
  have ok : wcFits 0x34 0 a.toNat 0 0 4 0 := ⟨by decide, by decide, a.isLt, by decide, by decide, by decide, by decide⟩
  obtain ⟨wd, hw⟩ : ∃ wd, wd = Machine.wcWord 0x34 0 a.toNat 0 0 4 0 := ⟨_, rfl⟩
  have e : Instr.encode (Instr.pref a) = wd := hw.symm ▸ rfl
  refine four e (hw ▸ wc_lt ok) (hw ▸ wc_odd ..) ?_
  have m1 : part wd 1 6 = 52 := hw ▸ wc_op ok
  have m2 : part wd 24 4 = 4 := hw ▸ wc_fn ok
  have e0 : at_ wd 12 5 = a := at_eq (hw ▸ wc_a ok)
  have z0 : part wd 7 5 = 0 := hw ▸ wc_d ok
  have z1 : part wd 17 7 = 0 := by unfold Machine.wcWord at hw; unfold part; omega
  have z2 : part wd 28 4 = 0 := hw ▸ wc_la ok
  unfold decodeRow32; rw [m1]
  show decCache wd = _; unfold decCache; rw [m2]
  show zeroed (part wd 7 5 + part wd 17 7 + part wd 28 4) (Instr.pref (at_ wd 12 5)) = _
  rw [z0, z1, z2]
  show (some (Instr.pref (at_ wd 12 5)) : Option Instr) = _
  rw [e0]

theorem mcst (sc : BitVec 2) (d a b : Reg) : Statement (Instr.mcst sc d a b) := by
  have ok : wcFits 0x35 d.toNat a.toNat b.toNat sc.toNat 0 0 := ⟨by decide, d.isLt, a.isLt, b.isLt, sc.isLt, by decide, by decide⟩
  obtain ⟨wd, hw⟩ : ∃ wd, wd = Machine.wcWord 0x35 d.toNat a.toNat b.toNat sc.toNat 0 0 := ⟨_, rfl⟩
  have e : Instr.encode (Instr.mcst sc d a b) = wd := hw.symm ▸ rfl
  refine four e (hw ▸ wc_lt ok) (hw ▸ wc_odd ..) ?_
  have m1 : part wd 1 6 = 53 := hw ▸ wc_op ok
  have m2 : part wd 24 4 = 0 := hw ▸ wc_fn ok
  have e0 : at_ wd 22 2 = sc := at_eq (hw ▸ wc_sc ok)
  have e1 : at_ wd 7 5 = d := at_eq (hw ▸ wc_d ok)
  have e2 : at_ wd 12 5 = a := at_eq (hw ▸ wc_a ok)
  have e3 : at_ wd 17 5 = b := at_eq (hw ▸ wc_b ok)
  have z0 : part wd 28 4 = 0 := hw ▸ wc_la ok
  unfold decodeRow32; rw [m1]
  show decMcst wd = _; unfold decMcst; rw [m2]
  show zeroed (part wd 28 4) (Instr.mcst (at_ wd 22 2) (at_ wd 7 5) (at_ wd 12 5) (at_ wd 17 5)) = _
  rw [z0]
  show (some (Instr.mcst (at_ wd 22 2) (at_ wd 7 5) (at_ wd 12 5) (at_ wd 17 5)) : Option Instr) = _
  rw [e0, e1, e2, e3]

theorem efork (d a : Reg) : Statement (Instr.efork d a) := by
  have ok : wrFits 0x36 d.toNat a.toNat 0 0 0 := ⟨by decide, d.isLt, a.isLt, by decide, by decide, by decide⟩
  obtain ⟨wd, hw⟩ : ∃ wd, wd = Machine.wrWord 0x36 d.toNat a.toNat 0 0 0 := ⟨_, rfl⟩
  have e : Instr.encode (Instr.efork d a) = wd := hw.symm ▸ rfl
  refine four e (hw ▸ wr_lt ok) (hw ▸ wr_odd ..) ?_
  have m1 : part wd 1 6 = 54 := hw ▸ wr_op ok
  have m2 : part wd 22 6 = 0 := hw ▸ wr_fn ok
  have e0 : at_ wd 7 5 = d := at_eq (hw ▸ wr_d ok)
  have e1 : at_ wd 12 5 = a := at_eq (hw ▸ wr_a ok)
  have z0 : part wd 17 5 = 0 := hw ▸ wr_b ok
  have z1 : part wd 28 4 = 0 := hw ▸ wr_xf ok
  unfold decodeRow32; rw [m1]
  show decEng wd = _; unfold decEng; rw [m2]
  show zeroed (part wd 17 5 + part wd 28 4) (Instr.efork (at_ wd 7 5) (at_ wd 12 5)) = _
  rw [z0, z1]
  show (some (Instr.efork (at_ wd 7 5) (at_ wd 12 5)) : Option Instr) = _
  rw [e0, e1]

theorem erdv (d a : Reg) : Statement (Instr.erdv d a) := by
  have ok : wrFits 0x36 d.toNat a.toNat 0 1 0 := ⟨by decide, d.isLt, a.isLt, by decide, by decide, by decide⟩
  obtain ⟨wd, hw⟩ : ∃ wd, wd = Machine.wrWord 0x36 d.toNat a.toNat 0 1 0 := ⟨_, rfl⟩
  have e : Instr.encode (Instr.erdv d a) = wd := hw.symm ▸ rfl
  refine four e (hw ▸ wr_lt ok) (hw ▸ wr_odd ..) ?_
  have m1 : part wd 1 6 = 54 := hw ▸ wr_op ok
  have m2 : part wd 22 6 = 1 := hw ▸ wr_fn ok
  have e0 : at_ wd 7 5 = d := at_eq (hw ▸ wr_d ok)
  have e1 : at_ wd 12 5 = a := at_eq (hw ▸ wr_a ok)
  have z0 : part wd 17 5 = 0 := hw ▸ wr_b ok
  have z1 : part wd 28 4 = 0 := hw ▸ wr_xf ok
  unfold decodeRow32; rw [m1]
  show decEng wd = _; unfold decEng; rw [m2]
  show zeroed (part wd 17 5 + part wd 28 4) (Instr.erdv (at_ wd 7 5) (at_ wd 12 5)) = _
  rw [z0, z1]
  show (some (Instr.erdv (at_ wd 7 5) (at_ wd 12 5)) : Option Instr) = _
  rw [e0, e1]

theorem epush (d a b : Reg) : Statement (Instr.epush d a b) := by
  have ok : wrFits 0x36 d.toNat a.toNat b.toNat 2 0 := ⟨by decide, d.isLt, a.isLt, b.isLt, by decide, by decide⟩
  obtain ⟨wd, hw⟩ : ∃ wd, wd = Machine.wrWord 0x36 d.toNat a.toNat b.toNat 2 0 := ⟨_, rfl⟩
  have e : Instr.encode (Instr.epush d a b) = wd := hw.symm ▸ rfl
  refine four e (hw ▸ wr_lt ok) (hw ▸ wr_odd ..) ?_
  have m1 : part wd 1 6 = 54 := hw ▸ wr_op ok
  have m2 : part wd 22 6 = 2 := hw ▸ wr_fn ok
  have e0 : at_ wd 7 5 = d := at_eq (hw ▸ wr_d ok)
  have e1 : at_ wd 12 5 = a := at_eq (hw ▸ wr_a ok)
  have e2 : at_ wd 17 5 = b := at_eq (hw ▸ wr_b ok)
  have z0 : part wd 28 4 = 0 := hw ▸ wr_xf ok
  unfold decodeRow32; rw [m1]
  show decEng wd = _; unfold decEng; rw [m2]
  show zeroed (part wd 28 4) (Instr.epush (at_ wd 7 5) (at_ wd 12 5) (at_ wd 17 5)) = _
  rw [z0]
  show (some (Instr.epush (at_ wd 7 5) (at_ wd 12 5) (at_ wd 17 5)) : Option Instr) = _
  rw [e0, e1, e2]

theorem estat (d a : Reg) : Statement (Instr.estat d a) := by
  have ok : wrFits 0x36 d.toNat a.toNat 0 3 0 := ⟨by decide, d.isLt, a.isLt, by decide, by decide, by decide⟩
  obtain ⟨wd, hw⟩ : ∃ wd, wd = Machine.wrWord 0x36 d.toNat a.toNat 0 3 0 := ⟨_, rfl⟩
  have e : Instr.encode (Instr.estat d a) = wd := hw.symm ▸ rfl
  refine four e (hw ▸ wr_lt ok) (hw ▸ wr_odd ..) ?_
  have m1 : part wd 1 6 = 54 := hw ▸ wr_op ok
  have m2 : part wd 22 6 = 3 := hw ▸ wr_fn ok
  have e0 : at_ wd 7 5 = d := at_eq (hw ▸ wr_d ok)
  have e1 : at_ wd 12 5 = a := at_eq (hw ▸ wr_a ok)
  have z0 : part wd 17 5 = 0 := hw ▸ wr_b ok
  have z1 : part wd 28 4 = 0 := hw ▸ wr_xf ok
  unfold decodeRow32; rw [m1]
  show decEng wd = _; unfold decEng; rw [m2]
  show zeroed (part wd 17 5 + part wd 28 4) (Instr.estat (at_ wd 7 5) (at_ wd 12 5)) = _
  rw [z0, z1]
  show (some (Instr.estat (at_ wd 7 5) (at_ wd 12 5)) : Option Instr) = _
  rw [e0, e1]

theorem eabort (d a b : Reg) : Statement (Instr.eabort d a b) := by
  have ok : wrFits 0x36 d.toNat a.toNat b.toNat 4 0 := ⟨by decide, d.isLt, a.isLt, b.isLt, by decide, by decide⟩
  obtain ⟨wd, hw⟩ : ∃ wd, wd = Machine.wrWord 0x36 d.toNat a.toNat b.toNat 4 0 := ⟨_, rfl⟩
  have e : Instr.encode (Instr.eabort d a b) = wd := hw.symm ▸ rfl
  refine four e (hw ▸ wr_lt ok) (hw ▸ wr_odd ..) ?_
  have m1 : part wd 1 6 = 54 := hw ▸ wr_op ok
  have m2 : part wd 22 6 = 4 := hw ▸ wr_fn ok
  have e0 : at_ wd 7 5 = d := at_eq (hw ▸ wr_d ok)
  have e1 : at_ wd 12 5 = a := at_eq (hw ▸ wr_a ok)
  have e2 : at_ wd 17 5 = b := at_eq (hw ▸ wr_b ok)
  have z0 : part wd 28 4 = 0 := hw ▸ wr_xf ok
  unfold decodeRow32; rw [m1]
  show decEng wd = _; unfold decEng; rw [m2]
  show zeroed (part wd 28 4) (Instr.eabort (at_ wd 7 5) (at_ wd 12 5) (at_ wd 17 5)) = _
  rw [z0]
  show (some (Instr.eabort (at_ wd 7 5) (at_ wd 12 5) (at_ wd 17 5)) : Option Instr) = _
  rw [e0, e1, e2]

theorem mclaim (d a b : Reg) : Statement (Instr.mclaim d a b) := by
  have ok : wrFits 0x37 d.toNat a.toNat b.toNat 0 0 := ⟨by decide, d.isLt, a.isLt, b.isLt, by decide, by decide⟩
  obtain ⟨wd, hw⟩ : ∃ wd, wd = Machine.wrWord 0x37 d.toNat a.toNat b.toNat 0 0 := ⟨_, rfl⟩
  have e : Instr.encode (Instr.mclaim d a b) = wd := hw.symm ▸ rfl
  refine four e (hw ▸ wr_lt ok) (hw ▸ wr_odd ..) ?_
  have m1 : part wd 1 6 = 55 := hw ▸ wr_op ok
  have m2 : part wd 22 6 = 0 := hw ▸ wr_fn ok
  have e0 : at_ wd 7 5 = d := at_eq (hw ▸ wr_d ok)
  have e1 : at_ wd 12 5 = a := at_eq (hw ▸ wr_a ok)
  have e2 : at_ wd 17 5 = b := at_eq (hw ▸ wr_b ok)
  have z0 : part wd 28 4 = 0 := hw ▸ wr_xf ok
  unfold decodeRow32; rw [m1]
  show decMxc wd = _; unfold decMxc; rw [m2]
  show zeroed (part wd 28 4) (Instr.mclaim (at_ wd 7 5) (at_ wd 12 5) (at_ wd 17 5)) = _
  rw [z0]
  show (some (Instr.mclaim (at_ wd 7 5) (at_ wd 12 5) (at_ wd 17 5)) : Option Instr) = _
  rw [e0, e1, e2]

theorem mrel (d a b : Reg) : Statement (Instr.mrel d a b) := by
  have ok : wrFits 0x37 d.toNat a.toNat b.toNat 1 0 := ⟨by decide, d.isLt, a.isLt, b.isLt, by decide, by decide⟩
  obtain ⟨wd, hw⟩ : ∃ wd, wd = Machine.wrWord 0x37 d.toNat a.toNat b.toNat 1 0 := ⟨_, rfl⟩
  have e : Instr.encode (Instr.mrel d a b) = wd := hw.symm ▸ rfl
  refine four e (hw ▸ wr_lt ok) (hw ▸ wr_odd ..) ?_
  have m1 : part wd 1 6 = 55 := hw ▸ wr_op ok
  have m2 : part wd 22 6 = 1 := hw ▸ wr_fn ok
  have e0 : at_ wd 7 5 = d := at_eq (hw ▸ wr_d ok)
  have e1 : at_ wd 12 5 = a := at_eq (hw ▸ wr_a ok)
  have e2 : at_ wd 17 5 = b := at_eq (hw ▸ wr_b ok)
  have z0 : part wd 28 4 = 0 := hw ▸ wr_xf ok
  unfold decodeRow32; rw [m1]
  show decMxc wd = _; unfold decMxc; rw [m2]
  show zeroed (part wd 28 4) (Instr.mrel (at_ wd 7 5) (at_ wd 12 5) (at_ wd 17 5)) = _
  rw [z0]
  show (some (Instr.mrel (at_ wd 7 5) (at_ wd 12 5) (at_ wd 17 5)) : Option Instr) = _
  rw [e0, e1, e2]

theorem mmap (d a b : Reg) : Statement (Instr.mmap d a b) := by
  have ok : wrFits 0x37 d.toNat a.toNat b.toNat 2 0 := ⟨by decide, d.isLt, a.isLt, b.isLt, by decide, by decide⟩
  obtain ⟨wd, hw⟩ : ∃ wd, wd = Machine.wrWord 0x37 d.toNat a.toNat b.toNat 2 0 := ⟨_, rfl⟩
  have e : Instr.encode (Instr.mmap d a b) = wd := hw.symm ▸ rfl
  refine four e (hw ▸ wr_lt ok) (hw ▸ wr_odd ..) ?_
  have m1 : part wd 1 6 = 55 := hw ▸ wr_op ok
  have m2 : part wd 22 6 = 2 := hw ▸ wr_fn ok
  have e0 : at_ wd 7 5 = d := at_eq (hw ▸ wr_d ok)
  have e1 : at_ wd 12 5 = a := at_eq (hw ▸ wr_a ok)
  have e2 : at_ wd 17 5 = b := at_eq (hw ▸ wr_b ok)
  have z0 : part wd 28 4 = 0 := hw ▸ wr_xf ok
  unfold decodeRow32; rw [m1]
  show decMxc wd = _; unfold decMxc; rw [m2]
  show zeroed (part wd 28 4) (Instr.mmap (at_ wd 7 5) (at_ wd 12 5) (at_ wd 17 5)) = _
  rw [z0]
  show (some (Instr.mmap (at_ wd 7 5) (at_ wd 12 5) (at_ wd 17 5)) : Option Instr) = _
  rw [e0, e1, e2]

theorem mjoin (d a : Reg) : Statement (Instr.mjoin d a) := by
  have ok : wrFits 0x37 d.toNat a.toNat 0 3 0 := ⟨by decide, d.isLt, a.isLt, by decide, by decide, by decide⟩
  obtain ⟨wd, hw⟩ : ∃ wd, wd = Machine.wrWord 0x37 d.toNat a.toNat 0 3 0 := ⟨_, rfl⟩
  have e : Instr.encode (Instr.mjoin d a) = wd := hw.symm ▸ rfl
  refine four e (hw ▸ wr_lt ok) (hw ▸ wr_odd ..) ?_
  have m1 : part wd 1 6 = 55 := hw ▸ wr_op ok
  have m2 : part wd 22 6 = 3 := hw ▸ wr_fn ok
  have e0 : at_ wd 7 5 = d := at_eq (hw ▸ wr_d ok)
  have e1 : at_ wd 12 5 = a := at_eq (hw ▸ wr_a ok)
  have z0 : part wd 17 5 = 0 := hw ▸ wr_b ok
  have z1 : part wd 28 4 = 0 := hw ▸ wr_xf ok
  unfold decodeRow32; rw [m1]
  show decMxc wd = _; unfold decMxc; rw [m2]
  show zeroed (part wd 17 5 + part wd 28 4) (Instr.mjoin (at_ wd 7 5) (at_ wd 12 5)) = _
  rw [z0, z1]
  show (some (Instr.mjoin (at_ wd 7 5) (at_ wd 12 5)) : Option Instr) = _
  rw [e0, e1]

theorem twany (d a b : Reg) : Statement (Instr.twany d a b) := by
  have ok : wrFits 0x38 d.toNat a.toNat b.toNat 0 0 := ⟨by decide, d.isLt, a.isLt, b.isLt, by decide, by decide⟩
  obtain ⟨wd, hw⟩ : ∃ wd, wd = Machine.wrWord 0x38 d.toNat a.toNat b.toNat 0 0 := ⟨_, rfl⟩
  have e : Instr.encode (Instr.twany d a b) = wd := hw.symm ▸ rfl
  refine four e (hw ▸ wr_lt ok) (hw ▸ wr_odd ..) ?_
  have m1 : part wd 1 6 = 56 := hw ▸ wr_op ok
  have m2 : part wd 22 6 = 0 := hw ▸ wr_fn ok
  have e0 : at_ wd 7 5 = d := at_eq (hw ▸ wr_d ok)
  have e1 : at_ wd 12 5 = a := at_eq (hw ▸ wr_a ok)
  have e2 : at_ wd 17 5 = b := at_eq (hw ▸ wr_b ok)
  have z0 : part wd 28 4 = 0 := hw ▸ wr_xf ok
  unfold decodeRow32; rw [m1]
  show decTags wd = _; unfold decTags; rw [m2]
  show zeroed (part wd 28 4) (Instr.twany (at_ wd 7 5) (at_ wd 12 5) (at_ wd 17 5)) = _
  rw [z0]
  show (some (Instr.twany (at_ wd 7 5) (at_ wd 12 5) (at_ wd 17 5)) : Option Instr) = _
  rw [e0, e1, e2]

theorem twall (d a b : Reg) : Statement (Instr.twall d a b) := by
  have ok : wrFits 0x38 d.toNat a.toNat b.toNat 1 0 := ⟨by decide, d.isLt, a.isLt, b.isLt, by decide, by decide⟩
  obtain ⟨wd, hw⟩ : ∃ wd, wd = Machine.wrWord 0x38 d.toNat a.toNat b.toNat 1 0 := ⟨_, rfl⟩
  have e : Instr.encode (Instr.twall d a b) = wd := hw.symm ▸ rfl
  refine four e (hw ▸ wr_lt ok) (hw ▸ wr_odd ..) ?_
  have m1 : part wd 1 6 = 56 := hw ▸ wr_op ok
  have m2 : part wd 22 6 = 1 := hw ▸ wr_fn ok
  have e0 : at_ wd 7 5 = d := at_eq (hw ▸ wr_d ok)
  have e1 : at_ wd 12 5 = a := at_eq (hw ▸ wr_a ok)
  have e2 : at_ wd 17 5 = b := at_eq (hw ▸ wr_b ok)
  have z0 : part wd 28 4 = 0 := hw ▸ wr_xf ok
  unfold decodeRow32; rw [m1]
  show decTags wd = _; unfold decTags; rw [m2]
  show zeroed (part wd 28 4) (Instr.twall (at_ wd 7 5) (at_ wd 12 5) (at_ wd 17 5)) = _
  rw [z0]
  show (some (Instr.twall (at_ wd 7 5) (at_ wd 12 5) (at_ wd 17 5)) : Option Instr) = _
  rw [e0, e1, e2]

theorem tfirst (d a : Reg) : Statement (Instr.tfirst d a) := by
  have ok : wrFits 0x38 d.toNat a.toNat 0 2 0 := ⟨by decide, d.isLt, a.isLt, by decide, by decide, by decide⟩
  obtain ⟨wd, hw⟩ : ∃ wd, wd = Machine.wrWord 0x38 d.toNat a.toNat 0 2 0 := ⟨_, rfl⟩
  have e : Instr.encode (Instr.tfirst d a) = wd := hw.symm ▸ rfl
  refine four e (hw ▸ wr_lt ok) (hw ▸ wr_odd ..) ?_
  have m1 : part wd 1 6 = 56 := hw ▸ wr_op ok
  have m2 : part wd 22 6 = 2 := hw ▸ wr_fn ok
  have e0 : at_ wd 7 5 = d := at_eq (hw ▸ wr_d ok)
  have e1 : at_ wd 12 5 = a := at_eq (hw ▸ wr_a ok)
  have z0 : part wd 17 5 = 0 := hw ▸ wr_b ok
  have z1 : part wd 28 4 = 0 := hw ▸ wr_xf ok
  unfold decodeRow32; rw [m1]
  show decTags wd = _; unfold decTags; rw [m2]
  show zeroed (part wd 17 5 + part wd 28 4) (Instr.tfirst (at_ wd 7 5) (at_ wd 12 5)) = _
  rw [z0, z1]
  show (some (Instr.tfirst (at_ wd 7 5) (at_ wd 12 5)) : Option Instr) = _
  rw [e0, e1]

theorem tclr (d a : Reg) : Statement (Instr.tclr d a) := by
  have ok : wrFits 0x38 d.toNat a.toNat 0 3 0 := ⟨by decide, d.isLt, a.isLt, by decide, by decide, by decide⟩
  obtain ⟨wd, hw⟩ : ∃ wd, wd = Machine.wrWord 0x38 d.toNat a.toNat 0 3 0 := ⟨_, rfl⟩
  have e : Instr.encode (Instr.tclr d a) = wd := hw.symm ▸ rfl
  refine four e (hw ▸ wr_lt ok) (hw ▸ wr_odd ..) ?_
  have m1 : part wd 1 6 = 56 := hw ▸ wr_op ok
  have m2 : part wd 22 6 = 3 := hw ▸ wr_fn ok
  have e0 : at_ wd 7 5 = d := at_eq (hw ▸ wr_d ok)
  have e1 : at_ wd 12 5 = a := at_eq (hw ▸ wr_a ok)
  have z0 : part wd 17 5 = 0 := hw ▸ wr_b ok
  have z1 : part wd 28 4 = 0 := hw ▸ wr_xf ok
  unfold decodeRow32; rw [m1]
  show decTags wd = _; unfold decTags; rw [m2]
  show zeroed (part wd 17 5 + part wd 28 4) (Instr.tclr (at_ wd 7 5) (at_ wd 12 5)) = _
  rw [z0, z1]
  show (some (Instr.tclr (at_ wd 7 5) (at_ wd 12 5)) : Option Instr) = _
  rw [e0, e1]

theorem sjoin (d a b : Reg) : Statement (Instr.sjoin d a b) := by
  have ok : wrFits 0x39 d.toNat a.toNat b.toNat 0 0 := ⟨by decide, d.isLt, a.isLt, b.isLt, by decide, by decide⟩
  obtain ⟨wd, hw⟩ : ∃ wd, wd = Machine.wrWord 0x39 d.toNat a.toNat b.toNat 0 0 := ⟨_, rfl⟩
  have e : Instr.encode (Instr.sjoin d a b) = wd := hw.symm ▸ rfl
  refine four e (hw ▸ wr_lt ok) (hw ▸ wr_odd ..) ?_
  have m1 : part wd 1 6 = 57 := hw ▸ wr_op ok
  have m2 : part wd 22 6 = 0 := hw ▸ wr_fn ok
  have e0 : at_ wd 7 5 = d := at_eq (hw ▸ wr_d ok)
  have e1 : at_ wd 12 5 = a := at_eq (hw ▸ wr_a ok)
  have e2 : at_ wd 17 5 = b := at_eq (hw ▸ wr_b ok)
  have z0 : part wd 28 4 = 0 := hw ▸ wr_xf ok
  unfold decodeRow32; rw [m1]
  show decSplice wd = _; unfold decSplice; rw [m2]
  show zeroed (part wd 28 4) (Instr.sjoin (at_ wd 7 5) (at_ wd 12 5) (at_ wd 17 5)) = _
  rw [z0]
  show (some (Instr.sjoin (at_ wd 7 5) (at_ wd 12 5) (at_ wd 17 5)) : Option Instr) = _
  rw [e0, e1, e2]

theorem sleave (d a : Reg) : Statement (Instr.sleave d a) := by
  have ok : wrFits 0x39 d.toNat a.toNat 0 1 0 := ⟨by decide, d.isLt, a.isLt, by decide, by decide, by decide⟩
  obtain ⟨wd, hw⟩ : ∃ wd, wd = Machine.wrWord 0x39 d.toNat a.toNat 0 1 0 := ⟨_, rfl⟩
  have e : Instr.encode (Instr.sleave d a) = wd := hw.symm ▸ rfl
  refine four e (hw ▸ wr_lt ok) (hw ▸ wr_odd ..) ?_
  have m1 : part wd 1 6 = 57 := hw ▸ wr_op ok
  have m2 : part wd 22 6 = 1 := hw ▸ wr_fn ok
  have e0 : at_ wd 7 5 = d := at_eq (hw ▸ wr_d ok)
  have e1 : at_ wd 12 5 = a := at_eq (hw ▸ wr_a ok)
  have z0 : part wd 17 5 = 0 := hw ▸ wr_b ok
  have z1 : part wd 28 4 = 0 := hw ▸ wr_xf ok
  unfold decodeRow32; rw [m1]
  show decSplice wd = _; unfold decSplice; rw [m2]
  show zeroed (part wd 17 5 + part wd 28 4) (Instr.sleave (at_ wd 7 5) (at_ wd 12 5)) = _
  rw [z0, z1]
  show (some (Instr.sleave (at_ wd 7 5) (at_ wd 12 5)) : Option Instr) = _
  rw [e0, e1]

theorem scin (d a b : Reg) : Statement (Instr.scin d a b) := by
  have ok : wrFits 0x39 d.toNat a.toNat b.toNat 2 0 := ⟨by decide, d.isLt, a.isLt, b.isLt, by decide, by decide⟩
  obtain ⟨wd, hw⟩ : ∃ wd, wd = Machine.wrWord 0x39 d.toNat a.toNat b.toNat 2 0 := ⟨_, rfl⟩
  have e : Instr.encode (Instr.scin d a b) = wd := hw.symm ▸ rfl
  refine four e (hw ▸ wr_lt ok) (hw ▸ wr_odd ..) ?_
  have m1 : part wd 1 6 = 57 := hw ▸ wr_op ok
  have m2 : part wd 22 6 = 2 := hw ▸ wr_fn ok
  have e0 : at_ wd 7 5 = d := at_eq (hw ▸ wr_d ok)
  have e1 : at_ wd 12 5 = a := at_eq (hw ▸ wr_a ok)
  have e2 : at_ wd 17 5 = b := at_eq (hw ▸ wr_b ok)
  have z0 : part wd 28 4 = 0 := hw ▸ wr_xf ok
  unfold decodeRow32; rw [m1]
  show decSplice wd = _; unfold decSplice; rw [m2]
  show zeroed (part wd 28 4) (Instr.scin (at_ wd 7 5) (at_ wd 12 5) (at_ wd 17 5)) = _
  rw [z0]
  show (some (Instr.scin (at_ wd 7 5) (at_ wd 12 5) (at_ wd 17 5)) : Option Instr) = _
  rw [e0, e1, e2]

theorem scout (d a b : Reg) : Statement (Instr.scout d a b) := by
  have ok : wrFits 0x39 d.toNat a.toNat b.toNat 3 0 := ⟨by decide, d.isLt, a.isLt, b.isLt, by decide, by decide⟩
  obtain ⟨wd, hw⟩ : ∃ wd, wd = Machine.wrWord 0x39 d.toNat a.toNat b.toNat 3 0 := ⟨_, rfl⟩
  have e : Instr.encode (Instr.scout d a b) = wd := hw.symm ▸ rfl
  refine four e (hw ▸ wr_lt ok) (hw ▸ wr_odd ..) ?_
  have m1 : part wd 1 6 = 57 := hw ▸ wr_op ok
  have m2 : part wd 22 6 = 3 := hw ▸ wr_fn ok
  have e0 : at_ wd 7 5 = d := at_eq (hw ▸ wr_d ok)
  have e1 : at_ wd 12 5 = a := at_eq (hw ▸ wr_a ok)
  have e2 : at_ wd 17 5 = b := at_eq (hw ▸ wr_b ok)
  have z0 : part wd 28 4 = 0 := hw ▸ wr_xf ok
  unfold decodeRow32; rw [m1]
  show decSplice wd = _; unfold decSplice; rw [m2]
  show zeroed (part wd 28 4) (Instr.scout (at_ wd 7 5) (at_ wd 12 5) (at_ wd 17 5)) = _
  rw [z0]
  show (some (Instr.scout (at_ wd 7 5) (at_ wd 12 5) (at_ wd 17 5)) : Option Instr) = _
  rw [e0, e1, e2]

theorem dadd (la : BitVec 4) (m : BitVec 3) (vb va vd : BitVec 4) : Statement (Instr.dadd la m vb va vd) := by
  have ok : wvFits 0x3a vd.toNat va.toNat vb.toNat m.toNat 0 0 la.toNat := ⟨by decide, vd.isLt, va.isLt, vb.isLt, m.isLt, by decide, by decide, la.isLt⟩
  obtain ⟨wd, hw⟩ : ∃ wd, wd = Machine.wvWord 0x3a vd.toNat va.toNat vb.toNat m.toNat 0 0 la.toNat := ⟨_, rfl⟩
  have e : Instr.encode (Instr.dadd la m vb va vd) = wd := hw.symm ▸ rfl
  refine four e (hw ▸ wv_lt ok) (hw ▸ wv_odd ..) ?_
  have m1 : part wd 1 6 = 58 := hw ▸ wv_op ok
  have m2 : part wd 25 3 = 0 := hw ▸ wv_fn ok
  have e0 : at_ wd 28 4 = la := at_eq (hw ▸ wv_la ok)
  have e1 : at_ wd 19 3 = m := at_eq (hw ▸ wv_m ok)
  have e2 : at_ wd 15 4 = vb := at_eq (hw ▸ wv_vb ok)
  have e3 : at_ wd 11 4 = va := at_eq (hw ▸ wv_va ok)
  have e4 : at_ wd 7 4 = vd := at_eq (hw ▸ wv_vd ok)
  have z0 : part wd 22 3 = 0 := hw ▸ wv_ty ok
  unfold decodeRow32; rw [m1]
  show decXf64 wd = _; unfold decXf64; rw [m2]
  show zeroed (part wd 22 3) (Instr.dadd (at_ wd 28 4) (at_ wd 19 3) (at_ wd 15 4) (at_ wd 11 4) (at_ wd 7 4)) = _
  rw [z0]
  show (some (Instr.dadd (at_ wd 28 4) (at_ wd 19 3) (at_ wd 15 4) (at_ wd 11 4) (at_ wd 7 4)) : Option Instr) = _
  rw [e0, e1, e2, e3, e4]

theorem dsub (la : BitVec 4) (m : BitVec 3) (vb va vd : BitVec 4) : Statement (Instr.dsub la m vb va vd) := by
  have ok : wvFits 0x3a vd.toNat va.toNat vb.toNat m.toNat 0 1 la.toNat := ⟨by decide, vd.isLt, va.isLt, vb.isLt, m.isLt, by decide, by decide, la.isLt⟩
  obtain ⟨wd, hw⟩ : ∃ wd, wd = Machine.wvWord 0x3a vd.toNat va.toNat vb.toNat m.toNat 0 1 la.toNat := ⟨_, rfl⟩
  have e : Instr.encode (Instr.dsub la m vb va vd) = wd := hw.symm ▸ rfl
  refine four e (hw ▸ wv_lt ok) (hw ▸ wv_odd ..) ?_
  have m1 : part wd 1 6 = 58 := hw ▸ wv_op ok
  have m2 : part wd 25 3 = 1 := hw ▸ wv_fn ok
  have e0 : at_ wd 28 4 = la := at_eq (hw ▸ wv_la ok)
  have e1 : at_ wd 19 3 = m := at_eq (hw ▸ wv_m ok)
  have e2 : at_ wd 15 4 = vb := at_eq (hw ▸ wv_vb ok)
  have e3 : at_ wd 11 4 = va := at_eq (hw ▸ wv_va ok)
  have e4 : at_ wd 7 4 = vd := at_eq (hw ▸ wv_vd ok)
  have z0 : part wd 22 3 = 0 := hw ▸ wv_ty ok
  unfold decodeRow32; rw [m1]
  show decXf64 wd = _; unfold decXf64; rw [m2]
  show zeroed (part wd 22 3) (Instr.dsub (at_ wd 28 4) (at_ wd 19 3) (at_ wd 15 4) (at_ wd 11 4) (at_ wd 7 4)) = _
  rw [z0]
  show (some (Instr.dsub (at_ wd 28 4) (at_ wd 19 3) (at_ wd 15 4) (at_ wd 11 4) (at_ wd 7 4)) : Option Instr) = _
  rw [e0, e1, e2, e3, e4]

theorem dmul (la : BitVec 4) (m : BitVec 3) (vb va vd : BitVec 4) : Statement (Instr.dmul la m vb va vd) := by
  have ok : wvFits 0x3a vd.toNat va.toNat vb.toNat m.toNat 0 2 la.toNat := ⟨by decide, vd.isLt, va.isLt, vb.isLt, m.isLt, by decide, by decide, la.isLt⟩
  obtain ⟨wd, hw⟩ : ∃ wd, wd = Machine.wvWord 0x3a vd.toNat va.toNat vb.toNat m.toNat 0 2 la.toNat := ⟨_, rfl⟩
  have e : Instr.encode (Instr.dmul la m vb va vd) = wd := hw.symm ▸ rfl
  refine four e (hw ▸ wv_lt ok) (hw ▸ wv_odd ..) ?_
  have m1 : part wd 1 6 = 58 := hw ▸ wv_op ok
  have m2 : part wd 25 3 = 2 := hw ▸ wv_fn ok
  have e0 : at_ wd 28 4 = la := at_eq (hw ▸ wv_la ok)
  have e1 : at_ wd 19 3 = m := at_eq (hw ▸ wv_m ok)
  have e2 : at_ wd 15 4 = vb := at_eq (hw ▸ wv_vb ok)
  have e3 : at_ wd 11 4 = va := at_eq (hw ▸ wv_va ok)
  have e4 : at_ wd 7 4 = vd := at_eq (hw ▸ wv_vd ok)
  have z0 : part wd 22 3 = 0 := hw ▸ wv_ty ok
  unfold decodeRow32; rw [m1]
  show decXf64 wd = _; unfold decXf64; rw [m2]
  show zeroed (part wd 22 3) (Instr.dmul (at_ wd 28 4) (at_ wd 19 3) (at_ wd 15 4) (at_ wd 11 4) (at_ wd 7 4)) = _
  rw [z0]
  show (some (Instr.dmul (at_ wd 28 4) (at_ wd 19 3) (at_ wd 15 4) (at_ wd 11 4) (at_ wd 7 4)) : Option Instr) = _
  rw [e0, e1, e2, e3, e4]

theorem dfma (la : BitVec 4) (m : BitVec 3) (vb va vd : BitVec 4) : Statement (Instr.dfma la m vb va vd) := by
  have ok : wvFits 0x3a vd.toNat va.toNat vb.toNat m.toNat 0 3 la.toNat := ⟨by decide, vd.isLt, va.isLt, vb.isLt, m.isLt, by decide, by decide, la.isLt⟩
  obtain ⟨wd, hw⟩ : ∃ wd, wd = Machine.wvWord 0x3a vd.toNat va.toNat vb.toNat m.toNat 0 3 la.toNat := ⟨_, rfl⟩
  have e : Instr.encode (Instr.dfma la m vb va vd) = wd := hw.symm ▸ rfl
  refine four e (hw ▸ wv_lt ok) (hw ▸ wv_odd ..) ?_
  have m1 : part wd 1 6 = 58 := hw ▸ wv_op ok
  have m2 : part wd 25 3 = 3 := hw ▸ wv_fn ok
  have e0 : at_ wd 28 4 = la := at_eq (hw ▸ wv_la ok)
  have e1 : at_ wd 19 3 = m := at_eq (hw ▸ wv_m ok)
  have e2 : at_ wd 15 4 = vb := at_eq (hw ▸ wv_vb ok)
  have e3 : at_ wd 11 4 = va := at_eq (hw ▸ wv_va ok)
  have e4 : at_ wd 7 4 = vd := at_eq (hw ▸ wv_vd ok)
  have z0 : part wd 22 3 = 0 := hw ▸ wv_ty ok
  unfold decodeRow32; rw [m1]
  show decXf64 wd = _; unfold decXf64; rw [m2]
  show zeroed (part wd 22 3) (Instr.dfma (at_ wd 28 4) (at_ wd 19 3) (at_ wd 15 4) (at_ wd 11 4) (at_ wd 7 4)) = _
  rw [z0]
  show (some (Instr.dfma (at_ wd 28 4) (at_ wd 19 3) (at_ wd 15 4) (at_ wd 11 4) (at_ wd 7 4)) : Option Instr) = _
  rw [e0, e1, e2, e3, e4]

theorem ddiv (la : BitVec 4) (m : BitVec 3) (vb va vd : BitVec 4) : Statement (Instr.ddiv la m vb va vd) := by
  have ok : wvFits 0x3a vd.toNat va.toNat vb.toNat m.toNat 0 4 la.toNat := ⟨by decide, vd.isLt, va.isLt, vb.isLt, m.isLt, by decide, by decide, la.isLt⟩
  obtain ⟨wd, hw⟩ : ∃ wd, wd = Machine.wvWord 0x3a vd.toNat va.toNat vb.toNat m.toNat 0 4 la.toNat := ⟨_, rfl⟩
  have e : Instr.encode (Instr.ddiv la m vb va vd) = wd := hw.symm ▸ rfl
  refine four e (hw ▸ wv_lt ok) (hw ▸ wv_odd ..) ?_
  have m1 : part wd 1 6 = 58 := hw ▸ wv_op ok
  have m2 : part wd 25 3 = 4 := hw ▸ wv_fn ok
  have e0 : at_ wd 28 4 = la := at_eq (hw ▸ wv_la ok)
  have e1 : at_ wd 19 3 = m := at_eq (hw ▸ wv_m ok)
  have e2 : at_ wd 15 4 = vb := at_eq (hw ▸ wv_vb ok)
  have e3 : at_ wd 11 4 = va := at_eq (hw ▸ wv_va ok)
  have e4 : at_ wd 7 4 = vd := at_eq (hw ▸ wv_vd ok)
  have z0 : part wd 22 3 = 0 := hw ▸ wv_ty ok
  unfold decodeRow32; rw [m1]
  show decXf64 wd = _; unfold decXf64; rw [m2]
  show zeroed (part wd 22 3) (Instr.ddiv (at_ wd 28 4) (at_ wd 19 3) (at_ wd 15 4) (at_ wd 11 4) (at_ wd 7 4)) = _
  rw [z0]
  show (some (Instr.ddiv (at_ wd 28 4) (at_ wd 19 3) (at_ wd 15 4) (at_ wd 11 4) (at_ wd 7 4)) : Option Instr) = _
  rw [e0, e1, e2, e3, e4]

theorem dsqrt (la : BitVec 4) (m : BitVec 3) (va vd : BitVec 4) : Statement (Instr.dsqrt la m va vd) := by
  have ok : wvFits 0x3a vd.toNat va.toNat 0 m.toNat 0 5 la.toNat := ⟨by decide, vd.isLt, va.isLt, by decide, m.isLt, by decide, by decide, la.isLt⟩
  obtain ⟨wd, hw⟩ : ∃ wd, wd = Machine.wvWord 0x3a vd.toNat va.toNat 0 m.toNat 0 5 la.toNat := ⟨_, rfl⟩
  have e : Instr.encode (Instr.dsqrt la m va vd) = wd := hw.symm ▸ rfl
  refine four e (hw ▸ wv_lt ok) (hw ▸ wv_odd ..) ?_
  have m1 : part wd 1 6 = 58 := hw ▸ wv_op ok
  have m2 : part wd 25 3 = 5 := hw ▸ wv_fn ok
  have e0 : at_ wd 28 4 = la := at_eq (hw ▸ wv_la ok)
  have e1 : at_ wd 19 3 = m := at_eq (hw ▸ wv_m ok)
  have e2 : at_ wd 11 4 = va := at_eq (hw ▸ wv_va ok)
  have e3 : at_ wd 7 4 = vd := at_eq (hw ▸ wv_vd ok)
  have z0 : part wd 15 4 = 0 := hw ▸ wv_vb ok
  have z1 : part wd 22 3 = 0 := hw ▸ wv_ty ok
  unfold decodeRow32; rw [m1]
  show decXf64 wd = _; unfold decXf64; rw [m2]
  show zeroed (part wd 15 4 + part wd 22 3) (Instr.dsqrt (at_ wd 28 4) (at_ wd 19 3) (at_ wd 11 4) (at_ wd 7 4)) = _
  rw [z0, z1]
  show (some (Instr.dsqrt (at_ wd 28 4) (at_ wd 19 3) (at_ wd 11 4) (at_ wd 7 4)) : Option Instr) = _
  rw [e0, e1, e2, e3]

theorem dcvt (la : BitVec 4) (ty m : BitVec 3) (vb va vd : BitVec 4) : Statement (Instr.dcvt la ty m vb va vd) := by
  have ok : wvFits 0x3a vd.toNat va.toNat vb.toNat m.toNat ty.toNat 6 la.toNat := ⟨by decide, vd.isLt, va.isLt, vb.isLt, m.isLt, ty.isLt, by decide, la.isLt⟩
  obtain ⟨wd, hw⟩ : ∃ wd, wd = Machine.wvWord 0x3a vd.toNat va.toNat vb.toNat m.toNat ty.toNat 6 la.toNat := ⟨_, rfl⟩
  have e : Instr.encode (Instr.dcvt la ty m vb va vd) = wd := hw.symm ▸ rfl
  refine four e (hw ▸ wv_lt ok) (hw ▸ wv_odd ..) ?_
  have m1 : part wd 1 6 = 58 := hw ▸ wv_op ok
  have m2 : part wd 25 3 = 6 := hw ▸ wv_fn ok
  have e0 : at_ wd 28 4 = la := at_eq (hw ▸ wv_la ok)
  have e1 : at_ wd 22 3 = ty := at_eq (hw ▸ wv_ty ok)
  have e2 : at_ wd 19 3 = m := at_eq (hw ▸ wv_m ok)
  have e3 : at_ wd 15 4 = vb := at_eq (hw ▸ wv_vb ok)
  have e4 : at_ wd 11 4 = va := at_eq (hw ▸ wv_va ok)
  have e5 : at_ wd 7 4 = vd := at_eq (hw ▸ wv_vd ok)
  unfold decodeRow32; rw [m1]
  show decXf64 wd = _; unfold decXf64; rw [m2]
  show (some (Instr.dcvt (at_ wd 28 4) (at_ wd 22 3) (at_ wd 19 3) (at_ wd 15 4) (at_ wd 11 4) (at_ wd 7 4)) : Option Instr) = _
  rw [e0, e1, e2, e3, e4, e5]

theorem dmin (la : BitVec 4) (m : BitVec 3) (vb va vd : BitVec 4) : Statement (Instr.dmin la m vb va vd) := by
  have ok : wvFits 0x3a vd.toNat va.toNat vb.toNat m.toNat 0 7 la.toNat := ⟨by decide, vd.isLt, va.isLt, vb.isLt, m.isLt, by decide, by decide, la.isLt⟩
  obtain ⟨wd, hw⟩ : ∃ wd, wd = Machine.wvWord 0x3a vd.toNat va.toNat vb.toNat m.toNat 0 7 la.toNat := ⟨_, rfl⟩
  have e : Instr.encode (Instr.dmin la m vb va vd) = wd := hw.symm ▸ rfl
  refine four e (hw ▸ wv_lt ok) (hw ▸ wv_odd ..) ?_
  have m1 : part wd 1 6 = 58 := hw ▸ wv_op ok
  have m2 : part wd 25 3 = 7 := hw ▸ wv_fn ok
  have e0 : at_ wd 28 4 = la := at_eq (hw ▸ wv_la ok)
  have e1 : at_ wd 19 3 = m := at_eq (hw ▸ wv_m ok)
  have e2 : at_ wd 15 4 = vb := at_eq (hw ▸ wv_vb ok)
  have e3 : at_ wd 11 4 = va := at_eq (hw ▸ wv_va ok)
  have e4 : at_ wd 7 4 = vd := at_eq (hw ▸ wv_vd ok)
  have z0 : part wd 22 3 = 0 := hw ▸ wv_ty ok
  unfold decodeRow32; rw [m1]
  show decXf64 wd = _; unfold decXf64; rw [m2]
  show zeroed (part wd 22 3) (Instr.dmin (at_ wd 28 4) (at_ wd 19 3) (at_ wd 15 4) (at_ wd 11 4) (at_ wd 7 4)) = _
  rw [z0]
  show (some (Instr.dmin (at_ wd 28 4) (at_ wd 19 3) (at_ wd 15 4) (at_ wd 11 4) (at_ wd 7 4)) : Option Instr) = _
  rw [e0, e1, e2, e3, e4]

theorem verf (la : BitVec 4) (ty m : BitVec 3) (va vd : BitVec 4) : Statement (Instr.verf la ty m va vd) := by
  have ok : wvFits 0x3b vd.toNat va.toNat 0 m.toNat ty.toNat 0 la.toNat := ⟨by decide, vd.isLt, va.isLt, by decide, m.isLt, ty.isLt, by decide, la.isLt⟩
  obtain ⟨wd, hw⟩ : ∃ wd, wd = Machine.wvWord 0x3b vd.toNat va.toNat 0 m.toNat ty.toNat 0 la.toNat := ⟨_, rfl⟩
  have e : Instr.encode (Instr.verf la ty m va vd) = wd := hw.symm ▸ rfl
  refine four e (hw ▸ wv_lt ok) (hw ▸ wv_odd ..) ?_
  have m1 : part wd 1 6 = 59 := hw ▸ wv_op ok
  have m2 : part wd 25 3 = 0 := hw ▸ wv_fn ok
  have e0 : at_ wd 28 4 = la := at_eq (hw ▸ wv_la ok)
  have e1 : at_ wd 22 3 = ty := at_eq (hw ▸ wv_ty ok)
  have e2 : at_ wd 19 3 = m := at_eq (hw ▸ wv_m ok)
  have e3 : at_ wd 11 4 = va := at_eq (hw ▸ wv_va ok)
  have e4 : at_ wd 7 4 = vd := at_eq (hw ▸ wv_vd ok)
  have z0 : part wd 15 4 = 0 := hw ▸ wv_vb ok
  unfold decodeRow32; rw [m1]
  show decXsf wd = _; unfold decXsf; rw [m2]
  show zeroed (part wd 15 4) (Instr.verf (at_ wd 28 4) (at_ wd 22 3) (at_ wd 19 3) (at_ wd 11 4) (at_ wd 7 4)) = _
  rw [z0]
  show (some (Instr.verf (at_ wd 28 4) (at_ wd 22 3) (at_ wd 19 3) (at_ wd 11 4) (at_ wd 7 4)) : Option Instr) = _
  rw [e0, e1, e2, e3, e4]

theorem vlgam (la : BitVec 4) (ty m : BitVec 3) (va vd : BitVec 4) : Statement (Instr.vlgam la ty m va vd) := by
  have ok : wvFits 0x3b vd.toNat va.toNat 0 m.toNat ty.toNat 1 la.toNat := ⟨by decide, vd.isLt, va.isLt, by decide, m.isLt, ty.isLt, by decide, la.isLt⟩
  obtain ⟨wd, hw⟩ : ∃ wd, wd = Machine.wvWord 0x3b vd.toNat va.toNat 0 m.toNat ty.toNat 1 la.toNat := ⟨_, rfl⟩
  have e : Instr.encode (Instr.vlgam la ty m va vd) = wd := hw.symm ▸ rfl
  refine four e (hw ▸ wv_lt ok) (hw ▸ wv_odd ..) ?_
  have m1 : part wd 1 6 = 59 := hw ▸ wv_op ok
  have m2 : part wd 25 3 = 1 := hw ▸ wv_fn ok
  have e0 : at_ wd 28 4 = la := at_eq (hw ▸ wv_la ok)
  have e1 : at_ wd 22 3 = ty := at_eq (hw ▸ wv_ty ok)
  have e2 : at_ wd 19 3 = m := at_eq (hw ▸ wv_m ok)
  have e3 : at_ wd 11 4 = va := at_eq (hw ▸ wv_va ok)
  have e4 : at_ wd 7 4 = vd := at_eq (hw ▸ wv_vd ok)
  have z0 : part wd 15 4 = 0 := hw ▸ wv_vb ok
  unfold decodeRow32; rw [m1]
  show decXsf wd = _; unfold decXsf; rw [m2]
  show zeroed (part wd 15 4) (Instr.vlgam (at_ wd 28 4) (at_ wd 22 3) (at_ wd 19 3) (at_ wd 11 4) (at_ wd 7 4)) = _
  rw [z0]
  show (some (Instr.vlgam (at_ wd 28 4) (at_ wd 22 3) (at_ wd 19 3) (at_ wd 11 4) (at_ wd 7 4)) : Option Instr) = _
  rw [e0, e1, e2, e3, e4]

theorem vpow (la : BitVec 4) (ty m : BitVec 3) (vb va vd : BitVec 4) : Statement (Instr.vpow la ty m vb va vd) := by
  have ok : wvFits 0x3b vd.toNat va.toNat vb.toNat m.toNat ty.toNat 2 la.toNat := ⟨by decide, vd.isLt, va.isLt, vb.isLt, m.isLt, ty.isLt, by decide, la.isLt⟩
  obtain ⟨wd, hw⟩ : ∃ wd, wd = Machine.wvWord 0x3b vd.toNat va.toNat vb.toNat m.toNat ty.toNat 2 la.toNat := ⟨_, rfl⟩
  have e : Instr.encode (Instr.vpow la ty m vb va vd) = wd := hw.symm ▸ rfl
  refine four e (hw ▸ wv_lt ok) (hw ▸ wv_odd ..) ?_
  have m1 : part wd 1 6 = 59 := hw ▸ wv_op ok
  have m2 : part wd 25 3 = 2 := hw ▸ wv_fn ok
  have e0 : at_ wd 28 4 = la := at_eq (hw ▸ wv_la ok)
  have e1 : at_ wd 22 3 = ty := at_eq (hw ▸ wv_ty ok)
  have e2 : at_ wd 19 3 = m := at_eq (hw ▸ wv_m ok)
  have e3 : at_ wd 15 4 = vb := at_eq (hw ▸ wv_vb ok)
  have e4 : at_ wd 11 4 = va := at_eq (hw ▸ wv_va ok)
  have e5 : at_ wd 7 4 = vd := at_eq (hw ▸ wv_vd ok)
  unfold decodeRow32; rw [m1]
  show decXsf wd = _; unfold decXsf; rw [m2]
  show (some (Instr.vpow (at_ wd 28 4) (at_ wd 22 3) (at_ wd 19 3) (at_ wd 15 4) (at_ wd 11 4) (at_ wd 7 4)) : Option Instr) = _
  rw [e0, e1, e2, e3, e4, e5]

theorem vatn2 (la : BitVec 4) (ty m : BitVec 3) (vb va vd : BitVec 4) : Statement (Instr.vatn2 la ty m vb va vd) := by
  have ok : wvFits 0x3b vd.toNat va.toNat vb.toNat m.toNat ty.toNat 3 la.toNat := ⟨by decide, vd.isLt, va.isLt, vb.isLt, m.isLt, ty.isLt, by decide, la.isLt⟩
  obtain ⟨wd, hw⟩ : ∃ wd, wd = Machine.wvWord 0x3b vd.toNat va.toNat vb.toNat m.toNat ty.toNat 3 la.toNat := ⟨_, rfl⟩
  have e : Instr.encode (Instr.vatn2 la ty m vb va vd) = wd := hw.symm ▸ rfl
  refine four e (hw ▸ wv_lt ok) (hw ▸ wv_odd ..) ?_
  have m1 : part wd 1 6 = 59 := hw ▸ wv_op ok
  have m2 : part wd 25 3 = 3 := hw ▸ wv_fn ok
  have e0 : at_ wd 28 4 = la := at_eq (hw ▸ wv_la ok)
  have e1 : at_ wd 22 3 = ty := at_eq (hw ▸ wv_ty ok)
  have e2 : at_ wd 19 3 = m := at_eq (hw ▸ wv_m ok)
  have e3 : at_ wd 15 4 = vb := at_eq (hw ▸ wv_vb ok)
  have e4 : at_ wd 11 4 = va := at_eq (hw ▸ wv_va ok)
  have e5 : at_ wd 7 4 = vd := at_eq (hw ▸ wv_vd ok)
  unfold decodeRow32; rw [m1]
  show decXsf wd = _; unfold decXsf; rw [m2]
  show (some (Instr.vatn2 (at_ wd 28 4) (at_ wd 22 3) (at_ wd 19 3) (at_ wd 15 4) (at_ wd 11 4) (at_ wd 7 4)) : Option Instr) = _
  rw [e0, e1, e2, e3, e4, e5]

theorem eret : Statement (Instr.eret) := by
  have ok : weFits 0x13 0 0 0 3 := ⟨by decide, by decide, by decide, by decide, by decide⟩
  obtain ⟨wd, hw⟩ : ∃ wd, wd = Machine.weWord 0x13 0 0 0 3 := ⟨_, rfl⟩
  have e : Instr.encode (Instr.eret) = wd := hw.symm ▸ rfl
  refine four e (hw ▸ we_lt ok) (hw ▸ we_odd ..) ?_
  have m1 : part wd 1 6 = 19 := hw ▸ we_op ok
  have m2 : part wd 28 4 = 3 := hw ▸ we_fn ok
  have z0 : part wd 7 21 = 0 := by unfold Machine.weWord at hw; unfold part; omega
  unfold decodeRow32; rw [m1]
  show decSys wd = _; unfold decSys; rw [m2]
  show zeroed (part wd 7 21) (Instr.eret) = _
  rw [z0]
  show (some (Instr.eret) : Option Instr) = _
  rfl

theorem synci : Statement (Instr.synci) := by
  have ok : weFits 0x13 0 0 0 6 := ⟨by decide, by decide, by decide, by decide, by decide⟩
  obtain ⟨wd, hw⟩ : ∃ wd, wd = Machine.weWord 0x13 0 0 0 6 := ⟨_, rfl⟩
  have e : Instr.encode (Instr.synci) = wd := hw.symm ▸ rfl
  refine four e (hw ▸ we_lt ok) (hw ▸ we_odd ..) ?_
  have m1 : part wd 1 6 = 19 := hw ▸ we_op ok
  have m2 : part wd 28 4 = 6 := hw ▸ we_fn ok
  have z0 : part wd 7 21 = 0 := by unfold Machine.weWord at hw; unfold part; omega
  unfold decodeRow32; rw [m1]
  show decSys wd = _; unfold decSys; rw [m2]
  show zeroed (part wd 7 21) (Instr.synci) = _
  rw [z0]
  show (some (Instr.synci) : Option Instr) = _
  rfl

theorem halt : Statement (Instr.halt) := by
  have ok : weFits 0x13 0 0 0 9 := ⟨by decide, by decide, by decide, by decide, by decide⟩
  obtain ⟨wd, hw⟩ : ∃ wd, wd = Machine.weWord 0x13 0 0 0 9 := ⟨_, rfl⟩
  have e : Instr.encode (Instr.halt) = wd := hw.symm ▸ rfl
  refine four e (hw ▸ we_lt ok) (hw ▸ we_odd ..) ?_
  have m1 : part wd 1 6 = 19 := hw ▸ we_op ok
  have m2 : part wd 28 4 = 9 := hw ▸ we_fn ok
  have z0 : part wd 7 21 = 0 := by unfold Machine.weWord at hw; unfold part; omega
  unfold decodeRow32; rw [m1]
  show decSys wd = _; unfold decSys; rw [m2]
  show zeroed (part wd 7 21) (Instr.halt) = _
  rw [z0]
  show (some (Instr.halt) : Option Instr) = _
  rfl

theorem cRet : Statement (Instr.cRet) := by
  have ok : hsFits 0x12 0 0 := ⟨by decide, by decide, by decide⟩
  obtain ⟨wd, hw⟩ : ∃ wd, wd = Machine.hsWord 0x12 0 0 := ⟨_, rfl⟩
  have e : Instr.encode (Instr.cRet) = wd := hw.symm ▸ rfl
  refine two e (hw ▸ hs_lt ok) (hw ▸ hs_odd ..) ?_
  have m1 : part wd 1 5 = 18 := hw ▸ hs_op ok
  have z0 : part wd 6 10 = 0 := by unfold Machine.hsWord at hw; unfold part; omega
  unfold decodeRow16; rw [m1]
  show zeroed (part wd 6 10) (Instr.cRet) = _
  rw [z0]
  show (some (Instr.cRet) : Option Instr) = _
  rfl

theorem cNop : Statement (Instr.cNop) := by
  have ok : hsFits 0x13 0 0 := ⟨by decide, by decide, by decide⟩
  obtain ⟨wd, hw⟩ : ∃ wd, wd = Machine.hsWord 0x13 0 0 := ⟨_, rfl⟩
  have e : Instr.encode (Instr.cNop) = wd := hw.symm ▸ rfl
  refine two e (hw ▸ hs_lt ok) (hw ▸ hs_odd ..) ?_
  have m1 : part wd 1 5 = 19 := hw ▸ hs_op ok
  have z0 : part wd 6 10 = 0 := by unfold Machine.hsWord at hw; unfold part; omega
  unfold decodeRow16; rw [m1]
  show zeroed (part wd 6 10) (Instr.cNop) = _
  rw [z0]
  show (some (Instr.cNop) : Option Instr) = _
  rfl

theorem exit_ : Statement (Instr.exit_) := by
  have ok : wrFits 0x28 0 0 0 2 0 := ⟨by decide, by decide, by decide, by decide, by decide, by decide⟩
  obtain ⟨wd, hw⟩ : ∃ wd, wd = Machine.wrWord 0x28 0 0 0 2 0 := ⟨_, rfl⟩
  have e : Instr.encode (Instr.exit_) = wd := hw.symm ▸ rfl
  refine four e (hw ▸ wr_lt ok) (hw ▸ wr_odd ..) ?_
  have m1 : part wd 1 6 = 40 := hw ▸ wr_op ok
  have m2 : part wd 22 6 = 2 := hw ▸ wr_fn ok
  have z0 : part wd 7 15 = 0 := by unfold Machine.wrWord at hw; unfold part; omega
  have z1 : part wd 28 4 = 0 := hw ▸ wr_xf ok
  unfold decodeRow32; rw [m1]
  show decTask wd = _; unfold decTask; rw [m2]
  show zeroed (part wd 7 15 + part wd 28 4) (Instr.exit_) = _
  rw [z0, z1]
  show (some (Instr.exit_) : Option Instr) = _
  rfl

theorem detach : Statement (Instr.detach) := by
  have ok : wrFits 0x29 0 0 0 2 0 := ⟨by decide, by decide, by decide, by decide, by decide, by decide⟩
  obtain ⟨wd, hw⟩ : ∃ wd, wd = Machine.wrWord 0x29 0 0 0 2 0 := ⟨_, rfl⟩
  have e : Instr.encode (Instr.detach) = wd := hw.symm ▸ rfl
  refine four e (hw ▸ wr_lt ok) (hw ▸ wr_odd ..) ?_
  have m1 : part wd 1 6 = 41 := hw ▸ wr_op ok
  have m2 : part wd 22 6 = 2 := hw ▸ wr_fn ok
  have z0 : part wd 7 15 = 0 := by unfold Machine.wrWord at hw; unfold part; omega
  have z1 : part wd 28 4 = 0 := hw ▸ wr_xf ok
  unfold decodeRow32; rw [m1]
  show decFgrp wd = _; unfold decFgrp; rw [m2]
  show zeroed (part wd 7 15 + part wd 28 4) (Instr.detach) = _
  rw [z0, z1]
  show (some (Instr.detach) : Option Instr) = _
  rfl

theorem rend : Statement (Instr.rend) := by
  have ok : wrFits 0x2b 0 0 0 2 0 := ⟨by decide, by decide, by decide, by decide, by decide, by decide⟩
  obtain ⟨wd, hw⟩ : ∃ wd, wd = Machine.wrWord 0x2b 0 0 0 2 0 := ⟨_, rfl⟩
  have e : Instr.encode (Instr.rend) = wd := hw.symm ▸ rfl
  refine four e (hw ▸ wr_lt ok) (hw ▸ wr_odd ..) ?_
  have m1 : part wd 1 6 = 43 := hw ▸ wr_op ok
  have m2 : part wd 22 6 = 2 := hw ▸ wr_fn ok
  have z0 : part wd 7 15 = 0 := by unfold Machine.wrWord at hw; unfold part; omega
  have z1 : part wd 28 4 = 0 := hw ▸ wr_xf ok
  unfold decodeRow32; rw [m1]
  show decEvent wd = _; unfold decEvent; rw [m2]
  show zeroed (part wd 7 15 + part wd 28 4) (Instr.rend) = _
  rw [z0, z1]
  show (some (Instr.rend) : Option Instr) = _
  rfl

theorem fencer : Statement (Instr.fencer) := by
  have ok : wcFits 0x2e 0 0 0 0 6 0 := ⟨by decide, by decide, by decide, by decide, by decide, by decide, by decide⟩
  obtain ⟨wd, hw⟩ : ∃ wd, wd = Machine.wcWord 0x2e 0 0 0 0 6 0 := ⟨_, rfl⟩
  have e : Instr.encode (Instr.fencer) = wd := hw.symm ▸ rfl
  refine four e (hw ▸ wc_lt ok) (hw ▸ wc_odd ..) ?_
  have m1 : part wd 1 6 = 46 := hw ▸ wc_op ok
  have m2 : part wd 24 4 = 6 := hw ▸ wc_fn ok
  have z0 : part wd 7 17 = 0 := by unfold Machine.wcWord at hw; unfold part; omega
  have z1 : part wd 28 4 = 0 := hw ▸ wc_la ok
  unfold decodeRow32; rw [m1]
  show decSync wd = _; unfold decSync; rw [m2]
  show zeroed (part wd 7 17 + part wd 28 4) (Instr.fencer) = _
  rw [z0, z1]
  show (some (Instr.fencer) : Option Instr) = _
  rfl

theorem illegalInstruction : Statement (Instr.illegalInstruction) := no_word rfl

theorem extensionMigration (xf64 : Bool) : Statement (Instr.extensionMigration xf64) := no_word rfl

theorem loadReply (tid : Word) (dest : Reg) (value : Word) (level hops queue : Nat) : Statement (Instr.loadReply tid dest value level hops queue) := no_word rfl

theorem storeAck (tid : Word) (part : Nat) (refusal : Option Record) (level : Nat) : Statement (Instr.storeAck tid part refusal level) := no_word rfl

theorem homeRequest (q : HomeReq) : Statement (Instr.homeRequest q) := no_word rfl

theorem waitEntryWake (tid : Word) (pa : Nat) (value : Word) : Statement (Instr.waitEntryWake tid pa value) := no_word rfl

theorem waitatTimeout (tid : Word) (pa : Nat) : Statement (Instr.waitatTimeout tid pa) := no_word rfl

theorem systemAtomicRequest (who : Asker) (op : AgentOp) (pa : Nat) (operand : Word) (reply : Bool) : Statement (Instr.systemAtomicRequest who op pa operand reply) := no_word rfl

theorem fabricRequestTimeout (q : HomeReq) : Statement (Instr.fabricRequestTimeout q) := no_word rfl

theorem fifoPush (o : Origin) (bank : Nat) (value : Word) : Statement (Instr.fifoPush o bank value) := no_word rfl

theorem fifoPop (tid : Word) (bank : Nat) (dest : Reg) : Statement (Instr.fifoPop tid bank dest) := no_word rfl

theorem fifoCount (tid : Word) (bank : Nat) (dest : Reg) : Statement (Instr.fifoCount tid bank dest) := no_word rfl

theorem fifoHeldPushDone (bank : Nat) : Statement (Instr.fifoHeldPushDone bank) := no_word rfl

theorem fifoHeldPopDone (bank : Nat) : Statement (Instr.fifoHeldPopDone bank) := no_word rfl

theorem bankSwitchDone (bank : Nat) : Statement (Instr.bankSwitchDone bank) := no_word rfl

theorem subscriptionUpdate (sub : Nat) (cells : List Cell) (sent : Before) (release : Option Before) :
    Statement (Instr.subscriptionUpdate sub cells sent release) := no_word rfl

theorem objectionArrival (addr : Word) (claimer : BitVec 26) (cause : Byte) (objector : Objector) (tag : Tag) (late : Option (Nat × Nat)) : Statement (Instr.objectionArrival addr claimer cause objector tag late) := no_word rfl

theorem claimDecision (news : ClaimNews) : Statement (Instr.claimDecision news) := no_word rfl

theorem claimRecordExpiry (part : Nat) (actor : Word) (addr : Word) (claimer : BitVec 26) : Statement (Instr.claimRecordExpiry part actor addr claimer) := no_word rfl

theorem eventArrival (e : Event) : Statement (Instr.eventArrival e) := no_word rfl

theorem eventForward (e : Event) : Statement (Instr.eventForward e) := no_word rfl

theorem eventSafe (part : Nat) (actor : Word) : Statement (Instr.eventSafe part actor) := no_word rfl

theorem dispatchPick (ctx : Nat) : Statement (Instr.dispatchPick ctx) := no_word rfl

theorem switchOut (ctx : Nat) : Statement (Instr.switchOut ctx) := no_word rfl

theorem actorMove (part : Nat) (actor : Word) (core : Nat) : Statement (Instr.actorMove part actor core) := no_word rfl

theorem stealRequest (ctx : Nat) : Statement (Instr.stealRequest ctx) := no_word rfl

theorem stealAnswer (q : StealReq) : Statement (Instr.stealAnswer q) := no_word rfl

theorem priorityRaise (tid : Word) (raise : Raise) : Statement (Instr.priorityRaise tid raise) := no_word rfl

theorem phintExpiry (core : Nat) (actor : Word) : Statement (Instr.phintExpiry core actor) := no_word rfl

theorem messageArrival (m : Message) : Statement (Instr.messageArrival m) := no_word rfl

theorem messageForward (m : Message) : Statement (Instr.messageForward m) := no_word rfl

theorem messageRefused (m : Message) : Statement (Instr.messageRefused m) := no_word rfl

theorem directoryRequest (who : Asker) (dest : Reg) (r : DirRequest) : Statement (Instr.directoryRequest who dest r) := no_word rfl

theorem stubExpiry (name : BitVec 32) : Statement (Instr.stubExpiry name) := no_word rfl

theorem waitiWake (ctx : Nat) : Statement (Instr.waitiWake ctx) := no_word rfl

theorem waitiTimeout (ctx : Nat) : Statement (Instr.waitiTimeout ctx) := no_word rfl

theorem joinComplete (ctx : Nat) : Statement (Instr.joinComplete ctx) := no_word rfl

theorem safewComplete (ctx : Nat) : Statement (Instr.safewComplete ctx) := no_word rfl

theorem leadTimeout (ctx : Nat) : Statement (Instr.leadTimeout ctx) := no_word rfl

theorem followTimeout (ctx : Nat) : Statement (Instr.followTimeout ctx) := no_word rfl

theorem twaitLimit (ctx : Nat) : Statement (Instr.twaitLimit ctx) := no_word rfl

theorem commandPortWrite (o : Origin) (engine : Nat) (cmd : Record) : Statement (Instr.commandPortWrite o engine cmd) := no_word rfl

theorem stagingStore (o : Origin) (engine : Nat) (offset : Nat) (bytes : List Byte) : Statement (Instr.stagingStore o engine offset bytes) := no_word rfl

theorem stagingCommit (o : Origin) (engine : Nat) (value : Word) : Statement (Instr.stagingCommit o engine value) := no_word rfl

theorem pushHeldAccept (core : Nat) (engine : Nat) : Statement (Instr.pushHeldAccept core engine) := no_word rfl

theorem programRecordRead (program : Nat) : Statement (Instr.programRecordRead program) := no_word rfl

theorem commandComplete (cmd : Nat) : Statement (Instr.commandComplete cmd) := no_word rfl

theorem carryDelivery (chain position : Nat) : Statement (Instr.carryDelivery chain position) := no_word rfl

theorem collectivePartial (p : Partial) : Statement (Instr.collectivePartial p) := no_word rfl

theorem mxFill (cmd : Nat) : Statement (Instr.mxFill cmd) := no_word rfl

theorem mxMma (cmd : Nat) : Statement (Instr.mxMma cmd) := no_word rfl

theorem mxJoint (cmd : Nat) : Statement (Instr.mxJoint cmd) := no_word rfl

theorem mxOut (cmd : Nat) : Statement (Instr.mxOut cmd) := no_word rfl

theorem mxZero (cmd : Nat) : Statement (Instr.mxZero cmd) := no_word rfl

theorem mxRdacc (cmd : Nat) : Statement (Instr.mxRdacc cmd) := no_word rfl

theorem scLin (cmd : Nat) : Statement (Instr.scLin cmd) := no_word rfl

theorem scPfx (cmd : Nat) : Statement (Instr.scPfx cmd) := no_word rfl

theorem scSeed (cmd : Nat) : Statement (Instr.scSeed cmd) := no_word rfl

theorem scSeg (cmd : Nat) : Statement (Instr.scSeg cmd) := no_word rfl

theorem cpCopy (cmd : Nat) : Statement (Instr.cpCopy cmd) := no_word rfl

theorem cpGather (cmd : Nat) : Statement (Instr.cpGather cmd) := no_word rfl

theorem cpScatter (cmd : Nat) : Statement (Instr.cpScatter cmd) := no_word rfl

theorem cpFill (cmd : Nat) : Statement (Instr.cpFill cmd) := no_word rfl

theorem cpCadd (cmd : Nat) : Statement (Instr.cpCadd cmd) := no_word rfl

theorem cpWait (cmd : Nat) : Statement (Instr.cpWait cmd) := no_word rfl

theorem clRss (cmd : Nat) : Statement (Instr.clRss cmd) := no_word rfl

theorem clAgs (cmd : Nat) : Statement (Instr.clAgs cmd) := no_word rfl

theorem clSend (cmd : Nat) : Statement (Instr.clSend cmd) := no_word rfl

theorem clRecva (cmd : Nat) : Statement (Instr.clRecva cmd) := no_word rfl

theorem clRate (cmd : Nat) : Statement (Instr.clRate cmd) := no_word rfl

theorem ctagsClear (core : Nat) (mask : Word) : Statement (Instr.ctagsClear core mask) := no_word rfl

theorem qgrpWrite (ctx : Nat) (value : Word) : Statement (Instr.qgrpWrite ctx value) := no_word rfl

theorem boundWrite (ctx : Nat) (value : Word) : Statement (Instr.boundWrite ctx value) := no_word rfl

theorem sdownGo (part : Nat) (value : Word) : Statement (Instr.sdownGo part value) := no_word rfl

theorem shootdownRequest (fromDevice : Nat) (frame : Nat) (size : BitVec 2) (part : Nat) : Statement (Instr.shootdownRequest fromDevice frame size part) := no_word rfl

theorem shootdownAck (part : Nat) (device : Nat) : Statement (Instr.shootdownAck part device) := no_word rfl

theorem shootdownTimeout (part : Nat) : Statement (Instr.shootdownTimeout part) := no_word rfl

theorem mcmdRead (ctx : Nat) (offset : BitVec 24) : Statement (Instr.mcmdRead ctx offset) := no_word rfl

theorem mcmdWrite (ctx : Nat) (offset : BitVec 24) : Statement (Instr.mcmdWrite ctx offset) := no_word rfl

theorem fwwakeWrite (complex : Nat) (core : BitVec 2) : Statement (Instr.fwwakeWrite complex core) := no_word rfl

theorem launchConfigWrite (part : Nat) (value : Record) : Statement (Instr.launchConfigWrite part value) := no_word rfl

theorem queueEnable (q : Nat) : Statement (Instr.queueEnable q) := no_word rfl

theorem queueDisable (q : Nat) : Statement (Instr.queueDisable q) := no_word rfl

theorem queueClear (q : Nat) : Statement (Instr.queueClear q) := no_word rfl

theorem prodWrite (q : Nat) (prod : Word) : Statement (Instr.prodWrite q prod) := no_word rfl

theorem registerWrite (target : RegTarget) (value : Word) : Statement (Instr.registerWrite target value) := no_word rfl

theorem faultQueueHeadWrite (part : Nat) (head : Word) : Statement (Instr.faultQueueHeadWrite part head) := no_word rfl

theorem hostApertureAccess (part : Nat) (va : Word) (data : Option Word) : Statement (Instr.hostApertureAccess part va data) := no_word rfl

theorem packetIssue (q : Nat) : Statement (Instr.packetIssue q) := no_word rfl

theorem phaseClean (q : Nat) (phase : Byte) : Statement (Instr.phaseClean q phase) := no_word rfl

theorem gangPlace (q : Nat) : Statement (Instr.gangPlace q) := no_word rfl

theorem gangAge (q : Nat) : Statement (Instr.gangAge q) := no_word rfl

theorem clockSyncRead : Statement (Instr.clockSyncRead) := no_word rfl

theorem clockSyncReply (t2 : Nat) : Statement (Instr.clockSyncReply t2) := no_word rfl

theorem clockSyncStale : Statement (Instr.clockSyncStale) := no_word rfl

theorem flitReceive (link : Nat) (f : Flit) : Statement (Instr.flitReceive link f) := no_word rfl

theorem nakReceive (link : Nat) (ack : BitVec 16) : Statement (Instr.nakReceive link ack) := no_word rfl

theorem nakRepeat (link : Nat) : Statement (Instr.nakRepeat link) := no_word rfl

theorem linkRetrainDone (link : Nat) (ok : Bool) : Statement (Instr.linkRetrainDone link ok) := no_word rfl

theorem stationDown (station : Nat) : Statement (Instr.stationDown station) := no_word rfl

theorem fabricAtomicRefused (device : Nat) : Statement (Instr.fabricAtomicRefused device) := no_word rfl

theorem mailboxUnknownKind (record : Record) : Statement (Instr.mailboxUnknownKind record) := no_word rfl

theorem watchdogExpiry : Statement (Instr.watchdogExpiry) := no_word rfl

theorem mctpControl (message : List Byte) : Statement (Instr.mctpControl message) := no_word rfl

theorem partCreate (part : Nat) (clusters : List Nat) (base limit : BitVec 23) : Statement (Instr.partCreate part clusters base limit) := no_word rfl

theorem partDestroy (part : Nat) : Statement (Instr.partDestroy part) := no_word rfl

theorem accessWrite (target : AccessTarget) (part cls : Nat) (entry : Word) : Statement (Instr.accessWrite target part cls entry) := no_word rfl

theorem stationMap (station device : Nat) (part : Option Nat) : Statement (Instr.stationMap station device part) := no_word rfl

theorem queueAssign (q part : Nat) (hshare fshare : Byte) : Statement (Instr.queueAssign q part hshare fshare) := no_word rfl

theorem teardown (part : Nat) : Statement (Instr.teardown part) := no_word rfl

theorem debugWrite (index : Nat) (actor : Option Word) (tid : Option Word) (ss : Bool) (bpa wpa : Word) : Statement (Instr.debugWrite index actor tid ss bpa wpa) := no_word rfl

theorem retire (part cluster : Nat) : Statement (Instr.retire part cluster) := no_word rfl

theorem counters : Statement (Instr.counters) := no_word rfl

theorem fwUpdate (image : Image) : Statement (Instr.fwUpdate image) := no_word rfl

theorem configWrite (image : Image) : Statement (Instr.configWrite image) := no_word rfl

theorem attest (nonce : BitVec 256) : Statement (Instr.attest nonce) := no_word rfl

theorem reset : Statement (Instr.reset) := no_word rfl

theorem coreRestart (complex : Nat) (core : BitVec 2) : Statement (Instr.coreRestart complex core) := no_word rfl

theorem memoryError (pa : Nat) (double : Bool) (site : ErrorSite) : Statement (Instr.memoryError pa double site) := no_word rfl

end Sys2Proof.Laws.RoundTrip
end

