-- ==== Sys2Proof/Laws/Vectors.lean ====
section
/-!
SUPPORT. What a vector instruction that computes in registers does, whichever its destination: the terms of Safety's computed.
-/

namespace Sys2Proof.Machine

/-- With one destination named, or none, withoutDests removes its old value alone. -/
theorem withoutDests_v (r : BitVec 4) (w : Window) :
    withoutDests ⟨[], [r], []⟩ w = { w with vs := w.vs.filter (fun e => e.1 != r.toNat) } := by
  simp [withoutDests, bne]

theorem withoutDests_m (r : BitVec 3) (h : r ≠ 0) (w : Window) :
    withoutDests ⟨[], [], [r]⟩ w = { w with ms := w.ms.filter (fun e => e.1 != r.toNat) } := by
  have h' : (r == 0) = false := by simpa using h
  simp only [withoutDests, bne, h', List.any_cons, List.any_nil, Bool.not_false, Bool.true_and, Bool.or_false,
    List.filter_true]

theorem withoutDests_m0 (w : Window) : withoutDests ⟨[], [], [0]⟩ w = w := by simp [withoutDests]

theorem withoutDests_x (r : Reg) (h : r ≠ 0) (w : Window) :
    withoutDests ⟨[r], [], []⟩ w = { w with xs := w.xs.filter (fun e => e.1 != r.toNat) } := by
  have h' : (r == 0) = false := by simpa using h
  simp only [withoutDests, bne, h', List.any_cons, List.any_nil, Bool.not_false, Bool.true_and, Bool.or_false,
    List.filter_true]

theorem withoutDests_x0 (w : Window) : withoutDests ⟨[0], [], []⟩ w = w := by simp [withoutDests]

theorem Ctx.writeV_windows (c : Ctx) (r : BitVec 4) (v : VWord) :
    (c.writeV r v).windows = c.windows.map (withoutDests ⟨[], [r], []⟩) := by
  simp [Ctx.writeV, withoutDests_v]

theorem Ctx.writeM_windows (c : Ctx) (r : BitVec 3) (v : MWord) :
    (c.writeM r v).windows = c.windows.map (withoutDests ⟨[], [], [r]⟩) := by
  by_cases h : r = 0
  · subst h
    have : (withoutDests ⟨[], [], [0]⟩ : Window → Window) = id := funext withoutDests_m0
    rw [this]; simp [Ctx.writeM]
  · unfold Ctx.writeM
    rw [if_neg h]
    exact congrArg (fun f => c.windows.map f) (funext (fun w => (withoutDests_m r h w).symm))

theorem Ctx.writeX_windows (c : Ctx) (r : Reg) (v : Word) :
    (c.writeX r v).windows = c.windows.map (withoutDests ⟨[r], [], []⟩) := by
  by_cases h : r = 0
  · subst h
    have : (withoutDests ⟨[0], [], []⟩ : Window → Window) = id := funext withoutDests_x0
    rw [this]; simp [Ctx.writeX]
  · unfold Ctx.writeX
    rw [if_neg h]
    exact congrArg (fun f => c.windows.map f) (funext (fun w => (withoutDests_x r h w).symm))

/-- Counting down the windows without the destinations: removing old values and counting down come to the same in either order. -/
theorem tickWindows_withoutDests (d : Dests) (ws : List Window) :
    tickWindows (ws.map (withoutDests d)) = (tickWindows ws).map (withoutDests d) := by
  induction ws with
  | nil => rfl
  | cons w ws ih =>
    unfold tickWindows at ih ⊢
    simp only [List.map_cons]
    by_cases h : w.left - 1 = 0
    · rw [List.filter_cons_of_neg (by simpa [withoutDests] using h), List.filter_cons_of_neg (by simpa using h)]
      exact ih
    · rw [List.filter_cons_of_pos (by simpa [withoutDests] using h), List.filter_cons_of_pos (by simpa using h), List.map_cons, ih]
      rfl

/-- A vector instruction that open windows admit, for a write that changes only the destinations and the windows as it must. -/
theorem State.vec_computed {s : State} {la : BitVec 4} {d : Dests} (h : s.admitsRing la d) (word : BitVec 32) (n : Num)
    (w : Ctx → Ctx)
    (hw : ∀ c : Ctx, w c = { c with x := (w c).x, v := (w c).v, m := (w c).m, windows := c.windows.map (withoutDests d) })
    (hx : ∀ (c : Ctx) r, r ∉ d.xs ∨ r = 0 → (w c).rawX r = c.rawX r) (hv : ∀ (c : Ctx) r, r ∉ d.vs → (w c).rawV r = c.rawV r)
    (hm : ∀ (c : Ctx) r, r ∉ d.ms ∨ r = 0 → (w c).rawM r = c.rawM r) :
    s.computed (s.vec la d word n w) la d n.stream n.flags := by
  unfold State.vec
  rw [State.ringGate_admitted h]
  have e := hw (s.cx.mergeFlags n.flags)
  have step : ∀ c : Ctx, c = { s.cx.mergeFlags n.flags with x := c.x, v := c.v, m := c.m, windows := c.windows } →
      (c.ringTake s.cx.pc word 0 3 0 none).retireLong s.cx la d = { s.cx.stepTo (s.nextPc 4) with
        x := c.x, v := c.v, m := c.m, windows := tickWindows c.windows ++ s.cx.capture la d,
        ring := (s.cx.ring ++ [(⟨s.cx.nextSeq, s.cx.pc, word, 0, 3, 0, 0, none⟩ : RingEntry)]).drop (s.cx.ring.length - 63),
        nextSeq := seqNext s.cx.nextSeq, fflags := s.cx.fflags ||| n.flags.toBits } := by
    intro c hc
    rw [hc]
    rfl
  have r := step (w (s.cx.mergeFlags n.flags)) (e.trans (congrArg (fun ws : List Window =>
    ({ s.cx.mergeFlags n.flags with
      x := (w (s.cx.mergeFlags n.flags)).x, v := (w (s.cx.mergeFlags n.flags)).v, m := (w (s.cx.mergeFlags n.flags)).m,
      windows := ws } : Ctx)) (congrArg Ctx.windows e).symm))
  refine ⟨rfl, ?_, ?_, ?_, ?_, ?_, ?_⟩
  · exact r.trans (congrArg (fun c : Ctx => { s.cx.stepTo (s.nextPc 4) with
      x := c.x, v := c.v, m := c.m, windows := c.windows, ring := c.ring, nextSeq := seqNext s.cx.nextSeq,
      fflags := s.cx.fflags ||| n.flags.toBits }) r).symm
  · exact ⟨_, congrArg Ctx.ring r, rfl, rfl, rfl⟩
  · rw [← tickWindows_withoutDests]
    refine (congrArg Ctx.windows r).trans ?_
    exact congrArg (fun ws => tickWindows ws ++ s.cx.capture la d) (congrArg Ctx.windows e)
  · intro r hr; exact hx _ r hr
  · intro r hr; exact hv _ r hr
  · intro r hr; exact hm _ r hr

/-- The vector instructions with one vector destination. -/
theorem State.vecV_computed {s : State} {la vd : BitVec 4} (h : s.admitsRing la ⟨[], [vd], []⟩) (word : BitVec 32) (n : Num) (v : VWord) :
    s.computed (s.vecV la vd word n v) la ⟨[], [vd], []⟩ n.stream n.flags ∧ (s.vecV la vd word n v).cx.rawV vd = v := by
  refine ⟨State.vec_computed h word n _ (fun c => ?_) (fun _ _ _ => rfl) (fun c r hr => ?_) (fun _ _ _ => rfl), ?_⟩
  · rw [← Ctx.writeV_windows c vd v]; rfl
  · exact Ctx.rawV_writeV_other c vd r v (by simpa using hr)
  · unfold State.vecV State.vec
    rw [State.ringGate_admitted h]
    exact Ctx.rawV_writeV_same _ vd v

/-- Those with one mask destination. -/
theorem State.vecM_computed {s : State} {la : BitVec 4} {vd : BitVec 3} (h : s.admitsRing la ⟨[], [], [vd]⟩) (word : BitVec 32) (n : Num)
    (v : MWord) :
    s.computed (s.vec la ⟨[], [], [vd]⟩ word n (fun c => c.writeM vd v)) la ⟨[], [], [vd]⟩ n.stream n.flags ∧
      (vd ≠ 0 → (s.vec la ⟨[], [], [vd]⟩ word n (fun c => c.writeM vd v)).cx.rawM vd = v) := by
  refine ⟨State.vec_computed h word n _ (fun c => ?_) (fun c r _ => ?_) (fun c r _ => ?_) (fun c r hr => ?_), fun h0 => ?_⟩
  · rw [← Ctx.writeM_windows c vd v]; unfold Ctx.writeM; split <;> rfl
  · unfold Ctx.writeM; split <;> rfl
  · unfold Ctx.writeM; split <;> rfl
  · exact Ctx.rawM_writeM_other c vd r v (by
      rcases hr with hr | hr
      · exact .inl (by simpa using hr)
      · by_cases h0 : vd = 0
        · exact .inr h0
        · exact .inl (by rw [hr]; exact Ne.symm h0))
  · unfold State.vec
    rw [State.ringGate_admitted h]
    exact Ctx.rawM_writeM_same _ vd v h0

/-- Those with one scalar destination. -/
theorem State.vecX_computed {s : State} {la : BitVec 4} {d : Reg} (h : s.admitsRing la ⟨[d], [], []⟩) (word : BitVec 32) (n : Num)
    (v : Word) :
    s.computed (s.vec la ⟨[d], [], []⟩ word n (fun c => c.writeX d v)) la ⟨[d], [], []⟩ n.stream n.flags ∧
      (d ≠ 0 → (s.vec la ⟨[d], [], []⟩ word n (fun c => c.writeX d v)).cx.rawX d = v) := by
  refine ⟨State.vec_computed h word n _ (fun c => ?_) (fun c r hr => ?_) (fun c r _ => ?_) (fun c r _ => ?_), fun h0 => ?_⟩
  · rw [← Ctx.writeX_windows c d v]; unfold Ctx.writeX; split <;> rfl
  · exact Ctx.rawX_writeX_other c d r v (by
      rcases hr with hr | hr
      · exact .inl (by simpa using hr)
      · by_cases h0 : d = 0
        · exact .inr h0
        · exact .inl (by rw [hr]; exact Ne.symm h0))
  · unfold Ctx.writeX; split <;> rfl
  · unfold Ctx.writeX; split <;> rfl
  · unfold State.vec
    rw [State.ringGate_admitted h]
    exact Ctx.rawX_writeX_same _ d v h0

end Sys2Proof.Machine
end

