-- ==== Sys2Proof/Tests/Slice0.lean ====
section
/-!
SUPPORT. The model's own tests: ill-formed terms, words written out from the encodings, results taken from the rules of spec/, and for
each statement states and operands that meet its hypotheses.
-/

namespace Sys2Proof.Tests

open Sys2Proof.Machine Sys2Proof.Claims

set_option Elab.async false

/-! ## States -/

/-- A thread at level 0 on context 0 of core 14, with one page of 64 KB at 0x10000 that it may read, write and execute. -/
def base : State := State.reset.withFetchWord 32 0x004E6283

/-- Scalar registers set. -/
def setX (l : List (Nat × Word)) (s : State) : State :=
  s.withCx (fun c => { c with x := l.foldl (fun (v : Vector Word 32) e => v.set! e.1 e.2) c.x })

/-- The running context at a level. -/
def atLevel (l : BitVec 2) (s : State) : State := s.withCx (fun c => { c with pl := l })

/-- A partition with a vector base. -/
def withVector (s : State) : State := s.withPart 0 (fun p => { p with evec := 4 })

/-- The state with a window open on x9. -/
def windowOn9 (s : State) : State := s.withCx (fun c => { c with windows := [⟨3, [(9, 7)], [], []⟩] })

/-- Another context. -/
def withOther (c : Ctx) (s : State) : State := { s with others := [c] }

/-! ## Hypotheses that something meets: scalar instructions -/

theorem witness_registerArithmetic : ∃ (i : Instr) (s : State) (f : ScalarForm), registerForm s i = some f ∧ s.admits f.la ⟨[f.dest], [], []⟩ :=
  ⟨.add 5 6 7, windowOn9 base, _, rfl, by delta State.admits; decide +kernel⟩

theorem witness_bitFields : ∃ (i : Instr) (s : State) (f : ScalarForm), bitFieldForm s i = some f ∧ s.admits f.la ⟨[f.dest], [], []⟩ :=
  ⟨.clz 5 0, base, _, rfl, by delta State.admits; decide +kernel⟩

theorem witness_multiplyDivide : ∃ (i : Instr) (s : State) (f : ScalarForm), multiplyForm s i = some f ∧ s.admits f.la ⟨[f.dest], [], []⟩ :=
  ⟨.div 15 31 6 0, base, _, rfl, by delta State.admits; decide +kernel⟩

theorem witness_immediates : ∃ (i : Instr) (s : State) (f : ScalarForm), immediateForm s i = some f ∧ s.admits f.la ⟨[f.dest], [], []⟩ :=
  ⟨.addi 5 6 0x7FFF, base, _, rfl, by delta State.admits; decide +kernel⟩

theorem witness_compressed : ∃ (i : Instr) (s : State) (f : ScalarForm), compressedForm s i = some f ∧ s.admits f.la ⟨[f.dest], [], []⟩ :=
  ⟨.cShli 5 31, base, _, rfl, by delta State.admits; decide +kernel⟩

theorem witness_branches : ∃ (i : Instr) (s : State) (taken : Bool) (off : Int) (len : Nat), branchForm s i = some (taken, off, len) :=
  ⟨.blt 5 6 0x800, base, _, _, _, rfl⟩

theorem witness_jumps : ∃ (i : Instr) (s : State) (target : Word) (d : Reg) (len : Nat),
    jumpForm s i = some (target, d, len) ∧ s.admits 0 ⟨[d], [], []⟩ :=
  ⟨.jal 1 5, base, _, _, _, rfl, by delta State.admits; decide +kernel⟩

/-- A read that is answered. -/
def isValue : Read → Bool
  | .value _ _ => true
  | _ => false

theorem value_of {r : Read} (h : isValue r = true) : ∃ b s, r = .value b s := by
  cases r with
  | value b s => exact ⟨b, s, rfl⟩
  | fault _ _ => cases h
  | held => cases h

/-- A store that is taken. -/
def isDone : Wrote → Bool
  | .done _ => true
  | _ => false

theorem done_of {r : Wrote} (h : isDone r = true) : ∃ s, r = .done s := by
  cases r with
  | done s => exact ⟨s, rfl⟩
  | fault _ _ => cases h
  | held => cases h

/-- The last word of the page, where the thread may load and store. -/
def lastWord : State := setX [(6, 0x1FFF8), (7, 0x1FFF9)] base

theorem witness_loads : ∃ (i : Instr) (s s1 : State) (a : Access) (w : BitVec 3) (bytes : List Byte),
    loadForm s i = some (a, w) ∧ s.admits a.la ⟨[a.reg], [], []⟩ ∧ a.address.toNat % a.size = 0 ∧ s.fifoAt a.address.toNat = none ∧
      s.dataRead a.address.toNat a.size s.cx.pl = .value bytes s1 := by
  obtain ⟨b, s1, h⟩ := value_of (r := lastWord.dataRead 0x1FFF8 8 0) (by decide +kernel)
  exact ⟨.ld 15 5 6 0 6, lastWord, s1, _, _, b, rfl, by delta State.admits; decide +kernel, by decide +kernel, by decide +kernel, h⟩

theorem witness_stores : ∃ (i : Instr) (s s1 : State) (a : Access), storeForm s i = some a ∧ a.address.toNat % a.size = 0 ∧
    s.dataWrite a.address.toNat (bytesOf (s.x a.reg).toNat a.size) s.cx.pl a.word = .done s1 := by
  obtain ⟨s1, h⟩ := done_of (r := lastWord.dataWrite 0x1FFF8 (bytesOf 0 8) 0 (recordWord (wmWord 0x0f 0 6 3 0 0))) (by decide +kernel)
  exact ⟨.st 0 6 0 3, lastWord, s1, _, rfl, by decide +kernel, h⟩

theorem witness_misaligned : (∃ (i : Instr) (s : State) (a : Access) (w : BitVec 3), loadForm s i = some (a, w) ∧
    s.admits a.la ⟨[a.reg], [], []⟩ ∧ a.address.toNat % a.size ≠ 0) ∧
    ∃ (i : Instr) (s : State) (a : Access), storeForm s i = some a ∧ a.address.toNat % a.size ≠ 0 :=
  ⟨⟨.ld 0 5 7 0 2, lastWord, _, _, rfl, by delta State.admits; decide +kernel, by decide +kernel⟩,
    ⟨.st 5 7 0 1, lastWord, _, rfl, by decide +kernel⟩⟩

theorem witness_systemRegisters : (∃ (d : Reg) (sel : BitVec 11) (s : State), s.admits 0 ⟨[d], [], []⟩ ∧ sysLevel sel ≤ s.cx.pl.toNat ∧
    s.cx.earlierOpen = false) ∧ ∃ (sel : BitVec 11) (s : State), sysLevel sel = 1 ∧ sysLevel sel ≤ s.cx.pl.toNat :=
  ⟨⟨5, 5, base, by delta State.admits; decide +kernel⟩, ⟨0x600, atLevel 1 base, by decide +kernel⟩⟩

theorem witness_softwareTraps : (∃ s : State, s.cx.open_ = false ∧ s.part.evec ≠ 0) ∧ ∃ s : State, s.cx.open_ = false ∧ s.part.evec = 0 :=
  ⟨⟨withVector base, by decide +kernel⟩, ⟨base, by decide +kernel⟩⟩

theorem witness_eret : ∃ s : State, 1 ≤ s.cx.pl.toNat ∧ s.cx.open_ = false ∧ s.cx.replay = none := ⟨atLevel 1 base, by decide +kernel⟩

theorem witness_waitAndTranslation :
    (∃ (a : Reg) (s : State), 1 ≤ s.cx.pl.toNat ∧ s.cx.open_ = false ∧ s.cx.windows = [] ∧ s.cx.asyncDue = false ∧ s.wakeHeld = false ∧
      s.x a ≠ 0 ∧ (s.x a).toNat ≤ s.clock) ∧
    (∃ (a : Reg) (s : State), 1 ≤ s.cx.pl.toNat ∧ s.x a = 0) ∧
    (∃ (d a : Reg) (s : State), 1 ≤ s.cx.pl.toNat ∧ s.admits 0 ⟨[d], [], []⟩ ∧ s.leafAt (coreOf s.cx.key) s.cx.part (s.x a).toNat = none) ∧
    ∃ s : State, 2 ≤ s.cx.pl.toNat ∧ s.cx.open_ = false :=
  ⟨⟨6, { setX [(6, 9)] (atLevel 1 base) with clock := 9 }, by decide +kernel⟩, ⟨0, atLevel 1 base, by decide +kernel⟩,
    ⟨5, 0, atLevel 1 base, by delta State.admits; decide +kernel⟩, ⟨atLevel 2 base, by decide +kernel⟩⟩

theorem witness_belowItsLevel : (∃ (sel : BitVec 11) (s : State), 0x600 ≤ sel.toNat ∧ s.cx.pl = 0) ∧ ∃ s : State, s.cx.pl.toNat < 2 ∧ s.cx.pl ≠ 0 :=
  ⟨⟨0x600, base, by decide +kernel⟩, ⟨atLevel 1 base, by decide +kernel⟩⟩

theorem witness_traps : (∃ s : State, s.part.evec ≠ 0) ∧ ∃ s : State, s.part.evec = 0 :=
  ⟨⟨withVector base, by decide +kernel⟩, ⟨base, by decide +kernel⟩⟩

theorem witness_pendingDestination : ∃ (i : Instr) (s : State) (f : ScalarForm), registerForm s i = some f ∧
    s.cx.hazard ⟨[f.dest], [], []⟩ = true ∧ s.cx.lao = false :=
  ⟨.add 9 6 7, windowOn9 base, _, rfl, by decide +kernel, by decide +kernel⟩



/-! ## Hypotheses that something meets: vector instructions -/

theorem witness_vectorLanes :
    (∃ (i : Instr) (s : State) (f : VecForm), vectorIntegerForm s i = some f ∧ s.admitsRing f.la ⟨[], [f.vd], []⟩) ∧
    (∃ (i : Instr) (s : State) (f : VecForm), permuteForm s i = some f ∧ s.admitsRing f.la ⟨[], [f.vd], []⟩) ∧
    ∃ (i : Instr) (s : State) (f : VecForm), vectorMoveForm s i = some f ∧ s.admitsRing f.la ⟨[], [f.vd], []⟩ :=
  ⟨⟨.viadd 15 7 1 2 3 4, windowOn9 base, _, rfl, by delta State.admitsRing State.admits; decide +kernel⟩, ⟨.vrot 0 5 0 2 3 3, base, _, rfl, by delta State.admitsRing State.admits; decide +kernel⟩, ⟨.vsplat 1 6 1 7 5, base, _, rfl, by delta State.admitsRing State.admits; decide +kernel⟩⟩

theorem witness_floatLanes : ∃ (i : Instr) (s : State) (f : DrawForm), floatForm s i = some f ∧ f.needs = none ∧
    s.admitsRing f.la ⟨[], [f.vd], []⟩ := ⟨.vfma 15 0 0 1 2 3, base, _, rfl, rfl, by delta State.admitsRing State.admits; decide +kernel⟩

theorem witness_extended :
    (∃ (i : Instr) (s : State) (f : DrawForm), extendedForm s i = some f ∧ f.needs = none ∧ s.admitsRing f.la ⟨[], [f.vd], []⟩) ∧
    (∃ (i : Instr) (s : State) (f : DrawForm), extendedForm s i = some f ∧ f.needs = some true ∧ s.cx.hasExtension true = true ∧
      s.admitsRing f.la ⟨[], [f.vd], []⟩) ∧
    (∃ (i : Instr) (s : State) (f : DrawForm), extendedForm s i = some f ∧ f.needs = some false ∧ s.cx.hasExtension false = true ∧
      s.admitsRing f.la ⟨[], [f.vd], []⟩) ∧
    ∃ (i : Instr) (s : State) (f : DrawForm) (b : Bool), extendedForm s i = some f ∧ f.needs = some b ∧ s.cx.hasExtension b = false ∧
      s.cx.firstFault true = none ∧ s.cx.open_ = true :=
  ⟨⟨.vcvt 0 0 3 0 2 1 2, base, _, rfl, rfl, by delta State.admitsRing State.admits; decide +kernel⟩, ⟨.dadd 0 0 1 2 3, base, _, rfl, rfl, by decide +kernel, by delta State.admitsRing State.admits; decide +kernel⟩,
    ⟨.verf 0 0 0 1 2, base, _, rfl, rfl, by decide +kernel, by delta State.admitsRing State.admits; decide +kernel⟩,
    ⟨.dmul 0 0 1 2 3, base.withCx (fun c => { c with xf64 := false, pends := [⟨.reply false, 5, 1, c.depth, 0, 0, 0, 0⟩] }), _, true, rfl, rfl, by decide +kernel, by decide +kernel, by decide +kernel⟩⟩

theorem witness_extendedLateFault : ∃ (i : Instr) (s : State) (f : DrawForm) (b : Bool) (q : LateFault), extendedForm s i = some f ∧
    f.needs = some b ∧ s.cx.hasExtension b = false ∧ s.cx.firstFault true = some q :=
  ⟨.dmul 0 0 1 2 3, base.withCx (fun c => { c with xf64 := false, faults := [⟨7, 3, 0, 7, 0, true, 0, none⟩] }), _, true, _, rfl, rfl, by decide +kernel, rfl⟩

theorem witness_masksAndScalars :
    (∃ (i : Instr) (s : State) (c : Compare) (la : BitVec 4) (ty m : BitVec 3) (vb va : BitVec 4) (vd : BitVec 3),
      compareForm i = some (c, la, ty, m, vb, va, vd) ∧ s.admitsRing la ⟨[], [], [vd]⟩ ∧ vd ≠ 0) ∧
    (∃ (i : Instr) (s : State) (c : Compare) (la : BitVec 4) (ty m : BitVec 3) (vb va : BitVec 4) (vd : BitVec 3),
      compareForm i = some (c, la, ty, m, vb, va, vd) ∧ s.admitsRing la ⟨[], [], [vd]⟩ ∧ vd = 0) ∧
    (∃ (i : Instr) (s : State) (la : BitVec 4) (vd : BitVec 3) (p : MWord → Prop),
      maskForm s i = some (la, vd, p) ∧ s.admitsRing la ⟨[], [], [vd]⟩ ∧ vd ≠ 0) ∧
    ∃ (i : Instr) (s : State) (la : BitVec 4) (d : Reg) (p : Word → Prop), toScalarForm s i = some (la, d, p) ∧
      s.admitsRing la ⟨[d], [], []⟩ ∧ d ≠ 0 :=
  ⟨⟨.vclt 1 0 2 3 4 5, base, _, _, _, _, _, _, _, rfl, by delta State.admitsRing State.admits; decide +kernel, by decide +kernel⟩, ⟨.vclt 1 0 2 3 4 0, base, _, _, _, _, _, _, _, rfl, by delta State.admitsRing State.admits; decide +kernel, by decide +kernel⟩,
    ⟨.mset 1 2 3 4, base, _, _, _, rfl, by delta State.admitsRing State.admits; decide +kernel, by decide +kernel⟩, ⟨.mfirst 1 2 3, base, _, _, _, rfl, by delta State.admitsRing State.admits; decide +kernel, by decide +kernel⟩⟩

theorem witness_reductions :
    (∃ (i : Instr) (s : State) (f : ReduceForm), integerReduceForm s i = some f ∧ s.admitsRing f.la ⟨[], [f.vd], []⟩) ∧
    ∃ (i : Instr) (s : State) (f : ReduceForm), floatReduceForm s i = some f ∧ s.admitsRing f.la ⟨[], [f.vd], []⟩ :=
  ⟨⟨.vrsum 0 5 0 1 2, base, _, rfl, by delta State.admitsRing State.admits; decide +kernel⟩, ⟨.vrsum 0 4 0 1 2, base, _, rfl, by delta State.admitsRing State.admits; decide +kernel⟩⟩

theorem witness_widening :
    (∃ (la : BitVec 4) (tyd tys : BitVec 3) (vd : BitVec 4) (s : State), tyBits tys < tyBits tyd ∧
      s.admitsRing la ⟨[], groupRegs vd (tyBits tyd / tyBits tys), []⟩) ∧
    (∃ (la vd : BitVec 4) (s : State), s.admitsRing la ⟨[], [vd], []⟩) ∧
    ∃ (la : BitVec 4) (tyd : BitVec 3) (vd : BitVec 4) (s : State), s.admitsRing la ⟨[], [vd], []⟩ ∧ tyd.toNat < 4 :=
  ⟨⟨0, 0, 3, 15, base, by decide +kernel, by delta State.admitsRing State.admits; decide +kernel⟩, ⟨2, 9, base, by delta State.admitsRing State.admits; decide +kernel⟩, ⟨0, 3, 9, base, by delta State.admitsRing State.admits; decide +kernel, by decide +kernel⟩⟩

/-- A mask register set. -/
def setM (r : BitVec 3) (v : MWord) (s : State) : State := s.withCx (fun c => { c with m := c.m.set! r.toNat v })

/-- A masked load about to be made, and what it is made of. -/
def loading : State := setM 2 1 (setX [(6, 0x10000), (7, 512)] base)
def loadingForm : BitVec 4 × VMem × Option (Reg × Word) := spanForm loading .vld 0x14 3 1 5 2 6 7 1 (loading.x 6 + 512)

/-- A replay slot's instruction. -/
def kept : VMem := accessOf base .vld 0 1 0x10000 512 0 0 [] 0

theorem witness_vectorAccesses :
    (∃ (i : Instr) (s : State) (la : BitVec 4) (m : VMem) (u : Option (Reg × Word)), vectorAccess s i = some (la, m, u) ∧
      s.admitsRing la ⟨u.toList.map (·.1), m.dest, []⟩ ∧ vectorsWait s.cx = false ∧ (runOf s m u).held = false ∧ (runOf s m u).fault = none) ∧
    (∃ (i : Instr) (s : State) (la : BitVec 4) (m : VMem) (u : Option (Reg × Word)), vectorAccess s i = some (la, m, u) ∧
      s.admitsRing la ⟨u.toList.map (·.1), m.dest, []⟩ ∧ vectorsWait s.cx = false ∧ (runOf s m u).held = false ∧
      (runOf s m u).fault.isSome = true) ∧
    ∃ (i : Instr) (s : State) (la : BitVec 4) (m : VMem) (u : Option (Reg × Word)), vectorAccess s i = some (la, m, u) ∧
      s.admitsRing la ⟨u.toList.map (·.1), m.dest, []⟩ ∧ vectorsWait s.cx = true :=
  ⟨⟨.vld 3 1 5 2 6 7 1, loading, loadingForm.1, loadingForm.2.1, loadingForm.2.2, rfl, by delta State.admitsRing State.admits; decide +kernel, by decide +kernel, by decide +kernel, by decide +kernel⟩,
    ⟨.vst 3 1 5 2 6 7 1, setM 2 3 (setX [(6, 0x30000), (7, 512)] base), _, _, _, rfl, by delta State.admitsRing State.admits; decide +kernel, by decide +kernel, by decide +kernel, by decide +kernel⟩,
    ⟨.vld 3 1 5 0 6 7 1, base.withCx (fun c => { c with replay := some kept }), _, _, _, rfl, by delta State.admitsRing State.admits; decide +kernel, by decide +kernel⟩⟩

/-- A gather that its context may only begin now. -/
def limited : State := setM 2 3 (setX [(6, 0x10000)] (base.withCx (fun c => { c with limit := some 1 })))
def limitedForm : BitVec 4 × VMem × Option (Reg × Word) := (vectorAccess limited (.vgather 3 5 2 6 1 2)).getD (0, kept, none)

theorem witness_unfinishedVectorAccess :
    ∃ (i : Instr) (s : State) (la : BitVec 4) (m : VMem) (u : Option (Reg × Word)), vectorAccess s i = some (la, m, u) ∧
      s.admitsRing la ⟨u.toList.map (·.1), m.dest, []⟩ ∧ vectorsWait s.cx = false ∧ (runOf s m u).held = false ∧ (runOf s m u).fault = none ∧
      (runOf s m u).more = true :=
  ⟨.vgather 3 5 2 6 1 2, limited, limitedForm.1, limitedForm.2.1, limitedForm.2.2, rfl, by delta State.admitsRing State.admits; decide +kernel, by decide +kernel, by decide +kernel, by decide +kernel, by decide +kernel⟩

theorem witness_faultedVectorAccesses :
    (∃ (s : State) (m : VMem) (old : VWord) (limit : Option Nat), m.kind ∈ [VKind.vld, VKind.vlds, VKind.vst, VKind.vsts, VKind.vldbc] ∧
      (s.runMem m old limit).fault ≠ none ∧ m.dest ≠ []) ∧
    ∃ (s : State) (m : VMem) (old : VWord) (limit : Option Nat) (k : Nat), k < m.lanes ∧ m.mask.getLsbD k = true ∧ ¬ k < m.start ∧
      (s.runGather m old limit).units ≤ k :=
  ⟨⟨base, { kept with base := 0x30000, mask := 1 }, 5, none, by decide +kernel⟩,
    ⟨base, { kept with kind := .vgather, base := 0x30000, mask := 1 <<< 127, ty := 5 }, 5, none, 127, by decide +kernel⟩⟩


/-! ## Hypotheses that something meets: tasks, groups, events and messages -/

/-- The running context changed. -/
def cxs (f : Ctx → Ctx) (s : State) : State := s.withCx f

/-- Tasks in the deque of core 14. -/
def dequeOf (n : Nat) (s : State) : State :=
  s.withCore 14 (fun c => { c with deque := List.replicate n ⟨base.cx, 1, 14, false⟩ })

/-- A partition whose spill area has so many bytes used. -/
def spillFull (s : State) : State := s.withPart 0 (fun p => { p with spillUsed := 2 ^ 40 })

theorem witness_tasks :
    (∃ (d : Reg) (s : State), s.admits 0 ⟨[d], [], []⟩ ∧ s.dequeRoom (coreOf s.cx.key) s.cx.part = true ∧ d ≠ 0) ∧
    (∃ (d : Reg) (s : State), s.admits 0 ⟨[d], [], []⟩ ∧ s.dequeRoom (coreOf s.cx.key) s.cx.part = false) ∧
    (∃ (s : State), s.cx.open_ = false ∧ s.cx.children = 0) ∧
    (∃ (s : State), s.cx.open_ = false ∧ s.cx.children ≠ 0 ∧ s.core.deque = []) ∧
    (∃ (s : State), s.cx.root = false ∧ s.cx.open_ = false ∧ s.cx.children = 0 ∧ s.cx.unack = 0 ∧ s.cx.handles = 0 ∧ s.cx.joinable = []) ∧
    (∃ (s : State), s.cx.root = true ∧ s.cx.open_ = false ∧ s.cx.children = 0 ∧ s.cx.unack = 0 ∧ s.cx.handles = 0 ∧ s.cx.joinable = []) :=
  ⟨⟨5, base, by delta State.admits; decide +kernel, by decide +kernel⟩, ⟨5, dequeOf 32 (spillFull base), by delta State.admits; decide +kernel, by decide +kernel⟩, ⟨base, by decide +kernel⟩, ⟨cxs (fun c => { c with children := 1 }) base, by decide +kernel⟩,
    ⟨cxs (fun c => { c with root := false }) base, by decide +kernel⟩, ⟨base, by decide +kernel⟩⟩

theorem witness_yield :
    (∃ (s : State), s.cx.open_ = false ∧ (closed s).yieldTo = (none, none)) ∧
    (∃ (d : Reg) (s s1 : State), s.cx.open_ = false ∧ (closed s).yieldTo ≠ (none, none) ∧
      ((closed s).answered d 1).switchOut s.cx.key (coreOf s.cx.key) = some s1) ∧
    (∃ (d : Reg) (s : State), s.cx.open_ = false ∧ ((closed s).answered d 1).switchOut s.cx.key (coreOf s.cx.key) = none ∧
      (closed s).yieldTo ≠ (none, none)) ∧
    (∃ (d a : Reg) (s : State), s.admits 0 ⟨[d], [], []⟩ ∧ (s.x a).toNat < 4) ∧
    ∃ (d a : Reg) (s : State), s.admits 0 ⟨[d], [], []⟩ ∧ 4 ≤ (s.x a).toNat := by
  have h : (((closed (dequeOf 1 (base.withPart 0 (fun p => { p with sanum := 1 })))).answered 5 1).switchOut 56 14).isSome = true := by decide +kernel
  obtain ⟨s1, h1⟩ := Option.isSome_iff_exists.mp h
  exact ⟨⟨base, by decide +kernel⟩, ⟨5, _, s1, by decide +kernel, by decide +kernel, h1⟩, ⟨5, dequeOf 1 base, by decide +kernel⟩, ⟨5, 6, setX [(6, 3)] base, by delta State.admits; decide +kernel, by decide +kernel⟩, ⟨5, 6, setX [(6, 4)] base, by delta State.admits; decide +kernel, by decide +kernel⟩⟩

/-- A leader on core 0 that waits for one follower, and a follower there that waits for core 14. -/
def leaderThere : Ctx := { base.cx with key := 0, run := .waiting (.lead 1 0 5 []) }
def followerThere : Ctx := { base.cx with key := 0, run := .waiting (.follow 14 0 7 false) }

theorem witness_groups :
    (∃ (d a b : Reg) (s : State) (l : Ctx) (n : Nat) (limit : Word) (d' : Reg) (joined : List Nat),
      s.admits 0 ⟨[d], [], []⟩ ∧ s.cx.role = 0 ∧ (s.x a).toNat < 16 ∧ (s.x a).toNat ≠ coreOf s.cx.key % 16 ∧
      (limit = 0 ∨ s.clock ≤ limit.toNat) ∧ (s.x b = 0 ∨ s.clock < (s.x b).toNat) ∧
      (s.withCx (fun c => { c with run := .waiting (.follow (s.x a).toNat (s.x b) d false) })).leadOn
        (16 * clusterOf s.cx.key + (s.x a).toNat) = some l ∧ l.run = .waiting (.lead n limit d' joined) ∧ l.key ≠ s.cx.key ∧
      l.sameReaction s.cx = true ∧ n = joined.length + 1 ∧ (∀ k, k ∈ joined → coreOf k ≠ coreOf s.cx.key) ∧ s.ctxAt l.key = some l) ∧
    (∃ (d a b : Reg) (s : State) (f : Ctx) (d' : Reg),
      s.admits 0 ⟨[d], [], []⟩ ∧ s.cx.role = 0 ∧ s.x a = 1 ∧ (s.x b = 0 ∨ s.clock ≤ (s.x b).toNat) ∧ s.others = [f] ∧ f.key ≠ s.cx.key ∧ coreOf f.key ≠ coreOf s.cx.key ∧
      clusterOf f.key = clusterOf s.cx.key ∧ f.role = 0 ∧ f.run = .waiting (.follow (coreOf s.cx.key % 16) 0 d' false) ∧
      s.cx.sameReaction f = true) ∧
    (∃ (s : State), s.cx.role = 2 ∧ s.cx.role ≠ 3 ∧ keysApart s) ∧
    (∃ (s : State), s.cx.role ≠ 2) ∧
    ∃ (a b : Reg) (s : State) (l : Ctx), s.cx.role = 2 ∧ s.leaderOf s.cx = some l ∧
      (decide (l.readX a = l.readX b) ≠ decide (s.x a = s.x b)) :=
  ⟨⟨5, 6, 7, withOther leaderThere base, leaderThere, 1, 0, 5, [], by delta State.admits; decide +kernel, by decide +kernel, by decide +kernel, by decide +kernel, by decide +kernel, by decide +kernel, by decide +kernel, rfl, by decide +kernel, by decide +kernel, rfl, by decide +kernel, by decide +kernel⟩,
    ⟨5, 6, 0, setX [(6, 1)] (withOther followerThere base), followerThere, 7, by delta State.admits; decide +kernel, by decide +kernel, by decide +kernel, by decide +kernel, rfl, by decide +kernel, by decide +kernel, by decide +kernel, by decide +kernel, rfl, by decide +kernel⟩,
    ⟨withOther { base.cx with key := 0, role := 1 } (cxs (fun c => { c with role := 2 }) base), by decide +kernel, by decide +kernel, by unfold keysApart; decide +kernel⟩,
    ⟨base, by decide +kernel⟩,
    ⟨5, 6, setX [(6, 1)] (withOther { base.cx with key := 0, role := 1 } (cxs (fun c => { c with role := 2 }) base)), _, by decide +kernel, rfl, by decide +kernel⟩⟩

theorem witness_posts :
    (∃ (d a : Reg) (s : State) (t : Tag) (pa : Nat), s.cx.postTag = some t ∧ s.admits 0 ⟨[d], [], []⟩ ∧ s.actorPage (s.x a) = some pa ∧
      deviceOf pa = s.dev.toNat) ∧
    (∃ (d a : Reg) (s : State) (t : Tag) (pa : Nat), s.cx.postdTag = some t ∧ (s.cx.readOx 6).toNat < 2 ^ 32 ∧ s.admits 0 ⟨[d], [], []⟩ ∧
      s.actorPage (s.x a) = some pa ∧ deviceOf pa = s.dev.toNat) ∧
    (∃ (d : Reg) (s : State), s.cx.postTag = none ∧ s.admits 0 ⟨[d], [], []⟩) ∧
    (∃ (d : Reg) (s : State), s.cx.postdTag = none ∧ (s.cx.readOx 6).toNat < 2 ^ 32 ∧ s.admits 0 ⟨[d], [], []⟩) ∧
    ∃ (d a : Reg) (s : State) (t : Tag), s.cx.postTag = some t ∧ s.admits 0 ⟨[d], [], []⟩ ∧ s.actorPage (s.x a) = none :=
  ⟨⟨5, 6, setX [(6, 0x10000)] base, _, 0x110000, rfl, by delta State.admits; decide +kernel, by decide +kernel, by decide +kernel⟩,
    ⟨5, 6, cxs (fun c => { c with ox := c.ox.set 6 (2 ^ 32 - 1) }) (setX [(6, 0x10000)] base), ⟨0, 0xFFFFFFFF⟩, 0x110000, by decide +kernel, by decide +kernel, by delta State.admits; decide +kernel, by decide +kernel, by decide +kernel⟩,
    ⟨5, cxs (fun c => { c with tag := ⟨0, BitVec.allOnes 32⟩ }) base, by decide +kernel, by delta State.admits; decide +kernel⟩,
    ⟨5, base, by decide +kernel, by decide +kernel, by delta State.admits; decide +kernel⟩,
    ⟨5, 6, setX [(6, 0x30000)] base, _, rfl, by delta State.admits; decide +kernel, by decide +kernel⟩⟩

theorem witness_postTags : ∃ (c d e : Ctx), (c.readOx 5 = 0 ∧ c.tag.micro ≠ BitVec.allOnes 32) ∧
    (d.readOx 5 = 0 ∧ d.tag.micro = BitVec.allOnes 32) ∧ e.readOx 5 ≠ 0 :=
  ⟨base.cx, { base.cx with tag := ⟨0, BitVec.allOnes 32⟩ }, { base.cx with ox := base.cx.ox.set 5 1 }, by decide +kernel, by decide +kernel, by decide +kernel⟩

theorem witness_eventsAndPriorities :
    (∃ (d a : Reg) (s : State), s.admits 0 ⟨[d], [], []⟩ ∧ (s.x a).toNat + s.inputBound s.cx.part s.cx.actor ≤ s.clock) ∧
    (∃ (d a : Reg) (s : State), s.admits 0 ⟨[d], [], []⟩ ∧ (s.x a).toNat ≤ 4) ∧
    (∃ (d a : Reg) (s : State), s.admits 0 ⟨[d], [], []⟩ ∧ 4 < (s.x a).toNat) ∧
    (∃ (d : Reg) (s : State), s.admits 0 ⟨[d], [], []⟩ ∧ s.cx.earlierOpen = false) ∧
    ∃ (d a : Reg) (s : State), s.admits 0 ⟨[d], [], []⟩ ∧ (s.x a).toNat < 4 :=
  ⟨⟨5, 6, { base with clock := 2 ^ 40 }, by delta State.admits; decide +kernel, by decide +kernel⟩, ⟨5, 6, setX [(6, 4)] base, by delta State.admits; decide +kernel, by decide +kernel⟩, ⟨5, 6, setX [(6, 5)] base, by delta State.admits; decide +kernel, by decide +kernel⟩,
    ⟨5, base, by delta State.admits; decide +kernel, by decide +kernel⟩, ⟨5, 6, setX [(6, 3)] base, by delta State.admits; decide +kernel, by decide +kernel⟩⟩

/-- An endpoint of the running task with one message. -/
def endpointed : State :=
  setX [(6, 9)] { base with endpoints := [⟨9, 0, base.cx.tid, 56, [(7, 1)], [], []⟩] }

theorem witness_messages :
    (∃ (la : BitVec 4) (d a : Reg) (s : State), s.admits la ⟨[d], [], []⟩ ∧ (s.x a).toNat < 2 ^ 32 ∧ s.x a ≠ 0 ∧
      (s.locate (coreHere s) s.cx.part ((s.x a).setWidth 32)).1.isSome = true) ∧
    (∃ (la : BitVec 4) (d a : Reg) (s : State), s.admits la ⟨[d], [], []⟩ ∧ s.x a = 0) ∧
    (∃ (s : State) (core part : Nat) (name : BitVec 32) (e : Endpoint), s.endpoint part name = some e ∧
      ∀ l, l ∈ (tget s.cores core Core.reset).locations → l.1 ≠ (part, name)) ∧
    (∃ (la : BitVec 4) (d a b : Reg) (s s1 : State) (m : Word × BitVec 26), s.admits la ⟨[d, b], [], []⟩ ∧
      (s.x a).toNat < 2 ^ 32 ∧ s.holds s.cx.tid ((s.x a).setWidth 32) = true ∧
      s.takeMessage ((s.x a).setWidth 32) s.cx.tid = some (m, s1) ∧ d ≠ b) := by
  have h : (endpointed.takeMessage 9 endpointed.cx.tid).isSome = true := by decide +kernel
  obtain ⟨⟨m, s1⟩, h1⟩ := Option.isSome_iff_exists.mp h
  exact ⟨⟨15, 5, 6, endpointed, by delta State.admits; decide +kernel, by decide +kernel, by decide +kernel, by decide +kernel⟩, ⟨0, 5, 0, endpointed, by delta State.admits; decide +kernel, by decide +kernel⟩, ⟨endpointed, 14, 0, 9, _, rfl, by decide +kernel⟩,
    ⟨0, 5, 6, 7, endpointed, s1, m, by delta State.admits; decide +kernel, by decide +kernel, by decide +kernel, h1, by decide +kernel⟩⟩


/-! ## Hypotheses that something meets: memory operations between threads -/

theorem witness_fences : (∃ s : State, s.cx.loading = false) ∧ (∃ s : State, s.cx.unack = 0) ∧ ∃ s : State, s.cx.unack ≠ 0 :=
  ⟨⟨base, by decide +kernel⟩, ⟨base, by decide +kernel⟩, ⟨cxs (fun c => { c with unack := 256 }) base, by decide +kernel⟩⟩

/-- Another actor, which has ended at tag time 8. -/
def withActorEnded : State := setX [(6, 0x10040), (7, 8)] { base with actors := [{ Actor.fresh 0 0x10040 with ended := some 8 }] }

theorem witness_earlySuccessors :
    (∃ (d a b : Reg) (s : State) (pa : Nat) (w : Word), s.admits 0 ⟨[d], [], []⟩ ∧ actorAddr (s.x a) ≠ s.cx.actor ∧
      s.actorPage (s.x a) = some pa ∧ deviceOf pa = s.dev.toNat ∧ (s.actorOf s.cx.part (actorAddr (s.x a))).ended = some w ∧
      (s.x b).toNat ≤ w.toNat) ∧
    (∃ (d a : Reg) (s : State), s.admits 0 ⟨[d], [], []⟩ ∧ actorAddr (s.x a) = s.cx.actor) ∧
    (∃ (d a b : Reg) (s : State) (pa k : Nat), s.admits 0 ⟨[d], [], []⟩ ∧ (s.x b).toNat ≤ 1000000 ∧ s.actorPage (s.x a) = some pa ∧
      deviceOf pa = s.dev.toNat ∧ (s.warm (s.homeCore s.cx.part (actorAddr (s.x a))) (actorAddr (s.x a))).unreserved
        (s.homeCore s.cx.part (actorAddr (s.x a))) = some k) ∧
    ∃ (d b : Reg) (s : State), s.admits 0 ⟨[d], [], []⟩ ∧ 1000000 < (s.x b).toNat := by
  refine ⟨⟨5, 6, 7, withActorEnded, 0x110040, 8, by delta State.admits; decide +kernel, by decide +kernel, by decide +kernel, by decide +kernel, by decide +kernel, by decide +kernel⟩, ⟨5, 6, base, by delta State.admits; decide +kernel, by decide +kernel⟩, ?_,
    ⟨5, 7, setX [(7, 1000001)] base, by delta State.admits; decide +kernel, by decide +kernel⟩⟩
  have h : ((withActorEnded.warm (withActorEnded.homeCore 0 0x10040) 0x10040).unreserved (withActorEnded.homeCore 0 0x10040)).isSome = true := by decide +kernel
  obtain ⟨k, hk⟩ := Option.isSome_iff_exists.mp h
  exact ⟨5, 6, 7, withActorEnded, 0x110040, k, by delta State.admits; decide +kernel, by decide +kernel, by decide +kernel, by decide +kernel, hk⟩

/-- A location in HBM that the thread may use, one that is misaligned, and the value 1. -/
def located : State := setX [(6, 0x10008), (7, 1), (8, 0x10009)] base

/-- A second page, of the given entry. -/
def withPage (entry : Nat) (s : State) : State := { s with mem := Memory.writeCells s.mem (cellsOf 0x103010 (bytesOf entry 8)) }

/-- A read-only-shared page. -/
def sharedPage : State := withPage (0x120000 + 0x52 + 2 ^ 61) (setX [(6, 0x20008), (7, 1)] base)

/-- A page of device 1, on which the partition's job runs too. -/
def farPage : State :=
  { withPage (2 ^ 48 + 0x120000 + 0x72) (setX [(6, 0x20008), (7, 1)] base) with access := ((AccessTarget.station 0, 0, 0), 7) :: base.access }.withPart 0
    (fun p => { p with jobCount := 2, jobTable := [(0, 0), (1, 1)] })

/-- A task of another context of the core has stored through a bank that is being switched, and what the running task sends comes after it. -/
def heldStore : State :=
  { cxs (fun c => { c with epoch := 1 }) located with
    inflight := [.commandPortWrite ⟨0, 0, 224, 56, base.cx.tid, 0, 0, 0, ⟨0, 0⟩, 0, 0⟩ 0 0] }

theorem witness_atomics :
    (∃ (i : Instr) (s : State) (f : AtomicForm) (pa : Nat), atomicForm s i = some f ∧ s.admits f.la ⟨[f.d], [], []⟩ ∧ s.owed < 256 ∧
      s.site f.sc (s.x f.a) f.size true = .at_ pa ∧
      (f.before.drainSent f.before.cx pa).unreleased (f.before.drainSent f.before.cx pa).cx.before = false ∧ deviceOf pa = s.dev.toNat) ∧
    (∃ (i : Instr) (s : State) (f : AtomicForm) (pa : Nat), atomicForm s i = some f ∧ s.admits f.la ⟨[f.d], [], []⟩ ∧ s.owed < 256 ∧
      s.site f.sc (s.x f.a) f.size true = .at_ pa ∧
      (f.before.drainSent f.before.cx pa).unreleased (f.before.drainSent f.before.cx pa).cx.before = false ∧ deviceOf pa ≠ s.dev.toNat) ∧
    (∃ (i : Instr) (s : State) (f : AtomicForm) (pa : Nat), atomicForm s i = some f ∧ s.admits f.la ⟨[f.d], [], []⟩ ∧ s.owed < 256 ∧
      s.site f.sc (s.x f.a) f.size true = .at_ pa ∧
      (f.before.drainSent f.before.cx pa).unreleased (f.before.drainSent f.before.cx pa).cx.before = true) ∧
    (∃ (i : Instr) (s : State) (f : AtomicForm), atomicForm s i = some f ∧ s.admits f.la ⟨[f.d], [], []⟩ ∧ s.owed < 256 ∧
      (s.x f.a).toNat % f.size ≠ 0) ∧
    (∃ (i : Instr) (s : State) (f : AtomicForm) (leaf : Leaf) (pa : Nat), atomicForm s i = some f ∧ s.admits f.la ⟨[f.d], [], []⟩ ∧
      s.owed < 256 ∧ (s.x f.a).toNat % f.size = 0 ∧ s.translate (coreHere s) s.cx.part s.cx.pl (s.x f.a).toNat false = .ok leaf pa ∧
      leaf.ros = true) ∧
    ∃ (i : Instr) (s : State) (f : AtomicForm) (pa : Nat), atomicForm s i = some f ∧ s.admits f.la ⟨[f.d], [], []⟩ ∧ s.owed < 256 ∧
      f.d ≠ 0 ∧ f.la = 0 ∧ s.site f.sc (s.x f.a) f.size true = .refused 9 pa :=
  ⟨⟨.cadd 3 2 5 6 7, located, _, 0x110008, rfl, by delta State.admits; decide +kernel, by decide +kernel, by decide +kernel, by decide +kernel, by decide +kernel⟩, ⟨.rdadd 3 3 5 6 7, farPage, _, 2 ^ 48 + 0x120008, rfl, by delta State.admits; decide +kernel, by decide +kernel, by decide +kernel, by decide +kernel, by decide +kernel⟩,
    ⟨.rdadd 3 2 5 6 7, heldStore, _, 0x110008, rfl, by delta State.admits; decide +kernel, by decide +kernel, by decide +kernel, by decide +kernel⟩,
    ⟨.rdaddf 3 2 5 8 7, located, _, rfl, by delta State.admits; decide +kernel, by decide +kernel, by decide +kernel⟩,
    ⟨.rdmax 3 2 5 6 7, sharedPage, _, ⟨0x120000, 65536, false, true, false, 0, true, false, true⟩, 0x120008, rfl, by delta State.admits; decide +kernel, by decide +kernel, by decide +kernel, by decide +kernel, rfl⟩,
    ⟨.cadd 0 1 5 6 7, located, _, 0x110008, rfl, by delta State.admits; decide +kernel, by decide +kernel, by decide +kernel, by decide +kernel, by decide +kernel⟩⟩

theorem witness_waits :
    (∃ (i : Instr) (s : State) (la : BitVec 4) (sc : BitVec 2) (d a : Reg) (expected : Word) (limit : Option Nat) (pa : Nat),
      waitForm s i = some (la, sc, d, a, true, expected, limit) ∧ s.admits la ⟨[d], [], []⟩ ∧ s.owed < 256 ∧
      s.site sc (s.x a) 8 true = .at_ pa ∧ deviceOf pa = s.dev.toNat ∧
      (s.drainSent s.cx pa).unreleased (s.drainSent s.cx pa).cx.before = false ∧
      expected.toNat ≤ ((s.drainSent s.cx pa).wordAt pa).toNat) ∧
    (∃ (i : Instr) (s : State) (la : BitVec 4) (sc : BitVec 2) (d a : Reg) (expected : Word) (limit : Option Nat) (pa : Nat),
      waitForm s i = some (la, sc, d, a, false, expected, limit) ∧ s.admits la ⟨[d], [], []⟩ ∧ s.owed < 256 ∧
      s.site sc (s.x a) 8 false = .at_ pa ∧ deviceOf pa = s.dev.toNat ∧
      (s.drainSent s.cx pa).unreleased (s.drainSent s.cx pa).cx.before = false ∧ (s.drainSent s.cx pa).wordAt pa ≠ expected) ∧
    (∃ (i : Instr) (s : State) (la : BitVec 4) (sc : BitVec 2) (d a : Reg) (expected : Word) (l : Nat) (pa : Nat),
      waitForm s i = some (la, sc, d, a, false, expected, some l) ∧ s.admits la ⟨[d], [], []⟩ ∧ s.owed < 256 ∧
      s.site sc (s.x a) 8 false = .at_ pa ∧ deviceOf pa = s.dev.toNat ∧
      (s.drainSent s.cx pa).unreleased (s.drainSent s.cx pa).cx.before = false ∧ (s.drainSent s.cx pa).wordAt pa = expected ∧ s.clock < l) ∧
    ∃ (i : Instr) (s : State) (la : BitVec 4) (sc : BitVec 2) (d a : Reg) (expected : Word) (l : Nat) (pa : Nat),
      waitForm s i = some (la, sc, d, a, false, expected, some l) ∧ s.admits la ⟨[d], [], []⟩ ∧ s.owed < 256 ∧
      s.site sc (s.x a) 8 false = .at_ pa ∧ deviceOf pa = s.dev.toNat ∧
      (s.drainSent s.cx pa).unreleased (s.drainSent s.cx pa).cx.before = false ∧ (s.drainSent s.cx pa).wordAt pa = expected ∧ l ≤ s.clock :=
  ⟨⟨.cwait 3 2 5 6 0, located, _, _, _, _, _, _, 0x110008, rfl, by delta State.admits; decide +kernel, by decide +kernel, by decide +kernel, by decide +kernel, by decide +kernel, by decide +kernel⟩,
    ⟨.waita 3 2 5 6 7, located, _, _, _, _, _, _, 0x110008, rfl, by delta State.admits; decide +kernel, by decide +kernel, by decide +kernel, by decide +kernel, by decide +kernel, by decide +kernel⟩,
    ⟨.waitat 3 2 5 6 0, cxs (fun c => { c with ox := c.ox.set 7 1 }) located, _, _, _, _, _, _, 0x110008, rfl, by delta State.admits; decide +kernel, by decide +kernel, by decide +kernel, by decide +kernel, by decide +kernel, by decide +kernel, by decide +kernel⟩,
    ⟨.waitat 3 2 5 6 0, located, _, _, _, _, _, _, 0x110008, rfl, by delta State.admits; decide +kernel, by decide +kernel, by decide +kernel, by decide +kernel, by decide +kernel, by decide +kernel, by decide +kernel⟩⟩

/-- The running task registered on its location. -/
def registered : State := { located with registrations := [⟨0x110008, 0x10008, located.cx.tid, 56, 2, 4⟩] }

theorem witness_registrations :
    (∃ (la : BitVec 4) (sc : BitVec 2) (d a b : Reg) (s : State) (pa : Nat), s.admits la ⟨[d], [], []⟩ ∧ s.owed < 256 ∧ s.x b ≠ 0 ∧
      (s.x b).toNat < 2 ^ 32 ∧ s.site sc (s.x a) 8 true = .at_ pa ∧ deviceOf pa = s.dev.toNat ∧
      (s.drainSent s.cx pa).unreleased (s.drainSent s.cx pa).cx.before = false ∧
      ((s.drainSent s.cx pa).registrations.filter (fun r => r.tid == (s.drainSent s.cx pa).cx.tid)).length < 4 ∧
      ∀ r, r ∈ (s.drainSent s.cx pa).registrations →
        ¬ (r.pa = (s.drainSent s.cx pa).locationKey pa ∧ r.tid = (s.drainSent s.cx pa).cx.tid)) ∧
    (∃ (la : BitVec 4) (d a : Reg) (s : State) (r : Registration), s.admits la ⟨[d], [], []⟩ ∧ s.owed < 256 ∧ (s.x a).toNat % 8 = 0 ∧
      s.registrationAt (s.x a) = some r ∧ deviceOf (s.keyAddr r.pa) = s.dev.toNat ∧
      (s.drainSent s.cx (s.keyAddr r.pa)).unreleased (s.drainSent s.cx (s.keyAddr r.pa)).cx.before = false) ∧
    ∃ (la : BitVec 4) (d a : Reg) (s : State), s.admits la ⟨[d], [], []⟩ ∧ (s.x a).toNat % 8 = 0 ∧ s.registrationAt (s.x a) = none :=
  ⟨⟨3, 2, 5, 6, 7, located, 0x110008, by delta State.admits; decide +kernel, by decide +kernel, by decide +kernel, by decide +kernel, by decide +kernel, by decide +kernel, by decide +kernel, by decide +kernel, by decide +kernel⟩,
    ⟨0, 5, 6, registered, ⟨0x110008, 0x10008, located.cx.tid, 56, 2, 4⟩, by delta State.admits; decide +kernel, by decide +kernel, by decide +kernel, by decide +kernel, by decide +kernel, by decide +kernel⟩,
    ⟨0, 5, 6, located, by delta State.admits; decide +kernel, by decide +kernel, by decide +kernel⟩⟩

/-- A live subscription of the running task. -/
def subscribed : State := setX [(6, 31), (7, 32)] { base with subs := [⟨31, base.cx.tid, 14, 0, 0, 32, 0, 0, [], [], 0⟩] }

/-- A core that publishes to a subscription, of which an update is on its way. -/
def publishing : State :=
  { base with
    subs := [⟨31, base.cx.tid, 1, 0, 0, 32, 14, 0, [], [], 0⟩], inflight := [.subscriptionUpdate 31 ⟨[(0, 0)], ⟨base.cx.tid, 0, 0⟩, none⟩] }

theorem witness_subscriptions :
    (∃ (d : Reg) (s : State), s.admits 0 ⟨[d], [], []⟩) ∧
    (∃ (d a : Reg) (s : State) (b : Sub), s.admits 0 ⟨[d], [], []⟩ ∧ (s.x a).toNat ≤ 31 ∧ s.subNamed (s.x a).toNat = some b ∧ b.end_ ≠ 1) ∧
    (∃ (d a : Reg) (s : State), s.admits 0 ⟨[d], [], []⟩ ∧ (s.x a).toNat ≤ 31 ∧ s.subNamed (s.x a).toNat = none) ∧
    (∃ (d : Reg) (s : State), s.admits 0 ⟨[d], [], []⟩ ∧ s.flushHeld (coreHere s) = true) ∧
    (∃ (d : Reg) (s : State), s.admits 0 ⟨[d], [], []⟩ ∧ s.flushHeld (coreHere s) = false) ∧
    ∃ (d a : Reg) (s : State), s.admits 0 ⟨[d], [], []⟩ ∧ 31 < (s.x a).toNat :=
  ⟨⟨5, subscribed, by delta State.admits; decide +kernel⟩, ⟨5, 6, subscribed, ⟨31, base.cx.tid, 14, 0, 0, 32, 0, 0, [], [], 0⟩, by delta State.admits; decide +kernel, by decide +kernel, by decide +kernel, by decide +kernel⟩,
    ⟨5, 0, subscribed, by delta State.admits; decide +kernel, by decide +kernel, by decide +kernel⟩, ⟨5, publishing, by delta State.admits; decide +kernel, by decide +kernel⟩, ⟨5, subscribed, by delta State.admits; decide +kernel, by decide +kernel⟩, ⟨5, 7, subscribed, by delta State.admits; decide +kernel, by decide +kernel⟩⟩

/-- A partition with a claim window for group 0. -/
def windowed : State := located.withPart 0 (fun p => { p with cwin := [(0, 100)] })

/-- The running actor has a record of a claim by processor 9, and of one decided. -/
def recorded : State :=
  setX [(6, 0x10008), (7, 0x0100000000000009)]
    ({ base with actors := [{ Actor.fresh 0 base.cx.actor with claims := [⟨0x10008, 9, 0, 100, 200⟩] }] })

theorem witness_claims :
    (∃ (a : Reg) (d : Reg) (s : State) (pa : Nat), s.admits 0 ⟨[d], [], []⟩ ∧ (s.cx.readOx 6).toNat < 16 ∧ (s.x a).toNat % 8 = 0 ∧
      field (tget s.part.cwin (s.cx.readOx 6).toNat 0) 0 32 ≠ 0 ∧ s.cx.tag.micro ≠ BitVec.allOnes 32 ∧ s.claimable (s.x a).toNat = some pa ∧
      (∀ c, c ∈ s.claims → ¬ (c.decided = false ∧ c.pa = pa ∧ c.claimer = s.cx.lcore)) ∧
      (((s.release s.cx.key 2).drainSent (s.release s.cx.key 2).cx pa).unreleased
        ((s.release s.cx.key 2).drainSent (s.release s.cx.key 2).cx pa).cx.before = false) ∧
      (tget s.part.cwin (s.cx.readOx 6).toNat 0).getLsbD 32 = false) ∧
    (∃ (a d : Reg) (s : State), s.admits 0 ⟨[d], [], []⟩ ∧ (s.cx.readOx 6).toNat < 16 ∧ (s.x a).toNat % 8 = 0 ∧
      field (tget s.part.cwin (s.cx.readOx 6).toNat 0) 0 32 = 0) ∧
    (∃ (d a b : Reg) (s : State) (r : ClaimRecord), s.admits 0 ⟨[d], [], []⟩ ∧ field (s.x b) 26 30 = 0 ∧ field (s.x b) 56 8 ≠ 0 ∧
      (((s.actorOf s.cx.part s.cx.actor).claims).filter (fun k => k.addr == s.x a && k.claimer == (s.x b).setWidth 26)).getLast? = some r ∧
      s.clock < r.ta + r.window ∧ field (s.x b) 16 10 = s.dev.toNat) ∧
    (∃ (d a : Reg) (s : State) (e : Word × Nat), s.admits 0 ⟨[d], [], []⟩ ∧ s.cx.decisions.find? (fun k => k.1 == s.x a) = some e) ∧
    (∃ (d a : Reg) (s : State), s.admits 0 ⟨[d], [], []⟩ ∧ s.cx.decisions.find? (fun k => k.1 == s.x a) = none ∧
      (∀ c, c ∈ s.claims → ¬ (c.decided = false ∧ c.addr = s.x a ∧ c.tid = s.cx.tid))) ∧
    ∃ (d a b : Reg) (s : State), s.admits 0 ⟨[d], [], []⟩ ∧ (s.x a).toNat ≤ 15 ∧ (s.x b).toNat < 2 ^ 33 :=
  ⟨⟨6, 5, windowed, 0x110008, by delta State.admits; decide +kernel, by decide +kernel, by decide +kernel, by decide +kernel, by decide +kernel, by decide +kernel, by decide +kernel, by decide +kernel, by decide +kernel⟩, ⟨6, 5, located, by delta State.admits; decide +kernel, by decide +kernel, by decide +kernel, by decide +kernel⟩,
    ⟨5, 6, 7, recorded, ⟨0x10008, 9, 0, 100, 200⟩, by delta State.admits; decide +kernel, by decide +kernel, by decide +kernel, by decide +kernel, by decide +kernel, by decide +kernel⟩,
    ⟨5, 6, cxs (fun c => { c with decisions := [(0x10008, 256)] }) located, (0x10008, 256), by delta State.admits; decide +kernel, by decide +kernel⟩,
    ⟨5, 6, located, by delta State.admits; decide +kernel, by decide +kernel, by decide +kernel⟩, ⟨5, 6, 7, setX [(6, 15), (7, 2 ^ 33 - 1)] base, by delta State.admits; decide +kernel, by decide +kernel, by decide +kernel⟩⟩


/-! ## Runs of accesses to one page

A core may drop its translation entry between any two accesses (log entry 4): the page tables then give the same leaf again. -/

theorem translate_mapped {s : State} {core part va : Nat} {level : BitVec 2} {store : Bool} {l : Leaf} (hw : s.walk part va = some l)
    (he : ((tget s.cores core Core.reset).tlb.find? (fun e => e.part == part && e.va / e.leaf.size == va / e.leaf.size)).all
      (fun e => e.leaf == l) = true) (hc : l.check level store = 0) :
    s.translate core part level va store = .ok l (l.addr va) := by
  have h : s.leafAt core part va = some l := by
    unfold State.leafAt
    split
    · next hg =>
      unfold State.walk at hw
      rw [if_pos (Or.comm.mp hg)] at hw
      cases hw
    unfold State.tlbFind
    cases hf : (tget s.cores core Core.reset).tlb.find? (fun e => e.part == part && e.va / e.leaf.size == va / e.leaf.size) with
    | none => exact hw
    | some e =>
      rw [hf] at he
      have : e.leaf = l := eq_of_beq he
      by_cases hv : Config.tlbEvicted s.turn e.va = true <;> simp [hv, hw, this]
  simp [State.translate, h, hc]

/-- A core's translation entries after a walk that repairs nothing. -/
def pageFill (s : State) (core part va : Nat) (l : Leaf) : State :=
  s.withCore core (fun c =>
    { c with tlb := (⟨part, va / l.size * l.size, l⟩ ::
        c.tlb.filter (fun e => !(e.part == part && e.va / e.leaf.size == va / e.leaf.size))).take 64 })

theorem walkRepairs_none {s : State} (h : s.badWords = []) (va : Nat) : ∀ n table, s.walkRepairs va n table = s
  | 0, _ => by simp [State.walkRepairs, State.scrub, h]
  | n + 1, _ => by simp [State.walkRepairs, State.scrub, h, walkRepairs_none h va n]

theorem tlbFill_none {s : State} (h : s.badWords.isEmpty = true) (core part va : Nat) (l : Leaf) :
    s.tlbFill core part va l = pageFill s core part va l := by
  simp [State.tlbFill, pageFill, walkRepairs_none (List.isEmpty_iff.mp h)]

/-- The leaf of the page of base. -/
def pageLeaf : Leaf := (base.walk 0 0x10000).getD ⟨0, 1, false, false, false, 0, false, false, false⟩

/-- Whether an access of the running thread lies on the page of base, in HBM of the device, where nothing is being switched. -/
def onPage (s : State) (va : Nat) (store : Bool) : Bool :=
  decide (s.walk s.cx.part va = some pageLeaf) &&
    ((tget s.cores (coreOf s.cx.key) Core.reset).tlb.find? (fun e => e.part == s.cx.part && e.va / e.leaf.size == va / e.leaf.size)).all
      (fun e => e.leaf == pageLeaf) &&
    decide (pageLeaf.check s.cx.pl store = 0) && !s.placeBusy (pageLeaf.addr va) &&
    !s.ownBusy (pageLeaf.addr va) && !s.loadsWait s.cx.tid && s.badWords.isEmpty &&
    match s.placeOf (pageLeaf.addr va) with
    | .hbm dev _ => dev == s.dev.toNat
    | _ => false

/-- A read on the page. -/
def pageRead (s : State) (va n : Nat) : Read :=
  (pageFill s (coreOf s.cx.key) s.cx.part va pageLeaf).cachedRead s.cx.key s.cx.part s.cx.tid pageLeaf (pageLeaf.addr va) n

theorem dataRead_onPage {s : State} {va n : Nat} (h : onPage s va false = true) : s.dataRead va n s.cx.pl = pageRead s va n := by
  simp only [onPage, Bool.and_eq_true, decide_eq_true_eq, Bool.not_eq_true'] at h
  obtain ⟨⟨⟨⟨⟨⟨⟨hw, he⟩, hc⟩, hb⟩, -⟩, hl⟩, hm⟩, hp⟩ := h
  simp only [State.dataRead, pageRead, translate_mapped hw he hc, tlbFill_none hm]
  cases hq : s.placeOf (pageLeaf.addr va) with
  | hbm dev _ =>
    rw [hq] at hp
    simp [hb, hl, show dev = s.dev.toNat from eq_of_beq hp]
  | _ => rw [hq] at hp; cases hp

/-- A load of a run, on the page. -/
def pageLoad (va : Word) (n i : Nat) (r : VRun) : VRun :=
  match pageRead r.s va.toNat n with
  | .value bytes s1 =>
    { r with
      s := s1, value := BitVec.ofNat 4096 (r.value.toNat + ofBytes bytes * 2 ^ (256 * i))
      watched := r.watched || r.s.cx.watches va.toNat n false }
  | _ => { r with held := true }

/-- The loads of a wide read, on the page: whether each can be made, and what comes of them. -/
def pageLoads (va : Word) (pl : BitVec 2) : List Nat → VRun → Bool × VRun
  | [], r => (true, r)
  | i :: is, r =>
    let a := va + BitVec.ofNat 64 (32 * i)
    let t := pageLoads va pl is (pageLoad a 32 i r)
    (r.ok && decide (a.toNat % 32 = 0) && decide (r.s.cx.pl = pl) && onPage r.s a.toNat false && isValue (pageRead r.s a.toNat 32) && t.1, t.2)

theorem load_onPage {r : VRun} {a : Word} {n i : Nat} (h1 : r.ok = true) (h2 : a.toNat % n = 0) (h4 : onPage r.s a.toNat false = true)
    (h5 : isValue (pageRead r.s a.toNat n) = true) :
    r.load a n 0 r.s.cx.pl (fun v x => BitVec.ofNat 4096 (v.toNat + x * 2 ^ (256 * i))) = pageLoad a n i r := by
  unfold VRun.load pageLoad
  rw [dataRead_onPage h4]
  obtain ⟨b, s1, hv⟩ := value_of h5
  simp [h1, h2, hv]

theorem loads_onPage (va : Word) (pl : BitVec 2) : ∀ (is : List Nat) (r : VRun), (pageLoads va pl is r).1 = true →
    is.foldl (fun (r : VRun) i => r.load (va + BitVec.ofNat 64 (32 * i)) 32 0 pl
      (fun v x => BitVec.ofNat 4096 (v.toNat + x * 2 ^ (256 * i)))) r = (pageLoads va pl is r).2
  | [], _, _ => rfl
  | i :: is, r, h => by
    simp only [pageLoads, Bool.and_eq_true, decide_eq_true_eq] at h
    obtain ⟨⟨⟨⟨⟨h1, h2⟩, h3⟩, h4⟩, h5⟩, h6⟩ := h
    subst h3
    rw [List.foldl_cons, load_onPage h1 h2 h4 h5]
    exact loads_onPage va _ is _ h6

theorem readWide_onPage {s : State} {va : Word} {n : Nat}
    (h : (pageLoads va s.cx.pl (List.range (n / 32)) (VRun.start s 0 0)).1 = true) :
    s.readWide va n = (pageLoads va s.cx.pl (List.range (n / 32)) (VRun.start s 0 0)).2 := loads_onPage va _ _ _ h

/-- A wide read of the page ends without a fault. -/
def widely (s : State) (va : Word) (n : Nat) : Bool :=
  let t := pageLoads va s.cx.pl (List.range (n / 32)) (VRun.start s 0 0)
  t.1 && t.2.fault.isNone && !t.2.held && !t.2.watched

theorem readWide_of {s : State} {va : Word} {n : Nat} (h : widely s va n = true) :
    (s.readWide va n).fault = none ∧ (s.readWide va n).held = false ∧ (s.readWide va n).watched = false := by
  simp only [widely, Bool.and_eq_true, Bool.not_eq_true', Option.isNone_iff_eq_none] at h
  rw [readWide_onPage h.1.1.1]
  exact ⟨h.1.1.2, h.1.2, h.2⟩

/-- The state with copies of the page's first lines in the level 1 of core 14. -/
def cached (n : Nat) (s : State) : State :=
  s.withCore 14 (fun c => { c with lines := (List.range n).map (fun i => ⟨0x110000 / 32 + i, 0, 0, none, [], 0, 0, false, 0, false, false, 0⟩) })

theorem readRecord_of {s : State} {va : Word} {a b : Line} (hp : onPage s va.toNat false = true)
    (h1 : s.lineFor s.cx.key (pageLeaf.addr va.toNat / 32) = some a) (h2 : s.lineFor s.cx.key (pageLeaf.addr va.toNat / 32 + 1) = some b)
    (h3 : a.stamp = b.stamp) : s.readRecordOf va = s.readWide va 64 := by
  simp only [onPage, Bool.and_eq_true, decide_eq_true_eq, Bool.not_eq_true'] at hp
  obtain ⟨⟨⟨⟨⟨⟨⟨hw, he⟩, hc⟩, -⟩, -⟩, -⟩, -⟩, -⟩ := hp
  simp [State.readRecordOf, translate_mapped hw he hc, State.alignBlock, h1, h2, h3]

/-- A store of a run, on the page, and whether it can be made. -/
def pageStore (word : BitVec 32) (va : Word) (bytes : List Byte) (r : VRun) : VRun :=
  { r with
    s := (pageFill r.s (coreOf r.s.cx.key) r.s.cx.part va.toNat pageLeaf).putData pageLeaf (pageLeaf.addr va.toNat) bytes va word
    watched := r.watched || r.s.cx.watches va.toNat bytes.length true }

theorem store_onPage {r : VRun} {a : Word} {bytes : List Byte} {word : BitVec 32} (h1 : r.ok = true) (h2 : a.toNat % bytes.length = 0)
    (h3 : onPage r.s a.toNat true = true) (h4 : r.s.storeRefused pageLeaf (pageLeaf.addr a.toNat) bytes.length = 0)
    (h5 : r.s.leavesCore pageLeaf (pageLeaf.addr a.toNat) = false) :
    r.store a bytes 0 r.s.cx.pl word = pageStore word a bytes r := by
  simp only [onPage, Bool.and_eq_true, decide_eq_true_eq, Bool.not_eq_true'] at h3
  obtain ⟨⟨⟨⟨⟨⟨⟨hw, he⟩, hc⟩, hb⟩, ho⟩, -⟩, hm⟩, -⟩ := h3
  unfold VRun.store pageStore
  simp [h1, h2, translate_mapped hw he hc, hb, ho, h4, h5, tlbFill_none hm]

/-- The stores of a wide write, on the page: whether each can be made, and what comes of them. -/
def pageStores (word : BitVec 32) (pl : BitVec 2) : List (Word × List Byte) → VRun → Bool × VRun
  | [], r => (true, r)
  | u :: us, r =>
    let t := pageStores word pl us (pageStore word u.1 u.2 r)
    (r.ok && decide (u.1.toNat % u.2.length = 0) && decide (r.s.cx.pl = pl) && onPage r.s u.1.toNat true &&
      decide (r.s.storeRefused pageLeaf (pageLeaf.addr u.1.toNat) u.2.length = 0) && !r.s.leavesCore pageLeaf (pageLeaf.addr u.1.toNat) && t.1, t.2)

theorem stores_onPage (word : BitVec 32) (pl : BitVec 2) : ∀ (us : List (Word × List Byte)) (r : VRun), (pageStores word pl us r).1 = true →
    us.foldl (fun (r : VRun) u => r.store u.1 u.2 0 pl word) r = (pageStores word pl us r).2
  | [], _, _ => rfl
  | u :: us, r, h => by
    simp only [pageStores, Bool.and_eq_true, decide_eq_true_eq, Bool.not_eq_true'] at h
    obtain ⟨⟨⟨⟨⟨⟨h1, h2⟩, h3⟩, h4⟩, h5⟩, h6⟩, h7⟩ := h
    subst h3
    rw [List.foldl_cons, store_onPage h1 h2 h4 h5 h6]
    exact stores_onPage word _ us _ h7

/-- The 64-byte units of a vector register stored at an address. -/
def units (va : Word) (v : VWord) : List (Word × List Byte) :=
  (List.range 8).map (fun i => (va + BitVec.ofNat 64 (64 * i), bytesOf (v.toNat / 2 ^ (512 * i)) 64))

/-- A wide write to the page ends without a fault. -/
def widelyWritten (s : State) (va : Word) (v : VWord) (word : BitVec 32) : Bool :=
  let t := pageStores word s.cx.pl (units va v) (VRun.start s 0 0)
  (s.firstBad s.cx.pl true (s.accessBad s.cx.pl) ((units va v).map (fun u => (u.1, 64)))).isNone && t.1 && t.2.fault.isNone && !t.2.held &&
    !t.2.watched

theorem writeWide_of {s : State} {va : Word} {v : VWord} {word : BitVec 32} (h : widelyWritten s va v word = true) :
    (s.writeWide va v word).fault = none ∧ (s.writeWide va v word).held = false ∧ (s.writeWide va v word).watched = false := by
  simp only [widelyWritten, Bool.and_eq_true, Bool.not_eq_true', Option.isNone_iff_eq_none] at h
  obtain ⟨⟨⟨⟨hb, h1⟩, h2⟩, h3⟩, h4⟩ := h
  have := stores_onPage word s.cx.pl _ _ h1
  unfold State.writeWide
  unfold units at hb this
  simp only [hb, this]
  exact ⟨h2, h3, h4⟩



/-! ## Hypotheses that something meets: caches, banks and engines -/

theorem witness_caches :
    (∃ (a b d : Reg) (s : State), s.admits 0 ⟨[d], [], []⟩ ∧ (s.x a).toNat + (s.x b).toNat ≤ 2 ^ 64) ∧
    ∃ (a b d : Reg) (s : State), s.admits 0 ⟨[d], [], []⟩ ∧ 2 ^ 64 < (s.x a).toNat + (s.x b).toNat :=
  ⟨⟨6, 7, 5, setX [(6, 2 ^ 64 - 1), (7, 1)] base, by delta State.admits; decide +kernel, by decide +kernel⟩, ⟨6, 7, 5, setX [(6, 2 ^ 64 - 1), (7, 2)] base, by delta State.admits; decide +kernel, by decide +kernel⟩⟩

/-- A thread at level 1 that names bank 31 of its cluster, and a descriptor. -/
def banking (v : Word) : State := setX [(6, 0x1F), (7, v)] (atLevel 1 base)

theorem witness_banks :
    (∃ (d a b : Reg) (s : State) (g : Nat), 1 ≤ s.cx.pl.toNat ∧ s.admits 0 ⟨[d], [], []⟩ ∧ s.x a &&& ~~~0x1FF1F = 0 ∧
      s.bankNamed (s.x a) = some g ∧ descriptorBad (s.x b) = false ∧ bankBusy (s.bank g) = false ∧
      (s.x b).setWidth 9 &&& 0xFF ≠ s.bank g) ∧
    (∃ (d a b : Reg) (s : State) (g : Nat), 1 ≤ s.cx.pl.toNat ∧ s.admits 0 ⟨[d], [], []⟩ ∧ s.x a &&& ~~~0x1FF1F = 0 ∧
      s.bankNamed (s.x a) = some g ∧ descriptorBad (s.x b) = false ∧ bankBusy (s.bank g) = false ∧
      (s.x b).setWidth 9 &&& 0xFF = s.bank g) ∧
    (∃ (s : State), s.cx.pl = 0) ∧
    ∃ (g : Nat) (s : State) (e : Nat × BitVec 9), (s.cluster (g / 32)).switching.find? (fun k => k.1 == g % 32) = some e :=
  ⟨⟨5, 6, 7, banking 1, 31, by decide +kernel, by delta State.admits; decide +kernel, by decide +kernel, by decide +kernel, by decide +kernel, by decide +kernel, by decide +kernel⟩, ⟨5, 6, 7, banking 2, 31, by decide +kernel, by delta State.admits; decide +kernel, by decide +kernel, by decide +kernel, by decide +kernel, by decide +kernel, by decide +kernel⟩, ⟨base, by decide +kernel⟩,
    ⟨31, base.withCluster 0 (fun c => { c with switching := [(31, 1)] }), (31, 1), by decide +kernel⟩⟩

/-- A second page of 64 KB at 0x20000, on the scratchpad window of core 14. -/
def windowPage : State :=
  cxs (fun c => { c with ox := c.ox.set 5 1, unack := 255 }) <| setX [(6, 0x20008), (7, 5), (8, 0x20009)]
    { base with mem := Memory.writeCells base.mem (cellsOf 0x103010 (bytesOf (windowAddr 14 0 + 2 + 0x70) 8)) }

theorem witness_multicast :
    (∃ (d a : Reg) (s : State) (leaf : Leaf) (pa l core woff : Nat), s.admits 0 ⟨[d], [], []⟩ ∧ (s.x a).toNat % 8 = 0 ∧
      s.translate (coreHere s) s.cx.part s.cx.pl (s.x a).toNat true = .ok leaf pa ∧ s.multicastWord pa = some (l, core, woff) ∧
      (List.range 64).filter (fun j => (s.cx.readOx 5).getLsbD j) ≠ [] ∧
      (∀ j, j ∈ (List.range 64).filter (fun j => (s.cx.readOx 5).getLsbD j) → l + j < s.part.clusters.length) ∧
      s.owed + ((List.range 64).filter (fun j => (s.cx.readOx 5).getLsbD j)).length ≤ 256) ∧
    ∃ (d a : Reg) (s : State), s.admits 0 ⟨[d], [], []⟩ ∧ (s.x a).toNat % 8 ≠ 0 := by
  refine ⟨?_, ⟨5, 8, windowPage, by delta State.admits; decide +kernel, by decide +kernel⟩⟩
  have h : (match windowPage.translate 14 0 0 0x20008 true with | .ok _ pa => windowPage.multicastWord pa == some (0, 14, 8) | _ => false) = true := by decide +kernel
  have e : windowPage.translate (coreHere windowPage) windowPage.cx.part windowPage.cx.pl (windowPage.x 6).toNat true =
    windowPage.translate 14 0 0 0x20008 true := by decide +kernel
  cases ht : windowPage.translate 14 0 0 0x20008 true with
  | fault _ _ => rw [ht] at h; cases h
  | ok leaf pa =>
    rw [ht] at h
    exact ⟨5, 6, windowPage, leaf, pa, 0, 14, 8, by delta State.admits; decide +kernel, by decide +kernel, e.trans ht, eq_of_beq h, by decide +kernel, by decide +kernel, by decide +kernel⟩

/-- A thread with a descriptor and a record of zeros at x6, whose lines its core holds. -/
def pushing : State := cached 4 (setX [(6, 0x10040), (7, 3)] base)

theorem witness_pushes :
    (∃ (d a : Reg) (s : State) (h : Nat), s.admits 0 ⟨[d], [], []⟩ ∧ (s.x a).toNat % 64 = 0 ∧
      (s.readWide (s.x a) 64).fault = none ∧ (s.readWide (s.x a) 64).held = false ∧ (s.readWide (s.x a) 64).watched = false ∧
      (∀ e, e < 4 → (forkEntry (s.readWide (s.x a) 64).value.toNat e).2.2 = true) ∧
      (List.range 4).find? (fun k => !s.cx.handles.getLsbD k) = some h) ∧
    (∃ (d a b : Reg) (s : State), s.admitsRing 0 ⟨[d], [], []⟩ ∧ (s.x a).toNat % 64 = 0 ∧ (s.x b).toNat < 4 ∧ s.owed < 256 ∧
      (s.readRecordOf (s.x a)).fault = none ∧ (s.readRecordOf (s.x a)).held = false ∧ (s.readRecordOf (s.x a)).watched = false) ∧
    (∃ (d a b : Reg) (s : State), s.admitsRing 0 ⟨[d], [], []⟩ ∧ ((s.x a).toNat % 64 ≠ 0 ∨ 4 ≤ (s.x b).toNat)) ∧
    ∃ (d a b : Reg) (s : State), s.admitsRing 0 ⟨[d], [], []⟩ ∧ ((s.x a).toNat % 64 ≠ 0 ∨ 4 ≤ (s.x b).toNat) := by
  have h : widely pushing 0x10040 64 = true := by decide +kernel
  have hp : ∀ e, e < 4 → (forkEntry (pushing.readWide 0x10040 64).value.toNat e).2.2 = true := by
    rw [readWide_onPage (s := pushing) (va := 0x10040) (n := 64) (by decide +kernel)]; decide +kernel
  obtain ⟨h1, h2, h3⟩ := readWide_of h
  have hr : pushing.readRecordOf 0x10040 = pushing.readWide 0x10040 64 :=
    readRecord_of (a := ⟨0x8802, 0, 0, none, [], 0, 0, false, 0, false, false, 0⟩) (b := ⟨0x8803, 0, 0, none, [], 0, 0, false, 0, false, false, 0⟩)
      (by decide +kernel) (by decide +kernel) (by decide +kernel) rfl
  have g1 : (pushing.readRecordOf 0x10040).fault = none := hr ▸ h1
  have g2 : (pushing.readRecordOf 0x10040).held = false := hr ▸ h2
  have g3 : (pushing.readRecordOf 0x10040).watched = false := hr ▸ h3
  exact ⟨⟨5, 6, pushing, 0, by delta State.admits; decide +kernel, by decide +kernel, h1, h2, h3, hp, by decide +kernel⟩, ⟨5, 6, 7, pushing, by delta State.admitsRing State.admits; decide +kernel, by decide +kernel, by decide +kernel, by decide +kernel, g1, g2, g3⟩,
    ⟨5, 6, 7, setX [(6, 1), (7, 3)] base, by delta State.admitsRing State.admits; decide +kernel, by decide +kernel⟩, ⟨5, 6, 7, setX [(6, 64), (7, 4)] base, by delta State.admitsRing State.admits; decide +kernel, by decide +kernel⟩⟩

/-- A command of the running task in a state, with its ring entry. -/
def command (state : Nat) (waiting : Bool) : Cmd :=
  { num := 4, cluster := 0, core := 14, engine := 0, program := 0, record := 0, tid := base.cx.tid, ctx := 56, part := 0, seq := 1, pc := 0
    word := 0, tag := ⟨0, 0⟩, level := 0, state := state, flags := {}, pidx := 0, addr := 0, waiting := waiting, prev := none
    broken := false, unread := 0, kept := [], carryIn := none, map := none, group := none, sent := false, entry := none }
def commanded (state : Nat) (waiting : Bool) (b : Word) : State :=
  { cxs (fun c => { c with ring := [⟨1, 0, 0, 0, state, 0, 0, some 4⟩] }) (setX [(6, 1), (7, b)] base) with cmds := [command state waiting] }

/-- A task with a handle whose program has ended, with one command aborted. -/
def programmed : State :=
  { cxs (fun c => { c with handles := 8 }) (setX [(6, 4)] base) with
    programs := [⟨3, 0, 14, 1, base.cx.tid, 56, 4, 0, 0, 0, 1, 1, 0, 1, 0, ⟨base.cx.tid, 0, 0⟩, true⟩] }

theorem witness_engineCommands :
    (∃ (d a : Reg) (s : State), s.admits 0 ⟨[d], [], []⟩ ∧ (s.x a).toNat ≤ 4 ∧ s.x a ≠ 0 ∧
      BitVec.ofNat 4 (2 ^ ((s.x a).toNat - 1)) &&& s.cx.handles ≠ 0 ∧
      (∀ p, p ∈ s.programsOf (BitVec.ofNat 4 (2 ^ ((s.x a).toNat - 1)) &&& s.cx.handles) → p.ended = true)) ∧
    (∃ (d a : Reg) (s : State), s.admits 0 ⟨[d], [], []⟩ ∧ s.x a = 0 ∧ s.cx.handles ≠ 0 ∧ (∀ p, p ∈ s.programsOf s.cx.handles → p.ended = true)) ∧
    (∃ (d a : Reg) (s : State), s.admits 0 ⟨[d], [], []⟩ ∧ s.x a = 0 ∧ s.cx.handles = 0) ∧
    (∃ (d a : Reg) (s : State) (e : RingEntry), s.admits 0 ⟨[d], [], []⟩ ∧ s.cx.commandEntry (s.x a) = some e ∧ e.state < 8) ∧
    (∃ (d a : Reg) (s : State), s.admits 0 ⟨[d], [], []⟩ ∧ s.cx.commandEntry (s.x a) = none) ∧
    (∃ (d a b : Reg) (s : State) (e : RingEntry) (k : Cmd), s.admits 0 ⟨[d], [], []⟩ ∧ s.x b = 0 ∧ s.cx.commandEntry (s.x a) = some e ∧
      s.cmds.find? (fun c => some c.num == e.cmd) = some k ∧ k.state = 1) ∧
    (∃ (d a b : Reg) (s : State) (e : RingEntry) (k : Cmd), s.admits 0 ⟨[d], [], []⟩ ∧ s.x b = 0 ∧ s.cx.commandEntry (s.x a) = some e ∧
      s.cmds.find? (fun c => some c.num == e.cmd) = some k ∧ k.state = 2 ∧ k.waiting = true) ∧
    ∃ (d a b : Reg) (s s1 : State) (e : RingEntry) (k : Cmd), s.admits 0 ⟨[d], [], []⟩ ∧ s.x b = 1 ∧ s.cx.commandEntry (s.x a) = some e ∧
      s.cmds.find? (fun c => some c.num == e.cmd) = some k ∧ k.state = 4 ∧ (k.unread ≠ 2 ∨ k.program ≠ 0) ∧ s.retry k = some s1 :=
  ⟨⟨5, 6, programmed, by delta State.admits; decide +kernel, by decide +kernel, by decide +kernel, by decide +kernel, by decide +kernel⟩, ⟨5, 0, programmed, by delta State.admits; decide +kernel, by decide +kernel, by decide +kernel, by decide +kernel⟩, ⟨5, 0, base, by delta State.admits; decide +kernel, by decide +kernel, by decide +kernel⟩,
    ⟨5, 6, commanded 2 false 0, _, by delta State.admits; decide +kernel, rfl, by decide +kernel⟩, ⟨5, 0, commanded 2 false 0, by delta State.admits; decide +kernel, by decide +kernel⟩,
    ⟨5, 6, 7, commanded 1 false 0, _, _, by delta State.admits; decide +kernel, by decide +kernel, rfl, rfl, rfl⟩, ⟨5, 6, 7, commanded 2 true 0, _, _, by delta State.admits; decide +kernel, by decide +kernel, rfl, rfl, rfl, rfl⟩,
    ⟨5, 6, 7, commanded 4 false 1, _, _, _, by delta State.admits; decide +kernel, by decide +kernel, rfl, rfl, rfl, by decide +kernel, rfl⟩⟩

/-- Slot 63 and tile 1 named by x6 and x7, with slot 63 held by a task. -/
def slotted (tid : Word) : State := setX [(6, 1 <<< 63), (7, 2)] (base.withCluster 0 (fun c => { c with slotOwner := [(63, tid)], tileOwner := [(1, tid)] }))

/-- A member of a gang of four clusters whose quad is bound. -/
def quadded : State :=
  cxs (fun c => { c with gang := some ⟨0, 4, 3, true⟩ }) (setX [(6, 1)] (base.withCluster 0 (fun c =>
    { c with quad := [⟨base.cx.tid, 3, [1], 0, false⟩] })))

theorem witness_matrixResources :
    (∃ (d a b : Reg) (s : State), s.admits 0 ⟨[d], [], []⟩ ∧ (s.x b).toNat < 4 ∧
      (∀ n, n ∈ unitsNamed (s.x a) (s.x b) → (clusterHere s).unitFree n = true ∨ (clusterHere s).holds s.cx.tid n = true)) ∧
    (∃ (d a b : Reg) (s : State) (n : Nat), s.admits 0 ⟨[d], [], []⟩ ∧ (s.x b).toNat < 4 ∧ n ∈ unitsNamed (s.x a) (s.x b) ∧
      (clusterHere s).unitFree n = false ∧ (clusterHere s).holds s.cx.tid n = false) ∧
    (∃ (d a b : Reg) (s : State), s.admits 0 ⟨[d], [], []⟩ ∧ (s.x b).toNat < 4 ∧
      (∀ n, n ∈ unitsNamed (s.x a) (s.x b) → (clusterHere s).holds s.cx.tid n = true)) ∧
    (∃ (d a b : Reg) (s : State), s.admits 0 ⟨[d], [], []⟩ ∧ s.x a &&& ~~~0xFF7F = 0 ∧ s.x b &&& ~~~0xFF0F7FFF = 0 ∧
      1 ≤ field (s.x a) 8 8 ∧ field (s.x a) 0 7 + field (s.x a) 8 8 ≤ 128) ∧
    (∃ (d a : Reg) (s : State), s.admits 0 ⟨[d], [], []⟩ ∧ s.x a = 0) ∧
    (∃ (d a : Reg) (s : State), s.admits 0 ⟨[d], [], []⟩ ∧ s.x a = 1 ∧ s.cx.gang = none) ∧
    ∃ (d a : Reg) (s : State) (g : Member) (q : Quad), s.admits 0 ⟨[d], [], []⟩ ∧ s.x a = 1 ∧ s.cx.gang = some g ∧ g.clusters = true ∧
      g.size = 4 ∧ (clusterHere s).quad.find? (fun k => k.tid == s.cx.tid) = some q ∧ q.members ≠ [] ∧ q.told = false :=
  ⟨⟨5, 6, 7, setX [(6, 1 <<< 63), (7, 2)] base, by delta State.admits; decide +kernel, by decide +kernel, by decide +kernel⟩, ⟨5, 6, 7, slotted 99, 63, by delta State.admits; decide +kernel, by decide +kernel, by decide +kernel, by decide +kernel, by decide +kernel⟩,
    ⟨5, 6, 7, slotted base.cx.tid, by delta State.admits; decide +kernel, by decide +kernel, by decide +kernel⟩, ⟨5, 6, 7, setX [(6, 0x8000), (7, 0xFF0F7FFF)] base, by delta State.admits; decide +kernel, by decide +kernel, by decide +kernel, by decide +kernel, by decide +kernel⟩,
    ⟨5, 0, base, by delta State.admits; decide +kernel, by decide +kernel⟩, ⟨5, 6, setX [(6, 1)] base, by delta State.admits; decide +kernel, by decide +kernel, by decide +kernel⟩,
    ⟨5, 6, quadded, _, _, by delta State.admits; decide +kernel, by decide +kernel, rfl, rfl, rfl, rfl, by decide +kernel, rfl⟩⟩

/-- Copy tags set on core 14, of which x6 names some. -/
def tagged (tags a b : Word) : State := setX [(6, a), (7, b)] (base.withCore 14 (fun c => { c with ctags := tags }))

theorem witness_copyTags :
    (∃ (d a : Reg) (s : State), s.admits 0 ⟨[d], [], []⟩ ∧ s.core.ctags &&& s.x a ≠ 0 ∧ s.core.ctags &&& s.x a ≠ s.x a) ∧
    (∃ (d a : Reg) (s : State), s.admits 0 ⟨[d], [], []⟩ ∧ s.x a ≠ 0 ∧ s.core.ctags &&& s.x a = s.x a) ∧
    (∃ (d a b : Reg) (s : State), s.admits 0 ⟨[d], [], []⟩ ∧ s.x a ≠ 0 ∧ s.core.ctags &&& s.x a = 0 ∧ s.x b = 0) ∧
    ∃ (d a b : Reg) (s : State), s.admits 0 ⟨[d], [], []⟩ ∧ s.x a ≠ 0 ∧ s.core.ctags &&& s.x a = 0 ∧ s.clock < (s.x b).toNat :=
  ⟨⟨5, 6, tagged 8 12 0, by delta State.admits; decide +kernel, by decide +kernel, by decide +kernel⟩, ⟨5, 6, tagged 12 8 0, by delta State.admits; decide +kernel, by decide +kernel, by decide +kernel⟩, ⟨5, 6, 7, tagged 0 8 0, by delta State.admits; decide +kernel, by decide +kernel, by decide +kernel, by decide +kernel⟩,
    ⟨5, 6, 7, tagged 0 8 1, by delta State.admits; decide +kernel, by decide +kernel, by decide +kernel, by decide +kernel⟩⟩

/-- The chain of the next states. -/
def theChain (n p : Nat) (tail : Option VWord) : Chain := ⟨n, [(p, base.cx.tid, 14), (1 - p, 99, 0)], [], none, [], tail⟩

/-- Chain 15 of two positions, with the running task at one and another task at the other. -/
def chained (n p : Nat) (tail : Option VWord) (a b : Word) : State :=
  setX [(6, a), (7, b)] { base with chains := [(chainHere base 15, theChain n p tail)] }

theorem witness_chains :
    (∃ (d a b : Reg) (s : State), s.admits 0 ⟨[d], [], []⟩ ∧ s.x a &&& ~~~0xFF0F = 0 ∧ field (s.x a) 8 8 = 1 ∧ s.x b = 0 ∧
      s.chain (chainHere s (field (s.x a) 0 4)) = none) ∧
    (∃ (d a b : Reg) (s : State) (c : Chain) (w : Word), s.admits 0 ⟨[d], [], []⟩ ∧ s.x a &&& ~~~0xFF0F = 0 ∧ 1 ≤ field (s.x a) 8 8 ∧
      field (s.x a) 8 8 ≤ 64 ∧ (s.x b).toNat < field (s.x a) 8 8 ∧ s.chain (chainHere s (field (s.x a) 0 4)) = some c ∧ w ≠ s.cx.tid ∧
      (∃ k, ((s.x b).toNat, w, k) ∈ c.taken) ∧ (∀ j, j ∈ c.joining → j.1 ≠ s.cx.tid)) ∧
    (∃ (d a : Reg) (s : State), s.admits 0 ⟨[d], [], []⟩ ∧ (s.x a).toNat < 16 ∧
      (s.positionOn (chainHere s (s.x a).toNat) s.cx.tid).isSome = true) ∧
    (∃ (d a b : Reg) (s : State) (c : Chain), s.admits 0 ⟨[d], [], []⟩ ∧ (s.x a).toNat < 16 ∧ (s.x b).toNat % 64 = 0 ∧
      s.chain (chainHere s (s.x a).toNat) = some c ∧ s.positionOn (chainHere s (s.x a).toNat) s.cx.tid = some 0 ∧ c.seed = none ∧
      (s.readWide (s.x b) 512).fault = none ∧ (s.readWide (s.x b) 512).held = false ∧ (s.readWide (s.x b) 512).watched = false) ∧
    ∃ (d a b : Reg) (s : State) (c : Chain) (p : Nat) (v : VWord), s.admits 0 ⟨[d], [], []⟩ ∧ (s.x a).toNat < 16 ∧
      (s.x b).toNat % 64 = 0 ∧ s.chain (chainHere s (s.x a).toNat) = some c ∧
      s.positionOn (chainHere s (s.x a).toNat) s.cx.tid = some p ∧ p + 1 = c.n ∧ c.tail = some v ∧
      (s.writeWide (s.x b) v (recordWord (wrWord 0x39 d.toNat a.toNat b.toNat 3 0))).fault = none ∧
      (s.writeWide (s.x b) v (recordWord (wrWord 0x39 d.toNat a.toNat b.toNat 3 0))).held = false ∧
      (s.writeWide (s.x b) v (recordWord (wrWord 0x39 d.toNat a.toNat b.toNat 3 0))).watched = false := by
  have hr : widely (cached 16 (chained 2 0 none 15 0x10000)) ((cached 16 (chained 2 0 none 15 0x10000)).x 7) 512 = true := by decide +kernel
  have hw : widelyWritten (cached 16 (chained 2 1 (some 5) 15 0x10000)) ((cached 16 (chained 2 1 (some 5) 15 0x10000)).x 7) 5
    (recordWord (wrWord 0x39 (5 : Reg).toNat (6 : Reg).toNat (7 : Reg).toNat 3 0)) = true := by decide +kernel
  obtain ⟨h1, h2, h3⟩ := readWide_of hr
  obtain ⟨g1, g2, g3⟩ := writeWide_of hw
  refine ⟨⟨5, 6, 0, setX [(6, 0x10F)] base, by delta State.admits; decide +kernel, by decide +kernel, by decide +kernel, by decide +kernel, by decide +kernel⟩,
    ⟨5, 6, 7, chained 2 0 none 0x20F 1, theChain 2 0 none, 99, by delta State.admits; decide +kernel, by decide +kernel, by decide +kernel, by decide +kernel, by decide +kernel, by decide +kernel, by decide +kernel,
      ⟨0, by rw [show ((chained 2 0 none 0x20F 1).x 7).toNat = 1 from by decide +kernel]; exact List.mem_cons_of_mem _ (List.mem_singleton.mpr rfl)⟩, fun _ h => nomatch h⟩,
    ⟨5, 6, chained 2 0 none 15 0, by delta State.admits; decide +kernel, by decide +kernel, by decide +kernel⟩, ?_, ?_⟩
  · exact ⟨5, 6, 7, cached 16 (chained 2 0 none 15 0x10000), theChain 2 0 none, by delta State.admits; decide +kernel, by decide +kernel, by decide +kernel, by decide +kernel, by decide +kernel, by decide +kernel, h1, h2, h3⟩
  · exact ⟨5, 6, 7, cached 16 (chained 2 1 (some 5) 15 0x10000), theChain 2 1 (some 5), 1, 5, by delta State.admits; decide +kernel, by decide +kernel, by decide +kernel, by decide +kernel, by decide +kernel, by decide +kernel, by decide +kernel, g1, g2, g3⟩


/-! ## Hypotheses that something meets: happenings -/

/-- A load pending for x5, of the running task. -/
def pendingLoad (k : PendKind) : State := cxs (fun c => { c with pends := [⟨k, 5, 1, 0, 0, 0, 0, 0⟩] }) base

/-- A request of the running task, and of a task that is no longer there. -/
def origin (tid : Word) : Origin := ⟨0, 0, 0, 56, tid, 0x10008, 0, 0, ⟨0, 0⟩, 0, 0⟩

/-- A store of one byte. -/
def request (tid : Word) : HomeReq := .store (origin tid) (cellsOf 0x110008 [7])

/-- Device 1 speaks for partition 0, which takes system atomics from it. -/
def fabricked : State :=
  { base with stations := [((1, 1), 0)], access := loadAccess.map (fun e => ((e.1.1, 0, 6), e.2)) }

theorem witness_replies :
    (∃ (tid : Word) (d : Reg) (level : Nat) (s : State) (c : Ctx), level ≤ 42 ∧ d ≠ 0 ∧ s.taskOf tid = some c ∧
      c.pends.any (Pend.repliesTo d) = true) ∧
    (∃ (q : HomeReq) (pa dev off : Nat) (b : Byte) (bs : List Byte) (s : State), q.origin.cls ≠ 6 ∧ q.cells = cellsOf pa (b :: bs) ∧
      q.count = 1 ∧ s.placeBusy pa = false ∧ s.placeOf pa = .hbm dev off ∧ dev = s.dev.toNat ∧
      s.grantsHbm ((s.partition q.origin.part).homeOf off) q.origin.part q.origin.cls rightWrite pa = true) ∧
    (∃ (q : HomeReq) (pa dev off : Nat) (b : Byte) (bs : List Byte) (s : State), q.origin.cls ≠ 6 ∧ q.cells = cellsOf pa (b :: bs) ∧
      q.count = 1 ∧ s.placeBusy pa = false ∧ s.placeOf pa = .hbm dev off ∧ dev = s.dev.toNat ∧
      s.grantsHbm ((s.partition q.origin.part).homeOf off) q.origin.part q.origin.cls rightWrite pa = false) ∧
    (∃ (device pa part : Nat) (op : AtomicOp) (s : State), s.stationPart device = some part ∧
      s.atomicAccepts 0 part 3 (s.dev.toNat * 2 ^ 48 + pa % 2 ^ 48) = true ∧
      s.atomicGrants part 6 (s.dev.toNat * 2 ^ 48 + pa % 2 ^ 48) = true ∧
      s.spoiledFor part (s.dev.toNat * 2 ^ 48 + pa % 2 ^ 48) (atomicSize op) = false) ∧
    (∃ (device pa part : Nat) (x : Word) (s : State), s.stationPart device = some part ∧
      s.atomicAccepts 0 part 3 (s.dev.toNat * 2 ^ 48 + pa % 2 ^ 48) = true ∧
      s.atomicGrants part 6 (s.dev.toNat * 2 ^ 48 + pa % 2 ^ 48) = true ∧
      s.spoiledFor part (s.dev.toNat * 2 ^ 48 + pa % 2 ^ 48) 8 = false ∧
      s.keyValue (s.locationKey (s.dev.toNat * 2 ^ 48 + pa % 2 ^ 48)) = x) ∧
    (∃ (device : Nat) (s : State), s.stationPart device = none) ∧
    (∃ (q : HomeReq) (s : State), s.taskOf q.origin.tid = none ∧ q.count = 1) ∧
    ∃ (q : HomeReq) (s : State) (c : Ctx) (p : Pend), s.taskOf q.origin.tid = some c ∧ c.tid = q.origin.tid ∧
      c.pends.find? (fun p => p.repliesTo p.dest && p.pc == q.origin.pc) = some p :=
  ⟨⟨base.cx.tid, 5, 42, pendingLoad (.reply false), (pendingLoad (.reply false)).cx, by decide +kernel, by decide +kernel, by decide +kernel, by decide +kernel⟩,
    ⟨request base.cx.tid, 0x110008, 0, 0x110008, 7, [], base, by decide +kernel, rfl, rfl, by decide +kernel, by decide +kernel, by decide +kernel, by decide +kernel⟩,
    ⟨request base.cx.tid, 0x110008, 0, 0x110008, 7, [], { base with access := [] }, by decide +kernel, rfl, rfl, by decide +kernel, by decide +kernel, by decide +kernel, by decide +kernel⟩,
    ⟨1, 0x110008, 0, .rdadd, fabricked, by decide +kernel, by decide +kernel, by decide +kernel, by decide +kernel⟩, ⟨1, 0x110008, 0, 0, fabricked, by decide +kernel, by decide +kernel, by decide +kernel, by decide +kernel, by decide +kernel⟩,
    ⟨1, base, by decide +kernel⟩, ⟨request 99, base, by decide +kernel, rfl⟩,
    ⟨request base.cx.tid, pendingLoad (.reply false), (pendingLoad (.reply false)).cx, _, by decide +kernel, by decide +kernel, rfl⟩⟩

/-- Bank 0 of cluster 0 as a FIFO. -/
def fifoed (f : Fifo) : State := (pendingLoad (.fifo 0)).withCluster 0 (fun c => { c with banks := [(0, 1)], fifos := [(0, f)] })

theorem witness_fifos :
    (∃ (g : Nat) (s : State), bankBusy (s.bank g) = false ∧ (s.fifo g).entries.length < 8192 ∧ (s.fifo g).pushes = []) ∧
    (∃ (g : Nat) (s : State), bankBusy (s.bank g) = false ∧ 8192 ≤ (s.fifo g).entries.length ∧ (s.fifo g).pushes = []) ∧
    (∃ (g : Nat) (s : State), bankBusy (s.bank g) = false ∧ (s.fifo g).pushes ≠ []) ∧
    (∃ (tid : Word) (g : Nat) (d : Reg) (s : State) (v : Word) (r : List Word) (c : Ctx), bankBusy (s.bank g) = false ∧
      (s.fifo g).entries = v :: r ∧ (s.fifo g).pops = [] ∧ (s.fifo g).headBad ≠ some true ∧ s.taskOf tid = some c ∧
      c.pends.any (fun p => p.kind == .fifo g && p.dest == d) = true) ∧
    (∃ (g : Nat) (s : State), bankBusy (s.bank g) = false ∧ (s.fifo g).entries = []) ∧
    (∃ (g : Nat) (s : State), bankBusy (s.bank g) = false ∧ (s.fifo g).pops ≠ []) ∧
    (∃ (g : Nat) (s : State) (o : Origin) (v : Word) (r : List (Origin × Word)), (s.fifo g).pushes = (o, v) :: r ∧
      (s.fifo g).entries.length < 8192) ∧
    (∃ (g n : Nat) (s : State) (v : Word) (es : List Word) (ps : List Popper),
      (s.fifo g).pops = .device n :: ps ∧ (s.fifo g).entries = v :: es ∧ (s.fifo g).headBad ≠ some true) ∧
    (∃ (g : Nat) (s : State) (tid : Word) (d : Reg) (v : Word) (es : List Word) (ps : List Popper),
      (s.fifo g).pops = .task tid d :: ps ∧ (s.fifo g).entries = v :: es ∧ (s.fifo g).headBad ≠ some true) ∧
    ∃ (g : Nat) (s : State), bankBusy (s.bank g) = true :=
  ⟨⟨0, fifoed .empty, by decide +kernel⟩, ⟨0, fifoed ⟨List.replicate 8192 1, [], [], []⟩, by decide +kernel⟩,
    ⟨0, fifoed ⟨[], [], [(origin 1, 7)], []⟩, by decide +kernel, by decide +kernel⟩,
    ⟨base.cx.tid, 0, 5, fifoed ⟨[7], [], [], []⟩, 7, [], (pendingLoad (.fifo 0)).cx, by decide +kernel, by decide +kernel, by decide +kernel, by decide +kernel, by decide +kernel, by decide +kernel⟩,
    ⟨0, fifoed .empty, by decide +kernel⟩, ⟨0, fifoed ⟨[], [], [], [.device 1]⟩, by decide +kernel, by decide +kernel⟩,
    ⟨0, fifoed ⟨[], [], [(origin 1, 7)], []⟩, origin 1, 7, [], by decide +kernel, by decide +kernel⟩,
    ⟨0, 1, fifoed ⟨[7], [], [], [.device 1]⟩, 7, [], [], by decide +kernel, by decide +kernel, by decide +kernel⟩, ⟨0, fifoed ⟨[7], [], [], [.task 1 5]⟩, 1, 5, 7, [], [], by decide +kernel, by decide +kernel, by decide +kernel⟩,
    ⟨0, base.withCluster 0 (fun c => { c with switching := [(0, 1)] }), by decide +kernel⟩⟩

/-- A subscription of number 3. -/
def oneSub (e : Nat) : Sub := ⟨3, base.cx.tid, 14, 0, 0, 32, 0, e, [], [], 0⟩

theorem witness_wakes :
    (∃ (pa : Nat) (v : Word) (l : Bool) (s : State) (p : Pend), s.cx.run ≠ .idle ∧ s.cx.pends.find? (fun p => p.wakes pa v) = some p ∧
      wokenEntry p pa l ∧ ¬ (l = true ∧ v = BitVec.allOnes 64)) ∧
    (∃ (pa : Nat) (s : State) (p : Pend), s.cx.run ≠ .idle ∧ s.cx.pends.find? (fun p => p.wakes pa (BitVec.allOnes 64)) = some p ∧
      wokenEntry p pa true) ∧
    (∃ (tid : Word) (pa : Nat) (s : State) (c : Ctx) (p : Pend) (e : Word) (lim : Nat), s.taskOf tid = some c ∧
      c.pends.find? (fun p => (p.timed pa).any (fun t => decide (t.1 ≤ s.clock))) = some p ∧ p.timed pa = some (lim, e)) ∧
    (∃ (n : Nat) (s : State) (b : Sub), s.subs.find? (fun b => b.num == n) = some b ∧ b.end_ = 0) ∧
    ∃ (n : Nat) (s : State) (b : Sub), s.subs.find? (fun b => b.num == n) = some b ∧ b.end_ ≠ 0 :=
  ⟨⟨8, 9, true, pendingLoad (.entry 8 true 9 2 none (some 9)), _, by decide +kernel, rfl, ⟨9, 2, none, 9, rfl⟩, by decide +kernel⟩,
    ⟨8, pendingLoad (.entry 8 true 9 2 none (some (BitVec.allOnes 64))), _, by decide +kernel, rfl, ⟨9, 2, none, BitVec.allOnes 64, rfl⟩⟩,
    ⟨base.cx.tid, 8, pendingLoad (.entry 8 false 9 2 (some 0) none), (pendingLoad (.entry 8 false 9 2 (some 0) none)).cx, _, 9, 0, by decide +kernel, rfl, rfl⟩,
    ⟨3, { base with subs := [oneSub 0] }, _, rfl, rfl⟩, ⟨3, { base with subs := [oneSub 2] }, _, rfl, by decide +kernel⟩⟩


/-- A claim on the word at 0x10008 by processor 9. -/
def oneClaim (decideAt : Nat) (decided : Bool) : Claim :=
  ⟨4, 0, 0, 0x10008, 0x110008, 7, 9, base.cx.tid, 56, 0, 100, decideAt, none, decided, 0⟩

theorem witness_objections :
    (∃ (addr : Word) (claimer : BitVec 26) (s : State) (c : Claim),
      (s.claims.filter (fun c => c.addr == addr && c.claimer == claimer)).getLast? = some c ∧
      s.claims.find? (fun k => k.num == c.num) = some c ∧ c.decided = false ∧ s.clock < c.decideAt) ∧
    (∃ (addr : Word) (claimer : BitVec 26) (s : State) (c : Claim),
      (s.claims.filter (fun c => c.addr == addr && c.claimer == claimer)).getLast? = some c ∧
      s.claims.find? (fun k => k.num == c.num) = some c ∧ (c.decided = true ∨ c.decideAt ≤ s.clock) ∧ base.cx.tid.toNat / 2 ^ 48 = s.dev.toNat) ∧
    (∃ (tid : Word) (s : State), tid.toNat / 2 ^ 48 = s.dev.toNat) ∧
    (∃ (n : Nat) (s : State) (c : Claim), s.claims.find? (fun c => c.num == n && !c.decided) = some c ∧ c.decideAt ≤ s.clock ∧
      deviceOfCore c.claimer = s.dev.toNat ∧ deviceOf c.pa = s.dev.toNat ∧ c.failed = none) ∧
    (∃ (n : Nat) (s : State) (c : Claim), s.claims.find? (fun c => c.num == n && !c.decided) = some c ∧ s.clock < c.decideAt) ∧
    ∃ (device pa part : Nat) (s : State), s.farClaimer device pa = some part :=
  ⟨⟨0x10008, 9, { base with claims := [oneClaim 1 false] }, _, rfl, rfl, by decide +kernel⟩,
    ⟨0x10008, 9, { base with claims := [oneClaim 0 true] }, _, rfl, rfl, by decide +kernel, by decide +kernel⟩, ⟨base.cx.tid, base, by decide +kernel⟩,
    ⟨4, { base with claims := [oneClaim 0 false] }, _, rfl, by decide +kernel, by decide +kernel, by decide +kernel, by decide +kernel⟩, ⟨4, { base with claims := [oneClaim 1 false] }, _, rfl, by decide +kernel⟩,
    ⟨1, 0x110008, 0, fabricked, by decide +kernel⟩⟩

/-- An event for the actor at 0x10040, and how it stands in the queue of core 14. -/
def oneEvent (cls : BitVec 2) (time : Word) : Event := ⟨0, ⟨time, 0⟩, 0x10040, 0x10000, 7, 0, cls, ⟨0, 0, 0⟩, 0, 0, none, 0, 0, none, 0, none⟩
def oneQueued (cls : BitVec 2) (time : Word) (safe : Bool) : Queued := ⟨oneEvent cls time, 14, false, safe, false, 0, 0⟩

/-- The actor at 0x10040 with its home on core 14. -/
def homed (running : Bool) : State := { base with actors := [{ Actor.fresh 0 0x10040 with home := some 14, running := running }] }

theorem witness_eventArrivals :
    (∃ (e : Event) (s : State), s.homeCore e.part (actorAddr e.target) = s.hashHome e.part (actorAddr e.target) ∧ takesEvents s e.part ∧
      comesLate s e = false ∧ roomAt s (s.homeCore e.part (actorAddr e.target))) ∧
    (∃ (e : Event) (s : State), s.homeCore e.part (actorAddr e.target) ≠ s.hashHome e.part (actorAddr e.target)) ∧
    (∃ (e : Event) (s : State), takesEvents s e.part ∧ comesLate s e = false ∧ roomAt s (s.homeCore e.part (actorAddr e.target))) ∧
    (∃ (part : Nat) (actor : Word) (s : State) (q : Queued), s.firstEvent part actor = some q ∧ s.isSafe q = true) ∧
    (∃ (part : Nat) (actor : Word) (s : State) (q : Queued), s.firstEvent part actor = some q ∧ s.isSafe q = false) ∧
    (∃ (part : Nat) (actor : Word) (core : Nat) (s : State), (s.actorOf part actor).running = false ∧
      s.gangPlaced (s.actorOf part actor) = false ∧ s.partOfCore core = some part ∧
      (s.events.filter (fun q => forActor part actor q && !q.spilled)).length +
        (s.events.filter (fun q => q.core == core && !q.spilled && !forActor part actor q)).length ≤ 128) ∧
    (∃ (part : Nat) (actor : Word) (s : State), (s.actorOf part actor).running = true ∨ s.gangPlaced (s.actorOf part actor) = true) ∧
    (∃ (part : Nat) (actor : Word) (s : State), s.gangPlaced (s.actorOf part actor) = true) ∧
    ∃ (tid : Word) (cls : BitVec 2) (s : State) (c : Ctx), s.taskOf tid = some c ∧ cls.toNat ≤ (s.raiseOf tid).toNat ∧
      c.raised.toNat < cls.toNat := by
  refine ⟨⟨oneEvent 0 9, base, by decide +kernel, ?_, by decide +kernel, ?_⟩, ⟨oneEvent 0 9, (if base.hashHome 0 0x10040 = 14 then
      { base with actors := [{ Actor.fresh 0 0x10040 with home := some 15 }] } else homed false), by decide +kernel⟩,
    ⟨oneEvent 0 9, homed false, ?_, by decide +kernel, ?_⟩, ⟨0, 0x10040, { base with events := [oneQueued 0 9 true] }, oneQueued 0 9 true, by decide +kernel, by decide +kernel⟩,
    ⟨0, 0x10040, { base with events := [oneQueued 0 9 false] }, oneQueued 0 9 false, by decide +kernel, by decide +kernel⟩,
    ⟨0, 0x10040, 15, homed false, by decide +kernel, by decide +kernel, by decide +kernel, by decide +kernel⟩, ⟨0, 0x10040, homed true, by decide +kernel⟩,
    ⟨0, 0x10040, cxs (fun c => { c with root := true, queue := 3, gang := some ⟨5, 2, 1, false⟩ })
      { base with actors := [{ Actor.fresh 0 0x10040 with gang := some (3, 5) }] }, by decide +kernel⟩, ?_⟩
  · unfold takesEvents; decide +kernel
  · unfold roomAt; decide +kernel
  · unfold takesEvents; decide +kernel
  · unfold roomAt; decide +kernel
  · exact ⟨base.cx.tid, 3, withOther { base.cx with key := 0, tid := 9, eff := 3, pends := [⟨.entry 8 true 9 2 none none, 5, 1, 0, 0, 0, 0, 0⟩] }
      { base with registrations := [⟨8, 8, base.cx.tid, 56, 2, 1⟩] }, base.cx, by decide +kernel, by decide +kernel, by decide +kernel⟩

/-- Core 14 with the event of an actor that may start, and a task forked there or on core 0. -/
def queuedUp : State := { homed false with events := [oneQueued 3 9 true] }
def forkedOn (core : Nat) : State := base.withCore core (fun c => { c with deque := [⟨{ base.cx with tid := 9 }, 1, core, false⟩] })

/-- Core 14 with every context taken, at the least class. -/
def crowded : State :=
  { queuedUp with others := [{ base.cx with key := 57, tid := 7 }, { base.cx with key := 58, tid := 8 }, { base.cx with key := 59, tid := 9 }] }.withPart 0
    (fun p => { p with sanum := 1 })

theorem witness_dispatch :
    (∃ (key part n : Nat) (s : State) (c : Cand) (q : Queued), (∀ e, e ∈ s.queues → e.2.gang = none) ∧ s.idleAt key = true ∧ s.partOfCore (coreOf key) = some part ∧
      s.tailFor (coreOf key) (coreOf key) = none ∧
      choose s.clock (tget s.cores (coreOf key) Core.reset).pickCount (s.candidates (coreOf key)) (s.candidatesFor key) = some (c, n) ∧ c.work = .reaction q ∧
      q.late = false) ∧
    (∃ (key part : Nat) (s : State) (e : DequeEntry), (∀ e, e ∈ s.queues → e.2.gang = none) ∧ s.idleAt key = true ∧ s.partOfCore (coreOf key) = some part ∧
      s.gangReserved.contains key = false ∧ s.hintOf key = none ∧ s.tailFor (coreOf key) (coreOf key) = some e ∧ s.candidatesFor key = []) ∧
    (∃ (key : Nat) (s : State), s.idleAt key = false) ∧
    (∃ (key part : Nat) (s : State), s.partOfCore (coreOf key) = some part ∧ s.idleAt key = true ∧ s.victims part (coreOf key) ≠ []) ∧
    (∃ (q : StealReq) (s : State) (e : DequeEntry), s.tailFor q.victim (coreOf q.thiefCtx) = some e ∧ s.idleAt q.thiefCtx = true ∧
      s.gangReserved.contains q.thiefCtx = false ∧ s.hintOf q.thiefCtx = none) ∧
    (∃ (q : StealReq) (s : State), s.tailFor q.victim (coreOf q.thiefCtx) = none) ∧
    (∃ (key : Nat) (s s1 : State) (c : Cand), best Cand.before (s.candidates (coreOf key)) = some c ∧ s.pushedOut (coreOf key) = some key ∧
      s.switchOut key (coreOf key) = some s1 ∧ s1.idleAt key = true) ∧
    ∃ (key : Nat) (s : State), s.pushedOut (coreOf key) ≠ some key := by
  have h1 : (match choose queuedUp.clock (tget queuedUp.cores 14 Core.reset).pickCount (queuedUp.candidates 14) (queuedUp.candidatesFor 57) with
    | some (c, _) => (match c.work with | .reaction q => !q.late | _ => false) | none => false) = true := by decide +kernel
  have h2 : (match crowded.pushedOut 14 with
    | some k => coreOf k == 14 && (best Cand.before (crowded.candidates 14)).isSome && (crowded.switchOut k 14).any (fun s1 => s1.idleAt k)
    | none => false) = true := by decide +kernel
  refine ⟨?_, ⟨57, 0, forkedOn 14, ⟨{ base.cx with tid := 9 }, 1, 14, false⟩, by decide +kernel, by decide +kernel, by decide +kernel, by decide +kernel, by decide +kernel, by decide +kernel, by decide +kernel⟩, ⟨56, base, by decide +kernel⟩,
    ⟨57, 0, forkedOn 0, by decide +kernel, by decide +kernel, by decide +kernel⟩, ⟨⟨57, 0⟩, forkedOn 0, ⟨{ base.cx with tid := 9 }, 1, 0, false⟩, by decide +kernel, by decide +kernel, by decide +kernel, by decide +kernel⟩,
    ⟨⟨57, 0⟩, base, by decide +kernel⟩, ?_, ⟨56, base, by decide +kernel⟩⟩
  · cases hc : choose queuedUp.clock (tget queuedUp.cores 14 Core.reset).pickCount (queuedUp.candidates 14) (queuedUp.candidatesFor 57) with
    | none => rw [hc] at h1; cases h1
    | some cn =>
      obtain ⟨c, n⟩ := cn
      rw [hc] at h1
      cases hw : c.work with
      | resume _ => simp [hw] at h1
      | reaction q =>
        simp [hw] at h1
        exact ⟨57, 0, n, queuedUp, c, q, by decide +kernel, by decide +kernel, by decide +kernel, by decide +kernel, hc, hw, h1⟩
  · cases hk : crowded.pushedOut 14 with
    | none => rw [hk] at h2; cases h2
    | some k =>
      rw [hk] at h2
      simp only [Bool.and_eq_true, Option.isSome_iff_exists, Option.any_eq_true, beq_iff_eq] at h2
      obtain ⟨⟨h3, c, h4⟩, s1, h5, h6⟩ := h2
      exact ⟨k, crowded, s1, c, by rw [h3]; exact h4, by rw [h3]; exact hk, by rw [h3]; exact h5, h6⟩

/-- A thread on core 0, which has no XF64. -/
def onCore0 : State := cxs (fun c => { c with key := 0, xf64 := false }) base

theorem witness_migration :
    (∃ (xf64 : Bool) (s : State) (k : Nat), s.cx.run ≠ .idle ∧ s.cx.hasExtension xf64 = false ∧ s.cx.firstFault true = none ∧
      s.cx.open_ = false ∧ s.engineBusy s.cx.tid = false ∧ s.directedTo s.cx.tid = false ∧ ((closed s).release s.cx.key 2).cx.unack = 0 ∧
      ((closed s).release s.cx.key 2).idleContext (migrationTarget xf64 (coreOf s.cx.key)) = some k ∧ k ≠ s.cx.key) ∧
    ∃ (xf64 : Bool) (s : State), s.cx.hasExtension xf64 = true := by
  have h : (((closed onCore0).release 0 2).idleContext (migrationTarget true 0)).any (fun k => k != 0) = true := by decide +kernel
  obtain ⟨k, h1, h2⟩ := (Option.any_eq_true ..).mp h
  exact ⟨⟨true, onCore0, k, by decide +kernel, by decide +kernel, by decide +kernel, by decide +kernel, by decide +kernel, by decide +kernel, by decide +kernel, h1, fun e => by rw [e] at h2; exact absurd h2 (by decide +kernel)⟩, ⟨true, base, by decide +kernel⟩⟩

/-- An endpoint of a task whose queue holds n messages, with its stubs, and a message to the place of its task. -/
def endpointOf (tid : Word) (n : Nat) (stubs : List Stub) : Endpoint := ⟨9, 0, tid, 56, List.replicate n (7, 1), [], stubs⟩
def oneMessage : Message := ⟨0, 9, 7, 1, 56, base.cx.tid, 0, base.placeWord 0 56, false⟩

/-- The same to another place of the core, and to another device. -/
def straying (count : Nat) : Message := { oneMessage with place := base.placeWord 0 57, count := count }
def leaving : Message := { oneMessage with place := 1 <<< 16 }

/-- The endpoint's task is switched out, and its mailbox holds n messages. -/
def switchedOut (n : Nat) : State :=
  { base with endpoints := [{ endpointOf 99 0 [] with mailbox := List.replicate n (7, 1) }], ready := [(14, 0, { base.cx with tid := 99 })] }

theorem witness_messageArrivals :
    (∃ (m : Message) (s : State) (e : Endpoint), field m.place 16 10 = s.dev.toNat ∧ m.fromTid.toNat / 2 ^ 48 = s.dev.toNat ∧
      s.endpoint m.part m.endpoint = some e ∧ s.placeWord e.part e.ctx = m.place ∧
      s.endpoints.find? (fun k => k.name == e.name && k.tid == e.tid) = some e ∧ s.ready.any (fun r => r.2.2.tid == e.tid) = false ∧
      e.queue.length < 32 ∧ (∀ c, s.taskOf e.tid = some c → ∀ p, p ∈ c.pends → p.receives = none)) ∧
    (∃ (m : Message) (s : State) (e : Endpoint), field m.place 16 10 = s.dev.toNat ∧ m.fromTid.toNat / 2 ^ 48 = s.dev.toNat ∧
      s.endpoint m.part m.endpoint = some e ∧ s.placeWord e.part e.ctx = m.place ∧
      s.endpoints.find? (fun k => k.name == e.name && k.tid == e.tid) = some e ∧ s.ready.any (fun r => r.2.2.tid == e.tid) = false ∧
      32 ≤ e.queue.length) ∧
    (∃ (m : Message) (s : State) (e : Endpoint), field m.place 16 10 = s.dev.toNat ∧ m.fromTid.toNat / 2 ^ 48 = s.dev.toNat ∧
      s.endpoint m.part m.endpoint = some e ∧ s.placeWord e.part e.ctx = m.place ∧
      s.endpoints.find? (fun k => k.name == e.name && k.tid == e.tid) = some e ∧ s.ready.any (fun r => r.2.2.tid == e.tid) = true ∧
      ((s.endpoints.filter (fun k => k.tid == e.tid)).map (fun k => k.mailbox.length)).sum < 32) ∧
    (∃ (m : Message) (s : State) (e : Endpoint), field m.place 16 10 = s.dev.toNat ∧ m.fromTid.toNat / 2 ^ 48 = s.dev.toNat ∧
      s.endpoint m.part m.endpoint = some e ∧ s.placeWord e.part e.ctx = m.place ∧
      s.endpoints.find? (fun k => k.name == e.name && k.tid == e.tid) = some e ∧ s.ready.any (fun r => r.2.2.tid == e.tid) = true ∧
      32 ≤ ((s.endpoints.filter (fun k => k.tid == e.tid)).map (fun k => k.mailbox.length)).sum) := by
  refine ⟨⟨oneMessage, { base with endpoints := [endpointOf base.cx.tid 31 []] }, endpointOf base.cx.tid 31 [], by decide +kernel, by decide +kernel, by decide +kernel, by decide +kernel, by decide +kernel, by decide +kernel, by decide +kernel, ?_⟩,
    ⟨oneMessage, { base with endpoints := [endpointOf base.cx.tid 32 []] }, endpointOf base.cx.tid 32 [], by decide +kernel, by decide +kernel, by decide +kernel, by decide +kernel, by decide +kernel, by decide +kernel, by decide +kernel⟩,
    ⟨oneMessage, switchedOut 31, { endpointOf 99 0 [] with mailbox := List.replicate 31 (7, 1) }, by decide +kernel, by decide +kernel, by decide +kernel, by decide +kernel, by decide +kernel, by decide +kernel, by decide +kernel⟩,
    ⟨oneMessage, switchedOut 32, { endpointOf 99 0 [] with mailbox := List.replicate 32 (7, 1) }, by decide +kernel, by decide +kernel, by decide +kernel, by decide +kernel, by decide +kernel, by decide +kernel, by decide +kernel⟩⟩
  intro c hc
  have : State.taskOf { base with endpoints := [endpointOf base.cx.tid 31 []] } (endpointOf base.cx.tid 31 []).tid = some base.cx := by decide +kernel
  rw [this] at hc
  cases hc
  intro p hp
  have h : base.cx.pends = [] := by decide +kernel
  rw [h] at hp
  cases hp

/-- The endpoint's task has left context 57 for 56, and a stub stays. -/
def stubbed : State := { base with endpoints := [endpointOf base.cx.tid 0 [⟨57, 56, 9⟩]] }

theorem witness_messageForwards :
    (∃ (m : Message) (s : State) (e : Endpoint) (k : Stub), field m.place 16 10 = s.dev.toNat ∧ s.endpoint m.part m.endpoint = some e ∧
      s.stubAt e m.place = some k ∧ s.placeWord e.part e.ctx ≠ m.place ∧ m.count < 3) ∧
    (∃ (m : Message) (s : State) (w : Word), s.directoryOf m.part m.endpoint.toNat = s.dev.toNat ∧ field m.place 16 10 = s.dev.toNat ∧
      (∀ e, s.endpoint m.part m.endpoint = some e → s.placeWord e.part e.ctx ≠ m.place ∧ s.stubAt e m.place = none) ∧
      s.foundAt m.part m.endpoint = some w) ∧
    (∃ (m : Message) (s : State), s.directoryOf m.part m.endpoint.toNat = s.dev.toNat ∧ field m.place 16 10 = s.dev.toNat ∧
      (∀ e, s.endpoint m.part m.endpoint = some e → s.placeWord e.part e.ctx ≠ m.place ∧ s.stubAt e m.place = none) ∧
      s.foundAt m.part m.endpoint = none ∧ m.fromTid.toNat / 2 ^ 48 = s.dev.toNat) ∧
    (∃ (m : Message) (s : State) (w : Word), s.directoryOf m.part m.endpoint.toNat = s.dev.toNat ∧ 3 ≤ m.count ∧
      s.foundAt m.part m.endpoint = some w) ∧
    (∃ (m : Message) (s : State), s.directoryOf m.part m.endpoint.toNat = s.dev.toNat ∧
      (∀ e, s.endpoint m.part m.endpoint = some e → s.stubAt e m.place = none) ∧ s.foundAt m.part m.endpoint = none ∧
      m.fromTid.toNat / 2 ^ 48 = s.dev.toNat) ∧
    (∃ (m : Message) (s : State), field m.place 16 10 ≠ s.dev.toNat) ∧
    ∃ (m : Message) (s : State) (w : Word), (s.locate (coreOf m.fromCtx) m.part m.endpoint).1 = some w := by
  have none' : ∀ e, base.endpoint 0 9 = some e → base.placeWord e.part e.ctx ≠ oneMessage.place ∧ base.stubAt e oneMessage.place = none := by
    intro e he
    have h : base.endpoint 0 9 = none := by decide +kernel
    rw [h] at he
    cases he
  refine ⟨⟨straying 2, stubbed, endpointOf base.cx.tid 0 [⟨57, 56, 9⟩], ⟨57, 56, 9⟩, by decide +kernel, by decide +kernel, by decide +kernel, by decide +kernel, by decide +kernel⟩,
    ⟨straying 0, { base with endpoints := [endpointOf base.cx.tid 0 []] }, base.placeWord 0 56, by decide +kernel, by decide +kernel, ?_, by decide +kernel⟩,
    ⟨oneMessage, base, by decide +kernel, by decide +kernel, none', by decide +kernel, by decide +kernel⟩, ⟨straying 3, stubbed, base.placeWord 0 56, by decide +kernel, by decide +kernel, by decide +kernel⟩,
    ⟨oneMessage, base, by decide +kernel, fun e he => (none' e he).2, by decide +kernel, by decide +kernel⟩, ⟨leaving, base, by decide +kernel⟩, ⟨oneMessage, stubbed, base.placeWord 0 56, ?_⟩⟩
  · intro e he
    have h : State.endpoint { base with endpoints := [endpointOf base.cx.tid 0 []] } 0 9 = some (endpointOf base.cx.tid 0 []) := by decide +kernel
    have he' := Option.some.inj (h.symm.trans he)
    subst he'
    exact ⟨by decide +kernel, by decide +kernel⟩
  · have h : (tget stubbed.cores (coreOf oneMessage.fromCtx) Core.reset).locations = [] := by decide +kernel
    unfold State.locate
    rw [h]
    decide +kernel

theorem witness_directory :
    (∃ (tid who : Word) (name : BitVec 32) (c : Ctx) (s : State), s.taskOf tid = some c ∧ name ≠ 0 ∧ s.endpoint c.part name = none ∧
      s.heldFar c.part name = false ∧ (s.endpoints.filter (fun e => e.tid == who)).length < 4 ∧
      (s.endpoints.filter (fun e => e.part == c.part)).length < rfield (s.partition c.part).config 32 4) ∧
    (∃ (name : BitVec 32) (who : Word) (s : State) (e : Endpoint), s.endpoints.find? (fun e => e.name == name && e.tid == who) = some e) ∧
    (∃ (tid : Word) (name : BitVec 32) (c : Ctx) (e : Endpoint) (s : State), s.taskOf tid = some c ∧ s.endpoint c.part name = some e) ∧
    (∃ (device part : Nat) (name : BitVec 32) (s : State), device ≠ s.dev.toNat ∧ s.stationPart device = some part ∧
      s.endpoint part name = none ∧ ∀ b, b ∈ s.farBindings → ¬ (b.name = name ∧ b.part = part)) ∧
    (∃ (name : BitVec 32) (s : State) (e : Endpoint) (k : Stub), e ∈ s.endpoints ∧ e.name = name ∧ k ∈ e.stubs ∧ k.until_ ≤ s.clock) ∧
    ∃ (name : BitVec 32) (s : State) (e : Endpoint) (k : Stub), e ∈ s.endpoints ∧ e.name = name ∧ k ∈ e.stubs ∧ s.clock < k.until_ := by
  refine ⟨⟨base.cx.tid, 1, 9, base.cx, base.withPart 0 (fun p => { p with config := BitVec.ofNat 512 (2 ^ 256) }), by decide +kernel, by decide +kernel, by decide +kernel, by decide +kernel, by decide +kernel, by decide +kernel⟩,
    ⟨9, 1, { base with endpoints := [endpointOf 1 0 []] }, _, rfl⟩,
    ⟨base.cx.tid, 9, base.cx, endpointOf 1 0 [], { base with endpoints := [endpointOf 1 0 []] }, by decide +kernel, by decide +kernel⟩,
    ⟨1, 0, 9, fabricked, by decide +kernel, by decide +kernel, by decide +kernel, ?_⟩,
    ⟨9, { base with endpoints := [endpointOf 1 0 [⟨57, 56, 0⟩]] }, _, ⟨57, 56, 0⟩, List.mem_singleton.mpr rfl, rfl, List.mem_singleton.mpr rfl, by decide +kernel⟩,
    ⟨9, { base with endpoints := [endpointOf 1 0 [⟨57, 56, 1⟩]] }, _, ⟨57, 56, 1⟩, List.mem_singleton.mpr rfl, rfl, List.mem_singleton.mpr rfl, by decide +kernel⟩⟩
  have h : fabricked.farBindings = [] := by decide +kernel
  intro b hb
  rw [h] at hb
  cases hb

/-- The running context waiting. -/
def waitingFor (w : Wait) : State := { cxs (fun c => { c with run := .waiting w }) base with clock := 5 }

theorem witness_contextWaits :
    (∃ (key : Nat) (d : Reg) (limit : Word) (s : State) (c : Ctx), s.ctxAt key = some c ∧ c.run = .waiting (.waiti d limit) ∧ c.asyncDue = true) ∧
    (∃ (key : Nat) (d : Reg) (limit : Word) (s : State) (c : Ctx) (f : FwCore), s.ctxAt key = some c ∧ c.run = .waiting (.waiti d limit) ∧
      c.asyncDue = false ∧ c.pl = 2 ∧ s.firmware.cores[fwIndex key]? = some f ∧ f.wake = true) ∧
    (∃ (key : Nat) (d : Reg) (limit : Word) (s : State) (c : Ctx), s.ctxAt key = some c ∧ c.run = .waiting (.waiti d limit) ∧
      c.asyncDue = false ∧ c.pl ≠ 2 ∧ limit ≠ 0 ∧ limit.toNat ≤ s.clock) ∧
    (∃ (key : Nat) (d : Reg) (s : State) (c : Ctx), s.ctxAt key = some c ∧ c.run = .waiting (.join (some d)) ∧ c.children = 0) ∧
    (∃ (key : Nat) (d : Reg) (target : Nat) (s : State) (c : Ctx), s.ctxAt key = some c ∧ c.run = .waiting (.safew d target) ∧
      target ≤ s.clock) ∧
    (∃ (key n : Nat) (d : Reg) (limit : Word) (joined : List Nat) (s : State) (c : Ctx), limit ≠ 0 ∧ limit.toNat ≤ s.clock ∧
      s.ctxAt key = some c ∧ c.run = .waiting (.lead n limit d joined)) ∧
    (∃ (key core : Nat) (d : Reg) (limit : Word) (s : State) (c : Ctx), limit ≠ 0 ∧ limit.toNat ≤ s.clock ∧
      s.ctxAt key = some c ∧ c.run = .waiting (.follow core limit d false) ∧
      (∀ l, l = s.cx ∨ l ∈ s.others → coreOf l.key = 16 * clusterOf key + core → l.leads = false)) ∧
    (∃ (key : Nat) (d : Reg) (mask limit : Word) (s : State) (c : Ctx), limit ≠ 0 ∧ limit.toNat ≤ s.clock ∧
      s.ctxAt key = some c ∧ c.run = .waiting (.twait d mask true limit) ∧ (tget s.cores (coreOf key) Core.reset).ctags &&& mask ≠ mask) ∧
    ∃ (key : Nat) (d : Reg) (mask limit : Word) (s : State) (c : Ctx), limit ≠ 0 ∧ limit.toNat ≤ s.clock ∧
      s.ctxAt key = some c ∧ c.run = .waiting (.twait d mask false limit) ∧ (tget s.cores (coreOf key) Core.reset).ctags &&& mask = 0 :=
  ⟨⟨56, 5, 0, cxs (fun c => { c with faults := [⟨1, 0, 0, 7, 0, false, 0, none⟩] }) (waitingFor (.waiti 5 0)), _, rfl, rfl, by decide +kernel⟩,
    ⟨0, 5, 0, { cxs (fun c => { c with key := 0, pl := 2 }) (waitingFor (.waiti 5 0)) with
      firmware := { base.firmware with cores := [⟨base.cx, true, true⟩] } }, _, ⟨base.cx, true, true⟩, rfl, rfl, by decide +kernel, by decide +kernel, rfl, rfl⟩,
    ⟨56, 5, 5, waitingFor (.waiti 5 5), _, rfl, rfl, by decide +kernel, by decide +kernel, by decide +kernel, by decide +kernel⟩, ⟨56, 5, waitingFor (.join (some 5)), _, rfl, rfl, by decide +kernel⟩,
    ⟨56, 5, 5, waitingFor (.safew 5 5), _, rfl, rfl, by decide +kernel⟩, ⟨56, 1, 5, 5, [], waitingFor (.lead 1 5 5 []), _, by decide +kernel, by decide +kernel, rfl, rfl⟩,
    ⟨56, 0, 5, 5, waitingFor (.follow 0 5 5 false), _, by decide +kernel, by decide +kernel, rfl, rfl, fun l h => by
      rcases h with rfl | h
      · decide +kernel
      · have h0 : (waitingFor (.follow 0 5 5 false)).others = [] := by decide +kernel
        rw [h0] at h; cases h⟩,
    ⟨56, 5, 3, 5, { tagged 1 0 0 with cx := (waitingFor (.twait 5 3 true 5)).cx, clock := 5 }, _, by decide +kernel, by decide +kernel, rfl, rfl, by decide +kernel⟩,
    ⟨56, 5, 2, 5, { tagged 1 0 0 with cx := (waitingFor (.twait 5 2 false 5)).cx, clock := 5 }, _, by decide +kernel, by decide +kernel, rfl, rfl, by decide +kernel⟩⟩


/-! ## Hypotheses that something meets: engine commands -/

/-- A command of code c whose fields are given by their first bytes, queued for the running task on an engine, at a progress index. -/
def cmdOfFields (c : Nat) (fields : List (Nat × Nat)) (pidx : Nat) : Cmd :=
  { command 1 false with
    engine := c / 64, pidx := pidx, record := BitVec.ofNat 512 (c + (fields.map (fun f => f.2 * 2 ^ (8 * f.1))).sum) }

/-- A state with one command, and a block-formatted page at 0x20000. -/
def withCmd (k : Cmd) : State :=
  { base with cmds := [k], mem := Memory.writeCells base.mem (cellsOf 0x103010 (bytesOf (0x120000 + 2 + 0x70 + 2 ^ 60) 8)) }

theorem starts_of {s : State} {k : Cmd} (h1 : s.cmds.find? (fun c => c.num == k.num) = some k) (h2 : k.state = 1) (h3 : s.canStart k = true) :
    starts s k := ⟨h1, .inl ⟨h2, h3⟩⟩

/-- A CP.CADD, and access entries that let a core use command ports. -/
def aPush : Record := BitVec.ofNat 512 (0x84 + 0x10000 * 2 ^ 128)
def portAccess (s : State) : State :=
  { s with access := loadAccess.map (fun e => (e.1, e.2 ||| 8)) }

theorem witness_ports :
    (∃ (o : Origin) (engine : Nat) (cmd : Record) (s : State), engine = 2 ∧
      s.grantsWindow (coreOf o.ctx / 16) o.part o.cls rightCommand = true ∧ (tget s.cores (coreOf o.ctx) Core.reset).heldPushes = [] ∧
      s.pushRoom o engine cmd = true ∧ s.pushed o engine cmd = none ∧ s.cmds.all (fun c => c.num != s.serial) = true ∧
      (pushedCmd s o engine cmd).headerOk = true ∧ (pushedCmd s o engine cmd).fieldsOk = true) ∧
    (∃ (o : Origin) (engine : Nat) (cmd : Record) (s : State), s.grantsWindow (coreOf o.ctx / 16) o.part o.cls rightCommand = true ∧
      s.pushRoom o engine cmd = false) ∧
    (∃ (o : Origin) (engine : Nat) (cmd : Record) (s : State), s.grantsWindow (coreOf o.ctx / 16) o.part o.cls rightCommand = false ∧
      s.pushed o engine cmd = none) ∧
    (∃ (core engine : Nat) (o : Origin) (cmd : Record) (s : State),
      (tget s.cores core Core.reset).heldPushes.find? (fun h => h.1 == engine) = some (engine, o, cmd) ∧
      s.pushRoom o engine cmd = true ∧ engine = 2 ∧ s.pushed o engine cmd = none ∧
      s.cmds.all (fun c => c.num != s.serial) = true ∧ (pushedCmd s o engine cmd).headerOk = true ∧ (pushedCmd s o engine cmd).fieldsOk = true) ∧
    (∃ (core engine : Nat) (o : Origin) (cmd : Record) (s : State),
      (tget s.cores core Core.reset).heldPushes.find? (fun h => h.1 == engine) = some (engine, o, cmd) ∧ s.pushRoom o engine cmd = false) ∧
    (∃ (off : Nat) (bytes : List Byte), off + bytes.length ≤ 56) ∧
    ∃ (o : Origin) (s : State) (c : Ctx), s.taskOf o.tid = some c :=
  ⟨⟨origin base.cx.tid, 2, aPush, portAccess base, rfl, by decide +kernel, by decide +kernel, by decide +kernel, by decide +kernel, by decide +kernel, by decide +kernel, by decide +kernel⟩,
    ⟨origin base.cx.tid, 2, aPush, { portAccess base with cmds := List.replicate 8 { command 1 false with engine := 2 } }, by decide +kernel, by decide +kernel⟩,
    ⟨origin base.cx.tid, 2, aPush, base, by decide +kernel, by decide +kernel⟩,
    ⟨14, 2, origin base.cx.tid, aPush, base.withCore 14 (fun c => { c with heldPushes := [(2, origin base.cx.tid, aPush)] }), by decide +kernel, by decide +kernel, rfl, by decide +kernel, by decide +kernel, by decide +kernel, by decide +kernel⟩,
    ⟨14, 2, origin base.cx.tid, aPush, { base.withCore 14 (fun c => { c with heldPushes := [(2, origin base.cx.tid, aPush)] }) with
      cmds := List.replicate 8 { command 1 false with engine := 2 } }, by decide +kernel, by decide +kernel⟩,
    ⟨55, [1], by decide +kernel⟩, ⟨origin base.cx.tid, base, _, rfl⟩⟩

/-- A program of two records that lie on the page. -/
def oneProgram (next : Nat) : Program := ⟨3, 0, 14, 2, base.cx.tid, 56, 4, 0, 0, 0x10000, 2, next, 0, 0, 0, ⟨base.cx.tid, 0, 0⟩, false⟩

theorem witness_programs :
    (∃ (n : Nat) (s : State) (p : Program) (c : Ctx), s.programs.find? (fun p => p.num == n) = some p ∧
      p.ended = false ∧ p.aborted = 0 ∧ p.next < p.count ∧ s.cmds.any (fun k => k.program == n && k.state == 4) = false ∧
      s.taskOf p.tid = some c ∧ c.ringFull = false ∧ p.engine < 3 ∧ s.programsBefore p < 16 ∧
      ((Job.start s).read { cmdOf s.serial p.engine p.num 0 { s.programOrigin p c with pc := p.pc, word := p.word } c.nextSeq c.pl 1 with
        addr := p.addr + BitVec.ofNat 64 (64 * p.next) } (p.addr + BitVec.ofNat 64 (64 * p.next)).toNat 64).2.ok = true) ∧
    ∃ (n : Nat) (s : State) (p : Program), s.programs.find? (fun p => p.num == n) = some p ∧ (p.ended = true ∨ p.aborted ≠ 0 ∨ p.count ≤ p.next) := by
  refine ⟨⟨3, { base with programs := [oneProgram 1], access := loadAccess.map (fun e => ((e.1.1, 0, 1), e.2)) }, oneProgram 1, base.cx,
    by decide +kernel, by decide +kernel, by decide +kernel, by decide +kernel, by decide +kernel, by decide +kernel, by decide +kernel, by decide +kernel, by decide +kernel, by decide +kernel⟩, ⟨3, { base with programs := [oneProgram 2] }, oneProgram 2, by decide +kernel, by decide +kernel⟩⟩

/-- The access entries of the engines of a class. -/
def engines (cls : Nat) (s : State) : State :=
  { s with access := loadAccess.map (fun e => ((e.1.1, 0, cls), e.2)) }

theorem witness_completions :
    (∃ (s : State) (k : Cmd), s.cmds.find? (fun c => c.num == k.num) = some k ∧ k.written = true ∧ k.counts = false ∧ k.program = 0 ∧
      k.tagged = true ∧ k.code ≠ 2 ∧ k.code ≠ 3 ∧ k.byte 2 < 64) ∧
    (∃ (s : State) (k : Cmd) (pa : Nat), s.cmds.find? (fun c => c.num == k.num) = some k ∧ k.written = true ∧ k.counts = true ∧
      s.engineCounter k (k.num_ 8 8) = (0, pa) ∧ deviceOf pa = s.dev.toNat ∧ s.placeBusy (s.commandPa k (k.num_ 8 8)) = false) ∧
    (∃ (s : State) (k : Cmd), s.cmds.find? (fun c => c.num == k.num) = some k ∧ k.written = false) ∧
    (∃ (key : Nat) (s : State) (c : Chain), s.chain key = some c) ∧
    (∃ (p : Partial) (s : State) (m : Cmd), s.cmds.find? (s.takes p) = some m ∧ m.grp.ranks = p.ranks ∧ p.code ≠ 0xC2 ∧
      (∀ q, .collectivePartial q ∈ s.inflight → p.cmd ≤ q.cmd)) ∧
    (∃ (p : Partial) (s : State) (m : Cmd), s.cmds.find? (s.takes p) = some m ∧ m.grp.ranks = p.ranks ∧ p.code = 0xC2 ∧
      s.misfits p m = false ∧ (∀ q, .collectivePartial q ∈ s.inflight → p.cmd ≤ q.cmd)) ∧
    ∃ (p : Partial) (s : State), s.cmds.find? (s.takes p) = none := by
  have hn : ∀ (k : Cmd) (p : Partial) (q : Partial), .collectivePartial q ∈ (withCmd k).inflight → p.cmd ≤ q.cmd := fun k p q h => by
    rw [show (withCmd k).inflight = [] from rfl] at h
    cases h
  refine ⟨⟨withCmd { cmdOfFields 0x80 [(1, 16), (2, 63)] 0 with state := 2 }, { cmdOfFields 0x80 [(1, 16), (2, 63)] 0 with state := 2 },
      by decide +kernel, by decide +kernel, by decide +kernel, by decide +kernel, by decide +kernel, by decide +kernel, by decide +kernel, by decide +kernel⟩,
    ⟨engines 1 (withCmd { cmdOfFields 0x80 [(1, 40), (8, 0x10008)] 0 with state := 2 }), { cmdOfFields 0x80 [(1, 40), (8, 0x10008)] 0 with state := 2 },
      0x110008, by decide +kernel, by decide +kernel, by decide +kernel, by decide +kernel, by decide +kernel, by decide +kernel⟩,
    ⟨withCmd (cmdOfFields 0x80 [] 0), cmdOfFields 0x80 [] 0, by decide +kernel, by decide +kernel⟩,
    ⟨chainHere base 15, chained 2 0 none 0 0, theChain 2 0 none, by decide +kernel⟩,
    ⟨⟨0, 9, 0xC0, 0, 0, 0, 0, 0, 1, 1, 2, 0, []⟩, withCmd { cmdOfFields 0xC0 [] 0 with group := some ⟨2, 0, []⟩ },
      { cmdOfFields 0xC0 [] 0 with group := some ⟨2, 0, []⟩ }, by decide +kernel, by decide +kernel, by decide +kernel, hn _ _⟩,
    ⟨⟨0, 9, 0xC2, 0, 0, 0, 0, 1, 2, 1, 2, 0, []⟩, withCmd { cmdOfFields 0xC3 [(38, 1), (46, 2)] 0 with group := some ⟨2, 0, []⟩ },
      { cmdOfFields 0xC3 [(38, 1), (46, 2)] 0 with group := some ⟨2, 0, []⟩ }, by decide +kernel, by decide +kernel, by decide +kernel, by decide +kernel, hn _ _⟩,
    ⟨⟨0, 9, 0xC2, 0, 0, 0, 0, 1, 2, 1, 2, 0, []⟩, base, by decide +kernel⟩⟩


/-- The reads of an engine as a pair, and whether they end well. -/
theorem reads_of {s : State} {k : Cmd} {va n : Nat} (h : ((Job.start s).read k (va % 2 ^ 64) n).2.ok = true) :
    ∃ bytes j, engineReads s k va n bytes j ∧ j = ((Job.start s).read k (va % 2 ^ 64) n).2 ∧ bytes = ((Job.start s).read k (va % 2 ^ 64) n).1 :=
  ⟨_, _, ⟨rfl, h⟩, rfl, rfl⟩

theorem pair_of {α β : Type} (p : α × β) : p = (p.1, p.2) := rfl

/-- A row to be filled, the last. -/
def aFill : Cmd := cmdOfFields 0x00 [(16, 0x20000 - 128), (24, 63), (25, 126), (26, 2), (28, 128)] 1

theorem witness_fill : ∃ (s : State) (k : Cmd) (b0 b1 : Record) (j0 j1 : Job), starts s k ∧ k.byte 26 = k.pidx + 1 ∧
    (Job.start s).readBlock k ((k.num_ 16 8 + k.pidx * k.num_ 28 4) % 2 ^ 64) = (b0, j0) ∧
    j0.readBlock k ((k.num_ 16 8 + k.pidx * k.num_ 28 4) % 2 ^ 64 + 64) = (b1, j1) ∧ j1.ok = true :=
  ⟨engines 2 (withCmd aFill), aFill, _, _, _, _, starts_of (by decide +kernel) (by decide +kernel) (by decide +kernel), by decide +kernel, pair_of _, pair_of _, by decide +kernel⟩

/-- Empty operand rows hold zero blocks, which every operation takes (R128). -/
theorem native_zero (c : Cluster) (f a b t : Nat) (h : c.slots = []) : (c.native f a b t).isSome = true := by
  have hr : ∀ s i, c.slotRow s i = 0 := fun s i => by unfold Cluster.slotRow; rw [h]; rfl
  have h0 : rowBlock 0#1024 0 = 0#512 ∧ rowBlock 0#1024 1 = 0#512 := by decide +kernel
  have hb : blockOk 0#512 = true ∧ pairOk 0#512 0#512 = true := by decide +kernel
  simp [Cluster.native, hr, h0.1, h0.2, hb.1, hb.2]

/-- A native operation, the last of two, on tile 1. -/
def aMma : Cmd := cmdOfFields 0x01 [(16, 60), (17, 62), (18, 1), (19, 62), (20, 2)] 1

theorem witness_mma : ∃ (s : State) (k : Cmd), starts s k ∧ k.byte 20 = k.pidx + 1 ∧
    ((s.cluster k.cluster).native (k.byte 19) (k.byte 16 + k.pidx) (k.byte 17 + k.pidx) (k.byte 18)).isSome = true :=
  ⟨withCmd aMma, aMma, starts_of (by decide +kernel) (by decide +kernel) (by decide +kernel), by decide +kernel, native_zero _ _ _ _ _ rfl⟩

theorem witness_zero : ∃ (s : State) (k : Cmd), starts s k ∧ k.pidx = 0 ∧ (k.byte 16).testBit 1 = true :=
  ⟨withCmd (cmdOfFields 0x04 [(16, 3)] 0), cmdOfFields 0x04 [(16, 3)] 0, starts_of (by decide +kernel) (by decide +kernel) (by decide +kernel), by decide +kernel, by decide +kernel⟩

/-- A row of sums to be written, the last. -/
def aRdacc : Cmd := cmdOfFields 0x05 [(16, 1), (17, 126), (18, 2), (24, 0x10000), (32, 1024)] 1

theorem witness_rdacc : ∃ (s : State) (k : Cmd), starts s k ∧ k.byte 18 = k.pidx + 1 ∧ k.num_ 40 8 = 0 ∧
    ((Job.start s).write k ((k.num_ 24 8 + k.pidx * k.num_ 32 4) % 2 ^ 64) ((List.range 128).flatMap (fun col =>
      bytesOf (tget (s.cluster k.cluster).tiles (16384 * k.byte 16 + 128 * (k.byte 17 + k.pidx) + col) 0).toNat 8))).ok = true :=
  ⟨engines 2 (withCmd aRdacc), aRdacc, starts_of (by decide +kernel) (by decide +kernel) (by decide +kernel), by decide +kernel, by decide +kernel, by decide +kernel⟩

/-- The only row of an output, of tile 0 as sums. -/
def aOut : Cmd := cmdOfFields 0x03 [(17, 8), (21, 1)] 0

theorem witness_out : ∃ (s : State) (k : Cmd) (g off : Nat), starts s k ∧ k.byte 21 = k.pidx + 1 ∧ k.byte 16 = 0 ∧
    s.placeBusy (s.dev.toNat * 2 ^ 48 + windowAddr (16 * k.cluster + mapCore (k.map.getD (s.cluster k.cluster).wholeMap) (k.byte 20 + k.pidx))
      (field (tget (k.map.getD (s.cluster k.cluster).wholeMap) (k.byte 20 + k.pidx) 0) 0 15 * 64 + k.num_ 24 4)) = false ∧
    s.placeOf (s.dev.toNat * 2 ^ 48 + windowAddr (16 * k.cluster + mapCore (k.map.getD (s.cluster k.cluster).wholeMap) (k.byte 20 + k.pidx))
      (field (tget (k.map.getD (s.cluster k.cluster).wholeMap) (k.byte 20 + k.pidx) 0) 0 15 * 64 + k.num_ 24 4)) = .scratchpad g off ∧
    off + ((outForm k).convert ([0].flatMap (fun t => (List.range 128).map ((s.cluster k.cluster).tileVal t (k.byte 20 + k.pidx))))
      ⟨(outForm k).mode, matrixStream (BitVec.ofNat 64 (rfield (s.partition k.part).config 0 8)) (k.num_ 28 4) (k.byte 20 + k.pidx), {}⟩).1.length
      ≤ 65536 ∧
    s.grantsWindow (g / 32) k.part 2 rightWrite = true :=
  ⟨engines 2 (withCmd aOut), aOut, 0, 0, starts_of (by decide +kernel) (by decide +kernel) (by decide +kernel), by decide +kernel, by decide +kernel, by decide +kernel, by decide +kernel, by decide +kernel, by decide +kernel⟩

/-- A joint operation that waits, with its map taken; and the four of one quad, which have run all their units. -/
def aJoint (num cluster units : Nat) : Cmd :=
  { cmdOfFields 0x02 [(18, 1)] units with num := num, cluster := cluster, tid := BitVec.ofNat 64 num, state := 2, waiting := true, map := some [] }
def quadOf (members : List Nat) (n : Nat) (s : State) : State :=
  (List.range n).foldl (fun s c => s.withCluster c (fun c' => { c' with quad := [⟨BitVec.ofNat 64 (4 + c), c, members, 0, true⟩] })) s
def joined : State := quadOf [0, 1, 2, 3] 4 { base with cmds := [aJoint 4 0 4, aJoint 5 1 4, aJoint 6 2 4, aJoint 7 3 4] }

theorem witness_joint :
    (∃ (s : State) (k : Cmd), starts s k ∧ (s.cluster k.cluster).quad = [] ∧ s.taskOf k.tid = none) ∧
    (∃ (s : State) (k : Cmd) (q : Quad), starts s k ∧ (s.cluster k.cluster).quad.find? (fun q => q.tid == k.tid && !q.members.isEmpty) = some q ∧
      k.broken = false ∧ k.map.isSome = true ∧ k.state = 2 ∧ s.jointGone k q.members = false ∧
      ((s.jointMembers k q.members).filterMap (fun m => m)).length ≠ 4) ∧
    ∃ (s : State) (k : Cmd) (q : Quad), starts s k ∧ (s.cluster k.cluster).quad.find? (fun q => q.tid == k.tid && !q.members.isEmpty) = some q ∧
      k.broken = false ∧ k.map.isSome = true ∧ k.state = 2 ∧ s.jointGone k q.members = false ∧
      ((s.jointMembers k q.members).filterMap (fun m => m)).length = 4 ∧
      ((s.jointMembers k q.members).filterMap (fun m => m)).any (fun m => !(m.state == 2 && m.waiting)) = false ∧
      ((s.jointMembers k q.members).filterMap (fun m => m)).any (fun m => m.byte 18 != k.byte 18 || m.byte 20 != k.byte 20) = false ∧
      (JointRun.run (k.byte 18) (4 * k.byte 18 -
        ((s.jointMembers k q.members).filterMap (fun m => m)).foldl (fun (a : Nat) m => Nat.min a m.pidx) (4 * k.byte 18))
        (((s.jointMembers k q.members).filterMap (fun m => m)).foldl (fun (a : Nat) m => Nat.min a m.pidx) (4 * k.byte 18))
        ⟨s.putCmd k, (s.jointMembers k q.members).filterMap (fun m => m), none⟩).stop = none :=
  ⟨⟨{ base with cmds := [aJoint 9 0 0] }, aJoint 9 0 0, ⟨by decide +kernel, .inr ⟨by decide +kernel, by decide +kernel⟩⟩, by decide +kernel, by decide +kernel⟩,
    ⟨quadOf [0, 1, 2, 3] 1 { base with cmds := [aJoint 4 0 0] }, aJoint 4 0 0, ⟨4, 0, [0, 1, 2, 3], 0, true⟩, ⟨by decide +kernel, .inr ⟨by decide +kernel, by decide +kernel⟩⟩, by decide +kernel, by decide +kernel, by decide +kernel, by decide +kernel, by decide +kernel, by decide +kernel⟩,
    ⟨joined, aJoint 4 0 4, ⟨4, 0, [0, 1, 2, 3], 0, true⟩, ⟨by decide +kernel, .inr ⟨by decide +kernel, by decide +kernel⟩⟩, by decide +kernel, by decide +kernel, by decide +kernel, by decide +kernel, by decide +kernel, by decide +kernel, by decide +kernel, by decide +kernel, by decide +kernel⟩⟩

/-- The last output of a scan of two steps, whose carry-in has come. -/
def aScan : Cmd :=
  { cmdOfFields 0x41 [(17, 255), (20, 2), (24, 0x10000), (40, 0x10400)] 3 with
    state := 2, waiting := true, carryIn := some 0, kept := [(0, 0, false), (0, 0, false)] }
def aSeed : Cmd := cmdOfFields 0x42 [(17, 255), (24, 0x10000)] 0
def aChainSeed : Cmd := cmdOfFields 0x42 [(17, 15), (24, 0x10000)] 0

theorem witness_scans :
    (∃ (s : State) (k : Cmd) (cin : VWord) (p : VWord × VWord × Bool), starts s k ∧ k.broken = false ∧
      (commandChain k).all (fun key => (s.positionOn key k.tid).isSome) = true ∧ 2 ≤ k.num_ 20 4 ∧
      k.pidx + 1 = 2 * k.num_ 20 4 ∧ k.carryIn = some cin ∧ k.kept.length = k.num_ 20 4 ∧ k.kept[k.num_ 20 4 - 2]? = some p ∧
      ((Job.start s).write k ((k.num_ 40 8 + 512 * (k.num_ 20 4 - 2)) % 2 ^ 64)
        (bytesOf (scanOutput (k.byte 16) (k.byte 18) cin p).1.toNat 512)).ok = true) ∧
    (∃ (s : State) (k : Cmd) (bytes : List Byte) (j : Job), starts s k ∧ commandChain k = none ∧ k.pidx = 0 ∧
      engineReads s k (k.num_ 24 8) 512 bytes j) ∧
    ∃ (s : State) (k : Cmd) (key : Nat) (c : Chain), starts s k ∧ commandChain k = some key ∧ k.broken = false ∧ k.pidx = 0 ∧
      s.positionOn key k.tid = some 0 ∧ s.chain key = some c ∧ c.seed.isSome = true := by
  obtain ⟨b, j, h, -, -⟩ := reads_of (s := engines 3 (withCmd aSeed)) (k := aSeed) (va := aSeed.num_ 24 8) (n := 512) (by decide +kernel)
  exact ⟨⟨engines 3 (withCmd aScan), aScan, 0, (0, 0, false), ⟨by decide +kernel, .inr ⟨by decide +kernel, by decide +kernel⟩⟩, by decide +kernel, by decide +kernel, by decide +kernel, by decide +kernel, by decide +kernel, by decide +kernel, by decide +kernel, by decide +kernel⟩,
    ⟨engines 3 (withCmd aSeed), aSeed, b, j, starts_of (by decide +kernel) (by decide +kernel) (by decide +kernel), by decide +kernel, by decide +kernel, h⟩,
    ⟨{ withCmd aChainSeed with chains := [(chainHere base 15, { theChain 2 0 none with seed := some 5 })] }, aChainSeed, chainHere base 15,
      { theChain 2 0 none with seed := some 5 }, starts_of (by decide +kernel) (by decide +kernel) (by decide +kernel), by decide +kernel, by decide +kernel, by decide +kernel, by decide +kernel, by decide +kernel, by decide +kernel⟩⟩

def aCopy : Cmd := cmdOfFields 0x80 [(16, 0x10001), (24, 0x10203), (32, 256)] 0
def aFillCopy : Cmd := cmdOfFields 0x83 [(16, 7), (24, 0x10008), (32, 256)] 0
def anElement (c : Nat) : Cmd := cmdOfFields c [(16, 0x10000), (24, 0x10100), (32, 0x10200), (40, 2), (44, 3), (45, 3)] 1
def aWait (n : Nat) : Cmd := cmdOfFields 0x85 [(1, 8), (16, 0x10008), (24, n)] 0

/-- A CP.WAIT that waits with an entry, which a write has satisfied or not. -/
def waitEntered (hit : Bool) : Cmd := { aWait 1 with state := 2, waiting := true, entry := some (0x110008, hit) }

theorem witness_copies :
    (∃ (s : State) (k : Cmd) (bytes : List Byte) (j : Job), starts s k ∧ k.pidx = 0 ∧ 1 ≤ k.num_ 32 8 ∧ k.num_ 32 8 ≤ 256 ∧
      engineReads s k (k.num_ 16 8) (k.num_ 32 8) bytes j ∧ (j.write k (k.num_ 24 8 % 2 ^ 64) bytes).ok = true) ∧
    (∃ (s : State) (k : Cmd) (m : Nat), starts s k ∧ k.pidx = 0 ∧ k.num_ 32 8 = 8 * m ∧ 1 ≤ m ∧ m ≤ 32 ∧
      ((Job.start s).write k (k.num_ 24 8 % 2 ^ 64) ((List.replicate m (bytesOf (k.num_ 16 8) 8)).flatten)).ok = true) ∧
    (∃ (s : State) (k : Cmd) (pa : Nat), starts s k ∧ k.pidx = 0 ∧ s.engineCounter k (k.num_ 16 8) = (0, pa) ∧ s.placeBusy pa = false ∧
      deviceOf pa = s.dev.toNat ∧ k.entry = none ∧ k.num_ 24 8 ≤ (s.wordAt pa).toNat) ∧
    (∃ (s : State) (k : Cmd) (pa : Nat), starts s k ∧ k.pidx = 0 ∧ s.engineCounter k (k.num_ 16 8) = (0, pa) ∧ s.placeBusy pa = false ∧
      deviceOf pa = s.dev.toNat ∧ k.entry = none ∧ (s.wordAt pa).toNat < k.num_ 24 8) ∧
    (∃ (s : State) (k : Cmd) (key : Nat), starts s k ∧ k.entry = some (key, true)) ∧
    ∃ (s : State) (k : Cmd) (key : Nat), starts s k ∧ k.entry = some (key, false) := by
  obtain ⟨b, j, h, e1, e2⟩ := reads_of (s := engines 1 (withCmd aCopy)) (k := aCopy) (va := aCopy.num_ 16 8) (n := aCopy.num_ 32 8) (by decide +kernel)
  refine ⟨⟨engines 1 (withCmd aCopy), aCopy, b, j, starts_of (by decide +kernel) (by decide +kernel) (by decide +kernel), by decide +kernel, by decide +kernel, by decide +kernel, h, ?_⟩,
    ⟨engines 1 (withCmd aFillCopy), aFillCopy, 32, starts_of (by decide +kernel) (by decide +kernel) (by decide +kernel), by decide +kernel, by decide +kernel, by decide +kernel, by decide +kernel, by decide +kernel⟩,
    ⟨engines 1 (withCmd (aWait 0)), aWait 0, 0x110008, starts_of (by decide +kernel) (by decide +kernel) (by decide +kernel), by decide +kernel, by decide +kernel, by decide +kernel, by decide +kernel, rfl, by decide +kernel⟩,
    ⟨engines 1 (withCmd (aWait 1)), aWait 1, 0x110008, starts_of (by decide +kernel) (by decide +kernel) (by decide +kernel), by decide +kernel, by decide +kernel, by decide +kernel, by decide +kernel, rfl, by decide +kernel⟩,
    ⟨withCmd (waitEntered true), waitEntered true, 0x110008, ⟨by decide +kernel, .inr ⟨by decide +kernel, by decide +kernel⟩⟩, rfl⟩,
    ⟨withCmd (waitEntered false), waitEntered false, 0x110008, ⟨by decide +kernel, .inr ⟨by decide +kernel, by decide +kernel⟩⟩, rfl⟩⟩
  rw [e1, e2]; decide +kernel

/-- Where the element that a gather or a scatter moves stands and goes. -/
theorem witness_gathers (gather : Bool) : ∃ (s : State) (k : Cmd) (ib bytes : List Byte) (j1 j2 : Job) (src dst : Nat), starts s k ∧
    k.num_ 40 4 = k.pidx + 1 ∧ engineReads s k (k.num_ 24 8 + k.pidx * 2 ^ k.byte 45) (2 ^ k.byte 45) ib j1 ∧
    src = (if gather then (BitVec.ofInt 64 (k.num_ 16 8 + signed (8 * 2 ^ k.byte 45) (ofBytes ib) * (2 ^ k.byte 44 : Nat))).toNat
      else (BitVec.ofInt 64 (k.num_ 16 8 + (k.pidx : Int) * (2 ^ k.byte 44 : Nat))).toNat) ∧
    dst = (if gather then (BitVec.ofInt 64 (k.num_ 32 8 + (k.pidx : Int) * (2 ^ k.byte 44 : Nat))).toNat
      else (BitVec.ofInt 64 (k.num_ 32 8 + signed (8 * 2 ^ k.byte 45) (ofBytes ib) * (2 ^ k.byte 44 : Nat))).toNat) ∧
    src % Nat.min (2 ^ k.byte 44) 64 = 0 ∧ dst % Nat.min (2 ^ k.byte 44) 64 = 0 ∧ j1.read k src (2 ^ k.byte 44) = (bytes, j2) ∧ j2.ok = true ∧
    (j2.write k dst bytes).ok = true := by
  cases gather with
  | true =>
    obtain ⟨b, j, h, e1, e2⟩ := reads_of (s := engines 1 (withCmd (anElement 0x81))) (k := anElement 0x81)
      (va := (anElement 0x81).num_ 24 8 + (anElement 0x81).pidx * 2 ^ (anElement 0x81).byte 45) (n := 2 ^ (anElement 0x81).byte 45) (by decide +kernel)
    refine ⟨engines 1 (withCmd (anElement 0x81)), anElement 0x81, b, _, j, _, 0x10000, 0x10208, starts_of (by decide +kernel) (by decide +kernel) (by decide +kernel), by decide +kernel, h, ?_, ?_, by decide +kernel, by decide +kernel, pair_of _, ?_, ?_⟩ <;>
      first | (rw [e2]; decide +kernel) | (rw [e1]; decide +kernel)
  | false =>
    obtain ⟨b, j, h, e1, e2⟩ := reads_of (s := engines 1 (withCmd (anElement 0x82))) (k := anElement 0x82)
      (va := (anElement 0x82).num_ 24 8 + (anElement 0x82).pidx * 2 ^ (anElement 0x82).byte 45) (n := 2 ^ (anElement 0x82).byte 45) (by decide +kernel)
    refine ⟨engines 1 (withCmd (anElement 0x82)), anElement 0x82, b, _, j, _, 0x10008, 0x10200, starts_of (by decide +kernel) (by decide +kernel) (by decide +kernel), by decide +kernel, h, ?_, ?_, by decide +kernel, by decide +kernel, pair_of _, ?_, ?_⟩ <;>
      first | (rw [e2]; decide +kernel) | (rw [e1]; decide +kernel)


/-- A command of the collective engine in a group of two ranks of this device, of which it is rank 0. -/
def collective (c : Nat) (fields : List (Nat × Nat)) (sent : Bool) : Cmd :=
  { cmdOfFields c fields 0 with group := some ⟨2, 0, [(0, 0), (0, 0)]⟩, sent := sent, state := 2, waiting := sent }
/-- A state with such a command, which has taken a partial of rank 1 or of both. -/
def taken (k : Cmd) (lo : Nat) : State :=
  (engines 4 (withCmd k)).withCluster 0 (fun c => { c with
    arrived := [(k.num, ⟨0, 9, k.code, 0, 0, 0, 0, lo, 2, 1, 2, 0, List.replicate 256 0⟩)] })
def aRing (c : Nat) : Cmd := collective c [(24, 0x10000), (32, 256)] true
def aSend (sent : Bool) : Cmd := { collective 0xC2 [(24, 0x10000), (32, 256), (46, 1)] sent with state := if sent then 2 else 1 }
def aRecva : Cmd := collective 0xC3 [(24, 0x10000), (32, 256), (44, 1), (46, 2)] true
def aRate : Cmd := { collective 0xC4 [(16, 64)] false with state := 1 }

theorem witness_collectives :
    (∃ (i : Instr) (s : State) (k : Cmd), i ∈ [.clRss k.num, .clAgs k.num] ∧ starts s k ∧ k.pidx = 0 ∧ k.sent = true ∧
      s.ranksDiffer k ((k.grp.rank + 1) % k.grp.ranks) = false ∧ (if k.code = 0xC1 then k.grp.ranks else k.ringStep + 1) ≤ ((s.got k).map (fun p => p.hi - p.lo)).sum ∧
      s.partsTaken k ((k.grp.rank + 1) % k.grp.ranks) = true ∧ ((Job.start s).ringTake k).ok = true) ∧
    (∃ (s : State) (k : Cmd) (p : Partial), starts s k ∧ k.code = 0xC1 ∧ k.pidx = 0 ∧ k.sent = true ∧ s.got k = [p] ∧
      k.grp.ranks ≤ p.hi - p.lo ∧ s.ranksDiffer k ((k.grp.rank + 1) % k.grp.ranks) = false ∧ s.partsTaken k ((k.grp.rank + 1) % k.grp.ranks) = true ∧
      ((Job.start s).write k (k.chunkAt ((k.grp.rank + k.grp.ranks - k.ringStep) % k.grp.ranks)) p.bytes).ok = true) ∧
    (∃ (s : State) (k : Cmd), starts s k ∧ k.pidx = 0 ∧ k.sent = false ∧ (s.cluster k.cluster).share ≠ 0 ∧
      ((Job.start s).read k k.buf k.len).2.ok = true ∧ (k.grp.places[k.ringStep]?).map (·.1) = some s.dev.toNat) ∧
    (∃ (s : State) (k : Cmd), starts s k ∧ k.pidx = 0 ∧ k.sent = true ∧ s.ranksDiffer k k.ringStep = false ∧ s.partsTaken k k.ringStep = true) ∧
    (∃ (s : State) (k : Cmd) (p : Part) (f : Flags), starts s k ∧ k.pidx = 0 ∧ k.ownPart = false ∧
      mergeSet k.isF32 k.grp.ranks ((s.got k).map (fun p => (⟨p.lo, p.hi, p.bytes⟩ : Part))) = ([p], f) ∧ p.lo = k.num_ 44 2 ∧ p.hi = k.num_ 46 2 ∧
      (((Job.start s).raise f).write k k.buf p.bytes).ok = true) ∧
    ∃ (s : State) (k : Cmd), starts s k ∧ k.pidx = 0 :=
  ⟨⟨.clRss 4, taken (aRing 0xC0) 1, aRing 0xC0, List.mem_cons_self .., ⟨by decide +kernel, .inr ⟨by decide +kernel, by decide +kernel⟩⟩, by decide +kernel, by decide +kernel, by decide +kernel, by decide +kernel, by decide +kernel, by decide +kernel⟩,
    ⟨taken (aRing 0xC1) 0, aRing 0xC1, ⟨0, 9, 0xC1, 0, 0, 0, 0, 0, 2, 1, 2, 0, List.replicate 256 0⟩, ⟨by decide +kernel, .inr ⟨by decide +kernel, by decide +kernel⟩⟩, by decide +kernel, by decide +kernel, by decide +kernel, by decide +kernel, by decide +kernel, by decide +kernel, by decide +kernel, by decide +kernel⟩,
    ⟨engines 4 (withCmd (aSend false)), aSend false, starts_of (by decide +kernel) (by decide +kernel) (by decide +kernel), by decide +kernel, by decide +kernel, by decide +kernel, by decide +kernel, by decide +kernel⟩,
    ⟨engines 4 (withCmd (aSend true)), aSend true, ⟨by decide +kernel, .inr ⟨by decide +kernel, by decide +kernel⟩⟩, by decide +kernel, by decide +kernel, by decide +kernel, by decide +kernel⟩,
    ⟨taken aRecva 1, aRecva, ⟨1, 2, List.replicate 256 0⟩, {}, ⟨by decide +kernel, .inr ⟨by decide +kernel, by decide +kernel⟩⟩, by decide +kernel, by decide +kernel, by decide +kernel, by decide +kernel, by decide +kernel, by decide +kernel⟩,
    ⟨withCmd aRate, aRate, starts_of (by decide +kernel) (by decide +kernel) (by decide +kernel), by decide +kernel⟩⟩


/-! ## Hypotheses that something meets: registers from outside, the front end, links and management -/

theorem witness_registerEffects :
    (∃ (key : Nat) (v : Word) (s : State) (c : Ctx), s.ctxAt key = some c ∧ c.run ≠ .idle ∧ field v 18 46 = 0) ∧
    (∃ (key : Nat) (v : Word) (s : State) (c : Ctx), s.ctxAt key = some c ∧ c.run ≠ .idle ∧ field v 18 46 ≠ 0 ∧
      (∀ g, g < 16 → s.directoryOf c.part g = s.dev.toNat ∧ s.groupSize c.part g < 64)) ∧
    (∃ (part : Nat) (v : Word) (s : State), (s.partition part).sdBusy = false ∧ v.getLsbD 0 = true) ∧
    (∃ (part d : Nat) (s : State), (s.partition part).sdBusy = true ∧
      (s.shootDevices part).all (d :: (s.partition part).sdSeen).contains = true) ∧
    (∃ (part : Nat) (s : State), (s.partition part).sdBusy = true ∧
      (s.partition part).sdAt + 2 * (s.partition part).dfab.toNat + 20000 ≤ s.clock) ∧
    (∃ (key : Nat) (off : BitVec 24) (s : State) (c : Ctx), s.ctxAt key = some c ∧ c.run ≠ .idle ∧ off.toNat / 8 * 8 = 0x1018) ∧
    (∃ (key : Nat) (off : BitVec 24) (s : State) (c : Ctx), s.ctxAt key = some c ∧ c.run ≠ .idle ∧
      s.windowWrite c.part (off.toNat / 8 * 8) c.mdat = none) ∧
    ∃ (complex : Nat) (core : BitVec 2) (s : State) (f : FwCore), s.firmware.cores[4 * complex + core.toNat]? = some f :=
  ⟨⟨56, 0x3FFFF, base, _, rfl, by decide +kernel, by decide +kernel⟩, ⟨56, 0x7FFFF, base, _, rfl, by decide +kernel, by decide +kernel, by decide +kernel⟩, ⟨0, 1, base, by decide +kernel, by decide +kernel⟩,
    ⟨0, 0, base.withPart 0 (fun p => { p with sdBusy := true }), by decide +kernel, by decide +kernel⟩,
    ⟨0, { base.withPart 0 (fun p => { p with sdBusy := true }) with clock := 25000 }, by decide +kernel, by decide +kernel⟩,
    ⟨56, 0x101F, base, _, rfl, by decide +kernel, by decide +kernel⟩, ⟨56, 0xFFFFFF, base, _, rfl, by decide +kernel, by decide +kernel⟩, ⟨1, 3, base, _, rfl⟩⟩

/-- A launch queue record. -/
def queueing (f : Queue → Queue) : State := { base with queues := [(1, f Queue.reset)] }

theorem witness_hostWrites :
    (∃ (part : Nat) (r : Record) (s : State), configLegal r = true ∧ s.quiet part = true) ∧
    (∃ (r : Record), configLegal r = false) ∧ (∃ (part : Nat) (s : State), s.quiet part = false) ∧
    (∃ (q : Nat) (s : State), (s.queue q).enable = false ∧ (s.queue q).state = 0 ∧ s.shares.1 + (s.queue q).hshare.toNat ≤ 48 ∧
      s.shares.2 + (s.queue q).fshare.toNat ≤ 48) ∧
    (∃ (q : Nat) (s : State), 48 < s.shares.1 + (s.queue q).hshare.toNat) ∧
    (∃ (q : Nat) (s : State), 48 < s.shares.2 + (s.queue q).fshare.toNat) ∧
    (∃ (q : Nat) (s : State), (s.queue q).enable = true) ∧ (∃ (q : Nat) (s : State), (s.queue q).state = 2) ∧
    (∃ (q : Nat) (s : State), (s.queue q).state ≠ 2) ∧
    (∃ (q : Nat) (prod : Word) (s : State), (s.queue q).state = 1 ∧ 2 ^ (s.queue q).logslots < (prod - (s.queue q).cons).toNat) ∧
    (∃ (q : Nat) (prod : Word) (s : State), (prod - (s.queue q).cons).toNat = 2 ^ (s.queue q).logslots) ∧
    (∃ (q : Nat) (v : Word) (s : State), (s.queue q).stopped = true ∧ v.toNat % 64 = 0) ∧
    (∃ (q : Nat) (s : State), (s.queue q).stopped = false) ∧
    ∃ (part : Nat) (head : Word) (s : State), (head - (s.partition part).fqHead).toNat ≤ (s.partition part).faultQueue.length :=
  ⟨⟨0, 0, base, by decide +kernel, by decide +kernel⟩, ⟨BitVec.ofNat 512 (2 ^ 511), by decide +kernel⟩, ⟨0, queueing (fun q => { q with state := 1 }), by decide +kernel⟩,
    ⟨1, queueing (fun q => { q with hshare := 48, fshare := 48 }), by decide +kernel⟩, ⟨1, queueing (fun q => { q with hshare := 49 }), by decide +kernel⟩,
    ⟨1, queueing (fun q => { q with fshare := 49 }), by decide +kernel⟩, ⟨1, queueing (fun q => { q with enable := true }), by decide +kernel⟩,
    ⟨1, queueing (fun q => { q with state := 2 }), by decide +kernel⟩, ⟨1, queueing id, by decide +kernel⟩,
    ⟨1, 65, queueing (fun q => { q with state := 1 }), by decide +kernel, by decide +kernel⟩, ⟨1, 64, queueing id, by decide +kernel⟩,
    ⟨1, 0x10000, queueing id, by decide +kernel⟩, ⟨1, queueing (fun q => { q with state := 1 }), by decide +kernel⟩,
    ⟨0, 2, base.withPart 0 (fun p => { p with faultQueue := [1, 2] }), by decide +kernel⟩⟩

/-- The page as the host and the front end may use it. -/
def hostPage (cls : Nat) (s : State) : State := { s with access := loadAccess.map (fun e => ((e.1.1, 0, cls), e.2)) }

theorem witness_aperture :
    (∃ (part dev off : Nat) (va : Word) (s : State) (l : Leaf), s.walk part va.toNat = some l ∧ va.toNat % 8 = 0 ∧
      l.check 1 true = 0 ∧ s.placeBusy (l.addr va.toNat) = false ∧ s.placeOf (l.addr va.toNat) = .hbm dev off ∧ dev = s.dev.toNat ∧
      s.grantsHbm ((s.partition part).homeOf off) part 6 rightWrite (l.addr va.toNat) = true) ∧
    (∃ (part dev off : Nat) (va : Word) (s : State) (l : Leaf), s.walk part va.toNat = some l ∧ va.toNat % 8 = 0 ∧
      l.check 1 false = 0 ∧ s.placeBusy (l.addr va.toNat) = false ∧ s.placeOf (l.addr va.toNat) = .hbm dev off ∧ dev = s.dev.toNat ∧
      s.grantsHbm ((s.partition part).homeOf off) part 6 rightRead (l.addr va.toNat) = true ∧ s.spoiledFor part (l.addr va.toNat) 8 = false) ∧
    (∃ (part : Nat) (va : Word) (s : State), s.walk part va.toNat = none) ∧ ∃ va : Word, va.toNat % 8 ≠ 0 :=
  ⟨⟨0, 0, 0x11FFF8, 0x1FFF8, hostPage 6 base, pageLeaf, by decide +kernel, by decide +kernel, by decide +kernel, by decide +kernel, by decide +kernel, by decide +kernel, by decide +kernel⟩,
    ⟨0, 0, 0x11FFF8, 0x1FFF8, hostPage 6 base, pageLeaf, by decide +kernel, by decide +kernel, by decide +kernel, by decide +kernel, by decide +kernel, by decide +kernel, by decide +kernel, by decide +kernel⟩, ⟨0, 0x30000, base, by decide +kernel⟩, ⟨1, by decide +kernel⟩⟩

/-- A queue whose ring is the page, with one packet for the actor at 0x10040. -/
def packeted (target seq : Nat) (f : Queue → Queue) : State :=
  hostPage 5 { queueing (fun q => f { q with ring := 0x10000, enable := true, state := 1, prod := 1 }) with
    mem := Memory.writeCells base.mem (cellsOf 0x110000 (bytesOf (0x10000 + target * 2 ^ 64 + seq * 2 ^ 480) 64)) }

def thePacket (target seq : Nat) : Packet := ⟨0x10000, BitVec.ofNat 64 target, 0, ⟨0, 0⟩, 0, 0, 0, 0, 0, 0, 0, seq⟩

theorem witness_packets :
    (∃ (q : Nat) (s : State) (p : Packet), issuing s q ∧ 0 < ((s.queue q).prod - (s.queue q).cons).toNat ∧
      ((s.queue q).prod - (s.queue q).cons).toNat ≤ 2 ^ (s.queue q).logslots ∧ s.packetAt (s.queue q) (s.queue q).cons.toNat = some p ∧
      p.gang = false ∧ s.packetError (s.queue q) (s.queue q).cons.toNat [p] = 0 ∧ p.phase = (s.queue q).phase ∧ p.barrier = false ∧
      s.targetDevice (s.queue q).part p.target = s.dev.toNat ∧ takesEvents s (s.queue q).part ∧
      comesLate s (s.packetEvent q (s.queue q) (s.queue q).cons.toNat p none) = false ∧
      roomAt s (s.homeCore (s.packetEvent q (s.queue q) (s.queue q).cons.toNat p none).part
        (actorAddr (s.packetEvent q (s.queue q) (s.queue q).cons.toNat p none).target))) ∧
    (∃ (q : Nat) (s : State), issuing s q ∧ (s.queue q).prod = (s.queue q).cons) ∧
    (∃ (q : Nat) (s : State) (p : Packet), issuing s q ∧ 0 < ((s.queue q).prod - (s.queue q).cons).toNat ∧
      ((s.queue q).prod - (s.queue q).cons).toNat ≤ 2 ^ (s.queue q).logslots ∧ s.packetAt (s.queue q) (s.queue q).cons.toNat = some p ∧
      p.gang = false ∧ s.packetError (s.queue q) (s.queue q).cons.toNat [p] ≠ 0) ∧
    (∃ (q : Nat) (s : State), (s.queue q).state ≠ 1) ∧ (∃ (q : Nat) (s : State), (s.queue q).done = (s.queue q).cons) ∧
    ∃ (q : Nat) (s : State), (s.queue q).done ≠ (s.queue q).cons := by
  refine ⟨⟨1, packeted 0x10040 0 id, thePacket 0x10040 0, ?_, by decide +kernel, by decide +kernel, by decide +kernel, by decide +kernel, by decide +kernel, by decide +kernel, by decide +kernel, by decide +kernel, ?_, by decide +kernel, ?_⟩, ⟨1, packeted 0x10040 0 (fun q => { q with prod := 0 }), ?_, by decide +kernel⟩,
    ⟨1, packeted 0x10040 1 id, thePacket 0x10040 1, ?_, by decide +kernel, by decide +kernel, by decide +kernel, by decide +kernel, by decide +kernel⟩,
    ⟨1, queueing id, by decide +kernel⟩, ⟨1, queueing id, by decide +kernel⟩, ⟨1, packeted 0x10040 0 (fun q => { q with cons := 1 }), by decide +kernel⟩⟩
  · unfold issuing; decide +kernel
  · unfold takesEvents; decide +kernel
  · unfold roomAt; decide +kernel
  · unfold issuing; decide +kernel
  · unfold issuing; decide +kernel

/-- A gang of two whose members' events have come, with or without its contexts. -/
def gangMember (i : Nat) : Queued :=
  { oneQueued 0 9 true with event := { oneEvent 0 9 with queue := 1, packet := some i, target := BitVec.ofNat 64 (0x10040 + 64 * i), gang := some ⟨0, 2, i, false⟩ } }
def ganged (reserved : List Nat) (aged : Bool) : State :=
  { queueing (fun q => { q with gang := some ⟨0, 2, false, 0, aged, reserved⟩, age := 5 }) with events := [gangMember 0, gangMember 1], clock := 5 }

theorem witness_gangs :
    (∃ (q : Nat) (s : State) (g : Gang), (s.queue q).gang = some g ∧ (s.gangUnits q (s.queue q) g).isNone = true) ∧
    (∃ (q : Nat) (s t : State) (g : Gang), (s.queue q).gang = some g ∧ s.placeGang q = some t) ∧
    (∃ (q : Nat) (s : State) (g : Gang), (s.queue q).gang = some g ∧ g.since + (s.queue q).age.toNat ≤ s.clock) ∧
    ∃ (q : Nat) (s : State) (g : Gang), (s.queue q).gang = some g ∧ s.clock < g.since + (s.queue q).age.toNat ∧ g.aged = false ∧
      s.queues.length = 1 := by
  have h : ((ganged [57, 58] true).placeGang 1).isSome = true := by decide +kernel
  obtain ⟨t, ht⟩ := Option.isSome_iff_exists.mp h
  exact ⟨⟨1, ganged [57] true, _, rfl, by decide +kernel⟩, ⟨1, ganged [57, 58] true, t, _, rfl, ht⟩, ⟨1, ganged [] false, _, rfl, by decide +kernel⟩,
    ⟨1, { ganged [] false with clock := 4 }, _, rfl, by decide +kernel, rfl, rfl⟩⟩


/-- Flits of zeros, and a link end. -/
def zeroFlit : Flit := ⟨0, 0, 0, 0, 0⟩
def flitOf (c : BitVec 32) : Flit := ⟨0, 0, 0, 0, c⟩
theorem flitCrc_of (c : BitVec 32) (n : Nat) : flitCrc (flitOf c) n = flitCrc zeroFlit n := rfl
theorem ne_not (a : BitVec 32) : ~~~a ≠ a := fun h => by
  have := congrArg (fun v : BitVec 32 => v.getLsbD 0) h
  simp at this
theorem goodFlit_checks : (flitOf (flitCrc zeroFlit 0)).crc = flitCrc (flitOf (flitCrc zeroFlit 0)) 0 := by
  rw [flitCrc_of]
  generalize flitCrc zeroFlit 0 = a
  rfl
theorem badFlit_fails : (flitOf (~~~flitCrc zeroFlit 0)).crc ≠ flitCrc (flitOf (~~~flitCrc zeroFlit 0)) 0 := by
  rw [flitCrc_of]
  generalize flitCrc zeroFlit 0 = a
  exact ne_not a

def linked (f : Link → Link) : State := { base with clock := 3000 }.withLink 7 f

theorem witness_links :
    (∃ (n : Nat) (f : Flit) (s : State), (s.link n).down = false ∧ f.crc = flitCrc f (s.link n).expected) ∧
    (∃ (n : Nat) (f : Flit) (s : State), (s.link n).down = false ∧ f.crc ≠ flitCrc f (s.link n).expected ∧ (s.link n).nakSince = none) ∧
    (∃ (n : Nat) (s : State) (since : Nat), (s.link n).down = false ∧ (s.link n).nakSince = some since ∧ since + 2000 ≤ s.clock) ∧
    (∃ (n : Nat) (s : State), (s.link n).nakSince = none) ∧
    (∃ (n : Nat) (ack : BitVec 16) (s : State), (s.link n).down = false ∧ (s.link n).retraining = false ∧
      (s.link n).named ack ≤ (s.link n).sendNext ∧ (s.link n).naks = 0) ∧
    (∃ (n : Nat) (ack : BitVec 16) (s : State), (s.link n).down = false ∧ (s.link n).retraining = false ∧
      (s.link n).named ack ≤ (s.link n).sendNext ∧ (s.link n).naks = 7 ∧ (s.link n).nakFor = (s.link n).named ack) ∧
    (∃ (n : Nat) (s : State), (s.link n).retraining = true ∧ (s.link n).failures + 1 < 3) ∧
    ∃ (n : Nat) (s : State), n < 8 ∧ (s.link n).retraining = true ∧ (s.link n).failures = 2 :=
  ⟨⟨7, flitOf (flitCrc zeroFlit 0), linked id, by decide +kernel, (show (State.link (linked id) 7).expected = 0 from by decide +kernel) ▸ goodFlit_checks⟩,
    ⟨7, flitOf (~~~flitCrc zeroFlit 0), linked id, by decide +kernel, (show (State.link (linked id) 7).expected = 0 from by decide +kernel) ▸ badFlit_fails, by decide +kernel⟩,
    ⟨7, linked (fun l => { l with nakSince := some 1000 }), 1000, by decide +kernel, by decide +kernel, by decide +kernel⟩, ⟨7, linked id, by decide +kernel⟩,
    ⟨7, 2, linked (fun l => { l with sendNext := 3, unacked := [zeroFlit, zeroFlit] }), by decide +kernel, by decide +kernel, by decide +kernel, by decide +kernel⟩,
    ⟨7, 2, linked (fun l => { l with sendNext := 3, unacked := [zeroFlit, zeroFlit], naks := 7, nakFor := 2 }), by decide +kernel, by decide +kernel, by decide +kernel, by decide +kernel, by decide +kernel⟩,
    ⟨7, linked (fun l => { l with retraining := true, failures := 1 }), by decide +kernel, by decide +kernel⟩,
    ⟨7, linked (fun l => { l with retraining := true, failures := 2 }), by decide +kernel, by decide +kernel, by decide +kernel⟩⟩

/-- A device whose job has device 5 as its time master, an exchange having begun. -/
def timed : State :=
  { base.withPart 0 (fun p => { p with jobCount := 1, jobTable := [(0, 5)] }) with
    clock := 1000000, sync := { base.sync with readAt := some 999000, begun := true, due := 1000000 } }

theorem witness_clocksAndErrors :
    (∃ (n : Nat), n < 24) ∧ (∃ r : Record, 9 < rfield r 0 1) ∧
    (∃ (s : State), s.clock < s.sync.due) ∧ (∃ (s : State), s.firmware.started = false) ∧
    (∃ (s : State), s.sync.due ≤ s.clock ∧ s.firmware.started = true ∧ s.timeMaster = none) ∧
    (∃ (t1 m : Nat) (s : State), s.sync.readAt = some t1 ∧ s.timeMaster = some m ∧ s.sync.begun = true) ∧
    (∃ (s : State), s.clock < s.sync.exchanged + 1000000) ∧ (∃ (s : State), s.sync.exchanged + 1000000 ≤ s.clock) ∧
    ∃ (complex : Nat) (core : BitVec 2) (s : State) (f : FwCore), s.firmware.cores[4 * complex + core.toNat]? = some f ∧ f.ctx.run = .halted :=
  ⟨⟨23, by decide +kernel⟩, ⟨10, by decide +kernel⟩, ⟨{ timed with clock := 0 }, by decide +kernel⟩, ⟨base, by decide +kernel⟩,
    ⟨{ base with firmware := { base.firmware with started := true } }, by decide +kernel, by decide +kernel, by decide +kernel⟩, ⟨999000, 5, timed, by decide +kernel, by decide +kernel, by decide +kernel⟩, ⟨base, by decide +kernel⟩, ⟨timed, by decide +kernel⟩,
    ⟨0, 1, { base with firmware := { base.firmware with cores := [FwCore.reset 0, { FwCore.reset 1 with ctx := { (FwCore.reset 1).ctx with run := .halted } }] } },
      _, rfl, rfl⟩⟩

/-- An image of a version. -/
def image (v : Nat) : Image := { Image.blank with version := v }

theorem witness_management :
    (∃ (part : Nat) (l : List Nat) (b limit : BitVec 23) (s : State), s.firmware.failed = false ∧ part < 96 ∧ (s.partition part).exists_ = false ∧ l ≠ [] ∧
      l.Nodup ∧ l.all s.clusterFree = true ∧ b.toNat ≤ limit.toNat ∧ limit.toNat ≤ Config.hbmBytes / 65536) ∧
    (∃ (part : Nat) (s : State), s.firmware.failed = false ∧ (s.partition part).exists_ = true) ∧ (∃ (part : Nat) (s : State), (s.partition part).exists_ = false) ∧
    (∃ (target : AccessTarget) (part cls : Nat) (s : State), s.firmware.failed = false ∧ part < 96 ∧ cls < 7 ∧ targetExists target = true ∧
      targetBounds target = true) ∧
    (∃ (target : AccessTarget) (part cls : Nat) (s : State), s.firmware.failed = false ∧ part < 96 ∧ cls < 7 ∧ targetExists target = true ∧ targetBounds target = false) ∧
    (∃ (q part : Nat) (s : State), s.firmware.failed = false ∧ q < 4096 ∧ part < 96 ∧ (s.queue q).state = 0 ∧ (s.queue q).enable = false) ∧
    (∃ (q : Nat) (s : State), (s.queue q).state ≠ 0) ∧
    (∃ (part l c spare : Nat) (s : State), s.firmware.failed = false ∧ (s.partition part).clusters[l]? = some c ∧ s.spares.find? (fun x => dieOf x == dieOf c) = some spare ∧
      s.threadsIn c = []) ∧
    (∃ (part l : Nat) (s : State), (s.partition part).clusters[l]? = none) ∧
    (∃ (s : State), s.firmware.started = true ∧ s.clock < s.firmware.watchdogAt) ∧
    (∃ (s : State), s.firmware.started = true ∧ s.firmware.watchdogAt ≤ s.clock) ∧
    (∃ (i : Image) (s : State), s.firmware.config.minVersion ≤ i.version ∧ s.firmware.started = true ∧ i.tableFormat = s.firmware.image.tableFormat) ∧
    (∃ (i : Image) (s : State), i.version < s.firmware.config.minVersion) ∧
    (∃ (i : Image) (s : State), s.firmware.config.version ≤ i.version) ∧ (∃ (i : Image) (s : State), i.version < s.firmware.config.version) ∧
    (∃ (i : Image) (s : State), s.firmware.config.minVersion ≤ i.version ∧ s.firmware.started = true ∧
      i.tableFormat ≠ s.firmware.image.tableFormat) ∧
    ∃ (s : State), s.firmware.failed = true :=
  ⟨⟨95, [1, 287], 0, 0x600000, base, by decide +kernel, by decide +kernel, by decide +kernel, by decide +kernel, by decide +kernel, by decide +kernel, by decide +kernel, by decide +kernel⟩, ⟨0, base, by decide +kernel, by decide +kernel⟩, ⟨1, base, by decide +kernel⟩,
    ⟨.hbmPort 7, 95, 6, base, by decide +kernel⟩, ⟨.station 23, 95, 6, base, by decide +kernel⟩, ⟨4095, 95, base, by decide +kernel⟩, ⟨1, queueing (fun q => { q with state := 2 }), by decide +kernel⟩,
    ⟨0, 1, 1, 2, { base.withPart 0 (fun p => { p with clusters := [0, 1] }) with spares := [2] }, by decide +kernel, by decide +kernel, by decide +kernel, by decide +kernel⟩, ⟨0, 1, base, by decide +kernel⟩,
    ⟨{ base with firmware := { base.firmware with started := true, watchdogAt := 1 } }, by decide +kernel, by decide +kernel⟩,
    ⟨{ base with firmware := { base.firmware with started := true } }, by decide +kernel, by decide +kernel⟩,
    ⟨image 0, { base with firmware := { base.firmware with started := true } }, by decide +kernel, by decide +kernel, by decide +kernel⟩,
    ⟨image 0, { base with firmware := { base.firmware with config := { Image.blank with minVersion := 1 } } }, by decide +kernel⟩, ⟨image 0, base, by decide +kernel⟩,
    ⟨image 0, { base with firmware := { base.firmware with config := image 1 } }, by decide +kernel⟩,
    ⟨{ image 0 with tableFormat := 2 }, { base with firmware := { base.firmware with started := true } }, by decide +kernel, by decide +kernel, by decide +kernel⟩,
    ⟨{ base with firmware := { base.firmware with failed := true } }, by decide +kernel⟩⟩


/-! ## Hypotheses that something meets: decoding, steps, memory -/

theorem witness_decoding : (∃ i : Instr, i.wf = true ∧ i.isWord = true ∧ i.bytes.length = 4) ∧
    (∃ i : Instr, i.wf = true ∧ i.isWord = true ∧ i.bytes.length = 2) ∧
    (∃ (l : List Byte) (i : Instr) (n : Nat), decodeBytes l = .word i n) ∧
    (∃ b0 : Byte, b0.toNat % 2 = 1 ∧ b0.toNat / 2 % 64 = 0) ∧ (∃ b0 : Byte, b0.toNat % 2 = 1 ∧ b0.toNat / 2 % 64 = 60) ∧
    (∃ b0 : Byte, b0.toNat % 2 = 0 ∧ b0.toNat / 2 % 32 = 0) ∧ (∃ b0 : Byte, b0.toNat % 2 = 0 ∧ b0.toNat / 2 % 32 = 20) ∧
    ∃ d : Decoded, ∀ i n, d ≠ .word i n :=
  ⟨⟨.sub 5 6 7, rfl, rfl, rfl⟩, ⟨.cShli 5 31, rfl, rfl, rfl⟩, ⟨[0x83, 0x62, 0x4E, 0], .sub 5 6 7, 4, by decide +kernel⟩, ⟨1, by decide⟩, ⟨121, by decide⟩,
    ⟨0, by decide⟩, ⟨40, by decide⟩, ⟨.noInstruction, fun _ _ h => nomatch h⟩⟩

/-- A thread whose next word is a short one, C_SHLI x5, 31. -/
def shortly : State := State.reset.withFetchWord 16 (ofBytes (Instr.cShli 5 31).bytes)

/-- Whether a fetch gives that word, in a state where it can go on. -/
def fetchGoes : Fetch → Bool
  | .bytes l s1 => decide (l = (Instr.cShli 5 31).bytes) && decide (s1.cx.role ≠ 1) && (s1.followers s1.cx).isEmpty && !s1.cx.ss
  | _ => false

/-- Whether it ends in a fault. -/
def fetchFaults : Fetch → Bool
  | .fault _ _ _ => true
  | _ => false

/-- A follower that has a word from its leader. -/
def following : State := cxs (fun c => { c with role := 2, forwarded := some 0x004E6283 }) base

theorem witness_step :
    (∃ (s s1 : State) (l : List Byte) (i : Instr) (n : Nat), issues s s.beginTurn ∧ s.beginTurn.cx.forwarded = none ∧
      s.beginTurn.fetchWord = .bytes l s1 ∧ decodeBytes l = .word i n ∧ mayRun s1 i ∧ s1.cx.role ≠ 1 ∧ s1.followers s1.cx = [] ∧
      s1.cx.ss = false) ∧
    (∃ (s s1 : State) (w : BitVec 32) (i : Instr) (n : Nat), issues s s.beginTurn ∧ s.beginTurn.cx.forwarded = some w ∧
      s1 = s.beginTurn.withCx (fun c => { c with forwarded := none }) ∧ decodeBytes (bytesOf w.toNat 4) = .word i n ∧ mayRun s1 i) ∧
    ∃ (s : State) (code : Nat) (va : Word) (pa : Nat), issues s s.beginTurn ∧ s.beginTurn.cx.forwarded = none ∧
      s.beginTurn.fetchWord = .fault code va pa := by
  have h : fetchGoes shortly.beginTurn.fetchWord = true := by decide +kernel
  have g : fetchFaults (cxs (fun c => { c with pc := 0x30000 }) base).beginTurn.fetchWord = true := by decide +kernel
  refine ⟨?_, ⟨following, _, 0x004E6283, .sub 5 6 7, 4, by unfold issues; decide +kernel, by decide +kernel, rfl, by decide +kernel,
    ⟨(fun h => nomatch h), .inl rfl⟩⟩, ?_⟩
  · cases hf : shortly.beginTurn.fetchWord with
    | fault _ _ _ => rw [hf] at h; cases h
    | bytes l s1 =>
      rw [hf] at h
      simp only [fetchGoes, Bool.and_eq_true, decide_eq_true_eq, List.isEmpty_iff, Bool.not_eq_true'] at h
      obtain ⟨⟨⟨h1, h3⟩, h4⟩, h5⟩ := h
      exact ⟨shortly, s1, l, .cShli 5 31, 2, by unfold issues; decide +kernel, by decide +kernel, hf, by rw [h1]; decide +kernel,
        ⟨(fun h => nomatch h), .inl rfl⟩, h3, h4, h5⟩
  · cases hf : (cxs (fun c => { c with pc := 0x30000 }) base).beginTurn.fetchWord with
    | bytes _ _ => rw [hf] at g; cases g
    | fault code va pa => exact ⟨cxs (fun c => { c with pc := 0x30000 }) base, code, va, pa, by unfold issues; decide +kernel, by decide +kernel, hf⟩

theorem witness_memory : (∃ m : List Cell, Memory.wf m = true ∧ m ≠ []) ∧ (∃ (m k : List Cell), Memory.wf m = true ∧ Memory.wf k = true ∧
    ∀ a, Memory.read m a = Memory.read k a) ∧ ∃ s : State, Memory.wf s.mem = true :=
  ⟨⟨[(1, 5), (2, 6)], by decide +kernel⟩, ⟨[(1, 5)], [(1, 5)], by decide +kernel, by decide +kernel, fun _ => rfl⟩, ⟨State.reset, by decide +kernel⟩⟩

theorem witness_pending : (∃ (s : State) (la : BitVec 4) (d : Reg), d ≠ 0 ∧ la ≠ 0 ∧ s.admits la ⟨[d], [], []⟩) ∧ ∃ w : Window, w.left ≠ 0 :=
  ⟨⟨base, 15, 31, by decide +kernel, by decide +kernel, by delta State.admits; decide +kernel⟩, ⟨⟨1, [], [], []⟩, by decide +kernel⟩⟩

theorem witness_accesses :
    (∃ (s s1 : State) (va n pa : Nat) (bytes : List Byte) (leaf : Leaf),
      s.translate (coreOf s.cx.key) s.cx.part 0 va false = .ok leaf pa ∧ s.dataRead va n 0 = .value bytes s1) ∧
    ∃ (s s1 : State) (va pa : Nat) (bytes : List Byte) (word : BitVec 32) (leaf : Leaf),
      s.translate (coreOf s.cx.key) s.cx.part 0 va true = .ok leaf pa ∧ s.dataWrite va bytes 0 word = .done s1 ∧ bytes.length = 8 := by
  obtain ⟨b, s1, h⟩ := value_of (r := lastWord.dataRead 0x1FFF8 8 0) (by decide +kernel)
  obtain ⟨s2, h2⟩ := done_of (r := lastWord.dataWrite 0x1FFF8 (bytesOf 0 8) 0 0) (by decide +kernel)
  exact ⟨⟨lastWord, s1, 0x1FFF8, 8, 0x11FFF8, b, pageLeaf, by decide +kernel, h⟩, ⟨lastWord, s2, 0x1FFF8, 0x11FFF8, bytesOf 0 8, 0, pageLeaf, by decide +kernel, h2, by decide +kernel⟩⟩

/-! ## Hypotheses that something meets: system registers, subscriptions, and each happening of the dispatcher -/

theorem witness_registerFields :
    (∃ (d : Reg) (sel : BitVec 11) (s : State) (fs : List (Nat × Nat × Nat)), registerFields s sel.toNat = some fs ∧ s.admits 0 ⟨[d], [], []⟩ ∧
      sysLevel sel ≤ s.cx.pl.toNat ∧ (sel = 5 → s.cx.earlierOpen = false)) ∧
    (∃ (d : Reg) (sel : BitVec 11) (s : State) (fs : List (Nat × Nat × Nat)), registerFields s sel.toNat = some fs ∧ s.admits 0 ⟨[d], [], []⟩ ∧
      sysLevel sel = 1 ∧ sysLevel sel ≤ s.cx.pl.toNat ∧ (sel = 5 → s.cx.earlierOpen = false)) ∧
    (∃ (sel : BitVec 11) (a : Reg) (s : State), sysLevel sel ≤ s.cx.pl.toNat ∧ (sel = 5 → s.cx.earlierOpen = false) ∧
      (sel = 0x605 → field (s.x a) 0 2 ≠ 2) ∧ ∃ fs, fieldsWritten s sel.toNat (s.x a) = some fs) ∧
    ∃ (sel : BitVec 11) (a : Reg) (s : State), sel = 0x605 ∧ sysLevel sel ≤ s.cx.pl.toNat ∧ field (s.x a) 0 2 ≠ 2 :=
  ⟨⟨5, 5, base, _, rfl, by delta State.admits; decide +kernel, by decide +kernel, fun _ => by decide +kernel⟩, ⟨5, 0x606, atLevel 1 base, _, rfl, by delta State.admits; decide +kernel, by decide +kernel, by decide +kernel, fun h => absurd h (by decide)⟩,
    ⟨5, 6, base, by decide +kernel, fun _ => by decide +kernel, fun h => absurd h (by decide), _, rfl⟩, ⟨0x605, 6, setX [(6, 3)] (atLevel 1 base), rfl, by decide +kernel, by decide +kernel⟩⟩

/-- A page of 64 KB at 0x20000 on the bank that core 14 owns. -/
def scratchPage : State := withPage (windowAddr 14 0xE0000 + 2 + 0x70) base

/-- A task that names some bytes of its scratchpad at 0x20000, to follow those at 0x20100; and subscriptions. -/
def subscribing (bytes : Word) (l : List Sub) : State :=
  { cxs (fun c => { c with ox := c.ox.set 3 0x20100 }) (setX [(6, 0x20000), (7, bytes)] scratchPage) with subs := l }

/-- A subscription of another core to core 14, by some task, in a slot. -/
def otherSub (n : Nat) (tid : Word) : Sub := ⟨n, tid, 1, 0, 0, 32, 14, 0, [], [], 0⟩
def oneOther : List Sub := [otherSub 32 base.cx.tid]
def manyOthers : List Sub := List.replicate 32 (otherSub 1 99)

theorem regions_apart (l : List Sub) (hl : l = oneOther ∨ l = manyOthers) :
    Subscribable (subscribing 32 l) 0x20000 0x20100 32 (windowAddr 14 0xE0000) (windowAddr 14 0xE0100) := by
  rcases hl with rfl | rfl
  · exact ⟨by decide +kernel, by decide +kernel, ⟨by decide +kernel, by decide +kernel, by decide +kernel⟩, ⟨by decide +kernel, by decide +kernel, by decide +kernel⟩, by decide +kernel, by decide +kernel⟩
  · exact ⟨by decide +kernel, by decide +kernel, ⟨by decide +kernel, by decide +kernel, by decide +kernel⟩, ⟨by decide +kernel, by decide +kernel, by decide +kernel⟩, by decide +kernel, by decide +kernel⟩

theorem witness_subscribing :
    (∃ (d a b : Reg) (s : State) (pa pb k : Nat), s.admits 0 ⟨[d], [], []⟩ ∧
      Subscribable s (s.x a).toNat (s.cx.readOx 3).toNat (s.x b).toNat pa pb ∧
      (s.subs.filter (fun b => b.end_ == 0 && b.pubCore == windowCore pb)).length < 32 ∧ k < 32 ∧
      (∀ b, b ∈ s.subs → b.slot = k → b.end_ ≠ 1 → b.core ≠ coreHere s ∧ b.tid ≠ s.cx.tid) ∧
      (∀ j, j < k → ∃ b, b ∈ s.subs ∧ b.slot = j ∧ b.end_ ≠ 1 ∧ (b.core = coreHere s ∨ b.tid = s.cx.tid))) ∧
    (∃ (d a b : Reg) (s : State) (pa pb : Nat), s.admits 0 ⟨[d], [], []⟩ ∧
      Subscribable s (s.x a).toNat (s.cx.readOx 3).toNat (s.x b).toNat pa pb ∧
      32 ≤ (s.subs.filter (fun b => b.end_ == 0 && b.pubCore == windowCore pb)).length) ∧
    (∃ (d a : Reg) (s : State), s.admits 0 ⟨[d], [], []⟩ ∧ (s.x a).toNat % 32 ≠ 0) ∧
    (∃ (d b : Reg) (s : State), s.admits 0 ⟨[d], [], []⟩ ∧ (s.x b).toNat < 32) ∧
    ∃ (d b : Reg) (s : State), s.admits 0 ⟨[d], [], []⟩ ∧ 2097152 < (s.x b).toNat := by
  refine ⟨⟨5, 6, 7, subscribing 32 oneOther, windowAddr 14 0xE0000, windowAddr 14 0xE0100, 1, by delta State.admits; decide +kernel, regions_apart _ (.inl rfl), by decide +kernel, by decide +kernel, ?_, ?_⟩,
    ⟨5, 6, 7, subscribing 32 manyOthers, windowAddr 14 0xE0000, windowAddr 14 0xE0100, by delta State.admits; decide +kernel, regions_apart _ (.inr rfl), by decide +kernel⟩,
    ⟨5, 6, setX [(6, 16)] base, by delta State.admits; decide +kernel, by decide +kernel⟩, ⟨5, 7, subscribing 0 [], by delta State.admits; decide +kernel, by decide +kernel⟩, ⟨5, 7, subscribing 2097184 [], by delta State.admits; decide +kernel, by decide +kernel⟩⟩
  · intro b hb hs
    rw [List.mem_singleton.mp hb] at hs
    exact absurd hs (by decide)
  · intro j hj
    obtain rfl : j = 0 := by omega
    exact ⟨_, List.mem_singleton.mpr rfl, rfl, by decide, .inr rfl⟩

/-- A gang of one member whose event has come, with its context. -/
def oneMember : State :=
  { queueing (fun q => { q with gang := some ⟨0, 1, false, 0, true, [57]⟩ }) with
    events := [{ gangMember 0 with event := { (gangMember 0).event with gang := some ⟨0, 1, 0, false⟩ } }] }

theorem witness_happenings :
    (∃ (e : Event) (s : State), takesEvents s e.part ∧ comesLate s e = false ∧ roomAt s (s.homeCore e.part (actorAddr e.target)) ∧
      s.homeCore e.part (actorAddr e.target) = s.hashHome e.part (actorAddr e.target)) ∧
    (∃ (part : Nat) (actor : Word) (s : State) (q : Queued), s.firstEvent part actor = some q ∧
      Nat.min (2 ^ 64 - 1) (q.event.tag.time.toNat + s.inputBound part actor) ≤ s.clock) ∧
    (∃ (key part : Nat) (s : State) (q : Queued), noGangs s ∧ bareCore s (coreOf key) ∧ s.idleAt key = true ∧
      s.partOfCore (coreOf key) = some part ∧ s.ready = [] ∧ s.events = [q] ∧ q.core = coreOf key ∧ q.late = false ∧ q.safe = true ∧
      q.event.gang = none ∧ q.event.packet = none ∧ (s.actorOf q.event.part (actorAddr q.event.target)).running = false) ∧
    (∃ (part : Nat) (actor : Word) (core : Nat) (s : State), (s.actorOf part actor).running = false ∧
      s.gangPlaced (s.actorOf part actor) = false ∧ s.partOfCore core = some part ∧ s.events.length ≤ 128 ∧
      ∃ q, q ∈ s.events ∧ forActor part actor q = true) ∧
    (∃ (key part v : Nat) (s : State), s.partOfCore (coreOf key) = some part ∧ s.idleAt key = true ∧ s.victims part (coreOf key) = [v]) ∧
    (∃ (q : StealReq) (s : State) (e : DequeEntry), noGangs s ∧ (tget s.cores q.victim Core.reset).deque = [e] ∧
      withinDomain e.level e.core (coreOf q.thiefCtx) = true ∧ s.childReady e = true ∧ s.retiring.contains (coreOf q.thiefCtx / 16) = false ∧
      s.idleAt q.thiefCtx = true ∧ s.hintOf q.thiefCtx = none) ∧
    (∃ (tid : Word) (cls : BitVec 2) (s : State) (c : Ctx), s.taskOf tid = some c ∧ c.pends = [] ∧ cls.toNat ≤ (s.raiseOf tid).toNat ∧
      0 < cls.toNat) ∧
    (∃ (n key : Nat) (s : State) (g : Gang) (q : Queued), (s.queue n).gang = some g ∧ g.size = 1 ∧ s.memberEvent n g 0 = some q ∧
      s.memberReady n g 0 = true ∧ s.gangUnits n (s.queue n) g = some [key] ∧ s.events.length ≤ 128) ∧
    ∃ (xf64 : Bool) (s : State) (k : Nat), s.cx.run ≠ .idle ∧ s.cx.hasExtension xf64 = false ∧ s.cx.firstFault true = none ∧
      s.cx.open_ = false ∧ s.engineBusy s.cx.tid = false ∧ s.directedTo s.cx.tid = false ∧ s.cx.unack = 0 ∧ s.core.lines = [] ∧
      s.subs = [] ∧ s.idleContext (migrationTarget xf64 (coreOf s.cx.key)) = some k ∧ k ≠ s.cx.key := by
  have h : (onCore0.idleContext (migrationTarget true 0)).any (fun k => k != 0) = true := by decide +kernel
  obtain ⟨k, h1, h2⟩ := (Option.any_eq_true ..).mp h
  exact ⟨⟨oneEvent 0 9, base, by unfold takesEvents; decide +kernel, by decide +kernel, by unfold roomAt; decide +kernel, by decide +kernel⟩,
    ⟨0, 0x10040, { base with events := [oneQueued 0 0 false], clock := 1000000 }, oneQueued 0 0 false, by decide +kernel, by decide +kernel⟩,
    ⟨57, 0, queuedUp, oneQueued 3 9 true, by unfold noGangs; decide +kernel, by unfold bareCore; decide +kernel, by decide +kernel, by decide +kernel, rfl, rfl, rfl, rfl, rfl, rfl,
      rfl, by decide +kernel⟩,
    ⟨0, 0x10040, 15, queuedUp, by decide +kernel, by decide +kernel, by decide +kernel, by decide +kernel, _, List.mem_singleton.mpr rfl, by decide +kernel⟩, ⟨57, 0, 0, forkedOn 0, by decide +kernel, by decide +kernel, by decide +kernel⟩,
    ⟨⟨57, 0⟩, forkedOn 0, _, by unfold noGangs; decide +kernel, rfl, by decide +kernel, by decide +kernel, by decide +kernel, by decide +kernel, by decide +kernel⟩,
    ⟨base.cx.tid, 3, withOther { base.cx with key := 0, tid := 9, eff := 3, pends := [⟨.entry 8 true 9 2 none none, 5, 1, 0, 0, 0, 0, 0⟩] }
      { base with registrations := [⟨8, 8, base.cx.tid, 56, 2, 1⟩] }, base.cx, by decide +kernel, by decide +kernel, by decide +kernel, by decide +kernel⟩,
    ⟨1, 57, oneMember, _, _, rfl, rfl, rfl, by decide +kernel, by decide +kernel, by decide +kernel⟩,
    ⟨true, onCore0, k, by decide +kernel, by decide +kernel, by decide +kernel, by decide +kernel, by decide +kernel, by decide +kernel, by decide +kernel, by decide +kernel, by decide +kernel, h1, fun e => by rw [e] at h2; exact absurd h2 (by decide +kernel)⟩⟩

theorem witness_switchOut : ∃ (key : Nat) (s s1 : State) (c : Cand) (q : Queued) (v : Ctx), best Cand.before (s.candidates (coreOf key)) = some c ∧
    c.work = .reaction q ∧ q.late = false ∧ 4 ≤ (s.threadsOn (coreOf key)).length ∧
    best Ctx.goesFirst (s.threadsOn (coreOf key)) = some v ∧ v.key = key ∧ v.eff.toNat < c.cls ∧ v.removable = true ∧
    (∀ b, b ∈ s.beneath → b.key ≠ key) ∧ s.switchOut key (coreOf key) = some s1 := by
  have h : (match best Cand.before (crowded.candidates 14), best Ctx.goesFirst (crowded.threadsOn 14) with
    | some c, some v => (match c.work with | .reaction q => !q.late | _ => false) && coreOf v.key == 14 && decide (v.eff.toNat < c.cls) && v.removable &&
        (crowded.switchOut v.key 14).isSome
    | _, _ => false) = true := by decide +kernel
  cases hc : best Cand.before (crowded.candidates 14) with
  | none => rw [hc] at h; cases h
  | some c =>
    cases hv : best Ctx.goesFirst (crowded.threadsOn 14) with
    | none => rw [hc, hv] at h; cases h
    | some v =>
      rw [hc, hv] at h
      cases hw : c.work with
      | resume _ => simp [hw] at h
      | reaction q =>
        simp only [hw, Bool.and_eq_true, decide_eq_true_eq, Bool.not_eq_true', beq_iff_eq, Option.isSome_iff_exists] at h
        obtain ⟨⟨⟨⟨h1, h2⟩, h3⟩, h4⟩, s1, h5⟩ := h
        have hn : ∀ b, b ∈ crowded.beneath → b.key ≠ v.key := fun b hb => absurd (show b ∈ ([] : List Ctx) from hb) List.not_mem_nil
        exact ⟨v.key, crowded, s1, c, q, v, by rw [h2]; exact hc, hw, h1, by rw [h2]; decide +kernel, by rw [h2]; exact hv, rfl, h3, h4, hn,
          by rw [h2]; exact h5⟩

theorem witness_accessPlaces :
    (∃ (s s1 : State) (va n pa dev off : Nat) (bytes : List Byte) (leaf : Leaf) (l : Line),
      s.translate (coreOf s.cx.key) s.cx.part 0 va false = .ok leaf pa ∧ s.dataRead va n 0 = .value bytes s1 ∧ s.placeOf pa = .hbm dev off ∧
      dev = s.dev.toNat ∧ s.lineFor s.cx.key (pa / 32) = some l) ∧
    (∃ (s s1 : State) (va n pa g off : Nat) (bytes : List Byte) (leaf : Leaf),
      s.translate (coreOf s.cx.key) s.cx.part 0 va false = .ok leaf pa ∧ s.dataRead va n 0 = .value bytes s1 ∧ s.placeOf pa = .scratchpad g off) ∧
    (∃ (s : State) (va pa dev off : Nat) (leaf : Leaf), s.translate (coreOf s.cx.key) s.cx.part 0 va false = .ok leaf pa ∧
      s.placeOf pa = .hbm dev off ∧ leaf.ros = false ∧ dev ≠ s.dev.toNat ∧ s.grantsFabric s.cx.part 0 rightRead pa = true) ∧
    (∃ (s s1 : State) (va pa : Nat) (bytes : List Byte) (word : BitVec 32) (leaf : Leaf),
      s.translate (coreOf s.cx.key) s.cx.part 0 va true = .ok leaf pa ∧ s.dataWrite va bytes 0 word = .done s1 ∧ s.leavesCore leaf pa = true) ∧
    ∃ (s s1 : State) (va pa g off : Nat) (bytes : List Byte) (word : BitVec 32) (leaf : Leaf),
      s.translate (coreOf s.cx.key) s.cx.part 0 va true = .ok leaf pa ∧ s.dataWrite va bytes 0 word = .done s1 ∧
      s.placeOf pa = .scratchpad g off ∧ s.leavesCore leaf pa = false ∧ s.grantsWindow (g / 32) s.cx.part 0 rightWrite = true := by
  obtain ⟨b1, s1, h1⟩ := value_of (r := pushing.dataRead 0x10040 8 0) (by decide +kernel)
  obtain ⟨b2, s2, h2⟩ := value_of (r := scratchPage.dataRead 0x20000 8 0) (by decide +kernel)
  obtain ⟨s4, h4⟩ := done_of (r := windowPage.dataWrite 0x20000 (bytesOf 7 8) 0 0) (by decide +kernel)
  obtain ⟨s5, h5⟩ := done_of (r := scratchPage.dataWrite 0x20000 (bytesOf 7 8) 0 0) (by decide +kernel)
  exact ⟨⟨pushing, s1, 0x10040, 8, 0x110040, 0, 0x110040, b1, pageLeaf, ⟨0x8802, 0, 0, none, [], 0, 0, false, 0, false, false, 0⟩, by decide +kernel, h1, by decide +kernel, by decide +kernel, by decide +kernel⟩,
    ⟨scratchPage, s2, 0x20000, 8, windowAddr 14 0xE0000, 14, 0, b2, { pageLeaf with pa := windowAddr 14 0xE0000, x := false }, by decide +kernel, h2, by decide +kernel⟩,
    ⟨farPage, 0x20008, 2 ^ 48 + 0x120008, 1, 0x120008, { pageLeaf with pa := 2 ^ 48 + 0x120000, x := false }, by decide +kernel, by decide +kernel, by decide +kernel, by decide +kernel, by decide +kernel⟩,
    ⟨windowPage, s4, 0x20000, windowAddr 14 0, bytesOf 7 8, 0, { pageLeaf with pa := windowAddr 14 0, x := false }, by decide +kernel, h4, by decide +kernel⟩,
    ⟨scratchPage, s5, 0x20000, windowAddr 14 0xE0000, 14, 0, bytesOf 7 8, 0, { pageLeaf with pa := windowAddr 14 0xE0000, x := false }, by decide +kernel, h5, by decide +kernel, by decide +kernel, by decide +kernel⟩⟩

/-! ## Words written out from the encodings of R41, R54, R55 and R57 -/

/-- WI, major 0x08. -/
theorem test_decode_shli : decodeTableWord 32 0x00285311 = some (.shli 6 5 20) := by decide +kernel

/-- WU, major 0x0C. -/
theorem test_decode_lih : decodeTableWord 32 0x00012499 = some (.lih 9 0x12) := by decide +kernel

/-- WR, major 0x0D. -/
theorem test_decode_sox : decodeTableWord 32 0x00404A9B = some (.sox 21 4) := by decide +kernel

/-- WM, major 0x0F. -/
theorem test_decode_st : decodeTableWord 32 0x0032941F = some (.st 8 9 3 1) := by decide +kernel

/-- WJ, major 0x11. -/
theorem test_decode_jal : decodeTableWord 32 0x000200A3 = some (.jal 1 32) := by decide +kernel

/-- WR, major 0x12. -/
theorem test_decode_jalr : decodeTableWord 32 0x000140A5 = some (.jalr 1 20) := by decide +kernel

/-- WE, major 0x13. -/
theorem test_decode_mfs : decodeTableWord 32 0x02040527 = some (.mfs 10 0x102) := by decide +kernel

/-- WE, major 0x13. -/
theorem test_decode_trap : decodeTableWord 32 0x200E0027 = some (.trap 7) := by decide +kernel

/-- HS, op5 1; the encoding R43 works out. -/
theorem test_decode_cAdd : decodeTableWord 16 0x6282 = some (.cAdd 10 12) := by decide +kernel

/-- HS, op5 12. -/
theorem test_decode_cLdsp : decodeTableWord 16 0xFA58 = some (.cLdsp 9 31) := by decide +kernel

/-- HS, op5 14. -/
theorem test_decode_cBeqz : decodeTableWord 16 0xF15C = some (.cBeqz 5 0x1E) := by decide +kernel

/-- HS, op5 18. -/
theorem test_decode_cRet : decodeTableWord 16 0x0024 = some (.cRet) := by decide +kernel

/-- WVM, major 0x14. -/
theorem test_decode_vld : decodeTableWord 32 0x2E6942A9 = some (.vld 2 1 6 3 9 8 5) := by decide +kernel

/-- WVM, major 0x18. -/
theorem test_decode_vst : decodeTableWord 32 0x072A5E31 = some (.vst 0 0 7 1 10 11 12) := by decide +kernel

/-- WVG, major 0x1A. -/
theorem test_decode_vscatter : decodeTableWord 32 0x02AA3B35 = some (.vscatter 0 5 2 20 7 6) := by decide +kernel

/-- WV, major 0x1C. -/
theorem test_decode_vadd : decodeTableWord 32 0x1011A2B9 = some (.vadd 1 0 2 3 4 5) := by decide +kernel

/-- WV, major 0x1D. -/
theorem test_decode_vfma : decodeTableWord 32 0x0083C4BB = some (.vfma 0 2 0 7 8 9) := by decide +kernel

/-- WV, major 0x1E. -/
theorem test_decode_viadd : decodeTableWord 32 0x01491A3D = some (.viadd 0 5 1 2 3 4) := by decide +kernel

/-- WV, major 0x1F. -/
theorem test_decode_vshl : decodeTableWord 32 0x018091BF = some (.vshl 0 6 0 1 2 3) := by decide +kernel

/-- WV, major 0x20. -/
theorem test_decode_vcle : decodeTableWord 32 0x0602B3C1 = some (.vcle 0 0 0 5 6 7) := by decide +kernel

/-- WV, major 0x21. -/
theorem test_decode_vtanh : decodeTableWord 32 0x08402B43 = some (.vtanh 0 1 0 5 6) := by decide +kernel

/-- WVT, major 0x22. -/
theorem test_decode_vwiden : decodeTableWord 32 0x02811A45 = some (.vwiden 0 1 0 0 2 3 4) := by decide +kernel

/-- WV, major 0x23. -/
theorem test_decode_vdot : decodeTableWord 32 0x0C0091C7 = some (.vdot 0 0 0 1 2 3) := by decide +kernel

/-- WV, major 0x24. -/
theorem test_decode_vshuf : decodeTableWord 32 0x014091C9 = some (.vshuf 0 5 0 1 2 3) := by decide +kernel

/-- WVX, major 0x25. -/
theorem test_decode_vget : decodeTableWord 32 0x028A184B = some (.vget 0 5 20 3) := by decide +kernel

/-- WV, major 0x26. -/
theorem test_decode_mset : decodeTableWord 32 0x0C011A4D = some (.mset 0 2 3 4) := by decide +kernel

/-- WV, major 0x27. -/
theorem test_decode_vchain : decodeTableWord 32 0x000011CF = some (.vchain 0 0 2 3) := by decide +kernel

/-- WR, major 0x28. -/
theorem test_decode_fork : decodeTableWord 32 0x000E62D1 = some (.fork 5 6 7) := by decide +kernel

/-- WR, major 0x29. -/
theorem test_decode_follow : decodeTableWord 32 0x004E62D3 = some (.follow 5 6 7) := by decide +kernel

/-- WB, major 0x2A. -/
theorem test_decode_bri : decodeTableWord 32 0xFFE07355 = some (.bri 6 7 0xFFE) := by decide +kernel

/-- WR, major 0x2B. -/
theorem test_decode_post : decodeTableWord 32 0x000E62D7 = some (.post 5 6 7) := by decide +kernel

/-- WR, major 0x2C. -/
theorem test_decode_send : decodeTableWord 32 0x300E62D9 = some (.send 3 5 6 7) := by decide +kernel

/-- WR, major 0x2D. -/
theorem test_decode_prio : decodeTableWord 32 0x000062DB = some (.prio 5 6) := by decide +kernel

/-- WC, major 0x2E. -/
theorem test_decode_fence : decodeTableWord 32 0x0180005D = some (.fence 2) := by decide +kernel

/-- WC, major 0x2F. -/
theorem test_decode_cadd : decodeTableWord 32 0x10CE62DF = some (.cadd 1 3 5 6 7) := by decide +kernel

/-- WC, major 0x30. -/
theorem test_decode_waitat : decodeTableWord 32 0x014E62E1 = some (.waitat 0 1 5 6 7) := by decide +kernel

/-- WC, major 0x31. -/
theorem test_decode_rdxor : decodeTableWord 32 0x078E62E3 = some (.rdxor 0 2 5 6 7) := by decide +kernel

/-- WC, major 0x32. -/
theorem test_decode_subs : decodeTableWord 32 0x000E62E5 = some (.subs 5 6 7) := by decide +kernel

/-- WC, major 0x33. -/
theorem test_decode_cwin : decodeTableWord 32 0x030E62E7 = some (.cwin 5 6 7) := by decide +kernel

/-- WC, major 0x34. -/
theorem test_decode_pref : decodeTableWord 32 0x04006069 = some (.pref 6) := by decide +kernel

/-- WC, major 0x35. -/
theorem test_decode_mcst : decodeTableWord 32 0x004E62EB = some (.mcst 1 5 6 7) := by decide +kernel

/-- WR, major 0x36. -/
theorem test_decode_epush : decodeTableWord 32 0x008E62ED = some (.epush 5 6 7) := by decide +kernel

/-- WR, major 0x37. -/
theorem test_decode_mjoin : decodeTableWord 32 0x00C062EF = some (.mjoin 5 6) := by decide +kernel

/-- WR, major 0x38. -/
theorem test_decode_twall : decodeTableWord 32 0x004E62F1 = some (.twall 5 6 7) := by decide +kernel

/-- WR, major 0x39. -/
theorem test_decode_scin : decodeTableWord 32 0x008E62F3 = some (.scin 5 6 7) := by decide +kernel

/-- WV, major 0x3A. -/
theorem test_decode_dadd : decodeTableWord 32 0x200A3475 = some (.dadd 2 1 4 6 8) := by decide +kernel

/-- WV, major 0x3B. -/
theorem test_decode_vatn2 : decodeTableWord 32 0x060091F7 = some (.vatn2 0 0 0 1 2 3) := by decide +kernel

/-! ## Fields that an instruction does not accept, and words that are none -/

/-- R43: CLZ does not use b. -/
theorem test_decode_clz_unused_b : decodeTableWord 32 0x00035A05 = none := by decide +kernel

/-- R43: an amount selector above 3 of SHIFTI is refused. -/
theorem test_decode_shift_selector : decodeTableWord 32 0x80285311 = none := by decide +kernel

/-- R43: bits 11:6 of a SHIFTI immediate are zero. -/
theorem test_decode_shift_middle : decodeTableWord 32 0x00A85311 = none := by decide +kernel

/-- R57: the all-zero halfword is illegal. -/
theorem test_decode_zero_halfword : decodeTableWord 16 0 = none := by decide +kernel

/-- R54: major 0x3F is illegal. -/
theorem test_decode_vendor_major : decodeTableWord 32 0x0000007F = none := by decide +kernel

/-- R55: xf 3. -/
theorem test_illFormed_sext : Instr.wf (.sext 3 1 2) = false := by decide +kernel

/-- R55: xf 15. -/
theorem test_illFormed_zext : Instr.wf (.zext 15 1 2) = false := by decide +kernel

/-- R42: w 7 of a load. -/
theorem test_illFormed_ld : Instr.wf (.ld 0 1 2 0 7) = false := by decide +kernel

/-- R43: w 5 of a store. -/
theorem test_illFormed_st : Instr.wf (.st 1 2 0 5) = false := by decide +kernel

/-- R18: a selector that no register has. -/
theorem test_illFormed_mfs : Instr.wf (.mfs 1 0x00B) = false := by decide +kernel

/-- R18: a selector that no register has. -/
theorem test_illFormed_mts : Instr.wf (.mts 0x10A 1) = false := by decide +kernel

/-- R156: a float operation of an integer type. -/
theorem test_illFormed_vadd_type : Instr.wf (.vadd 0 5 0 1 2 3) = false := by decide +kernel

/-- R156: an integer operation of a float type. -/
theorem test_illFormed_viadd_type : Instr.wf (.viadd 0 0 0 1 2 3) = false := by decide +kernel

/-- VCVT between two sizes. -/
theorem test_illFormed_vcvt_sizes : Instr.wf (.vcvt 0 0 0 1 0 1 2) = false := by decide +kernel

/-- VWIDEN into an odd register. -/
theorem test_illFormed_vwiden_pair : Instr.wf (.vwiden 0 0 0 0 2 3 5) = false := by decide +kernel

/-- VNARROW from an odd register. -/
theorem test_illFormed_vnarrow_pair : Instr.wf (.vnarrow 0 0 0 2 0 5 4) = false := by decide +kernel

/-- R42: tyd 4 of VQNT. -/
theorem test_illFormed_vqnt_kind : Instr.wf (.vqnt 0 0 0 4 0 1 2) = false := by decide +kernel

/-- VRBAND of a float type. -/
theorem test_illFormed_vrband_type : Instr.wf (.vrband 0 0 0 1 2) = false := by decide +kernel

/-- VIOTA of a float type. -/
theorem test_illFormed_viota_type : Instr.wf (.viota 0 0 0 1) = false := by decide +kernel

/-- VCHAIN of an integer type. -/
theorem test_illFormed_vchain_type : Instr.wf (.vchain 0 5 1 2) = false := by decide +kernel

/-- VLDB of an integer type. -/
theorem test_illFormed_vldb_type : Instr.wf (.vldb 0 0 5 0 1 2 3) = false := by decide +kernel

/-- R457: DCVT of a bf16. -/
theorem test_illFormed_dcvt : Instr.wf (.dcvt 0 1 0 0 1 2) = false := by decide +kernel

/-- R458: VERF of an integer type. -/
theorem test_illFormed_verf_type : Instr.wf (.verf 0 5 0 1 2) = false := by decide +kernel

/-- R458: VPOW of an integer type. -/
theorem test_illFormed_vpow_type : Instr.wf (.vpow 0 6 0 1 2 3) = false := by decide +kernel

/-! ## Results on fixed operands, worked out from spec/04 by hand -/

/-- x5 after an instruction on the small state with scalar registers set. -/
def x5After (i : Instr) (l : List (Nat × Word)) : Option Word :=
  match exec i (setX l base) with
  | .next t => some (t.cx.x.get ⟨5, by decide⟩)
  | _ => none

/-- R93: division by zero is all ones. -/
theorem test_value_div_by_zero : x5After (.div 0 5 6 7) [(6, 7), (7, 0)] = some 0xFFFFFFFFFFFFFFFF := by decide +kernel

/-- R93: the lowest number by minus one is itself. -/
theorem test_value_div_lowest : x5After (.div 0 5 6 7) [(6, 0x8000000000000000), (7, 0xFFFFFFFFFFFFFFFF)] = some 0x8000000000000000 := by decide +kernel

/-- R93: -7 rem 2 is -1. -/
theorem test_value_rem_sign : x5After (.rem 0 5 6 7) [(6, 0xFFFFFFFFFFFFFFF9), (7, 2)] = some 0xFFFFFFFFFFFFFFFF := by decide +kernel

/-- R93: 7 remn 0 is 7. -/
theorem test_value_remn_zero : x5After (.remn 0 5 6 7) [(6, 7), (7, 0)] = some 7 := by decide +kernel

/-- the high half of (2^64-1)^2. -/
theorem test_value_mulhn_ones : x5After (.mulhn 0 5 6 7) [(6, 0xFFFFFFFFFFFFFFFF), (7, 0xFFFFFFFFFFFFFFFF)] = some 0xFFFFFFFFFFFFFFFE := by decide +kernel

/-- the high half of (-1)(-1). -/
theorem test_value_mulh_minus : x5After (.mulh 0 5 6 7) [(6, 0xFFFFFFFFFFFFFFFF), (7, 0xFFFFFFFFFFFFFFFF)] = some 0 := by decide +kernel

/-- x^63 times x^63 is x^126. -/
theorem test_value_clmulh_top : x5After (.clmulh 0 5 6 7) [(6, 0x8000000000000000), (7, 0x8000000000000000)] = some 0x4000000000000000 := by decide +kernel

/-- an amount is taken modulo 64. -/
theorem test_value_shl_modulo : x5After (.shl 5 6 7) [(6, 3), (7, 65)] = some 6 := by decide +kernel

/-- the immediate is extended by its sign, then compared as unsigned. -/
theorem test_value_sltni_signs : x5After (.sltni 5 6 0x7FFF) [(6, 5)] = some 1 := by decide +kernel

/-- 2^64-1 is not below 1. -/
theorem test_value_sltn_minus : x5After (.sltn 5 6 7) [(6, 0xFFFFFFFFFFFFFFFF), (7, 1)] = some 0 := by decide +kernel

/-- no bit is set. -/
theorem test_value_clz_zero : x5After (.clz 5 6) [(6, 0)] = some 64 := by decide +kernel

/-- the destination is a source. -/
theorem test_value_sub_source : x5After (.sub 5 5 7) [(5, 3), (7, 4)] = some 0xFFFFFFFFFFFFFFFF := by decide +kernel

/-- the sign bit fills. -/
theorem test_value_sra_sign : x5After (.sra 5 6 7) [(6, 0x8000000000000000), (7, 60)] = some 0xFFFFFFFFFFFFFFF8 := by decide +kernel

/-- the bytes in the other order. -/
theorem test_value_bswap_bytes : x5After (.bswap 5 6) [(6, 0x0102030405060708)] = some 0x0807060504030201 := by decide +kernel

/-- the low 32 bits, extended by their sign. -/
theorem test_value_sext_word : x5After (.sext 2 5 6) [(6, 0x80000000)] = some 0xFFFFFFFF80000000 := by decide +kernel


end Sys2Proof.Tests
end

section
/-!
SUPPORT. The system registers field by field (R4, R6, R16, R17, R28, R111): what MFS reads, what MTS sets, and what it leaves; and what SUBS
answers (R365).
-/

namespace Sys2Proof.Laws.SystemRegisters

open Sys2Proof.Machine Sys2Proof.Claims

/-! ## A word put together from fields -/

/-- The number that holds the fields of a register, with zeros elsewhere. -/
def assembled : List (Nat × Nat × Nat) → Nat
  | [] => 0
  | f :: fs => f.2.2 * 2 ^ f.1 + assembled fs

/-- Fields from the bit lo on, in ascending order inside a word, no two sharing a bit, with values of their widths. -/
def laidOut : Nat → List (Nat × Nat × Nat) → Prop
  | lo, [] => lo ≤ 64
  | lo, f :: fs => lo ≤ f.1 ∧ f.2.2 < 2 ^ f.2.1 ∧ laidOut (f.1 + f.2.1) fs

variable {lo : Nat} {f : Nat × Nat × Nat} {fs : List (Nat × Nat × Nat)}

theorem start_le_word (h : laidOut lo fs) : lo ≤ 64 := by
  induction fs generalizing lo with
  | nil => exact h
  | cons f fs ih =>
    obtain ⟨hlo, -, hr⟩ := h
    have := ih hr
    omega

theorem bounds_of_mem (h : laidOut lo fs) (hf : f ∈ fs) : lo ≤ f.1 ∧ f.2.2 < 2 ^ f.2.1 ∧ f.1 + f.2.1 ≤ 64 := by
  induction fs generalizing lo with
  | nil => cases hf
  | cons g fs ih =>
    obtain ⟨hlo, hv, hr⟩ := h
    cases hf with
    | head => exact ⟨hlo, hv, start_le_word hr⟩
    | tail _ hf =>
      obtain ⟨h1, h2⟩ := ih hr hf
      exact ⟨by omega, h2⟩

theorem pow_dvd_assembled (h : laidOut lo fs) : 2 ^ lo ∣ assembled fs := by
  induction fs generalizing lo with
  | nil => exact Nat.dvd_zero _
  | cons f fs ih =>
    obtain ⟨hlo, -, hr⟩ := h
    exact Nat.dvd_add (Dvd.dvd.mul_left (Nat.pow_dvd_pow 2 hlo) _) ((Nat.pow_dvd_pow 2 (by omega)).trans (ih hr))

/-- A bit of the assembled number is one of the first field, or one of the rest. -/
theorem testBit_assembled_cons (h : laidOut lo (f :: fs)) (k : Nat) :
    (assembled (f :: fs)).testBit k =
      if k < f.1 + f.2.1 then decide (f.1 ≤ k) && f.2.2.testBit (k - f.1) else (assembled fs).testBit k := by
  obtain ⟨-, hv, hr⟩ := h
  obtain ⟨q, hq⟩ := pow_dvd_assembled hr
  have hlow : f.2.2 * 2 ^ f.1 < 2 ^ (f.1 + f.2.1) := by
    rw [Nat.pow_add, Nat.mul_comm]
    exact Nat.mul_lt_mul_of_pos_left hv (Nat.two_pow_pos _)
  rw [assembled, hq, Nat.add_comm, Nat.testBit_two_pow_mul_add q hlow, Nat.testBit_mul_two_pow, Nat.testBit_two_pow_mul]
  split
  · rfl
  · rw [decide_eq_true (by omega), Bool.true_and]

theorem testBit_assembled_of_mem (h : laidOut lo fs) (hf : f ∈ fs) {j : Nat} (hj : j < f.2.1) :
    (assembled fs).testBit (f.1 + j) = f.2.2.testBit j := by
  induction fs generalizing lo with
  | nil => cases hf
  | cons g fs ih =>
    rw [testBit_assembled_cons h]
    obtain ⟨-, -, hr⟩ := h
    cases hf with
    | head => simp [hj]
    | tail _ hf =>
      have := (bounds_of_mem hr hf).1
      rw [if_neg (by omega), ih hr hf]

theorem testBit_assembled_of_gap (h : laidOut lo fs) {k : Nat} (hk : ∀ f, f ∈ fs → k < f.1 ∨ f.1 + f.2.1 ≤ k) :
    (assembled fs).testBit k = false := by
  induction fs generalizing lo with
  | nil => exact Nat.zero_testBit k
  | cons g fs ih =>
    rw [testBit_assembled_cons h]
    obtain ⟨-, -, hr⟩ := h
    have hg := hk g (List.mem_cons_self ..)
    split
    · rw [decide_eq_false (by omega), Bool.false_and]
    · exact ih hr (fun f hf => hk f (List.mem_cons_of_mem _ hf))

theorem testBit_field (v : Word) (l n j : Nat) : (field v l n).testBit j = (decide (j < n) && v.getLsbD (l + j)) := by
  rw [field, Nat.testBit_mod_two_pow, Nat.testBit_div_two_pow, BitVec.testBit_toNat, Nat.add_comm]

/-- A word assembled from fields has them, and zeros elsewhere. -/
theorem hasFields_assembled (h : laidOut lo fs) : hasFields (BitVec.ofNat 64 (assembled fs)) fs := by
  refine ⟨fun f hf => Nat.eq_of_testBit_eq (fun j => ?_), fun k _ hk => ?_⟩
  · obtain ⟨-, hv, hend⟩ := bounds_of_mem h hf
    rw [testBit_field, BitVec.getLsbD_ofNat]
    by_cases hj : j < f.2.1
    · rw [testBit_assembled_of_mem h hf hj]
      simp [hj, show f.1 + j < 64 by omega]
    · rw [Nat.testBit_lt_two_pow (hv.trans_le (Nat.pow_le_pow_right (by omega) (by omega)))]
      simp [hj]
  · rw [BitVec.getLsbD_ofNat, testBit_assembled_of_gap h hk, Bool.and_false]

/-! ## The register that a selector names -/

/-- The selectors of the registers that stand alone, outside the banks sys.cwin and sys.rowmap. -/
def fixedSelectors : List Nat :=
  [0x000, 0x001, 0x002, 0x003, 0x004, 0x005, 0x006, 0x007, 0x008, 0x100, 0x101, 0x102, 0x103, 0x104, 0x105, 0x106, 0x107, 0x200, 0x201, 0x202,
    0x203, 0x204, 0x300, 0x400, 0x401, 0x402, 0x403, 0x404, 0x405, 0x406, 0x407, 0x408, 0x409, 0x500, 0x501, 0x502, 0x503, 0x600, 0x601, 0x602,
    0x603, 0x604, 0x605, 0x606]

theorem not_fixed_of_cwin {n : Nat} (h : 0x210 ≤ n ∧ n ≤ 0x21F) : n ∉ fixedSelectors := by
  simp only [fixedSelectors, List.mem_cons, List.not_mem_nil, or_false]; omega

theorem not_fixed_of_rowmap {n : Nat} (h : 0x380 ≤ n ∧ n ≤ 0x3FF) : n ∉ fixedSelectors := by
  simp only [fixedSelectors, List.mem_cons, List.not_mem_nil, or_false]; omega

/-- Every other selector is of a bank, or of no register. -/
theorem registerFields_of_unlisted {s : State} {n : Nat} (h : n ∉ fixedSelectors) : registerFields s n =
    if 0x210 ≤ n ∧ n ≤ 0x21F then some [(0, 64, (tget s.part.cwin (n - 0x210) 0).toNat)]
    else if 0x380 ≤ n ∧ n ≤ 0x3FF then some [(0, 64, ((s.cluster (clusterOf s.cx.key)).row (n - 0x380)).toNat)]
    else none := by
  unfold registerFields
  split
  case h_45 => rfl
  all_goals exact absurd (by decide) h

theorem readSys_of_unlisted {s : State} {sel : BitVec 11} (h : sel.toNat ∉ fixedSelectors) : s.readSys sel =
    if 0x210 ≤ sel.toNat ∧ sel.toNat ≤ 0x21F then tget s.part.cwin (sel.toNat - 0x210) 0
    else if 0x380 ≤ sel.toNat ∧ sel.toNat ≤ 0x3FF then (s.cluster (clusterOf s.cx.key)).row (sel.toNat - 0x380)
    else 0 := by
  unfold State.readSys
  generalize sel.toNat = n at h
  dsimp only
  split
  case h_45 => rfl
  all_goals exact absurd (by decide) h

/-- A register of one field that fills its word. -/
theorem assembled_whole (v : Word) : laidOut 0 [(0, 64, v.toNat)] ∧ v = BitVec.ofNat 64 (assembled [(0, 64, v.toNat)]) :=
  ⟨⟨Nat.le_refl 0, v.isLt, Nat.le_refl 64⟩, by simp [assembled]⟩

theorem field_low {k : Nat} (v : BitVec k) (n : Nat) : field v 0 n = v.toNat % 2 ^ n := by simp [field]

/-- The two fields of sys.daccsel. -/
theorem field_daccsel_index (v : BitVec 8) : field v 0 6 = v.toNat % 64 := field_low v 6
theorem field_daccsel_quantity (v : BitVec 8) : field v 6 2 = v.toNat / 64 := Nat.mod_eq_of_lt (by omega)

/-- A register that stands alone reads as its fields, which lie one above the other in its word.  Where the model writes the word in another way
than field by field, omega compares the two. -/
theorem readSys_of_fixed {s : State} {sel : BitVec 11} (hn : sel.toNat ∈ fixedSelectors) (h : registerFields s sel.toNat = some fs) :
    laidOut 0 fs ∧ s.readSys sel = BitVec.ofNat 64 (assembled fs) := by
  unfold State.readSys
  generalize sel.toNat = n at h hn
  unfold registerFields at h
  split at h
  -- sys.unack, sys.dacc, then sys.daccsel and the selector 0x406
  case h_16 =>
    cases h
    exact ⟨⟨Nat.le_refl 0, by simp, by simp [laidOut]⟩, by simp [assembled]⟩
  case h_19 =>
    simp only [field_daccsel_index, field_daccsel_quantity, Ctx.daccKey]
    dsimp only at h
    split at h <;> rename_i hi <;> cases h
    · rw [if_pos hi]; exact assembled_whole _
    · rw [if_neg hi]; exact assembled_whole 0
  case h_20 | h_44 =>
    cases h
    refine ⟨by simp only [laidOut]; omega, BitVec.eq_of_toNat_eq ?_⟩
    simp only [assembled, zext, BitVec.truncate_eq_setWidth, BitVec.toNat_setWidth, BitVec.toNat_ofNat]
    omega
  case h_45 => simp_all [fixedSelectors]
  all_goals
    cases h
    refine ⟨by simp only [laidOut, Nat.reducePow, Bool.toNat_lt, true_and]; omega, BitVec.eq_of_toNat_eq ?_⟩
    simp [assembled, zext, State.seed, Ctx.status, Ctx.followWord, Ctx.causeWord, State.csync, Partition.sdown, Nat.add_assoc, Nat.mul_comm]

/-- And so does one of a bank. -/
theorem readSys_eq_assembled {s : State} {sel : BitVec 11} (h : registerFields s sel.toNat = some fs) :
    laidOut 0 fs ∧ s.readSys sel = BitVec.ofNat 64 (assembled fs) := by
  by_cases hn : sel.toNat ∈ fixedSelectors
  · exact readSys_of_fixed hn h
  · rw [readSys_of_unlisted hn]
    rw [registerFields_of_unlisted hn] at h
    split_ifs at h ⊢ <;> cases h <;> exact assembled_whole _

theorem exec_mfs (d : Reg) (sel : BitVec 11) (s : State) : exec (.mfs d sel) s = execMfs d sel s := rfl

/-- MFS at a level that may, admitted, with no earlier instruction open where that counts, writes what the register reads as. -/
theorem mfs_wroteX {d : Reg} {sel : BitVec 11} {s : State} (ha : s.admits 0 ⟨[d], [], []⟩) (hl : sysLevel sel ≤ s.cx.pl.toNat)
    (ho : sel = 5 → s.cx.earlierOpen = false) :
    ∃ t, exec (.mfs d sel) s = .next t ∧ s.wroteX t d (s.readSys sel) (s.nextPc 4) [] := by
  refine ⟨s.scalar d (s.readSys sel) 4, ?_, State.scalar_wroteX ha _ 4⟩
  rw [exec_mfs, execMfs, if_neg (Nat.not_lt.mpr hl), State.gate_admitted ha, State.scalar_admitted ha]
  split
  · rename_i h; simp [State.afterEarlier, ho h]
  · rfl

theorem mfs_reads_fields {d : Reg} {sel : BitVec 11} {s : State} (h : registerFields s sel.toNat = some fs)
    (ha : s.admits 0 ⟨[d], [], []⟩) (hl : sysLevel sel ≤ s.cx.pl.toNat) (ho : sel = 5 → s.cx.earlierOpen = false) :
    ∃ t v, exec (.mfs d sel) s = .next t ∧ hasFields v fs ∧ s.wroteX t d v (s.nextPc 4) [] := by
  obtain ⟨hlay, hread⟩ := readSys_eq_assembled h
  obtain ⟨t, he, hw⟩ := mfs_wroteX ha hl ho
  exact ⟨t, _, he, hread ▸ hasFields_assembled hlay, hw⟩

/-! ## What writing one part of the state leaves of the registers -/

theorem tget_tset_same {α : Type} (t : List (Nat × α)) (k : Nat) (v d : α) : tget (tset t k v) k d = v := by
  induction t with
  | nil => exact if_pos rfl
  | cons e r ih =>
    rw [tset]
    split
    · exact if_pos rfl
    · rename_i hne; exact (if_neg hne).trans ih

theorem tget_tset_other {α : Type} (t : List (Nat × α)) {k j : Nat} (v d : α) (h : j ≠ k) : tget (tset t k v) j d = tget t j d := by
  induction t with
  | nil => exact if_neg (Ne.symm h)
  | cons e r ih =>
    rw [tset]
    split
    · rename_i he; simp [tget, he, Ne.symm h]
    · rw [tget, tget, ih]

theorem tset_tset {α : Type} (t : List (Nat × α)) (k : Nat) (v w : α) : tset (tset t k v) k w = tset t k w := by
  induction t with
  | nil => exact if_pos rfl
  | cons e r ih =>
    rw [tset, tset]
    split
    · exact if_pos rfl
    · rename_i hne; rw [tset, if_neg hne, ih]

@[simp] theorem withPart_part (s : State) (f : Partition → Partition) : (s.withPart s.cx.part f).part = f s.part := tget_tset_same ..

@[simp] theorem withCore_core (s : State) (f : Core → Core) : (s.withCore (coreOf s.cx.key) f).core = f s.core := tget_tset_same ..

@[simp] theorem withCluster_cluster (s : State) (k : Nat) (f : Cluster → Cluster) : (s.withCluster k f).cluster k = f (s.cluster k) :=
  tget_tset_same ..

/-- The registers whose values a write of one may change: itself, and those of alsoChanges. -/
def changedBy (n : Nat) : List Nat := if n = 0x204 then [0x204, 0x203] else if n = 0x605 then [0x605, 0x606] else [n]

theorem not_mem_changedBy {n k : Nat} (h : k ≠ n) (ha : ¬ alsoChanges n k) : k ∉ changedBy n := by
  unfold changedBy
  simp only [alsoChanges, not_or, not_and] at ha
  split_ifs with h1 h2 <;> simp_all

/-- The registers that stand alone and that a write of the n-th leaves. -/
def untouched (n : Nat) : List Nat := fixedSelectors.filter (fun k => !(changedBy n).contains k)

/-- It is enough to look at those, and at the two banks. -/
theorem registerFields_eq_of_untouched {s t : State} {n : Nat} (hfix : (untouched n).map (registerFields t) = (untouched n).map (registerFields s))
    (hcwin : ∀ i, 0x210 + i ∉ changedBy n → tget t.part.cwin i 0 = tget s.part.cwin i 0)
    (hrow : ∀ i, 0x380 + i ∉ changedBy n → (t.cluster (clusterOf t.cx.key)).row i = (s.cluster (clusterOf s.cx.key)).row i)
    {k : Nat} (hk : k ∉ changedBy n) : registerFields t k = registerFields s k := by
  by_cases hf : k ∈ fixedSelectors
  · exact List.map_inj_left.mp hfix k (List.mem_filter.mpr ⟨hf, by simpa using hk⟩)
  · rw [registerFields_of_unlisted hf, registerFields_of_unlisted hf]
    split_ifs with h1 h2
    · rw [hcwin _ (by rwa [Nat.add_sub_of_le h1.1])]
    · rw [hrow _ (by rwa [Nat.add_sub_of_le h2.1])]
    · rfl

/-- The states s and t differ in no register of the thread, in no byte of memory and in no system register that a write of the n-th leaves. -/
structure keepsOthers (s t : State) (n : Nat) : Prop where
  thread : (t.cx.pc, t.cx.x, t.cx.v, t.cx.m, t.cx.ox) = (s.cx.pc, s.cx.x, s.cx.v, s.cx.m, s.cx.ox)
  memory : t.mem = s.mem
  others : ∀ k, k ∉ changedBy n → registerFields t k = registerFields s k

theorem keepsOthers_refl (s : State) (n : Nat) : keepsOthers s s n := ⟨rfl, rfl, fun _ _ => rfl⟩

theorem keepsOthers_ite {s t u : State} {n : Nat} {p : Prop} [Decidable p] (ht : keepsOthers s t n) (hu : keepsOthers s u n) :
    keepsOthers s (if p then t else u) n := by
  split
  · exact ht
  · exact hu

/-! A write to the context, to its core or to its partition.  That the untouched registers hold what they held is a matter of evaluating each of
them in both states, and the last hypotheses do so by themselves. -/

theorem keepsOthers_withCx {s : State} {f : Ctx → Ctx} {n : Nat}
    (hthread : ((f s.cx).pc, (f s.cx).x, (f s.cx).v, (f s.cx).m, (f s.cx).ox) = (s.cx.pc, s.cx.x, s.cx.v, s.cx.m, s.cx.ox) := by rfl)
    (hplace : ((f s.cx).part, (f s.cx).key) = (s.cx.part, s.cx.key) := by rfl)
    (hfix : (untouched n).map (registerFields (s.withCx f)) = (untouched n).map (registerFields s) := by
      unfold registerFields; dsimp only [State.withCx_cx]; rfl) : keepsOthers s (s.withCx f) n := by
  obtain ⟨hpart, hkey⟩ := Prod.mk.injEq .. ▸ hplace
  refine ⟨hthread, rfl, fun k hk => registerFields_eq_of_untouched hfix (fun i _ => ?_) (fun i _ => ?_) hk⟩
  · simp [State.part, State.partition, hpart]
  · simp [State.cluster, hkey]

theorem keepsOthers_withCore {s : State} {f : Core → Core} {n : Nat}
    (hfix : (untouched n).map (registerFields (s.withCore (coreOf s.cx.key) f)) = (untouched n).map (registerFields s) := by
      unfold registerFields; rw [withCore_core]; rfl) : keepsOthers s (s.withCore (coreOf s.cx.key) f) n :=
  ⟨rfl, rfl, fun _ => registerFields_eq_of_untouched hfix (fun _ _ => rfl) (fun _ _ => rfl)⟩

theorem keepsOthers_withPart {s : State} {f : Partition → Partition} {n : Nat}
    (hcwin : ∀ i, 0x210 + i ∉ changedBy n → tget (f s.part).cwin i 0 = tget s.part.cwin i 0 := by intros; rfl)
    (hfix : (untouched n).map (registerFields (s.withPart s.cx.part f)) = (untouched n).map (registerFields s) := by
      unfold registerFields; rw [withPart_part]; dsimp only [State.withPart_cx]; rfl) : keepsOthers s (s.withPart s.cx.part f) n :=
  ⟨rfl, rfl, fun _ => registerFields_eq_of_untouched hfix (fun i hi => by rw [withPart_part, hcwin i hi]) (fun _ _ => rfl)⟩

/-! Some writes also send, or change what no register shows. -/

/-- The state t is s but for what is on its way, what other devices are sent, actors, events and the firmware's cores: none of it shows in a
system register. -/
def quiet (s t : State) : Prop :=
  t = { s with inflight := t.inflight, outbox := t.outbox, actors := t.actors, events := t.events, firmware := t.firmware }

theorem quiet_trans {s t u : State} (h1 : quiet s t) (h2 : quiet t u) : quiet s u :=
  h2.trans (congrArg (fun r : State =>
    { r with inflight := u.inflight, outbox := u.outbox, actors := u.actors, events := u.events, firmware := u.firmware }) h1)

theorem quiet_foldl {α : Type} {f : State → α → State} (hf : ∀ s x, quiet s (f s x)) (l : List α) (s : State) : quiet s (l.foldl f s) := by
  induction l generalizing s with
  | nil => rfl
  | cons x l ih => exact quiet_trans (hf s x) (ih _)

theorem quiet_withActor (s : State) (part : Nat) (addr : Word) (f : Actor → Actor) : quiet s (s.withActor part addr f) := by
  unfold State.withActor
  dsimp only
  split <;> rfl

theorem quiet_withCx {s t : State} (h : quiet s t) (f : Ctx → Ctx) : quiet (s.withCx f) (t.withCx f) :=
  congrArg (fun r : State => r.withCx f) h

theorem quiet_registerFields {s t : State} (h : quiet s t) : registerFields t = registerFields s := by rw [h]; rfl

theorem keepsOthers_of_quiet {s t u : State} {n : Nat} (h : keepsOthers s t n) (hq : quiet t u) : keepsOthers s u n := by
  obtain ⟨hthread, hmem, hothers⟩ := h
  refine ⟨?_, ?_, fun k hk => ?_⟩
  · rw [hq]; exact hthread
  · rw [hq]; exact hmem
  · rw [quiet_registerFields hq]; exact hothers k hk

theorem tellGroups_quiet (s : State) (part : Nat) (groups : BitVec 16) (actor : Word) (haddr : BitVec 46) (grp : BitVec 16) :
    quiet s (s.tellGroups part groups actor haddr grp) := quiet_foldl (f := fun s _ => s.emit _) (fun _ _ => rfl) _ s

/-! Each register that MTS may write, whatever is written to it. -/

section writes
variable (s : State)

theorem keepsOthers_status (l r t : Bool) : keepsOthers s (s.withCx (fun c => { c with lao := l, rae := r, ss := t })) 0x000 :=
  keepsOthers_withCx
theorem keepsOthers_fflags (w : BitVec 6) : keepsOthers s (s.withCx (fun c => { c with fflags := w })) 0x005 := keepsOthers_withCx
theorem keepsOthers_frm (w : BitVec 2) : keepsOthers s (s.withCx (fun c => { c with frm := w })) 0x006 := keepsOthers_withCx
theorem keepsOthers_bound (w : BitVec 33) : keepsOthers s (s.withCx (fun c => { c with bound := w })) 0x105 := keepsOthers_withCx
theorem keepsOthers_domain (w : BitVec 2) : keepsOthers s (s.withCx (fun c => { c with domain := w })) 0x106 := keepsOthers_withCx
theorem keepsOthers_phase (w : BitVec 16) : keepsOthers s (s.withCx (fun c => { c with brk := w })) 0x201 := keepsOthers_withCx
theorem keepsOthers_qgrp (h : BitVec 46) (g : BitVec 16) : keepsOthers s (s.withCx (fun c => { c with haddr := h, grp := g })) 0x202 :=
  keepsOthers_withCx
theorem keepsOthers_dacc (l : List (Nat × Word)) : keepsOthers s (s.withCx (fun c => { c with dacc := l })) 0x203 := keepsOthers_withCx
theorem keepsOthers_daccsel (w : BitVec 8) : keepsOthers s (s.withCx (fun c => { c with daccsel := w })) 0x204 := keepsOthers_withCx
theorem keepsOthers_pidx (w : BitVec 32) : keepsOthers s (s.withCx (fun c => { c with pidx := w })) 0x400 := keepsOthers_withCx
theorem keepsOthers_cause (w : Cause) : keepsOthers s (s.withCx (fun c => { c with cause := w })) 0x401 := keepsOthers_withCx
theorem keepsOthers_epc (w : BitVec 63) : keepsOthers s (s.withCx (fun c => { c with epc := w })) 0x402 := keepsOthers_withCx
theorem keepsOthers_bpa (w : Word) : keepsOthers s (s.withCx (fun c => { c with bpa := w })) 0x408 := keepsOthers_withCx
theorem keepsOthers_wpa (w : Word) : keepsOthers s (s.withCx (fun c => { c with wpa := w })) 0x409 := keepsOthers_withCx
theorem keepsOthers_mcmd (o : BitVec 21) (w : Word) (e : Bool) :
    keepsOthers s (s.withCx (fun c => { c with mcmdOff := o, mdat := w, mcmdErr := e })) 0x605 := keepsOthers_withCx
theorem keepsOthers_mdat (w : Word) : keepsOthers s (s.withCx (fun c => { c with mdat := w })) 0x606 := keepsOthers_withCx

theorem keepsOthers_s0 (w : Word) : keepsOthers s (s.withCore (coreOf s.cx.key) (fun c => { c with s0 := w })) 0x004 := keepsOthers_withCore
theorem keepsOthers_s1 (w : Word) : keepsOthers s (s.withCore (coreOf s.cx.key) (fun c => { c with s1 := w })) 0x007 := keepsOthers_withCore
theorem keepsOthers_ctags (w : Word) : keepsOthers s (s.clearTags (coreOf s.cx.key) w) 0x300 := keepsOthers_withCore

theorem keepsOthers_evec (w : BitVec 58) : keepsOthers s (s.withPart s.cx.part (fun p => { p with evec := w })) 0x404 := keepsOthers_withPart
theorem keepsOthers_dfab (w : BitVec 32) : keepsOthers s (s.withPart s.cx.part (fun p => { p with dfab := w })) 0x500 := keepsOthers_withPart
theorem keepsOthers_eclk (w : BitVec 32) : keepsOthers s (s.withPart s.cx.part (fun p => { p with eclk := w })) 0x501 := keepsOthers_withPart
theorem keepsOthers_ptbase (w : BitVec 46) : keepsOthers s (s.withPart s.cx.part (fun p => { p with ptbase := w })) 0x600 := keepsOthers_withPart
theorem keepsOthers_sabase (w : BitVec 50) : keepsOthers s (s.withPart s.cx.part (fun p => { p with sabase := w })) 0x601 := keepsOthers_withPart
theorem keepsOthers_sanum (w : BitVec 20) : keepsOthers s (s.withPart s.cx.part (fun p => { p with sanum := w })) 0x602 := keepsOthers_withPart
theorem keepsOthers_frbase (w : BitVec 56) : keepsOthers s (s.withPart s.cx.part (fun p => { p with frbase := w })) 0x603 := keepsOthers_withPart
end writes

/-! ## Writes whose effect goes beyond one field -/

/-- What a write of sys.sdown sets of its partition (R505): the frame and its size, whether the shoot-down runs, and who has answered since when. -/
def sdownWritten (v : Word) (busy : Bool) (seen : List Nat) (at_ : Nat) (p : Partition) : Partition :=
  { p with
    sdSize := BitVec.ofNat 2 (if field v 14 2 = 3 then 0 else field v 14 2), sdFrame := BitVec.ofNat 42 (field v 16 42),
    sdBusy := busy, sdSeen := seen, sdAt := at_ }

theorem keepsOthers_sdown (s : State) (v : Word) (busy : Bool) (seen : List Nat) (at_ : Nat) :
    keepsOthers s (s.withPart s.cx.part (sdownWritten v busy seen at_)) 0x604 := keepsOthers_withPart

theorem withPart_withPart (s : State) (k : Nat) (f g : Partition → Partition) :
    (s.withPart k f).withPart k g = s.withPart k (fun p => g (f p)) := by
  simp only [State.withPart, State.partition, tget_tset_same, tset_tset]

/-- A write of sys.sdown while no shoot-down runs sets those, and otherwise only sends what it asks. -/
theorem setShootdown_of_idle {s : State} {v : Word} (h : s.part.sdBusy = false) :
    ∃ seen at_, quiet (s.withPart s.cx.part (sdownWritten v (v.getLsbD 0) seen at_)) (s.setShootdown s.cx.part v) := by
  unfold State.setShootdown
  dsimp only
  rw [if_neg (by rw [← State.part, h]; decide)]
  cases hgo : v.getLsbD 0 with
  | false =>
    have e : sdownWritten v s.part.sdBusy s.part.sdSeen s.part.sdAt s.part = { s.part with
      sdFrame := BitVec.ofNat 42 (field v 16 42), sdSize := BitVec.ofNat 2 (if field v 14 2 = 3 then 0 else field v 14 2) } := rfl
    rw [h] at e
    exact ⟨s.part.sdSeen, s.part.sdAt, (congrArg (fun p => s.withPart s.cx.part (fun _ => p)) e).symm⟩
  | true =>
    refine ⟨[], s.clock, ?_⟩
    rw [if_pos rfl, withPart_withPart]
    refine quiet_trans (quiet_foldl (fun s d => ?_) _ _) rfl
    split
    · rfl
    · split <;> rfl

theorem setShootdown_keepsOthers (s : State) (v : Word) : keepsOthers s (s.setShootdown s.cx.part v) 0x604 := by
  cases h : s.part.sdBusy with
  | true =>
    rw [State.setShootdown, if_pos (by rw [← State.part, h])]
    exact keepsOthers_refl s _
  | false =>
    obtain ⟨seen, at_, hq⟩ := setShootdown_of_idle (v := v) h
    exact keepsOthers_of_quiet (keepsOthers_sdown s v _ seen at_) hq

/-- A write of sys.mcmd that writes no window sets the register, and sys.mdat when it reads (R511). -/
theorem windowAccess_eq {s : State} {off op : Nat} (h : op ≠ 2) : s.windowAccess off op = s.withCx (fun c =>
    { c with
      mcmdOff := BitVec.ofNat 21 (off / 8), mdat := if op = 1 then s.windowRead c.part (off / 8 * 8) else c.mdat,
      mcmdErr := if op = 1 then false else c.mcmdErr }) := by
  unfold State.windowAccess
  by_cases h1 : op = 1 <;> simp [h, h1, State.withCx]

theorem setBound_keepsOthers (s : State) (v : Word) : keepsOthers s (s.setBound v) 0x105 := by
  unfold State.setBound
  exact keepsOthers_of_quiet (keepsOthers_bound s _) (quiet_withActor ..)

theorem setGroups_keepsOthers (s : State) (v : Word) : keepsOthers s (s.setGroups v) 0x202 :=
  keepsOthers_of_quiet (keepsOthers_qgrp s _ _) (quiet_withCx (quiet_trans (tellGroups_quiet ..) (quiet_withActor ..)) _)

theorem withCx_ite (s : State) (p : Ctx → Prop) [DecidablePred p] (f : Ctx → Ctx) :
    s.withCx (fun c => if p c then f c else c) = if p s.cx then s.withCx f else s := by
  by_cases h : p s.cx <;> simp [State.withCx, h]

theorem keepsOthers_csync (s : State) : keepsOthers s { s with sync := { s.sync with bad := false } } 0x503 := by
  refine ⟨rfl, rfl, fun k => registerFields_eq_of_untouched ?_ ?_ ?_⟩
  · unfold registerFields; rfl
  · exact fun _ _ => rfl
  · exact fun _ _ => rfl

/-! A write to a place of a bank. -/

theorem self_mem_changedBy (n : Nat) : n ∈ changedBy n := by
  unfold changedBy
  split_ifs with h1 h2
  · simp [h1]
  · simp [h2]
  · exact List.mem_singleton.mpr rfl

theorem untouched_map_congr {s t : State} (n : Nat) (h : fixedSelectors.map (registerFields t) = fixedSelectors.map (registerFields s)) :
    (untouched n).map (registerFields t) = (untouched n).map (registerFields s) :=
  List.map_congr_left (fun k hk => List.map_inj_left.mp h k (List.mem_of_mem_filter hk))

theorem place_ne_of_not_mem {base n i : Nat} (h : base ≤ n) (hi : base + i ∉ changedBy n) : i ≠ n - base := by
  rintro rfl
  rw [Nat.add_sub_of_le h] at hi
  exact hi (self_mem_changedBy n)

theorem keepsOthers_cwin (s : State) {n : Nat} (h : 0x210 ≤ n) (w : Word) :
    keepsOthers s (s.withPart s.cx.part (fun p => { p with cwin := tset p.cwin (n - 0x210) w })) n := by
  refine keepsOthers_withPart (fun i hi => tget_tset_other _ _ _ (place_ne_of_not_mem h hi)) (untouched_map_congr n ?_)
  unfold registerFields; rw [withPart_part]; rfl

theorem keepsOthers_rowmap (s : State) {n : Nat} (h : 0x380 ≤ n) (w : Word) :
    keepsOthers s (s.withCluster (clusterOf s.cx.key) (fun c => { c with rowmap := tset c.rowmap (n - 0x380) w })) n := by
  refine ⟨rfl, rfl, fun k => registerFields_eq_of_untouched (untouched_map_congr n ?_) ?_ (fun i hi => ?_)⟩
  · unfold registerFields; rfl
  · exact fun _ _ => rfl
  · rw [State.withCluster_cx, withCluster_cluster]
    exact tget_tset_other _ _ _ (place_ne_of_not_mem h hi)

/-- A write of a system register changes no other, but for those of alsoChanges, no register of the thread and no memory (R111). -/
theorem writeSys_keepsOthers (s : State) (sel : BitVec 11) (v : Word) (h605 : sel = 0x605 → field v 0 2 ≠ 2) :
    keepsOthers s (s.writeSys sel v s.cx.pl) sel.toNat := by
  unfold State.writeSys
  replace h605 : sel.toNat = 0x605 → field v 0 2 ≠ 2 := fun h => h605 (BitVec.eq_of_toNat_eq h)
  generalize sel.toNat = n at h605 ⊢
  dsimp only
  have low {t : State} {n : Nat} (h : keepsOthers s t n) : keepsOthers s (if s.cx.pl = 0 then s else t) n :=
    keepsOthers_ite (keepsOthers_refl s n) h
  split
  · exact keepsOthers_status s ..
  · exact keepsOthers_s0 s _
  · exact keepsOthers_fflags s _
  · exact keepsOthers_frm s _
  · exact keepsOthers_s1 s _
  · exact setBound_keepsOthers s v
  · exact keepsOthers_domain s _
  · exact keepsOthers_phase s _
  · exact setGroups_keepsOthers s v
  · rw [withCx_ite]; exact keepsOthers_ite (keepsOthers_dacc s _) (keepsOthers_refl s _)
  · exact keepsOthers_daccsel s _
  · exact keepsOthers_ctags s v
  · exact low (keepsOthers_pidx s _)
  · exact low (keepsOthers_cause s _)
  · exact low (keepsOthers_epc s _)
  · exact low (keepsOthers_evec s _)
  · exact low (keepsOthers_bpa s _)
  · exact low (keepsOthers_wpa s _)
  · exact low (keepsOthers_of_quiet (keepsOthers_dfab s _) rfl)
  · exact low (keepsOthers_of_quiet (keepsOthers_eclk s _) rfl)
  · exact low (keepsOthers_ite (keepsOthers_csync s) (keepsOthers_refl s _))
  · exact keepsOthers_ptbase s _
  · exact keepsOthers_sabase s _
  · exact keepsOthers_sanum s _
  · exact keepsOthers_frbase s _
  · exact setShootdown_keepsOthers s v
  · rw [windowAccess_eq (h605 rfl)]; exact keepsOthers_mcmd s ..
  · exact keepsOthers_mdat s _
  · exact keepsOthers_of_quiet (keepsOthers_refl s _) rfl
  · split_ifs with h1 h2
    · exact keepsOthers_cwin s h1.1 _
    · exact keepsOthers_rowmap s h2.1 _
    · exact keepsOthers_refl s _

/-! ## The fields that a write sets -/

theorem toNat_ofNat_field (v : Word) (l n : Nat) : (BitVec.ofNat n (field v l n)).toNat = field v l n := by
  simp [field]

theorem toNat_getLsbD (v : Word) (k : Nat) : (v.getLsbD k).toNat = field v k 1 := by
  rw [← BitVec.testBit_toNat, Nat.toNat_testBit]; rfl

theorem toNat_setWidth (v : Word) (n : Nat) : (v.setWidth n).toNat = field v 0 n := by
  rw [BitVec.toNat_setWidth, field_low]

theorem field_lt {k : Nat} (v : BitVec k) (l n : Nat) : field v l n < 2 ^ n := Nat.mod_lt _ (Nat.two_pow_pos n)

/-- Some of a word's fields, with their values. -/
def fieldsOf (v : Word) (l : List (Nat × Nat)) : List (Nat × Nat × Nat) := l.map (fun p => (p.1, p.2, field v p.1 p.2))

theorem assembled_lt (h : laidOut lo fs) : assembled fs < 2 ^ 64 :=
  Nat.lt_pow_two_of_testBit _ (fun k hk => testBit_assembled_of_gap h (fun f hf => .inr (by have := (bounds_of_mem h hf).2.2; omega)))

/-- A word under a mask is put together from the fields that the mask covers. -/
theorem toNat_and_mask {v m : Word} {l : List (Nat × Nat)} (hl : laidOut 0 (fieldsOf v l))
    (hm : ∀ k, k < 64 → m.getLsbD k = decide (∃ p, p ∈ l ∧ p.1 ≤ k ∧ k < p.1 + p.2)) : (v &&& m).toNat = assembled (fieldsOf v l) := by
  have h : v &&& m = BitVec.ofNat 64 (assembled (fieldsOf v l)) := by
    refine BitVec.eq_of_getLsbD_eq (fun k hk => ?_)
    rw [BitVec.getLsbD_and, BitVec.getLsbD_ofNat, hm k hk, decide_eq_true hk, Bool.true_and]
    by_cases hp : ∃ p, p ∈ l ∧ p.1 ≤ k ∧ k < p.1 + p.2
    · obtain ⟨p, hmem, hlo, hhi⟩ := id hp
      have := testBit_assembled_of_mem hl (List.mem_map_of_mem hmem) (j := k - p.1) (by dsimp only; omega)
      rw [testBit_field, Nat.add_sub_of_le hlo] at this
      rw [this, decide_eq_true hp, decide_eq_true (by omega), Bool.and_true, Bool.true_and]
    · rw [decide_eq_false hp, Bool.and_false, testBit_assembled_of_gap hl]
      intro f hf
      obtain ⟨p, hmem, rfl⟩ := List.mem_map.mp hf
      by_contra hc
      exact hp ⟨p, hmem, by dsimp only at hc; omega, by dsimp only at hc; omega⟩
  rw [h, BitVec.toNat_ofNat, Nat.mod_eq_of_lt (assembled_lt hl)]

theorem toNat_and_watchpoint (v : Word) : (v &&& ~~~4).toNat = field v 0 2 + 8 * field v 3 61 := by
  have h := toNat_and_mask (v := v) (m := ~~~4) (l := [(0, 2), (3, 61)])
    ⟨Nat.le_refl 0, field_lt .., Nat.le_of_ble_eq_true rfl, field_lt .., Nat.le_refl 64⟩ (by decide)
  rw [h]; simp [fieldsOf, assembled, Nat.mul_comm]

theorem toNat_and_cwin (v : Word) : (v &&& 0x1FFFFFFFF).toNat = field v 0 33 := by
  have h := toNat_and_mask (v := v) (m := 0x1FFFFFFFF) (l := [(0, 33)]) ⟨Nat.le_refl 0, field_lt .., Nat.le_of_ble_eq_true rfl⟩ (by decide)
  rw [h]; simp [fieldsOf, assembled]

theorem toNat_and_rowmap (v : Word) : (v &&& 0xF7FFF).toNat = field v 0 15 + 65536 * field v 16 4 := by
  have h := toNat_and_mask (v := v) (m := 0xF7FFF) (l := [(0, 15), (16, 4)])
    ⟨Nat.le_refl 0, field_lt .., Nat.le_of_ble_eq_true rfl, field_lt .., Nat.le_of_ble_eq_true rfl⟩ (by decide)
  rw [h]; simp [fieldsOf, assembled, Nat.mul_comm]

theorem toNat_atLeastOf (v : Word) {least : Nat} (h : least < 2 ^ 32) : (atLeastOf v least).toNat = Nat.max least (field v 0 32) := by
  have hmax : max (v.toNat % 2 ^ 32) least < 2 ^ 32 := Nat.max_lt.mpr ⟨Nat.mod_lt _ (Nat.two_pow_pos 32), h⟩
  rw [atLeastOf, BitVec.toNat_ofNat, field_low]
  exact (Nat.mod_eq_of_lt hmax).trans (Nat.max_comm ..)

/-- Fields that take another value in the place of one that is reserved. -/
theorem frm_written (v : Word) : (if field v 0 2 = 3 then (0 : BitVec 2) else v.setWidth 2).toNat = if field v 0 2 = 3 then 0 else field v 0 2 := by
  rw [apply_ite BitVec.toNat, toNat_setWidth]; rfl

theorem cause_level_written (v : Word) : (BitVec.ofNat 2 (if 2 ≤ field v 60 2 then 1 else field v 60 2)).toNat =
    if 2 ≤ field v 60 2 then 1 else field v 60 2 := by
  rw [apply_ite (BitVec.ofNat 2), apply_ite BitVec.toNat, toNat_ofNat_field]; rfl

theorem sdown_size_written (v : Word) : (BitVec.ofNat 2 (if field v 14 2 = 3 then 0 else field v 14 2)).toNat =
    if field v 14 2 = 3 then 0 else field v 14 2 := by
  rw [apply_ite (BitVec.ofNat 2), apply_ite BitVec.toNat, toNat_ofNat_field]; rfl

theorem daccsel_written (v : Word) :
    (BitVec.ofNat 8 (field v 0 6 + (if field v 6 2 = 3 then 0 else field v 6 2) * 64)).toNat % 64 = field v 0 6 ∧
    (BitVec.ofNat 8 (field v 0 6 + (if field v 6 2 = 3 then 0 else field v 6 2) * 64)).toNat / 64 =
      if field v 6 2 = 3 then 0 else field v 6 2 := by
  have h0 := field_lt v 0 6
  have h6 := field_lt v 6 2
  rw [BitVec.toNat_ofNat]
  split <;> omega

/-- The register n of t holds the fields that a write of v in s sets, where it only sets fields. -/
def setsFields (s t : State) (n : Nat) (v : Word) : Prop := ∀ fs, fieldsWritten s n v = some fs → registerFields t n = some fs

theorem setsFields_of_eq {s t : State} {n : Nat} {v : Word} (h : registerFields t n = fieldsWritten s n v) : setsFields s t n v :=
  fun _ hfs => h.trans hfs

/-- A register whose fields only a privileged level writes: below their level it keeps them. -/
theorem setsFields_privileged {s t : State} {n : Nat} {v : Word} {fs : List (Nat × Nat × Nat)}
    (hdef : fieldsWritten s n v = if s.cx.pl = 0 then registerFields s n else some fs) (h : registerFields t n = some fs) :
    setsFields s (if s.cx.pl = 0 then s else t) n v := by
  refine setsFields_of_eq ?_
  rw [hdef]
  split
  · rfl
  · exact h

theorem setsFields_of_quiet {s t u : State} {n : Nat} {v : Word} (h : setsFields s t n v) (hq : quiet t u) : setsFields s u n v :=
  fun fs hfs => (congrFun (quiet_registerFields hq) n).trans (h fs hfs)

theorem setGroups_setsFields (s : State) (v : Word) : setsFields s (s.setGroups v) 0x202 v := by
  intro fs hfs
  obtain ⟨h, rfl⟩ : field v 18 46 = 0 ∧ [(0, 16, 0), (18, 46, 0)] = fs := by
    simpa [fieldsWritten, -List.cons.injEq] using hfs
  simp [registerFields, State.setGroups, h]

theorem setBound_setsFields (s : State) (v : Word) : setsFields s (s.setBound v) 0x105 v := by
  unfold State.setBound
  exact setsFields_of_quiet (setsFields_of_eq (congrArg (fun a => some [(0, 33, a)]) (toNat_setWidth v 33))) (quiet_withActor ..)

theorem setShootdown_setsFields (s : State) (v : Word) : setsFields s (s.setShootdown s.cx.part v) 0x604 v := by
  cases h : s.part.sdBusy with
  | true =>
    rw [State.setShootdown, if_pos (by rw [← State.part, h])]
    exact setsFields_of_eq (if_pos h).symm
  | false =>
    obtain ⟨seen, at_, hq⟩ := setShootdown_of_idle (v := v) h
    refine setsFields_of_quiet (setsFields_of_eq ?_) hq
    simp only [registerFields, fieldsWritten, withPart_part, sdownWritten, h, toNat_getLsbD, toNat_ofNat_field, sdown_size_written]
    rfl

theorem dacc_setsFields (s : State) (v : Word) :
    setsFields s (s.withCx (fun c => if field c.daccsel 0 6 < 43 then { c with dacc := tset c.dacc c.daccKey v } else c)) 0x203 v := by
  refine setsFields_of_eq ?_
  rw [withCx_ite]
  simp only [fieldsWritten, field_daccsel_index]
  split
  · rename_i h
    simp only [registerFields, State.withCx_cx, if_pos h, Ctx.daccKey, field_daccsel_index, field_daccsel_quantity, tget_tset_same]
  · rfl

theorem mcmd_setsFields (s : State) {v : Word} (h : field v 0 2 ≠ 2) :
    setsFields s (s.windowAccess (field v 3 21 * 8) (field v 0 2)) 0x605 v := by
  intro fs hfs
  have h1 : field v 0 2 ≠ 1 := by rintro h1; simp [fieldsWritten, h1] at hfs
  have h03 : field v 0 2 = 0 ∨ field v 0 2 = 3 := by have := field_lt v 0 2; omega
  rw [windowAccess_eq h, ← hfs]
  simp only [registerFields, fieldsWritten, State.withCx_cx, if_neg h1, if_pos h03, Nat.mul_div_cancel _ (Nat.succ_pos 7), toNat_ofNat_field]

/-- Of sys.csync only BAD may be written, and only to 0 (R522). -/
theorem csync_setsFields (s : State) (v : Word) :
    setsFields s (if s.cx.pl = 0 then s else if v.getLsbD 62 then { s with sync := { s.sync with bad := false } } else s) 0x503 v := by
  refine setsFields_privileged rfl ?_
  cases v.getLsbD 62 <;> rfl

/-- sys.dfab and sys.eclk: events that become safe do not show. -/
theorem markSafe_withPart_registerFields (s : State) (f : Partition → Partition) :
    registerFields (s.markSafe.withPart s.cx.part f) = registerFields (s.withPart s.cx.part f) :=
  quiet_registerFields (s := s.withPart s.cx.part f) (t := s.markSafe.withPart s.cx.part f) rfl

/-- A register of a bank takes its fields of the word; any other without a case of its own stays. -/
theorem bank_setsFields (s : State) {n : Nat} (v : Word)
    (hdef : fieldsWritten s n v =
      if 0x210 ≤ n ∧ n ≤ 0x21F then some [(0, 64, field v 0 33)]
      else if 0x380 ≤ n ∧ n ≤ 0x3FF then some [(0, 64, field v 0 15 + 65536 * field v 16 4)]
      else registerFields s n) :
    setsFields s
      (if 0x210 ≤ n ∧ n ≤ 0x21F then s.withPart s.cx.part (fun p => { p with cwin := tset p.cwin (n - 0x210) (v &&& 0x1FFFFFFFF) })
       else if 0x380 ≤ n ∧ n ≤ 0x3FF then
        s.withCluster (clusterOf s.cx.key) (fun c => { c with rowmap := tset c.rowmap (n - 0x380) (v &&& 0xF7FFF) })
       else s) n v := by
  refine setsFields_of_eq ?_
  rw [hdef]
  split_ifs with h1 h2
  · rw [registerFields_of_unlisted (not_fixed_of_cwin h1), if_pos h1, withPart_part, tget_tset_same, toNat_and_cwin]
  · rw [registerFields_of_unlisted (not_fixed_of_rowmap h2), if_neg h1, if_pos h2, State.withCluster_cx, withCluster_cluster, Cluster.row,
      tget_tset_same, toNat_and_rowmap]
  · rfl

/-- A write of a system register sets the fields that its level may set (R4, R17, R111). -/
theorem writeSys_setsFields (s : State) (sel : BitVec 11) (v : Word) (h605 : sel = 0x605 → field v 0 2 ≠ 2) :
    setsFields s (s.writeSys sel v s.cx.pl) sel.toNat v := by
  unfold State.writeSys
  replace h605 : sel.toNat = 0x605 → field v 0 2 ≠ 2 := fun h => h605 (BitVec.eq_of_toNat_eq h)
  generalize sel.toNat = n at h605 ⊢
  dsimp only
  split
  case h_6 => exact setBound_setsFields s v
  case h_9 => exact setGroups_setsFields s v
  case h_10 => exact dacc_setsFields s v
  case h_21 => exact csync_setsFields s v
  case h_26 => exact setShootdown_setsFields s v
  case h_27 => exact mcmd_setsFields s (h605 rfl)
  -- the selector 0x607, at which no field reads, and the banks with every selector that has no case of its own
  case h_29 => exact setsFields_of_quiet (fun _ hfs => hfs) rfl
  case h_30 =>
    refine bank_setsFields s v ?_
    unfold fieldsWritten
    split
    case h_29 => rfl
    all_goals simp_all
  -- sys.dfab and sys.eclk
  case h_19 | h_20 =>
    refine setsFields_privileged rfl ?_
    rw [markSafe_withPart_registerFields]
    simp only [registerFields, withPart_part, toNat_atLeastOf v (least := 2500) (by decide), toNat_atLeastOf v (least := 100) (by decide)]
  -- the registers of traps and debugging
  case h_13 | h_14 | h_15 | h_16 | h_17 | h_18 =>
    refine setsFields_privileged rfl ?_
    simp only [registerFields, State.withCx_cx, withPart_part, toNat_ofNat_field, toNat_setWidth, toNat_getLsbD, cause_level_written,
      toNat_and_watchpoint]
  all_goals
    refine setsFields_of_eq ?_
    simp only [registerFields, fieldsWritten, State.withCx_cx, withCore_core, withPart_part, State.clearTags, toNat_ofNat_field, toNat_setWidth,
      toNat_getLsbD, frm_written, daccsel_written, apply_ite Bool.toNat]

/-! ## SUBS -/

theorem exec_subs (d a b : Reg) (s : State) : exec (.subs d a b) s = execSubs d a b s := rfl

/-- SUBS, admitted, answers what State.subscribe does, in the state that it leaves. -/
theorem exec_subs_admitted {d a b : Reg} {s u : State} {v : Word} (ha : s.admits 0 ⟨[d], [], []⟩)
    (h : s.subscribe (s.x a).toNat (s.x b).toNat (s.cx.readOx 3).toNat = (v, u)) :
    exec (.subs d a b) s = .next (u.withCx (fun c => (c.writeX d v).retire 4)) := by
  rw [exec_subs, execSubs, State.gate_admitted ha, h]

/-- A refusal writes its code and nothing else. -/
theorem subs_refuses {d a b : Reg} {s : State} {v : Word} (ha : s.admits 0 ⟨[d], [], []⟩)
    (h : s.subscribe (s.x a).toNat (s.x b).toNat (s.cx.readOx 3).toNat = (v, s)) :
    ∃ t, exec (.subs d a b) s = .next t ∧ s.wroteX t d v (s.nextPc 4) [] :=
  ⟨s.scalar d v 4, by rw [exec_subs_admitted ha h, State.scalar_admitted ha], State.scalar_wroteX ha v 4⟩

/-- R365: code 2 for an alignment or a size that is not allowed. -/
theorem subscribe_of_misshapen {s : State} {va n ox : Nat} (h : va % 32 ≠ 0 ∨ ox % 32 ≠ 0 ∨ n % 32 ≠ 0 ∨ n < 32 ∨ 2097152 < n) :
    s.subscribe va n ox = (0x8000000000000002, s) := if_pos h

/-- Regions of a length that lie apart share no byte. -/
theorem overlaps_eq_false {a n b m : Nat} (h : a + n ≤ b ∨ b + m ≤ a) : overlaps a n b m = false := by
  simp only [overlaps, Bool.and_eq_false_iff, decide_eq_false_iff_not]
  omega

/-- The subscription that SUBS makes (R365). -/
def newSub (s : State) (k n pa pb : Nat) : Sub :=
  ⟨32 * s.serial + k, s.cx.tid, coreHere s, pa % 2 ^ 48, pb % 2 ^ 48, n, windowCore pb, 0, [], [], 0⟩

/-- The state with that subscription in its list, in place of what is left of the task's ended ones of that number. -/
def subscribed (s : State) (k n pa pb : Nat) : State :=
  { s with
    serial := s.serial + 1
    subs := s.subs.filter (fun b => !(b.slot == k && b.end_ == 1 && b.received.isEmpty && b.tid == s.cx.tid)) ++ [newSub s k n pa pb] }

/-- No active subscription of the core has bytes in a region that R365 allows. -/
theorem no_live_overlap {s : State} {va ox n pa pb : Nat} (h : Subscribable s va ox n pa pb) :
    (s.subs.filter (fun b => b.end_ == 0)).any (fun b => b.core == coreHere s && overlaps (pa % 2 ^ 48) n b.dest b.size) = false := by
  rw [List.any_eq_false]
  intro b hb hover
  obtain ⟨hmem, hend⟩ := List.mem_filter.mp hb
  obtain ⟨hcore, hover⟩ := Bool.and_eq_true_iff.mp hover
  rw [overlaps_eq_false (h.others b hmem (beq_iff_eq.mp hend) (beq_iff_eq.mp hcore))] at hover
  cases hover

theorem live_of_publisher (l : List Sub) (pub : Nat) :
    (l.filter (fun b => b.end_ == 0)).filter (fun b => b.pubCore == pub) = l.filter (fun b => b.end_ == 0 && b.pubCore == pub) := by
  rw [List.filter_filter]
  exact List.filter_congr (fun b _ => Bool.and_comm ..)

/-- What SUBS answers for regions that R365 allows depends on the publisher's subscriptions and on the free numbers alone. -/
theorem subscribe_of_subscribable {s : State} {va ox n pa pb : Nat} (h : Subscribable s va ox n pa pb) :
    s.subscribe va n ox =
      if 32 ≤ (s.subs.filter (fun b => b.end_ == 0 && b.pubCore == windowCore pb)).length then (0x8000000000000001, s)
      else match s.freeSub (coreHere s) with
        | none => (0x8000000000000001, s)
        | some k => (BitVec.ofNat 64 k, subscribed s k n pa pb) := by
  have hlive := no_live_overlap h
  obtain ⟨⟨hva, hox, hn⟩, ⟨hmin, hmax⟩, ⟨hown, hscr, hcore⟩, ⟨hpub, hpscr, hgrant⟩, hapart, -⟩ := h
  unfold coreHere at hcore hlive ⊢
  unfold State.subscribe
  dsimp only
  rw [if_neg (by omega), hown]
  dsimp only
  rw [if_neg (by simp [hscr, hcore]), hpub]
  dsimp only
  rw [if_neg (by simp [hpscr, hgrant]), if_neg (by rw [overlaps_eq_false hapart, hlive]; decide), live_of_publisher]
  cases s.freeSub (coreOf s.cx.key) <;> rfl

/-- The number that SUBS returns is the lowest that neither the core nor the task uses. -/
theorem freeSub_eq_some {s : State} {k : Nat} (hk : k < 32)
    (hfree : ∀ b, b ∈ s.subs → b.slot = k → b.end_ ≠ 1 → b.core ≠ coreHere s ∧ b.tid ≠ s.cx.tid)
    (hused : ∀ j, j < k → ∃ b, b ∈ s.subs ∧ b.slot = j ∧ b.end_ ≠ 1 ∧ (b.core = coreHere s ∨ b.tid = s.cx.tid)) :
    s.freeSub (coreHere s) = some k := by
  refine List.find?_range_eq_some.mpr ⟨?_, List.mem_range.mpr hk, fun j hj => ?_⟩
  · rw [Bool.not_eq_true', List.any_eq_false]
    intro b hb hu
    simp only [Bool.and_eq_true, beq_iff_eq, bne_iff_ne, Bool.or_eq_true] at hu
    obtain ⟨⟨hslot, hend⟩, huse⟩ := hu
    obtain ⟨h1, h2⟩ := hfree b hb hslot hend
    exact huse.elim h1 h2
  · obtain ⟨b, hb, hslot, hend, huse⟩ := hused j hj
    simp only [Bool.not_not, List.any_eq_true, Bool.and_eq_true, beq_iff_eq, bne_iff_ne, Bool.or_eq_true]
    exact ⟨b, hb, ⟨hslot, hend⟩, huse⟩

theorem newSub_slot (s : State) {k : Nat} (hk : k < 32) (n pa pb : Nat) : (newSub s k n pa pb).slot = k := by
  simp only [newSub, Sub.slot]; omega

/-- A subscription that has not ended stays. -/
theorem mem_subscribed_subs {s : State} {k n pa pb : Nat} {c : Sub} (hc : c ∈ s.subs) (he : c.end_ ≠ 1) :
    c ∈ (subscribed s k n pa pb).subs :=
  List.mem_append_left _ (List.mem_filter.mpr ⟨hc, by simp [he]⟩)

theorem subs_subscribes {d a b : Reg} {s : State} {pa pb k : Nat} (ha : s.admits 0 ⟨[d], [], []⟩)
    (h : Subscribable s (s.x a).toNat (s.cx.readOx 3).toNat (s.x b).toNat pa pb)
    (hroom : (s.subs.filter (fun b => b.end_ == 0 && b.pubCore == windowCore pb)).length < 32) (hk : k < 32)
    (hfree : ∀ b, b ∈ s.subs → b.slot = k → b.end_ ≠ 1 → b.core ≠ coreHere s ∧ b.tid ≠ s.cx.tid)
    (hused : ∀ j, j < k → ∃ b, b ∈ s.subs ∧ b.slot = j ∧ b.end_ ≠ 1 ∧ (b.core = coreHere s ∨ b.tid = s.cx.tid)) :
    ∃ t b', exec (.subs d a b) s = .next t ∧ (d ≠ 0 → t.cx.rawX d = BitVec.ofNat 64 k) ∧ t.subs.getLast? = some b' ∧ b'.slot = k ∧
      b'.tid = s.cx.tid ∧ b'.core = coreHere s ∧ b'.dest = pa % 2 ^ 48 ∧ b'.source = pb % 2 ^ 48 ∧ b'.size = (s.x b).toNat ∧
      b'.pubCore = windowCore pb ∧ b'.end_ = 0 ∧ b'.received = [] ∧ t.mem = s.mem ∧
      ∀ c, c ∈ s.subs → c.end_ ≠ 1 → c ∈ t.subs := by
  have hs := subscribe_of_subscribable h
  rw [if_neg (Nat.not_le.mpr hroom), freeSub_eq_some hk hfree hused] at hs
  exact ⟨_, newSub s k (s.x b).toNat pa pb, exec_subs_admitted ha hs, fun hd => Ctx.rawX_writeX_same s.cx d _ hd,
    List.getLast?_concat .., newSub_slot s hk .., rfl, rfl, rfl, rfl, rfl, rfl, rfl, rfl, rfl, fun _ => mem_subscribed_subs⟩

/-! ## MTS -/

theorem exec_mts (sel : BitVec 11) (a : Reg) (s : State) : exec (.mts sel a) s = execMts sel a s := rfl

/-- MTS at a level that may, with no earlier instruction open where that counts, writes the register and goes on. -/
theorem exec_mts_admitted {sel : BitVec 11} {a : Reg} {s : State} (hl : sysLevel sel ≤ s.cx.pl.toNat) (ho : sel = 5 → s.cx.earlierOpen = false) :
    exec (.mts sel a) s = .next ((s.writeSys sel (s.x a) s.cx.pl).withCx (fun c => c.retire 4)) := by
  rw [exec_mts, execMts, if_neg (Nat.not_lt.mpr hl)]
  dsimp only
  split
  · rename_i h; simp [State.afterEarlier, ho h]
  · rfl

/-- Going on to the next instruction shows in no system register. -/
theorem retire_registerFields (s : State) (len : Nat) : registerFields (s.withCx (fun c => c.retire len)) = registerFields s := by
  unfold registerFields; rfl

theorem mts_writes_fields {sel : BitVec 11} {a : Reg} {s : State} (hl : sysLevel sel ≤ s.cx.pl.toNat)
    (ho : sel = 5 → s.cx.earlierOpen = false) (h605 : sel = 0x605 → field (s.x a) 0 2 ≠ 2) :
    ∃ t, exec (.mts sel a) s = .next t ∧ t.cx.pc = s.nextPc 4 &&& ~~~1 ∧ t.cx.x = s.cx.x ∧ t.cx.v = s.cx.v ∧ t.cx.m = s.cx.m ∧
      t.cx.ox = s.cx.ox ∧ t.mem = s.mem ∧
      (∀ fs, fieldsWritten s sel.toNat (s.x a) = some fs → registerFields t sel.toNat = some fs) ∧
      ∀ n, n ≠ sel.toNat → ¬ alsoChanges sel.toNat n → registerFields t n = registerFields s n := by
  obtain ⟨hthread, hmem, hothers⟩ := writeSys_keepsOthers s sel (s.x a) h605
  simp only [Prod.mk.injEq] at hthread
  obtain ⟨hpc, hx, hv, hm, hox⟩ := hthread
  refine ⟨_, exec_mts_admitted hl ho, ?_, hx, hv, hm, hox, hmem, ?_, ?_⟩
  · rw [State.withCx_cx, Ctx.retire, Ctx.stepTo, hpc, State.nextPc]
  · rw [retire_registerFields]
    exact writeSys_setsFields s sel (s.x a) h605
  · intro n hn ha
    rw [retire_registerFields]
    exact hothers n (not_mem_changedBy hn ha)

/-- Settles O59, by the fields of each register before and after a write of each, and by what State.subscribe answers. -/
theorem registersMoveFieldByFieldAndSubscriptionsAreMade : Obligations.RegistersMoveFieldByFieldAndSubscriptionsAreMade := by
  refine ⟨?_, ?_, ?_, ?_, ?_⟩
  · intro d sel s fs h ha hl ho
    exact mfs_reads_fields h ha hl ho
  · intro sel a s hl ho h605
    exact mts_writes_fields hl ho h605
  · intro d a b s pa pb k ha h hroom hk hfree hused
    exact subs_subscribes ha h hroom hk hfree hused
  · intro d a b s ha h
    exact subs_refuses ha (subscribe_of_misshapen h)
  · intro d a b s pa pb ha h hfull
    exact subs_refuses ha (by rw [subscribe_of_subscribable h, if_pos hfull])

end Sys2Proof.Laws.SystemRegisters
end

section
/-!
SUPPORT. The turn (R11, R193, R225): it is always that of a context of the compute dies, and what a step is made of when a happening lands, when
a word is fetched or forwarded, and when a fetch fails.
-/

namespace Sys2Proof.Laws.Turns

open Sys2Proof.Machine Sys2Proof.Claims

/-! ## Whose turn it is after a step -/

theorem focus_cx_key (s : State) (key : Nat) : (s.focus key).cx.key = key := by
  unfold State.focus
  split
  · assumption
  · cases h : s.others.find? (fun c => c.key == key) with
    | none => rfl
    | some c => exact beq_iff_eq.mp (List.find?_some (p := fun c : Ctx => c.key == key) h)

/-- A core has four contexts, all of the compute dies when one is. -/
theorem core_contexts_lt {k i : Nat} (h : k < contextCount) : 4 * coreOf k + i % 4 < contextCount := by
  simp only [contextCount, clusterCount, Config.dieClusters, coreOf] at h ⊢
  omega

theorem roundRobin_lt (s : State) {k : Nat} (h : k < contextCount) : s.roundRobin k < contextCount := by
  unfold State.roundRobin
  split
  · dsimp only
    generalize (tget s.cores (coreOf k) Core.reset).lastIssued = last
    cases hf : ((List.range 4).map (fun i => 4 * coreOf k + (last + 1 + i) % 4)).find? (fun j => (s.ctxAt j).any Ctx.ready) with
    | none => exact h
    | some j =>
      obtain ⟨i, -, rfl⟩ := List.mem_map.mp (List.mem_of_find?_eq_some hf)
      exact core_contexts_lt h
  · exact h

theorem passTurn_cx_key (s : State) (k : Nat) : (s.passTurn k).cx.key = s.roundRobin k := focus_cx_key _ _

theorem after_cx_key_lt (s before : State) : (s.after before).cx.key < contextCount := by
  unfold State.after
  rw [passTurn_cx_key]
  exact roundRobin_lt _ (Nat.mod_lt _ (by decide))

theorem outcomeAfter_eq_next {before t : State} {o : Out} (h : outcomeAfter before o = .next t) : ∃ s, o = .next s ∧ t = s.after before := by
  cases o with
  | next s => exact ⟨s, rfl, (Host.Outcome.next.inj h).symm⟩
  | fault r => cases h
  | refused r => cases h

/-- Every step ends with what follows it. -/
theorem step_eq_outcomeAfter (s : State) : ∃ o, step s = outcomeAfter s o := by
  unfold step State.stepOnce
  split
  · exact ⟨_, rfl⟩
  · exact ⟨_, rfl⟩
  · exact ⟨_, rfl⟩

/-- Settles O28: what follows every step hands the turn to a context of the compute dies. -/
theorem theTurnIsAlwaysAContexts : Obligations.TheTurnIsAlwaysAContexts := by
  intro s t h
  obtain ⟨o, ho⟩ := step_eq_outcomeAfter s
  obtain ⟨s1, -, ht⟩ := outcomeAfter_eq_next (ho.symm.trans h)
  rw [ht]
  exact after_cx_key_lt s1 s

/-- Settles O30: memory is empty at reset, and context 0 has the turn. -/
theorem resetMeetsTheInvariants : Obligations.ResetMeetsTheInvariants := ⟨State.reset_wf, core_contexts_lt (k := 0) (i := 0) (by decide)⟩

/-! ## What a step is made of -/

/-- A happening that lands does what exec gives the operation that it is. -/
theorem exec_happeningInstr (h : Happening) (s : State) : exec (happeningInstr h) s = runHappening h s := by cases h <;> rfl

theorem step_eq_landing (s : State) : step s = match s.landing with
    | some (h, s1) => outcomeAfter s (exec (happeningInstr h) s1)
    | none => outcomeAfter s (match s.fwTurn with | some k => s.firmwareTurn k | none => s.turnOf) := by
  unfold step State.stepOnce
  rcases s.landing with _ | ⟨h, s1⟩
  · cases s.fwTurn <;> rfl
  · exact congrArg (outcomeAfter s) (exec_happeningInstr h s1).symm

/-- When nothing comes first, a step of a running context issues its next word. -/
theorem step_of_issues {s : State} (h : issues s s.beginTurn) : step s = outcomeAfter s s.beginTurn.issueWord := by
  obtain ⟨hland, hfw, hrun, hpl, hdebug, hasync, hgroup, hblocked, hbreak⟩ := h
  have h3 : s.cx.pl ≠ 3 := fun e => absurd (e ▸ hpl) (by decide)
  have h2 : s.cx.pl ≠ 2 := fun e => absurd (e ▸ hpl) (by decide)
  have hturn : s.turnOf = s.beginTurn.runTurn := by
    unfold State.turnOf
    rw [hrun]
    exact (if_neg h3).trans (if_neg h2)
  have hissue : s.beginTurn.runTurn = s.beginTurn.issueWord := by
    unfold State.runTurn State.issueTurn
    rw [hdebug, hasync, hgroup, hblocked, hbreak]
    rfl
  unfold step State.stepOnce
  rw [hland, hfw, hturn, hissue]

theorem issueWord_of_bytes {s s1 : State} {l : List Byte} (hf : s.cx.forwarded = none) (h : s.fetchWord = .bytes l s1) :
    s.issueWord = s1.runDecoded (BitVec.ofNat 32 (ofBytes l)) (decodeBytes l) := by
  unfold State.issueWord; rw [hf, h]

theorem issueWord_of_fault {s : State} {code pa : Nat} {va : Word} (hf : s.cx.forwarded = none) (h : s.fetchWord = .fault code va pa) :
    s.issueWord = .next (s.fetchFault code va pa) := by
  unfold State.issueWord; rw [hf, h]

theorem issueWord_of_forwarded {s : State} {w : BitVec 32} (hf : s.cx.forwarded = some w) :
    s.issueWord = (s.withCx (fun c => { c with forwarded := none })).runDecoded w (decodeBytes (bytesOf w.toNat 4)) := by
  unfold State.issueWord; rw [hf]

/-- A decoded instruction that no late fault and no earlier access holds back runs, with its followers. -/
theorem runDecoded_of_mayRun {s : State} {i : Instr} (n : Nat) (w : BitVec 32) (h : mayRun s i) : s.runDecoded w (.word i n) = s.runInstr i w := by
  obtain ⟨hclose, horder⟩ := h
  have hlate : (if closesWindows i then s.asyncTrap true else none) = none := by
    split
    · rename_i hc; exact hclose hc
    · rfl
  unfold State.runDecoded State.inOrder
  dsimp only
  rw [hlate]
  dsimp only
  rcases horder with hreg | ⟨hentry, hvec⟩
  · rw [if_pos hreg]
  · rw [hentry]
    rcases hvec with hvec | hvec <;> simp [hvec]

/-- With no follower and no single step, an instruction is what exec gives it. -/
theorem runInstr_alone {s : State} {i : Instr} (w : BitVec 32) (hrole : s.cx.role ≠ 1) (hfollow : s.followers s.cx = []) (hss : s.cx.ss = false) :
    s.runInstr i w = exec i s := by
  unfold State.runInstr State.groupRun
  rw [if_pos hrole, hfollow]
  cases exec i s with
  | next s1 => simp [State.noteStep, hss]
  | fault r => rfl
  | refused r => rfl

/-- Settles O27, by what a turn is made of: the landing, or the word that is fetched or forwarded, or the fetch's fault. -/
theorem stepRunsTheDecodedInstruction : Obligations.StepRunsTheDecodedInstruction := by
  refine ⟨?_, ?_, step_eq_landing, ?_⟩
  · intro s s1 l i n hi hf hfetch hd hm
    have hstep : step s = outcomeAfter s (s1.runInstr i (BitVec.ofNat 32 (ofBytes l))) := by
      rw [step_of_issues hi, issueWord_of_bytes hf hfetch, hd, runDecoded_of_mayRun n _ hm]
    exact ⟨hstep, fun hrole hfollow hss => by rw [hstep, runInstr_alone _ hrole hfollow hss]⟩
  · intro s s1 w i n hi hf hs1 hd hm
    subst hs1
    rw [step_of_issues hi, issueWord_of_forwarded hf, hd, runDecoded_of_mayRun n w hm]
  · intro s code va pa hi hf hfetch
    rw [step_of_issues hi, issueWord_of_fault hf hfetch]

end Sys2Proof.Laws.Turns
end

section
/-!
SUPPORT. Instructions of one thread: MFS and MTS at a level that may (R16, R111), the privilege trap below an instruction's level (R109), the
constant registers (R11), and what a pending destination reads as in its window (R45, R46).
-/

namespace Sys2Proof.Laws.OneThread

open Sys2Proof.Machine Sys2Proof.Claims

/-! ## System registers at a level that may -/

/-- Settles O3, by what MFS and MTS do once they are admitted. -/
theorem systemRegisterMovesTakeEffect : Obligations.SystemRegisterMovesTakeEffect :=
  ⟨fun _ _ _ ha hl ho => SystemRegisters.mfs_wroteX ha hl ho, fun _ _ _ hl ho => SystemRegisters.exec_mts_admitted hl ho⟩

/-! ## Below the level -/

theorem sysLevel_pos {sel : BitVec 11} (h : 0x600 ≤ sel.toNat) : 0 < sysLevel sel := by
  unfold sysLevel
  split_ifs <;> omega

theorem exec_mfs_below {s : State} {sel : BitVec 11} (d : Reg) (h : s.cx.pl.toNat < sysLevel sel) : exec (.mfs d sel) s = .next (s.precise 3 0) := by
  rw [SystemRegisters.exec_mfs, execMfs, if_pos h]

theorem exec_mts_below {s : State} {sel : BitVec 11} (a : Reg) (h : s.cx.pl.toNat < sysLevel sel) : exec (.mts sel a) s = .next (s.precise 3 0) := by
  rw [SystemRegisters.exec_mts, execMts, if_pos h]

theorem atLevel_below {s : State} {level : Nat} (effect : State) (h : s.cx.pl.toNat < level) : s.atLevel level effect = s.precise 3 0 := if_pos h

/-- Settles O7: each form tests its level first. -/
theorem belowItsLevelAnInstructionTraps : Obligations.BelowItsLevelAnInstructionTraps := by
  intro s
  have user {level : Nat} (h0 : s.cx.pl = 0) (hl : 0 < level) : s.cx.pl.toNat < level := by rw [h0]; exact hl
  have trap {level : Nat} (effect : State) (h : s.cx.pl.toNat < level) :
      Host.Outcome.next (φ := Fault) (ρ := Refusal) (s.atLevel level effect) = .next (s.precise 3 0) := congrArg _ (atLevel_below effect h)
  refine ⟨?_, ?_, ?_, ?_, ?_, ?_, ?_, ?_⟩
  · intro d sel hsel h0
    exact exec_mfs_below d (user h0 (sysLevel_pos hsel))
  · intro sel a hsel h0
    exact exec_mts_below a (user h0 (sysLevel_pos hsel))
  · intro a h
    exact exec_mts_below a h
  · exact fun h0 => trap _ (user h0 Nat.one_pos)
  · exact fun d a h0 => trap _ (user h0 Nat.one_pos)
  · exact fun a h0 => trap _ (user h0 Nat.one_pos)
  · exact fun d a h0 => trap _ (user h0 Nat.one_pos)
  · exact fun h => trap _ h

/-! ## Constant and pending registers -/

theorem readM_zero (c : Ctx) : c.readM 0 = BitVec.allOnes 1024 := if_pos rfl

theorem writeX_zero (c : Ctx) (v : Word) : c.writeX 0 v = c := if_pos rfl

theorem writeM_zero (c : Ctx) (v : MWord) : c.writeM 0 v = c := if_pos rfl

/-- After a write of a register no older window keeps a value for it (R50). -/
theorem oldOf_tickWindows_writeX (c : Ctx) {d : Reg} (v : Word) (hd : d ≠ 0) :
    oldOf (·.xs) d.toNat (tickWindows (c.writeX d v).windows) = none := by
  unfold oldOf
  rw [List.findSome?_eq_none_iff]
  intro w hw
  simp only [tickWindows, Ctx.writeX, if_neg hd, List.map_map, List.mem_filter, List.mem_map, Function.comp] at hw
  obtain ⟨⟨w', -, rfl⟩, -⟩ := hw
  simp [List.find?_eq_none]

theorem oldOf_append {α : Type} (sel : Window → List (Nat × α)) (n : Nat) (ws us : List Window) (h : oldOf sel n ws = none) :
    oldOf sel n (ws ++ us) = oldOf sel n us := by
  unfold oldOf at *
  rw [List.findSome?_append, h, Option.none_or]

theorem oldOf_openedX (c : Ctx) {la : BitVec 4} {d : Reg} (hd : d ≠ 0) (hla : la ≠ 0) :
    oldOf (·.xs) d.toNat (openedX c la d) = some (c.rawX d) := by
  rw [openedX, if_neg hla, if_neg hd]
  simp [oldOf]

/-- A long-latency instruction with one destination leaves its old value to the window that it opens (R45, R46). -/
theorem readX_of_wroteX {s t : State} {la : BitVec 4} {d : Reg} {v next : Word} (hd : d ≠ 0) (hla : la ≠ 0)
    (h : s.wroteX t d v next (openedX s.cx la d)) : t.cx.readX d = s.cx.rawX d := by
  rw [Ctx.readX, if_neg hd, h.windows, oldOf_append _ _ _ _ (oldOf_tickWindows_writeX s.cx v hd), oldOf_openedX s.cx hd hla]
  rfl

theorem exec_mul (la : BitVec 4) (d a b : Reg) (s : State) : exec (.mul la d a b) s = .next (s.scalarLong la d (s.x a * s.x b)) := rfl

theorem tickWindows_singleton (w : Window) : tickWindows [w] = if w.left - 1 = 0 then [] else [{ w with left := w.left - 1 }] := by
  unfold tickWindows
  by_cases h : w.left - 1 = 0 <;> simp [h]

/-- The windows after n instructions, of which the first finds one window open. -/
def ticked (w : Window) (n : Nat) : List Window := Nat.rec (motive := fun _ => List Window) [w] (fun _ ws => tickWindows ws) n

/-- A window is open for as many instructions as it has left (R45). -/
theorem ticked_eq {w : Window} (hw : w.left ≠ 0) (n : Nat) : ticked w n = if n < w.left then [{ w with left := w.left - n }] else [] := by
  induction n with
  | zero => rw [if_pos (Nat.pos_of_ne_zero hw)]; rfl
  | succ n ih =>
    have hstep : ticked w (n + 1) = tickWindows (ticked w n) := rfl
    rw [hstep, ih]
    by_cases h : n < w.left
    · rw [if_pos h, tickWindows_singleton, Nat.sub_sub]
      by_cases h1 : n + 1 < w.left
      · rw [if_pos h1, if_neg (Nat.sub_ne_zero_of_lt h1)]
      · rw [if_neg h1, if_pos (by omega)]
    · rw [if_neg h, if_neg (by omega)]
      rfl

/-- Settles O33: the constants by the reading and writing of x0 and m0, the pending destination by the window that the multiply opens, and the
window's length by counting it down. -/
theorem constantAndPendingRegistersRead : Obligations.ConstantAndPendingRegistersRead := by
  refine ⟨fun c v => ⟨Ctx.readX_zero c, writeX_zero c v⟩, fun c v => ⟨readM_zero c, writeM_zero c v⟩, ?_, fun w n hw => ticked_eq hw n⟩
  intro s t la d a b hd hla ha he
  obtain rfl := Host.Outcome.next.inj ((exec_mul la d a b s).symm.trans he)
  have h := State.scalarLong_wroteX ha (s.x a * s.x b)
  exact ⟨readX_of_wroteX hd hla h, h.value hd⟩

end Sys2Proof.Laws.OneThread
end

section
/-!
SUPPORT. What moving lines, stores and their answers leaves of threads and actors (R301, R322, R331, R332, R340): write-backs, releases, acquires,
and the requests and acknowledgements that they bring in change only what a thread owes and is owed.
-/

namespace Sys2Proof.Laws.Threads

open Sys2Proof.Machine Sys2Proof.Claims

/-- A context without its accounts: what it owes and is owed, what it has released, its holds, and its group. -/
def bare (c : Ctx) : Ctx :=
  { c with
    unack := 0, dacc := [], records := [], pends := [], epoch := 0, sysEpoch := 0, brk := 0, role := 0, members := 0, forwarded := none }

/-- The threads on contexts, without their accounts, and the actors. -/
def threads (s : State) : Ctx × List Ctx × List Actor := (bare s.cx, s.others.map bare, s.actors)

theorem threads_foldl {α : Type} {f : State → α → State} (hf : ∀ s x, threads (f s x) = threads s) (l : List α) (s : State) :
    threads (l.foldl f s) = threads s := by
  induction l generalizing s with
  | nil => rfl
  | cons x l ih => rw [List.foldl_cons, ih, hf]

theorem threads_elim {α : Type} (o : Option α) {s : State} {f : α → State} (hf : ∀ a, threads (f a) = threads s) :
    threads (o.elim s f) = threads s := by
  cases o with
  | none => rfl
  | some a => exact hf a

theorem map_updateFirst_bare {p : Ctx → Bool} {f : Ctx → Ctx} (hf : ∀ c, bare (f c) = bare c) (l : List Ctx) :
    (updateFirst p f l).map bare = l.map bare := by
  induction l with
  | nil => rfl
  | cons c l ih =>
    rw [updateFirst]
    split
    · simp [hf]
    · simp [ih]

/-- A change of a task's accounts leaves the threads. -/
theorem threads_withTask (s : State) (tid : Word) {f : Ctx → Ctx} (hf : ∀ c, bare (f c) = bare c) : threads (s.withTask tid f) = threads s := by
  unfold State.withTask
  split
  · simp [threads, hf]
  · simp [threads, map_updateFirst_bare hf]

theorem threads_withCtx (s : State) (key : Nat) {f : Ctx → Ctx} (hf : ∀ c, bare (f c) = bare c) : threads (s.withCtx key f) = threads s := by
  unfold State.withCtx
  split
  · simp [threads, hf]
  · simp [threads, map_updateFirst_bare hf]

theorem threads_withCx (s : State) {f : Ctx → Ctx} (hf : ∀ c, bare (f c) = bare c) : threads (s.withCx f) = threads s := by
  simp [threads, State.withCx, hf]

@[simp] theorem threads_withCore (s : State) (k : Nat) (f : Core → Core) : threads (s.withCore k f) = threads s := rfl
@[simp] theorem threads_withCluster (s : State) (k : Nat) (f : Cluster → Cluster) : threads (s.withCluster k f) = threads s := rfl
@[simp] theorem threads_send (s : State) (i : Happening) : threads (s.send i) = threads s := rfl
@[simp] theorem threads_sendFirst (s : State) (i : Happening) : threads (s.sendFirst i) = threads s := rfl
@[simp] theorem threads_emit (s : State) (x : Sent) : threads (s.emit x) = threads s := rfl
@[simp] theorem threads_farPut (s : State) (c : Cell) : threads (s.farPut c) = threads s := rfl
@[simp] theorem threads_clearTags (s : State) (core : Nat) (mask : Word) : threads (s.clearTags core mask) = threads s := rfl
@[simp] theorem threads_dropWay (s : State) (h : Nat) (w : Way) : threads (s.dropWay h w) = threads s := rfl

@[simp] theorem threads_sendMany (s : State) (i : Happening) (n : Nat) : threads (s.sendMany i n) = threads s := by
  induction n generalizing s with
  | zero => rfl
  | succ n ih => exact ih _

/-! ## Stores at their homes -/

@[simp] theorem threads_wakeTask (s : State) (key : Nat) (v : Word) (test : Pend → Bool) (c : Ctx) :
    threads (s.wakeTask key v test c) = threads s := by
  unfold State.wakeTask
  rw [threads_sendMany, threads_withTask]
  exact fun _ => rfl

@[simp] theorem threads_wakeFar (s : State) (v : Word) (test : FarWait → Bool) : threads (s.wakeFar v test) = threads s := by
  unfold State.wakeFar
  exact threads_foldl (fun _ _ => threads_emit ..) _ _

@[simp] theorem threads_testEntries (s : State) (key : Nat) : threads (s.testEntries key) = threads s := by
  unfold State.testEntries
  rw [threads_wakeFar]
  exact threads_foldl (fun _ _ => threads_wakeTask ..) _ _

@[simp] theorem threads_accept (s : State) (cells : List Cell) : threads (s.accept cells) = threads s := by
  unfold State.accept
  exact threads_foldl (fun _ _ => threads_testEntries ..) _ _

@[simp] theorem threads_farAccept (s : State) (cells : List Cell) : threads (s.farAccept cells) = threads s := by
  unfold State.farAccept
  rw [threads_foldl (fun _ _ => threads_testEntries ..), threads_foldl threads_farPut]

@[simp] theorem threads_fillWay (s : State) (h pa : Nat) (ros : Bool) : threads (s.fillWay h pa ros) = threads s := by
  unfold State.fillWay
  split
  · rfl
  · dsimp only
    split
    · rfl
    · rw [threads_withCluster]
      exact threads_elim _ (fun w => threads_dropWay ..)

@[simp] theorem threads_writeSlice (s : State) (h pa : Nat) (cells : List Cell) : threads (s.writeSlice h pa cells) = threads s := by
  unfold State.writeSlice
  rw [threads_withCluster, threads_fillWay]

@[simp] theorem threads_acceptHome (s : State) (part pa : Nat) (cells : List Cell) : threads (s.acceptHome part pa cells) = threads s := by
  unfold State.acceptHome
  rw [threads_accept]
  exact threads_elim _ (fun h => threads_writeSlice ..)

@[simp] theorem threads_ack (s : State) (q : HomeReq) (level : Nat) : threads (s.ack q level) = threads s := threads_sendMany ..

@[simp] theorem threads_refuseFrom (s : State) (q : HomeReq) (pa level n : Nat) : threads (s.refuseFrom q pa level n) = threads s := by
  induction n generalizing s pa with
  | zero => rfl
  | succ n ih => exact ih _ _

@[simp] theorem threads_refuse (s : State) (q : HomeReq) (pa : Nat) : threads (s.refuse q pa) = threads s := threads_refuseFrom ..

@[simp] theorem threads_portWrite (s : State) (o : Origin) (pa off : Nat) (bytes : List Byte) :
    threads (s.portWrite o pa off bytes) = threads s := by
  unfold State.portWrite
  dsimp only
  split_ifs
  · rfl
  · rfl
  · rfl
  · exact threads_refuse ..

@[simp] theorem threads_serveFar (s : State) (q : HomeReq) (dev pa : Nat) : threads (s.serveFar q dev pa) = threads s := by
  unfold State.serveFar
  split_ifs <;> simp

@[simp] theorem threads_serve (s : State) (q : HomeReq) : threads (s.serve q) = threads s := by
  unfold State.serve
  split
  · exact threads_ack ..
  · dsimp only
    split
    · rfl
    · split
      · split_ifs <;> simp
      · split_ifs <;> simp
      · split_ifs <;> simp
      · split_ifs <;> simp
      · split_ifs <;> simp
      · exact threads_serveFar ..
      · exact threads_refuse ..

/-! ## Acknowledgements -/

@[simp] theorem threads_paid (s : State) (tid : Word) : threads (s.paid tid) = threads s := threads_withTask _ _ (fun _ => rfl)

theorem bare_addDelay (c : Ctx) (level hops queue : Nat) : bare (c.addDelay level hops queue) = bare c := by
  unfold Ctx.addDelay
  dsimp only
  split <;> rfl

@[simp] theorem threads_faultQueue (s : State) (part : Nat) (r : Record) : threads (s.faultQueue part r) = threads s := by
  unfold State.faultQueue
  dsimp only
  split_ifs <;> rfl

@[simp] theorem threads_deliver (s : State) (tid : Word) (part code sub : Nat) (r : Record) (unack : Bool) :
    threads (s.deliver tid part code sub r unack) = threads s := by
  unfold State.deliver
  split
  · exact threads_faultQueue ..
  · exact threads_withTask _ _ (fun _ => rfl)

@[simp] theorem threads_acked (s : State) (tid : Word) (part : Nat) (refusal : Option Record) (level : Nat) :
    threads (s.acked tid part refusal level) = threads s := by
  unfold State.acked
  have hdelay := threads_withTask s tid (f := fun c => c.addDelay level (Config.hops s.turn) (Config.queueCycles s.turn))
    (fun _ => bare_addDelay ..)
  cases refusal with
  | none => exact (threads_paid ..).trans hdelay
  | some r => exact (threads_deliver ..).trans hdelay

@[simp] theorem threads_ackedAll (s : State) (l : List (Word × Nat × Option Record × Nat)) : threads (s.ackedAll l) = threads s := by
  induction l generalizing s with
  | nil => rfl
  | cons a l ih => exact (ih _).trans (threads_acked ..)

@[simp] theorem threads_updateArrives (s : State) (n : Nat) (u : Update) : threads (s.updateArrives n u) = threads s := by
  unfold State.updateArrives
  split
  · exact threads_paid ..
  · dsimp only
    split
    · exact threads_acked ..
    · exact threads_acked ..

@[simp] theorem threads_landAll (s : State) (l : List Happening) : threads (s.landAll l) = threads s := by
  fun_induction State.landAll s l with
  | case1 => rfl
  | case2 s q r ih => rw [ih, threads_serve]
  | case3 s n u r ih => rw [ih, threads_updateArrives]
  | case4 s i r _ _ ih => exact ih

@[simp] theorem threads_drain (s : State) (core : Nat) : threads (s.drain core) = threads s := threads_landAll ..

@[simp] theorem threads_ackRoom (s : State) (tid : Word) (n : Nat) : threads (s.ackRoom tid n) = threads s := by
  unfold State.ackRoom
  split
  · rfl
  · split
    · rfl
    · exact (threads_ackedAll ..).trans (threads_drain ..)

/-! ## Lines, releases and acquires -/

@[simp] theorem threads_oweMany (s : State) (tid : Word) (n : Nat) : threads (s.oweMany tid n) = threads s :=
  threads_withTask _ _ (fun _ => rfl)

@[simp] theorem threads_mendLine (s : State) (core num j n : Nat) : threads (s.mendLine core num j n) = threads s := by
  unfold State.mendLine
  dsimp only
  split <;> rfl

@[simp] theorem threads_sendBack (s : State) (q : HomeReq) (lines : List Line) : threads (s.sendBack q lines) = threads s := by
  unfold State.sendBack
  dsimp only
  split
  · rw [threads_foldl (fun _ _ => threads_send ..), threads_oweMany, threads_ackRoom]
  · rw [threads_send, threads_oweMany, threads_ackRoom]

@[simp] theorem threads_writeBack (s : State) (core num : Nat) (by_ : List Before) (loads : List Word) :
    threads (s.writeBack core num by_ loads) = threads s := by
  unfold State.writeBack
  dsimp only
  split
  · rfl
  · split
    · rfl
    · rw [threads_withCore, threads_sendBack, threads_foldl (fun _ _ => threads_mendLine ..)]

@[simp] theorem threads_writeBackAll (s : State) (core : Nat) (by_ : List Before) (loads : List Word) (l : List Nat) :
    threads (s.writeBackAll core by_ loads l) = threads s := by
  induction l generalizing s with
  | nil => rfl
  | cons n l ih => exact (ih _).trans (threads_writeBack ..)

@[simp] theorem threads_dropHolds (s : State) (key : Nat) : threads (s.dropHolds key) = threads s := by
  unfold State.dropHolds
  rw [threads_withCore, threads_writeBackAll]

@[simp] theorem threads_acquire (s : State) (key : Nat) (scope : BitVec 2) : threads (s.acquire key scope) = threads s := by
  unfold State.acquire
  split
  · rfl
  · rw [threads_withCore, threads_writeBackAll]

/-- The start of a phase leaves every thread and every actor (R322, R323). -/
@[simp] theorem threads_enterPhase (s : State) (key : Nat) (scope : BitVec 2) : threads (s.enterPhase key scope) = threads s := by
  unfold State.enterPhase
  rw [threads_acquire, threads_dropHolds]

@[simp] theorem threads_sendUpdates (s : State) (l : List (Nat × Update)) : threads (s.sendUpdates l) = threads s := by
  induction l generalizing s with
  | nil => rfl
  | cons u l ih =>
    unfold State.sendUpdates
    rw [ih, threads_send, threads_oweMany, threads_ackRoom]

@[simp] theorem threads_releaseSubs (s : State) (core : Nat) (sent after : Before) (scope : BitVec 2) :
    threads (s.releaseSubs core sent after scope) = threads s := threads_sendUpdates ..

@[simp] theorem threads_releaseOf (s : State) (c : Ctx) (scope : BitVec 2) : threads (s.releaseOf c scope) = threads s := by
  unfold State.releaseOf
  rw [threads_releaseSubs]
  split
  · rfl
  · exact threads_writeBackAll ..

/-- A release leaves every thread and every actor (R331). -/
@[simp] theorem threads_release (s : State) (key : Nat) (scope : BitVec 2) : threads (s.release key scope) = threads s := by
  unfold State.release
  split
  · rfl
  · rw [threads_withCtx, threads_releaseOf]
    exact fun _ => rfl

/-! ## Follow groups -/

theorem bare_ungrouped (c : Ctx) : bare c.ungrouped = bare c := rfl

@[simp] theorem threads_disband (s : State) (c : Ctx) : threads (s.disband c) = threads s := by
  unfold State.disband
  rw [threads_withCtx _ _ bare_ungrouped, threads_foldl (fun s k => threads_withCtx s k bare_ungrouped)]

/-- A change of every context's accounts leaves the threads. -/
theorem threads_map (s : State) {f : Ctx → Ctx} (hf : ∀ c, bare (f c) = bare c) :
    threads { s with cx := f s.cx, others := s.others.map f } = threads s := by
  have hmap : (s.others.map f).map bare = s.others.map bare := by
    rw [List.map_map]; exact List.map_congr_left (fun c _ => hf c)
  simp only [threads, hf, hmap]

/-- Leaving a follow group leaves every thread and every actor (R227, R228). -/
@[simp] theorem threads_leaveGroup (s : State) (c : Ctx) : threads (s.leaveGroup c) = threads s := by
  unfold State.leaveGroup
  split
  · exact threads_disband ..
  · split
    · extract_lets bit drop s1 s2 lead
      have hdrop (d : Ctx) : bare (drop d) = bare d := by dsimp only [drop]; split <;> rfl
      have hlead (d : Ctx) : bare (lead d) = bare d := by dsimp only [lead]; split <;> rfl
      calc
        _ = threads s2 := threads_map s2 hlead
        _ = threads s1 := threads_withCtx _ _ bare_ungrouped
        _ = threads s := threads_map s hdrop
    · rfl

/-! ## What the threads tell -/

theorem actorOf_of_threads {s t : State} (h : threads t = threads s) (part : Nat) (addr : Word) : t.actorOf part addr = s.actorOf part addr := by
  have ha : t.actors = s.actors := congrArg (·.2.2) h
  unfold State.actorOf; rw [ha]

theorem bare_cx_of_threads {s t : State} (h : threads t = threads s) : bare t.cx = bare s.cx := congrArg (·.1) h

theorem key_of_bare {c d : Ctx} (h : bare d = bare c) : d.key = c.key := by
  have hkey : (bare d).key = (bare c).key := by rw [h]
  exact hkey

theorem find_map_bare (key : Nat) (l : List Ctx) : (l.map bare).find? (fun c => c.key == key) = (l.find? (fun c => c.key == key)).map bare := by
  rw [List.find?_map]; rfl

theorem map_bare_ctxAt (s : State) (key : Nat) : (s.ctxAt key).map bare =
    if (threads s).1.key = key then some (threads s).1 else (threads s).2.1.find? (fun c => c.key == key) := by
  unfold State.ctxAt threads
  dsimp only
  rw [find_map_bare]
  by_cases h : s.cx.key = key
  · rw [if_pos h, if_pos (show (bare s.cx).key = key from h)]; rfl
  · rw [if_neg h, if_neg (show (bare s.cx).key ≠ key from h)]

/-- The context of a key is the same but for its accounts. -/
theorem ctxAt_of_threads {s t : State} {key : Nat} {c : Ctx} (h : threads t = threads s) (hc : s.ctxAt key = some c) :
    ∃ k, t.ctxAt key = some k ∧ bare k = bare c := by
  have hmap : (t.ctxAt key).map bare = some (bare c) := by
    rw [map_bare_ctxAt, h, ← map_bare_ctxAt, hc]; rfl
  exact Option.map_eq_some_iff.mp hmap

end Sys2Proof.Laws.Threads
end

section
/-!
SUPPORT. Events on their way to their actors' queues (R197, R202, R209, R276), actors that move (R197), and raises that reach tasks (R253).
-/

namespace Sys2Proof.Laws.Events

open Sys2Proof.Machine Sys2Proof.Claims

/-! ## The first element that a test accepts -/

theorem find_updateFirst {α : Type} {p : α → Bool} {f : α → α} (hf : ∀ a, p a = true → p (f a) = true) (l : List α) :
    (updateFirst p f l).find? p = (l.find? p).map f := by
  induction l with
  | nil => rfl
  | cons a l ih =>
    rw [updateFirst]
    by_cases h : p a = true
    · rw [if_pos h, List.find?_cons_of_pos (hf a h), List.find?_cons_of_pos h]; rfl
    · rw [if_neg h, List.find?_cons_of_neg h, List.find?_cons_of_neg h, ih]

theorem length_updateFirst {α : Type} (p : α → Bool) (f : α → α) (l : List α) : (updateFirst p f l).length = l.length := by
  induction l with
  | nil => rfl
  | cons a l ih => rw [updateFirst]; split <;> simp [ih]

theorem updateFirst_beq_mem {α : Type} [BEq α] [LawfulBEq α] {f : α → α} {a : α} {l : List α} (h : a ∈ l) :
    f a ∈ updateFirst (fun b => b == a) f l := by
  induction l with
  | nil => cases h
  | cons b l ih =>
    rw [updateFirst]
    by_cases hb : b = a
    · subst hb; simp
    · rw [if_neg (by simpa using hb)]
      exact List.mem_cons_of_mem b (ih (List.mem_of_ne_of_mem (Ne.symm hb) h))

theorem best_mem {α : Type} {lt : α → α → Bool} {l : List α} {a : α} (h : best lt l = some a) : a ∈ l := by
  induction l generalizing a with
  | nil => cases h
  | cons b l ih =>
    rw [best] at h
    cases hb : best lt l with
    | none => rw [hb] at h; cases h; exact List.mem_cons_self
    | some c =>
      rw [hb] at h
      dsimp only at h
      split at h
      · cases h; exact List.mem_cons_of_mem b (ih hb)
      · cases h; exact List.mem_cons_self

/-! ## Tasks and actors after a change -/

/-- A task that is changed, and keeps its identifier and its context, is found as it was changed to. -/
theorem taskOf_withTask (s : State) (tid : Word) {f : Ctx → Ctx} (htid : ∀ c, (f c).tid = c.tid)
    (hrun : ∀ c, c.run ≠ .idle → (f c).run ≠ .idle) :
    (s.withTask tid f).taskOf tid = (s.taskOf tid).map f := by
  have hmatch (c : Ctx) (h : (c.tid == tid) = true) : ((f c).tid == tid) = true := by rwa [htid]
  unfold State.withTask
  split
  · rename_i h
    have hf : (f s.cx).tid = tid ∧ (f s.cx).run ≠ .idle := ⟨(htid _).trans h.1, hrun _ h.2⟩
    unfold State.taskOf
    rw [if_pos hf, if_pos h]
    rfl
  · rename_i h
    unfold State.taskOf
    dsimp only
    rw [if_neg h, if_neg h, find_updateFirst hmatch, find_updateFirst (fun r => hmatch r.2.2), find_updateFirst hmatch]
    cases s.others.find? (fun c => c.tid == tid) with
    | some c => rfl
    | none =>
      cases s.ready.find? (fun r => r.2.2.tid == tid) with
      | some r => rfl
      | none => rfl

theorem withActor_eq (s : State) (part : Nat) (addr : Word) (f : Actor → Actor) :
    s.withActor part addr f = { s with actors := (s.withActor part addr f).actors } := by
  unfold State.withActor
  dsimp only
  split <;> rfl

@[simp] theorem withActor_cx (s : State) (part : Nat) (addr : Word) (f : Actor → Actor) : (s.withActor part addr f).cx = s.cx := by
  rw [withActor_eq]

@[simp] theorem withActor_mem (s : State) (part : Nat) (addr : Word) (f : Actor → Actor) : (s.withActor part addr f).mem = s.mem := by
  rw [withActor_eq]

/-- An actor that is changed, and stays where it is, is found as it was changed to. -/
theorem actorOf_withActor (s : State) (part : Nat) (addr : Word) {f : Actor → Actor} (hf : ∀ a, (f a).part = a.part ∧ (f a).addr = a.addr) :
    (s.withActor part addr f).actorOf part addr = f (s.actorOf part addr) := by
  have hhere (a : Actor) (h : (a.part == part && a.addr == addr) = true) : ((f a).part == part && (f a).addr == addr) = true := by
    rwa [(hf a).1, (hf a).2]
  unfold State.withActor State.actorOf
  dsimp only
  split
  · rename_i hany
    dsimp only
    rw [find_updateFirst hhere]
    obtain ⟨a, ha⟩ := Option.isSome_iff_exists.mp (List.find?_isSome.mpr (List.any_eq_true.mp hany))
    rw [ha]; rfl
  · rename_i hany
    have hnone : s.actors.find? (fun a => a.part == part && a.addr == addr) = none :=
      List.find?_eq_none.mpr (fun a ha hh => hany (List.any_eq_true.mpr ⟨a, ha, hh⟩))
    have hfresh : ((f (Actor.fresh part addr)).part == part && (f (Actor.fresh part addr)).addr == addr) = true :=
      hhere _ (by simp [Actor.fresh])
    rw [List.find?_append, hnone, Option.none_or, List.find?_cons_of_pos (p := fun a : Actor => a.part == part && a.addr == addr) hfresh]
    rfl

/-! ## Arrival -/

/-- What a member actor's core notes of a claim shows in its actor and in what is in flight. -/
theorem noteClaim_eq (s : State) (e : Event) :
    s.noteClaim e = { s with actors := (s.noteClaim e).actors, inflight := (s.noteClaim e).inflight } := by
  unfold State.noteClaim
  split
  · rfl
  · dsimp only; rw [withActor_eq]; rfl

theorem noteClaim_started (s : State) (e : Event) :
    ((s.noteClaim e).actorOf e.part (actorAddr e.target)).started = (s.actorOf e.part (actorAddr e.target)).started := by
  unfold State.noteClaim
  split
  · rfl
  · change ((s.withActor e.part (actorAddr e.target) _).actorOf e.part (actorAddr e.target)).started = _
    rw [actorOf_withActor]
    exact fun _ => ⟨rfl, rfl⟩

theorem noteClaim_comesLate (s : State) (e : Event) : comesLate (s.noteClaim e) e = comesLate s e := by
  unfold comesLate; rw [noteClaim_started]

/-- An event as its home's queue takes it, neither late nor spilled. -/
def queued (e : Event) (core excess : Nat) : Queued := ⟨e, core, false, false, false, excess, 0⟩

/-- An event that is not late, for which there is room, joins the queue (R202). -/
theorem arrive_queues {s : State} {e : Event} {core : Nat} (ht : takesEvents s e.part) (hl : comesLate s e = false) (hr : roomAt s core) :
    ∃ n, s.arrive e core = ({ s with events := s.events ++ [queued e core n] }.send (.eventSafe e.part (actorAddr e.target)), 0) := by
  obtain ⟨hexists, hgone⟩ := ht
  unfold roomAt at hr
  refine ⟨s.clock - (e.tag.time.toNat + s.inputBound e.part (actorAddr e.target)), ?_⟩
  unfold State.arrive
  dsimp only
  rw [show (s.actorOf e.part (actorAddr e.target)).started.any (fun x => orderLt (eventPlace e) x) = false from hl, hexists, hgone,
    if_neg (by simp), if_neg (by simp), if_pos hr]
  rfl

theorem postDone_events (s : State) (waiter : Word) (status : Nat) : (s.postDone waiter status).events = s.events := by
  unfold State.postDone
  split
  · split <;> rfl
  · split
    · exact State.withTask_events _ _ _
    · rfl

/-- Writing a register and going on to the next word is what wentOn says. -/
theorem wentOn_writeX_retire (c : Ctx) (d : Reg) (v : Word) : wentOn d v c ((c.writeX d v).retire 4) :=
  ⟨rfl, by simp [Ctx.retire, Ctx.stepTo], fun h => Ctx.rawX_writeX_same c d v h, fun r h => Ctx.rawX_writeX_other c d r v h⟩

/-- A poster that waits gets its status and goes on (R276). -/
theorem postDone_taskBecomes (s : State) (waiter : Word) (status : Nat) : taskBecomes s (s.postDone waiter status) waiter
    (fun c c' => ∀ d, c.run = .waiting (.posting d) → wentOn d (BitVec.ofNat 64 status) c c') := by
  intro c hc
  unfold State.postDone
  rw [hc]
  dsimp only
  split
  · rename_i d hd
    refine ⟨_, by rw [taskOf_withTask s waiter (f := fun c => (c.writeX d (BitVec.ofNat 64 status)).retire 4)
      (fun c => Ctx.writeX_tid c d _) (fun _ _ h => by cases h), hc]; rfl, ?_⟩
    intro d' hd'
    obtain rfl : d = d' := by rw [hd] at hd'; cases hd'; rfl
    exact wentOn_writeX_retire c d _
  · rename_i hne
    exact ⟨c, hc, fun d hd => absurd hd (hne d)⟩

/-- An event that its actor's home takes joins the queue there, and its poster goes on. -/
theorem atHome_queuedAtHome {s : State} {e : Event} (ht : takesEvents s e.part) (hl : comesLate s e = false)
    (hr : roomAt s (s.homeCore e.part (actorAddr e.target))) : queuedAtHome s (s.atHome e) e := by
  have hnote := noteClaim_eq s e
  have hparts : (s.noteClaim e).parts = s.parts := by rw [hnote]
  have hevents : (s.noteClaim e).events = s.events := by rw [hnote]
  obtain ⟨n, harrive⟩ := arrive_queues (s := s.noteClaim e) (e := e) (core := s.homeCore e.part (actorAddr e.target))
    (by unfold takesEvents State.partition; rw [hparts]; exact ht) ((noteClaim_comesLate s e).trans hl)
    (by unfold roomAt; rw [hevents]; exact hr)
  rw [hevents] at harrive
  have htask (t : State) (h : t = ((s.noteClaim e).arrive e (s.homeCore e.part (actorAddr e.target))).1) (w : Word) : t.taskOf w = s.taskOf w := by
    rw [h, harrive, hnote]; rfl
  unfold State.atHome
  dsimp only
  split
  · refine ⟨⟨queued e _ n, ?_, rfl, rfl, rfl, rfl⟩, ?_⟩
    · rw [postDone_events, harrive]; rfl
    · intro c hc
      rw [← htask _ rfl] at hc
      obtain ⟨c', hc', hwent⟩ := postDone_taskBecomes _ e.waiter _ c hc
      refine ⟨c', hc', fun d hd _ => ?_⟩
      have := hwent d hd
      rwa [harrive] at this
  · rename_i hw
    rw [if_neg (by rw [harrive]; simp)]
    refine ⟨⟨queued e _ n, by rw [harrive]; rfl, rfl, rfl, rfl, rfl⟩, ?_⟩
    intro c hc
    exact ⟨c, (htask _ rfl _).trans hc, fun d _ hne => absurd hne hw⟩

theorem exec_eventArrival (e : Event) (s : State) : exec (.eventArrival e) s = .next
    (if s.homeCore e.part (actorAddr e.target) = s.hashHome e.part (actorAddr e.target) then s.atHome e else s.send (.eventForward e)) := rfl

theorem exec_eventForward (e : Event) (s : State) : exec (.eventForward e) s = .next (s.atHome e) := rfl

/-! ## Safe events -/

theorem exec_eventSafe {part : Nat} {actor : Word} {s : State} {q : Queued} (h : s.firstEvent part actor = some q) :
    exec (.eventSafe part actor) s = .next (if s.isSafe q then
      { s with events := updateFirst (fun e => e == q) (fun e => { e with safe := true }) s.events } else s.send (.eventSafe part actor)) := by
  change Host.Outcome.next _ = _
  rw [h]

theorem mem_events_of_firstEvent {part : Nat} {actor : Word} {s : State} {q : Queued} (h : s.firstEvent part actor = some q) : q ∈ s.events :=
  List.mem_of_mem_filter (best_mem h)

/-! ## Actors that move -/

/-- The queue of an event, once its actor has moved to a core. -/
def movedTo (part : Nat) (actor : Word) (core : Nat) (q : Queued) : Queued := if forActor part actor q then { q with core := core } else q

/-- What a core's queue holds once an actor has moved there: the actor's events, and those of others that were there (R202). -/
theorem length_moved (part : Nat) (actor : Word) (core : Nat) (l : List Queued) :
    ((l.map (movedTo part actor core)).filter (fun q => q.core == core && !q.spilled)).length =
      (l.filter (fun q => forActor part actor q && !q.spilled)).length +
        (l.filter (fun q => q.core == core && !q.spilled && !forActor part actor q)).length := by
  simp only [← List.countP_eq_length_filter, List.countP_map]
  induction l with
  | nil => rfl
  | cons q l ih =>
    simp only [List.countP_cons, ih, Function.comp]
    by_cases hm : forActor part actor q = true
    · simp only [movedTo, hm, if_true]; simp; omega
    · simp only [movedTo, hm]; simp; omega

/-- An actor moves with its events when they find places that need no spilling (R197, R202). -/
theorem moveActor_of_room {part : Nat} {actor : Word} {core : Nat} {s : State}
    (h : (s.events.filter (fun q => forActor part actor q && !q.spilled)).length +
      (s.events.filter (fun q => q.core == core && !q.spilled && !forActor part actor q)).length ≤ 128) :
    s.moveActor part actor core =
      some { s.withActor part actor (fun a => { a with home := some core }) with events := s.events.map (movedTo part actor core) } := by
  have hexcess : ((s.events.map (movedTo part actor core)).filter (fun q => q.core == core && !q.spilled)).length - 128 = 0 := by
    rw [length_moved]; omega
  have hmap : s.events.map (fun q => if q.event.part == part && actorAddr q.event.target == actor then { q with core := core } else q) =
      s.events.map (movedTo part actor core) := rfl
  unfold State.moveActor
  dsimp only
  rw [hmap, hexcess, if_pos (Nat.zero_le _)]
  rfl

theorem exec_actorMove (part : Nat) (actor : Word) (core : Nat) (s : State) : exec (.actorMove part actor core) s = .next
    (if (s.actorOf part actor).running ∨ s.gangPlaced (s.actorOf part actor) ∨ s.partOfCore core ≠ some part then s
     else (s.moveActor part actor core).getD s) := rfl

/-! ## Raises -/

/-- The state t is s with more sent. -/
def onlySends (s t : State) : Prop := t = { s with inflight := t.inflight, outbox := t.outbox }

theorem onlySends_trans {s t u : State} (h1 : onlySends s t) (h2 : onlySends t u) : onlySends s u := by
  unfold onlySends at *
  rw [h2, h1]

theorem onlySends_foldl {α : Type} {f : State → α → State} (hf : ∀ s x, onlySends s (f s x)) (l : List α) (s : State) :
    onlySends s (l.foldl f s) := by
  induction l generalizing s with
  | nil => rfl
  | cons x l ih => exact onlySends_trans (hf s x) (ih _)

theorem raiseTask_onlySends (s : State) (cls : BitVec 2) (t : Word) : onlySends s (s.raiseTask cls t) := by
  unfold State.raiseTask
  split
  · rfl
  · split
    · rfl
    · split <;> rfl

theorem raiseAll_onlySends (s : State) (pa : Nat) (by_ : Word) (cls : BitVec 2) : onlySends s (s.raiseAll pa by_ cls) := by
  unfold State.raiseAll
  refine onlySends_trans ?_ (onlySends_foldl (fun s t => raiseTask_onlySends s cls t) _ _)
  split <;> rfl

/-- A task that passes its class on changes nothing but what is sent (R253). -/
theorem passOn_onlySends (s : State) (c : Ctx) : onlySends s (s.passOn c) := by
  unfold State.passOn
  refine onlySends_foldl (fun s p => ?_) _ _
  split
  · exact raiseAll_onlySends ..
  · rfl

theorem taskOf_of_onlySends {s t : State} (h : onlySends s t) (tid : Word) : t.taskOf tid = s.taskOf tid := by rw [h]; rfl

theorem mem_of_onlySends {s t : State} (h : onlySends s t) : t.mem = s.mem := by rw [h]

/-- What a task is after its raises: reraise, without what it passes on. -/
theorem reraise_onlySends {s : State} {tid : Word} {c : Ctx} (hc : s.taskOf tid = some c) :
    onlySends (s.withTask tid (fun d => d.withRaise (s.floorOf c) (s.raiseOf tid))) (s.reraise tid) := by
  unfold State.reraise
  rw [hc]
  dsimp only
  split
  · rfl
  · split
    · exact passOn_onlySends ..
    · rfl

theorem withRaise_eff (c : Ctx) (floor raise : BitVec 2) :
    (c.withRaise floor raise).eff.toNat = Nat.max c.cls.toNat (Nat.max floor.toNat raise.toNat) := by
  have hlt : Nat.max c.cls.toNat (Nat.max floor.toNat raise.toNat) < 2 ^ 2 :=
    Nat.max_lt.mpr ⟨c.cls.isLt, Nat.max_lt.mpr ⟨floor.isLt, raise.isLt⟩⟩
  exact (BitVec.toNat_ofNat _ _).trans (Nat.mod_eq_of_lt hlt)

/-- A task's class follows the raises in force for it (R253). -/
theorem reraise_taskBecomes (s : State) (tid : Word) : taskBecomes s (s.reraise tid) tid (fun c c' =>
    c'.raised = s.raiseOf tid ∧ c'.eff.toNat = Nat.max c.cls.toNat (Nat.max (s.floorOf c).toNat (s.raiseOf tid).toNat) ∧ c'.x = c.x) := by
  intro c hc
  refine ⟨c.withRaise (s.floorOf c) (s.raiseOf tid), ?_, rfl, withRaise_eff .., rfl⟩
  rw [taskOf_of_onlySends (reraise_onlySends hc), taskOf_withTask s tid (f := fun d => d.withRaise (s.floorOf c) (s.raiseOf tid)) (fun _ => rfl)
    (fun _ h => h), hc]
  rfl

theorem exec_priorityRaise {tid : Word} {cls : BitVec 2} {s : State} (h : cls.toNat ≤ (s.raiseOf tid).toNat) :
    exec (.priorityRaise tid ⟨cls, false⟩) s = .next (s.reraise tid) := by
  change Host.Outcome.next (if (s.raiseOf tid).toNat < cls.toNat then s else s.reraise tid) = _
  rw [if_neg (Nat.not_lt.mpr h)]

/-! ## Reservations that end -/

theorem phintExpiry_ends (core : Nat) (actor : Word) (s : State) : ∃ t, exec (.phintExpiry core actor) s = .next t ∧ t.cx = s.cx ∧ t.mem = s.mem ∧
    (tget t.cores core Core.reset).hints =
      (tget s.cores core Core.reset).hints.filter (fun h => !(h.actor == actor && decide (h.until_ ≤ s.clock))) := by
  have hhints : (tget (s.withCore core (fun c => { c with
      hints := c.hints.filter (fun h => !(h.actor == actor && decide (h.until_ ≤ s.clock))) })).cores core Core.reset).hints =
      (tget s.cores core Core.reset).hints.filter (fun h => !(h.actor == actor && decide (h.until_ ≤ s.clock))) :=
    congrArg Core.hints (SystemRegisters.tget_tset_same ..)
  refine ⟨_, rfl, ?_, ?_, ?_⟩
  · split <;> rfl
  · split <;> rfl
  · split
    · exact hhints
    · exact hhints

/-- Events join their actors' queues at their homes, become safe, and move with their actors; raises reach tasks. -/
theorem eventsReachTheirActors : Claims.EventsReachTheirActors := by
  refine ⟨?_, ?_, ?_, ?_, ?_, ?_, ?_, phintExpiry_ends⟩
  · intro e s hhome ht hl hr
    exact ⟨s.atHome e, by rw [exec_eventArrival, if_pos hhome], atHome_queuedAtHome ht hl hr⟩
  · intro e s hhome
    rw [exec_eventArrival, if_neg hhome]
  · intro e s ht hl hr
    exact ⟨s.atHome e, exec_eventForward e s, atHome_queuedAtHome ht hl hr⟩
  · intro part actor s q hq
    rw [exec_eventSafe hq]
    refine ⟨fun hs => ⟨_, by rw [if_pos hs], updateFirst_beq_mem (mem_events_of_firstEvent hq), length_updateFirst ..⟩, fun hs => ?_⟩
    rw [hs]; rfl
  · intro part actor core s hrun hgang hpart hroom
    rw [exec_actorMove, if_neg (by simp [hrun, hgang, hpart]), moveActor_of_room hroom, Option.getD_some]
    refine ⟨_, rfl, ?_, ?_, ?_, ?_, ?_⟩
    · have hactor := actorOf_withActor s part actor (f := fun a => { a with home := some core }) (fun _ => ⟨rfl, rfl⟩)
      exact congrArg (fun a : Actor => a.home.getD _) hactor
    · exact withActor_cx ..
    · exact withActor_mem ..
    · rw [List.map_map]
      exact List.map_congr_left (fun q _ => by dsimp only [Function.comp, movedTo]; split <;> rfl)
    · intro q hq hfor
      obtain ⟨q', -, rfl⟩ := List.mem_map.mp hq
      by_cases h : forActor part actor q' = true
      · simp [movedTo, h]
      · rw [movedTo, if_neg h] at hfor; exact absurd hfor h
  · intro part actor core s h
    rw [exec_actorMove, if_pos (by tauto)]
  · intro tid cls s c hc hcls
    exact ⟨_, exec_priorityRaise hcls, (mem_of_onlySends (reraise_onlySends hc)).trans (State.withTask_mem ..), reraise_taskBecomes s tid⟩

end Sys2Proof.Laws.Events
end

section
/-!
SUPPORT. What a context takes next (R37, R213, R220, R221, R251, R265): reactions and forked tasks as they start, steals and switch-outs, and the
thread that moves to a core with its extension (R61, R484).
-/

namespace Sys2Proof.Laws.Work

open Sys2Proof.Machine Sys2Proof.Claims
open Sys2Proof.Laws.Threads

/-! ## A context that is put on its key -/

theorem find_insertCtx (c : Ctx) {l : List Ctx} (h : ∀ o, o ∈ l → o.key ≠ c.key) :
    (insertCtx c l).find? (fun o => o.key == c.key) = some c := by
  induction l with
  | nil => simp [insertCtx]
  | cons d l ih =>
    obtain ⟨hd, hl⟩ := List.forall_mem_cons.mp h
    rw [insertCtx]
    split
    · simp
    · rw [List.find?_cons_of_neg (by simpa using hd), ih hl]

theorem find_insertCtx_filter (c : Ctx) (l : List Ctx) :
    (insertCtx c (l.filter (fun o => o.key != c.key))).find? (fun o => o.key == c.key) = some c :=
  find_insertCtx c (fun o ho => by simpa using (List.mem_filter.mp ho).2)

/-- The context of a key is the one that has been put there, in place of the one that was. -/
theorem ctxAt_placed {s t : State} {c : Ctx} {key : Nat} (hk : c.key = key) (hcx : t.cx = if s.cx.key = key then c else s.cx)
    (ho : t.others = if s.cx.key = key then s.others else insertCtx c (s.others.filter (fun o => o.key != key))) : t.ctxAt key = some c := by
  subst hk
  unfold State.ctxAt
  by_cases h : s.cx.key = c.key
  · rw [if_pos h] at hcx
    rw [hcx, if_pos rfl]
  · rw [if_neg h] at hcx ho
    rw [hcx, ho, if_neg h, find_insertCtx_filter]

/-- The context of a key is one that joins the others, when another context has the turn. -/
theorem ctxAt_inserted {s : State} {c : Ctx} {key : Nat} (hk : c.key = key) (h : s.cx.key ≠ key) :
    State.ctxAt { s with others := insertCtx c (s.others.filter (fun o => o.key != key)) } key = some c := by
  subst hk
  exact (if_neg h).trans (find_insertCtx_filter c s.others)

/-! ## Reactions and forked tasks -/

/-- A context runs the reaction of an event as a task (R37). -/
def runsAs (k : Ctx) (tid : Word) (e : Event) : Prop :=
  k.run = .running ∧ k.root = true ∧ k.pl = 0 ∧ k.tid = tid ∧ k.pc = e.handler &&& ~~~1 ∧ k.rawX 10 = e.payload ∧ k.rawX 11 = e.target ∧
    k.rawX 12 = zext e.sender ∧ k.tag = e.tag ∧ k.dline = e.deadline ∧ k.cls = e.cls

/-- The accounts of a context say nothing of the reaction that it runs. -/
theorem runsAs_of_bare {k c : Ctx} {tid : Word} {e : Event} (h : bare k = bare c) (hc : runsAs c tid e) : runsAs k tid e :=
  show runsAs (bare k) tid e from h ▸ hc

theorem freshCtx_run (s : State) (key part : Nat) : (s.freshCtx key part).run = .running ∧ (s.freshCtx key part).pl = 0 := by
  simp [State.freshCtx, Ctx.idle]

theorem rootCtx_rawX (s : State) (q : Queued) (key : Nat) (r : Reg) : (s.rootCtx q key).rawX r =
    ((((s.freshCtx key q.event.part).writeX 10 q.event.payload).writeX 11
      (if q.late then s.slotAddr (s.freshCtx key q.event.part) 0 else q.event.target)).writeX 12 (zext q.event.sender)).rawX r := rfl

/-- The root task of an event that is not late runs its reaction (R37, R213). -/
theorem rootCtx_runsAs (s : State) {q : Queued} (key : Nat) (h : q.late = false) : runsAs (s.rootCtx q key) s.newTid q.event := by
  obtain ⟨hrun, hpl⟩ := freshCtx_run s key q.event.part
  refine ⟨?_, rfl, ?_, rfl, ?_, ?_, ?_, ?_, ?_, rfl, rfl⟩
  · simpa [State.rootCtx] using hrun
  · simpa [State.rootCtx] using hpl
  · simp [State.rootCtx, h]
  · rw [rootCtx_rawX, Ctx.rawX_writeX_other _ _ _ _ (.inl (by decide)), Ctx.rawX_writeX_other _ _ _ _ (.inl (by decide)),
      Ctx.rawX_writeX_same _ _ _ (by decide)]
  · rw [rootCtx_rawX, Ctx.rawX_writeX_other _ _ _ _ (.inl (by decide)), Ctx.rawX_writeX_same _ _ _ (by decide), h]
    rfl
  · rw [rootCtx_rawX, Ctx.rawX_writeX_same _ _ _ (by decide)]
  · simp [State.rootCtx, State.tagFor, h]

theorem rootCtx_key (s : State) (q : Queued) (key : Nat) : (s.rootCtx q key).key = key := by
  simp [State.rootCtx, State.freshCtx, Ctx.idle]

/-- The state in which an actor runs its reaction, before its acquire: the event has left, and the root task stands on the context. -/
def reactionPlaced (s : State) (q : Queued) (key : Nat) : State :=
  let s1 := (s.takeEvent q).withActor q.event.part (actorAddr q.event.target) (fun a =>
    { a with running := true, reactionFloor := 0, seqs := [], nextBound := none, bound := some (s.declared q.event.part (actorAddr q.event.target)),
             started := if q.late then a.started else some (eventPlace q.event) })
  { s1 with nextTid := s1.nextTid + 1, cx := if s1.cx.key = key then s.rootCtx q key else s1.cx,
            others := if s1.cx.key = key then s1.others else insertCtx (s.rootCtx q key) (s1.others.filter (fun o => o.key != key)) }

theorem reactionPlaced_ctxAt (s : State) (q : Queued) (key : Nat) : (reactionPlaced s q key).ctxAt key = some (s.rootCtx q key) :=
  ctxAt_placed (rootCtx_key s q key) rfl rfl

theorem reactionPlaced_running (s : State) (q : Queued) (key : Nat) :
    ((reactionPlaced s q key).actorOf q.event.part (actorAddr q.event.target)).running = true := by
  change ((State.withActor _ q.event.part (actorAddr q.event.target) _).actorOf q.event.part (actorAddr q.event.target)).running = true
  rw [Events.actorOf_withActor]
  exact fun _ => ⟨rfl, rfl⟩

/-- A reaction that is not late starts with its acquire, which leaves threads and actors. -/
theorem threads_startReaction (s : State) {q : Queued} (key : Nat) (h : q.late = false) :
    threads (s.startReaction q key) = threads (reactionPlaced s q key) := by
  unfold State.startReaction
  dsimp only
  rw [if_neg (by rw [h]; exact Bool.false_ne_true)]
  exact threads_enterPhase ..

/-- A reaction that starts runs on its context, and its actor runs (R213). -/
theorem startReaction_runs (s : State) {q : Queued} (key : Nat) (h : q.late = false) :
    (∃ k, (s.startReaction q key).ctxAt key = some k ∧ runsAs k s.newTid q.event) ∧
      ((s.startReaction q key).actorOf q.event.part (actorAddr q.event.target)).running = true := by
  have ht := threads_startReaction s key h
  obtain ⟨k, hk, hbare⟩ := ctxAt_of_threads ht (reactionPlaced_ctxAt s q key)
  exact ⟨⟨k, hk, runsAs_of_bare hbare (rootCtx_runsAs s key h)⟩, by rw [actorOf_of_threads ht]; exact reactionPlaced_running s q key⟩

theorem childCtx_key (s : State) (t : Ctx) (key : Nat) : (s.childCtx t key).key = key := by simp [State.childCtx]

/-- A forked task goes on on a context as it was forked. -/
def goesOn (k t : Ctx) : Prop := k.run = .running ∧ k.tid = t.tid ∧ k.pc = t.pc ∧ k.rawX 10 = t.rawX 10 ∧ k.parent = t.parent

theorem childCtx_goesOn (s : State) (t : Ctx) (key : Nat) : goesOn (s.childCtx t key) t := by
  unfold State.childCtx
  refine ⟨by simp, by simp, by simp, ?_, by simp⟩
  dsimp only
  rw [Ctx.rawX_writeX_other _ _ _ _ (.inl (by decide)), Ctx.rawX_writeX_other _ _ _ _ (.inl (by decide))]
  rfl

/-- A forked task that starts goes on on its context (R265). -/
theorem startChild_goesOn (s : State) (t : Ctx) (key : Nat) : ∃ k, (s.startChild t key).ctxAt key = some k ∧ goesOn k t := by
  unfold State.startChild
  dsimp only
  obtain ⟨k, hk, hbare⟩ := ctxAt_of_threads (threads_enterPhase _ key t.forkScope)
    (ctxAt_placed (s := s) (t := { s with
      cx := if s.cx.key = key then s.childCtx t key else s.cx
      others := if s.cx.key = key then s.others else insertCtx (s.childCtx t key) (s.others.filter (fun o => o.key != key)) })
      (childCtx_key s t key) rfl rfl)
  exact ⟨k, hk, show goesOn (bare k) t from hbare ▸ childCtx_goesOn s t key⟩

/-! ## An idle context asks for work -/

theorem tget_mem {α : Type} {t : List (Nat × α)} {p : α → Prop} (h : ∀ e, e ∈ t → p e.2) {d : α} (hd : p d) (k : Nat) :
    p (tget t k d) := by
  induction t with
  | nil => exact hd
  | cons e t ih =>
    obtain ⟨he, ht⟩ := List.forall_mem_cons.mp h
    rw [tget]
    split
    · exact he
    · exact ih ht

/-- Without gangs nothing is placed before a pick. -/
theorem placeFitting_of_no_gangs {s : State} (h : ∀ e, e ∈ s.queues → e.2.gang = none) (l : List Nat) : s.placeFitting l = s := by
  have hplace (n : Nat) : s.placeGang n = none := by
    have hg : (s.queue n).gang = none := tget_mem (p := fun q : Queue => q.gang = none) h rfl n
    unfold State.placeGang
    dsimp only
    rw [hg]
  unfold State.placeFitting
  induction l with
  | nil => rfl
  | cons n l ih => rw [List.foldl_cons, hplace, Option.getD_none, ih]

theorem exec_dispatchPick {s : State} {key : Nat} (hg : ∀ e, e ∈ s.queues → e.2.gang = none) (hi : s.idleAt key = true) :
    exec (.dispatchPick key) s = .next (s.takeWork key) := by
  change Host.Outcome.next (if s.idleAt key then s.ask key else s) = _
  rw [if_pos hi]
  unfold State.ask
  dsimp only
  rw [placeFitting_of_no_gangs hg, if_pos hi]

theorem exec_dispatchPick_busy {s : State} {key : Nat} (hi : s.idleAt key = false) : exec (.dispatchPick key) s = .next s := by
  change Host.Outcome.next (if s.idleAt key then s.ask key else s) = _
  rw [hi]; rfl

/-- With nothing in its own deque that it may run, a context takes the dispatcher's choice (R221). -/
theorem takeWork_of_choice {s : State} {key part n : Nat} {c : Cand} (hp : s.partOfCore (coreOf key) = some part)
    (ht : s.tailFor (coreOf key) (coreOf key) = none)
    (hc : choose s.clock (tget s.cores (coreOf key) Core.reset).pickCount (s.candidates (coreOf key)) (s.candidatesFor key) = some (c, n)) :
    s.takeWork key = (s.withCore (coreOf key) (fun d => { d with pickCount := n })).begin c.work key := by
  unfold State.takeWork
  dsimp only
  rw [hp, ht, hc, ite_self]
  rfl

/-- With no candidate that it may take, nothing is chosen for a context (R252). -/
theorem choose_nil (clock k : Nat) (all : List Cand) : choose clock k all [] = none := by
  unfold choose
  dsimp only
  rw [List.filter_nil]
  split
  · rfl
  · simp [best]

/-- With nothing to choose, a context that nobody has reserved takes the task at its own deque's tail (R221). -/
theorem takeWork_of_tail {s : State} {key part : Nat} {e : DequeEntry} (hp : s.partOfCore (coreOf key) = some part)
    (hg : s.gangReserved.contains key = false) (hh : s.hintOf key = none) (ht : s.tailFor (coreOf key) (coreOf key) = some e)
    (hc : s.candidatesFor key = []) : s.takeWork key = (s.takeEntry (coreOf key) e).startChild e.task key := by
  unfold State.takeWork
  dsimp only
  rw [hp, hg, hh, ht, hc, choose_nil]
  rfl

/-! ## Steals -/

theorem exec_stealRequest {s : State} {key part : Nat} (hp : s.partOfCore (coreOf key) = some part) (hi : s.idleAt key = true)
    (hv : s.victims part (coreOf key) ≠ []) : exec (.stealRequest key) s = .next (s.send (.stealAnswer ⟨key,
      (s.victims part (coreOf key)).getD (Config.victim s.turn % (s.victims part (coreOf key)).length) 0⟩)) := by
  have hne : (s.victims part (coreOf key)).isEmpty = false := by simpa using hv
  change Host.Outcome.next _ = _
  rw [hp]
  dsimp only
  rw [hi, hne]
  rfl

theorem getD_mod_mem {l : List Nat} (h : l ≠ []) (n d : Nat) : l.getD (n % l.length) d ∈ l := by
  have hlt : n % l.length < l.length := Nat.mod_lt n (List.length_pos_iff.mpr h)
  rw [List.getD_eq_getElem l d hlt]
  exact List.getElem_mem hlt

theorem exec_stealAnswer {s : State} {q : StealReq} {e : DequeEntry} (ht : s.tailFor q.victim (coreOf q.thiefCtx) = some e)
    (hi : s.idleAt q.thiefCtx = true) (hg : s.gangReserved.contains q.thiefCtx = false) (hh : s.hintOf q.thiefCtx = none) :
    exec (.stealAnswer q) s = .next ((s.takeEntry q.victim e).startChild e.task q.thiefCtx) := by
  change Host.Outcome.next _ = _
  rw [ht]
  dsimp only
  rw [hi, hg, hh]
  rfl

theorem exec_stealAnswer_none {s : State} {q : StealReq} (ht : s.tailFor q.victim (coreOf q.thiefCtx) = none) :
    exec (.stealAnswer q) s = .next s := by
  change Host.Outcome.next _ = _
  rw [ht]

/-! ## Switch-outs -/

theorem exec_switchOut_pushed {s s1 : State} {key : Nat} {c : Cand} (hb : best Cand.before (s.candidates (coreOf key)) = some c)
    (hp : s.pushedOut (coreOf key) = some key) (hs : s.switchOut key (coreOf key) = some s1) :
    exec (.switchOut key) s = .next ((s1.makeWay key).begin c.work key) := by
  change Host.Outcome.next _ = _
  rw [hb]
  dsimp only
  rw [if_pos hp, hs]

theorem exec_switchOut_other {s : State} {key : Nat} (hp : s.pushedOut (coreOf key) ≠ some key) :
    exec (.switchOut key) s = .next (if s.joinFreed key then (s.switchOut key (coreOf key)).getD s else s) := by
  change Host.Outcome.next _ = _
  cases best Cand.before (s.candidates (coreOf key)) with
  | none => rfl
  | some c => exact congrArg _ (if_neg hp)

/-! ## Migration -/

theorem freeContext_cx_key (s : State) (part : Nat) : (s.freeContext s.cx.key part).cx.key = s.cx.key := by
  unfold State.freeContext
  dsimp only
  split
  · rename_i c hc
    rw [if_pos rfl]
    simpa using List.find?_some hc
  · rw [if_pos rfl]
    rfl

/-- Telling directories of an endpoint only sends. -/
theorem tellDirectory_onlySends (s : State) (part kind : Nat) (name : BitVec 32) (tid place : Word) :
    Events.onlySends s (s.tellDirectory part kind name tid place) := by
  unfold State.tellDirectory
  dsimp only
  split <;> rfl

/-- Moving endpoints leaves every context where it is. -/
theorem moveEndpoints_ctxAt (s : State) (tid : Word) (key k : Nat) : (s.moveEndpoints tid key).ctxAt k = s.ctxAt k := by
  unfold State.moveEndpoints
  dsimp only
  have h := Events.onlySends_foldl (fun s (e : Endpoint) => tellDirectory_onlySends s e.part 3 e.name tid (s.placeWord e.part key))
    (s.endpoints.filter (fun e => e.tid == tid && e.ctx != key)) s
  unfold Events.onlySends at h
  rw [h]
  rfl

/-- A task has gone to another context with its registers, to go on there. -/
def moved (c k : Ctx) (key : Nat) : Prop :=
  k.key = key ∧ k.tid = c.tid ∧ k.pc = c.pc ∧ k.x = c.x ∧ k.v = c.v ∧ k.m = c.m ∧ k.ox = c.ox ∧ k.run = .running

/-- A task's registers are the same whatever its accounts. -/
theorem moved_of_bare {c d k : Ctx} {key : Nat} (h : bare d = bare c) (hk : moved d k key) : moved c k key := by
  have hd : moved (bare d) k key := hk
  rw [h] at hd
  exact hd

/-- The state whose context a task leaves, its group left and its holds ended (R484, R485). -/
def unheld (s : State) : State :=
  let s0 := s.leaveGroup s.cx
  (if s0.holdsAny s0.cx.key then s0.withCx Ctx.broken else s0).dropHolds s0.cx.key

theorem bare_broken (c : Ctx) : bare c.broken = bare c := rfl

theorem threads_unheld (s : State) : threads (unheld s) = threads s := by
  unfold unheld
  dsimp only
  rw [threads_dropHolds]
  split
  · rw [threads_withCx _ bare_broken, threads_leaveGroup]
  · exact threads_leaveGroup ..

/-- The task on the context that it moves to. -/
def migrant (s : State) (k : Nat) : Ctx :=
  { (unheld s).cx.bringRecords with
    key := k, lcore := s.lcoreOf s.cx.part (coreOf k), xf64 := coreHas true (coreOf k), xsf := coreHas false (coreOf k), run := .running }

theorem migrant_key (s : State) (k : Nat) : (migrant s k).key = k := rfl

/-- The state whose context has lost the task that moves. -/
def vacated (s : State) : State := (unheld s).freeContext (s.leaveGroup s.cx).cx.key (unheld s).cx.part

theorem moveTask_eq (s : State) (k : Nat) : s.moveTask k =
    ({ vacated s with others := insertCtx (migrant s k) ((vacated s).others.filter (fun o => o.key != k)) }.moveEndpoints (migrant s k).tid k).closeLines
      k := rfl

theorem closeLines_ctxAt (s : State) (key k : Nat) : (s.closeLines key).ctxAt k = s.ctxAt k := rfl

theorem vacated_cx_key (s : State) : (vacated s).cx.key = s.cx.key := by
  have hold : (s.leaveGroup s.cx).cx.key = s.cx.key := key_of_bare (bare_cx_of_threads (threads_leaveGroup s s.cx))
  have hnew : (unheld s).cx.key = s.cx.key := key_of_bare (bare_cx_of_threads (threads_unheld s))
  unfold vacated
  rw [hold, ← hnew, freeContext_cx_key]

theorem moved_bringRecords (c : Ctx) (k : Nat) (l : BitVec 26) (xf64 xsf : Bool) :
    moved c { c.bringRecords with key := k, lcore := l, xf64 := xf64, xsf := xsf, run := .running } k :=
  ⟨rfl, rfl, rfl, rfl, rfl, rfl, rfl, rfl⟩

theorem migrant_moved (s : State) (k : Nat) : moved s.cx (migrant s k) k :=
  moved_of_bare (bare_cx_of_threads (threads_unheld s)) (moved_bringRecords (unheld s).cx k _ _ _)

/-- A task that moves stands on the context that it moves to (R484). -/
theorem moveTask_ctxAt {s : State} {k : Nat} (hk : k ≠ s.cx.key) : (s.moveTask k).ctxAt k = some (migrant s k) := by
  rw [moveTask_eq, closeLines_ctxAt, moveEndpoints_ctxAt]
  exact ctxAt_inserted (migrant_key s k) (fun h => hk (h.symm.trans (vacated_cx_key s)))

theorem exec_extensionMigration (xf64 : Bool) (s : State) : exec (.extensionMigration xf64) s = .next
    (if s.cx.run = .idle ∨ s.cx.hasExtension xf64 = true then s else s.migrateExtension xf64) := rfl

/-- A migration that waits for nothing moves the task to an idle context of its target (R61, R484). -/
theorem migrateExtension_moves {xf64 : Bool} {s : State} {k : Nat} (hf : s.cx.firstFault true = none) (ho : s.cx.open_ = false)
    (he : s.engineBusy s.cx.tid = false) (hd : s.directedTo s.cx.tid = false) (hu : ((closed s).release s.cx.key 2).cx.unack = 0)
    (hi : ((closed s).release s.cx.key 2).idleContext (migrationTarget xf64 (coreOf s.cx.key)) = some k) :
    s.migrateExtension xf64 = ((closed s).release s.cx.key 2).moveTask k := by
  unfold State.migrateExtension
  rw [hf]
  dsimp only
  rw [if_neg (by simp [ho, he, hd])]
  change (if ((closed s).release s.cx.key 2).cx.unack ≠ 0 then _ else _) = _
  rw [if_neg (not_not.mpr hu)]
  change (match ((closed s).release s.cx.key 2).idleContext (migrationTarget xf64 (coreOf s.cx.key)) with | some k => _ | none => _) = _
  rw [hi]
  rfl

/-- A release leaves the running thread for its move. -/
theorem release_closed_moved {s : State} {c : Ctx} {key : Nat} (h : moved ((closed s).release s.cx.key 2).cx c key) : moved s.cx c key :=
  show moved (closed s).cx c key from moved_of_bare (bare_cx_of_threads (threads_release ..)) h

/-- Idle contexts take what they may; steals, switch-outs and migrations find them. -/
theorem contextsTakeTheirWork : Claims.ContextsTakeTheirWork := by
  refine ⟨?_, ?_, ?_, ?_, ?_, ?_, ?_, ?_, ?_, ?_⟩
  · intro key part n s c q hg hi hp ht hc hw hl
    obtain ⟨⟨k, hk, hrun⟩, hactor⟩ := startReaction_runs (s.withCore (coreOf key) (fun d => { d with pickCount := n })) key hl
    obtain ⟨h1, h2, h3, h4, h5, h6, h7, h8, h9, h10, h11⟩ := hrun
    refine ⟨_, k, exec_dispatchPick hg hi, ?_⟩
    rw [takeWork_of_choice hp ht hc, hw]
    exact ⟨hk, h1, h2, h3, h4, h5, h6, h7, h8, h9, h10, h11, hactor⟩
  · intro key part s e hg hi hp hr hh ht hc
    obtain ⟨k, hk, hgo⟩ := startChild_goesOn (s.takeEntry (coreOf key) e) e.task key
    exact ⟨_, k, exec_dispatchPick hg hi, by rw [takeWork_of_tail hp hr hh ht hc]; exact ⟨hk, hgo⟩⟩
  · intro key s hi
    exact exec_dispatchPick_busy hi
  · intro key part s hp hi hv
    exact ⟨_, exec_stealRequest hp hi hv, rfl, getD_mod_mem hv _ _⟩
  · intro q s e ht hi hg hh
    obtain ⟨k, hk, hrun, htid, hpc, hx, -⟩ := startChild_goesOn (s.takeEntry q.victim e) e.task q.thiefCtx
    exact ⟨_, k, exec_stealAnswer ht hi hg hh, hk, hrun, htid, hpc, hx⟩
  · intro q s ht
    exact exec_stealAnswer_none ht
  · intro key s s1 c hb hp hs
    exact exec_switchOut_pushed hb hp hs
  · intro key s hp
    exact exec_switchOut_other hp
  · intro xf64 s k hrun hext hf ho he hd s1 hu hi hk
    have hkey : s1.cx.key = (closed s).cx.key := key_of_bare (bare_cx_of_threads (threads_release (closed s) s.cx.key 2))
    exact ⟨_, migrant s1 k, by rw [exec_extensionMigration, if_neg (by simp [hrun, hext]), migrateExtension_moves hf ho he hd hu hi],
      moveTask_ctxAt (fun h => hk (h.trans hkey)), release_closed_moved (migrant_moved s1 k)⟩
  · intro xf64 s hext
    rw [exec_extensionMigration, if_pos (.inr hext)]

/-- Settles O54, by the queues that events join and by what starts on a context. -/
theorem eventsReachActorsAndContextsTakeWork : Obligations.EventsReachActorsAndContextsTakeWork :=
  ⟨Events.eventsReachTheirActors, contextsTakeTheirWork⟩

end Sys2Proof.Laws.Work
end

section
/-!
SUPPORT. Elements of vector registers, and the vector instructions that neither draw nor set a flag (R172, R174, R185, R186): what each lane
takes.
-/

namespace Sys2Proof.Laws.Lanes

open Sys2Proof.Machine Sys2Proof.Claims

/-! ## Elements of a register -/

theorem elemAt_toNat (v : VWord) (n k : Nat) : (elemAt v n k).toNat = vlane v n k := by
  simp [elemAt, vlane, lane, Nat.shiftRight_eq_div_pow]

theorem getLsbD_elemAt (v : VWord) (n k j : Nat) : (elemAt v n k).getLsbD j = (decide (j < n) && v.getLsbD (n * k + j)) := by
  simp [elemAt]

/-- The lanes of a width lie inside the register. -/
theorem lane_end_le {bits k : Nat} (h : k < lanesOf bits) : bits * (k + 1) ≤ 4096 :=
  (Nat.mul_le_mul_left bits h).trans (Nat.mul_div_le 4096 bits)

theorem elemAt_ofNat {bits k : Nat} (h : bits * (k + 1) ≤ 4096) (x : Nat) :
    elemAt (BitVec.ofNat 4096 x) bits k = BitVec.ofNat bits (lane x bits k) := by
  apply BitVec.eq_of_getLsbD_eq
  intro j hj
  have hin : bits * k + j < 4096 := by rw [Nat.mul_succ] at h; omega
  rw [getLsbD_elemAt, BitVec.getLsbD_ofNat, BitVec.getLsbD_ofNat, lane, Nat.testBit_mod_two_pow, Nat.testBit_div_two_pow, Nat.add_comm j]
  simp [hj, hin]

theorem lane_ofLanes (bits k : Nat) (l : List Nat) : lane (ofLanes bits l) bits k = l.getD k 0 % 2 ^ bits := by
  induction l generalizing k with
  | nil => simp [lane, ofLanes]
  | cons x l ih =>
    have hx := Nat.mod_lt x (Nat.two_pow_pos bits)
    cases k with
    | zero => simp [lane, ofLanes]
    | succ k =>
      have hdiv : ofLanes bits (x :: l) / 2 ^ bits = ofLanes bits l := by
        rw [ofLanes, Nat.add_mul_div_left _ _ (Nat.two_pow_pos bits), Nat.div_eq_of_lt hx, Nat.zero_add]
      rw [lane, Nat.mul_succ, Nat.add_comm, Nat.pow_add, ← Nat.div_div_eq_div_mul, hdiv]
      exact ih k

theorem ofNat_mod_pow (n x : Nat) : BitVec.ofNat n (x % 2 ^ n) = BitVec.ofNat n x := BitVec.eq_of_toNat_eq (by simp)

theorem elemAt_ofVlanes {bits k : Nat} (h : k < lanesOf bits) (l : List Nat) :
    elemAt (ofVlanes bits l) bits k = BitVec.ofNat bits (l.getD k 0) := by
  rw [ofVlanes, elemAt_ofNat (lane_end_le h), lane_ofLanes, ofNat_mod_pow]

theorem getD_map_range (f : Nat → Nat) {n k : Nat} (h : k < n) : ((List.range n).map f).getD k 0 = f k := by
  simp [h]

theorem elemAt_mapLanes {bits k : Nat} (h : k < lanesOf bits) (m : MWord) (old : VWord) (f : Nat → Nat) :
    elemAt (mapLanes bits m old f) bits k = if m.getLsbD k then BitVec.ofNat bits (f k) else elemAt old bits k := by
  rw [mapLanes, elemAt_ofVlanes h, getD_map_range _ h]
  split
  · rfl
  · rw [← elemAt_toNat, BitVec.ofNat_toNat, BitVec.setWidth_eq]

theorem signed_toNat {n : Nat} (a : BitVec n) : signed n a.toNat = a.toInt := by
  rw [signed, Nat.mod_eq_of_lt a.isLt, BitVec.toInt_eq_toNat_cond]
  cases n with
  | zero => simp
  | succ n => simp [Nat.pow_succ, Nat.mul_comm _ 2]

/-- One lane of a number replaced: its bits are those of the new value, the others stay. -/
theorem testBit_replaceLane (v : Nat) {bits i x : Nat} (hx : x < 2 ^ bits) (j : Nat) :
    (v - lane v bits i * 2 ^ (bits * i) + x * 2 ^ (bits * i)).testBit j =
      if bits * i ≤ j ∧ j < bits * i + bits then x.testBit (j - bits * i) else v.testBit j := by
  have hlow := Nat.mod_lt v (Nat.two_pow_pos (bits * i))
  have hmid : lane v bits i < 2 ^ bits := Nat.mod_lt _ (Nat.two_pow_pos bits)
  have hv : v = 2 ^ (bits * i) * (2 ^ bits * (v / 2 ^ (bits * i) / 2 ^ bits) + lane v bits i) + v % 2 ^ (bits * i) := by
    rw [lane, Nat.div_add_mod, Nat.div_add_mod]
  have hnew : v - lane v bits i * 2 ^ (bits * i) + x * 2 ^ (bits * i) =
      2 ^ (bits * i) * (2 ^ bits * (v / 2 ^ (bits * i) / 2 ^ bits) + x) + v % 2 ^ (bits * i) := by
    rw [Nat.mul_add] at hv ⊢
    rw [Nat.mul_comm (lane v bits i), Nat.mul_comm x]
    omega
  rw [hnew, Nat.testBit_two_pow_mul_add _ hlow, Nat.testBit_two_pow_mul_add _ hx]
  conv_rhs => rw [hv, Nat.testBit_two_pow_mul_add _ hlow, Nat.testBit_two_pow_mul_add _ hmid]
  by_cases hbelow : j < bits * i
  · rw [if_pos hbelow, if_neg (by omega), if_pos hbelow]
  · by_cases hin : j - bits * i < bits
    · rw [if_neg hbelow, if_pos hin, if_pos (by omega)]
    · rw [if_neg hbelow, if_neg hin, if_neg (by omega), if_neg hbelow, if_neg hin]

/-- The first bytes of a number replaced. -/
theorem testBit_splice (old new n j : Nat) :
    (splice old new n).testBit j = if j < 8 * n then new.testBit j else old.testBit j := by
  rw [splice, Nat.add_comm, Nat.mul_comm (old / _), Nat.testBit_two_pow_mul_add _ (Nat.mod_lt _ (Nat.two_pow_pos _)), Nat.testBit_mod_two_pow,
    Nat.testBit_div_two_pow]
  split
  · rw [decide_eq_true ‹_›, Bool.true_and]
  · rw [Nat.sub_add_cancel (Nat.not_lt.mp ‹_›)]

/-- A register whose first bytes are replaced. -/
theorem getLsbD_spliced (v : VWord) (new n : Nat) {j : Nat} (hj : j < 4096) :
    (BitVec.ofNat 4096 (splice v.toNat new n)).getLsbD j = if j < 8 * n then new.testBit j else v.getLsbD j := by
  rw [BitVec.getLsbD_ofNat, testBit_splice, decide_eq_true hj, Bool.true_and, BitVec.testBit_toNat]

theorem elemAt_spliced (v : VWord) (new : Nat) {n bits k : Nat} (hn : bits * (k + 1) ≤ 8 * n) (hk : bits * (k + 1) ≤ 4096) :
    elemAt (BitVec.ofNat 4096 (splice v.toNat new n)) bits k = BitVec.ofNat bits (lane new bits k) := by
  apply BitVec.eq_of_getLsbD_eq
  intro j hj
  rw [Nat.mul_succ] at hn hk
  rw [getLsbD_elemAt, getLsbD_spliced v new n (by omega), if_pos (by omega), BitVec.getLsbD_ofNat, lane, Nat.testBit_mod_two_pow,
    Nat.testBit_div_two_pow, Nat.add_comm j, decide_eq_true hj, Bool.true_and, Bool.true_and]

/-! ## What the lane forms need -/

section forms
variable {i : Instr} {s : State} {la vd : BitVec 4} {ty m : BitVec 3} {word : BitVec 32} {F : Nat → Nat}

theorem vector_written {n : Machine.Num} {v : VWord} (he : exec i s = .next (s.vecV la vd word n v)) (ha : s.admitsRing la ⟨[], [vd], []⟩) :
    ∃ t, exec i s = .next t ∧ s.computed t la ⟨[], [vd], []⟩ n.stream n.flags ∧ t.cx.rawV vd = v := ⟨_, he, State.vecV_computed ha word n v⟩

/-- An instruction with one vector destination, no draw and no flag completes as its form says when its value has the form's elements. -/
theorem completes_of_vecV {f : VecForm} {value : VWord} (he : exec i s = .next (s.vecV f.la f.vd word (s.num .rne) value))
    (htrue : ∀ k, k < lanesOf f.bits → f.mask.getLsbD k = true → f.value k (elemAt value f.bits k))
    (hfalse : ∀ k, k < lanesOf f.bits → f.mask.getLsbD k = false → elemAt value f.bits k = elemAt f.old f.bits k) : f.completes i s := by
  intro ha
  obtain ⟨t, ht, hc, hr⟩ := vector_written he ha
  refine ⟨t, ht, hc, fun k hk => ?_⟩
  rw [hr]
  split
  · exact htrue k hk ‹_›
  · exact hfalse k hk (Bool.eq_false_iff.mpr ‹_›)

/-- An instruction that maps the lanes a mask allows, and keeps the others of a register. -/
theorem completes_of_mapLanes {bits : Nat} {mask : MWord} {old : VWord} {p : Nat → BitVec bits → Prop}
    (he : exec i s = .next (s.vecV la vd word (s.num .rne) (mapLanes bits mask old F)))
    (hp : ∀ k, k < lanesOf bits → p k (BitVec.ofNat bits (F k))) : VecForm.completes ⟨la, bits, mask, vd, old, p⟩ i s :=
  completes_of_vecV he (fun k hk hm => by dsimp only at *; rw [elemAt_mapLanes hk, if_pos hm]; exact hp k hk)
    (fun k hk hm => by dsimp only at *; rw [elemAt_mapLanes hk, hm]; rfl)

theorem laneForm_completes {p : Nat → BitVec (tyBits ty) → Prop} (he : exec i s = s.vecMap la (tyBits ty) m vd word F)
    (hp : ∀ k, k < lanesOf (tyBits ty) → p k (BitVec.ofNat (tyBits ty) (F k))) : (laneForm s la ty m vd p).completes i s :=
  completes_of_mapLanes he hp

theorem lanesOf_tyBits_le (ty : BitVec 3) : lanesOf (tyBits ty) ≤ 512 := by revert ty; decide

/-- An instruction that writes every lane. -/
theorem wholeForm_completes {p : Nat → BitVec (tyBits ty) → Prop} {l : List Nat}
    (he : exec i s = .next (s.vecV la vd word (s.num .rne) (ofVlanes (tyBits ty) l)))
    (hp : ∀ k, k < lanesOf (tyBits ty) → p k (BitVec.ofNat (tyBits ty) (l.getD k 0))) : (wholeForm la ty vd p).completes i s :=
  completes_of_vecV he (fun k hk _ => elemAt_ofVlanes (bits := tyBits ty) hk l ▸ hp k hk) (fun k hk hm => by
    have hk : k < lanesOf (tyBits ty) := hk
    have := lanesOf_tyBits_le ty
    simp only [wholeForm, BitVec.getLsbD_allOnes, decide_eq_false_iff_not] at hm
    omega)

/-- An integer instruction of R172: what it computes from the two lanes. -/
theorem intLanes_completes {vb va : BitVec 4} {p : Nat → BitVec (tyBits ty) → Prop} {F : Nat → Nat → Nat → Nat}
    (he : exec i s = s.intLanes la ty m vb va vd word F)
    (hp : ∀ k, p k (BitVec.ofNat _ (F (tyBits ty) (laneAt s va ty k).toNat (laneAt s vb ty k).toNat))) :
    (laneForm s la ty m vd p).completes i s := by
  refine laneForm_completes he (fun k _ => ?_)
  simp only [← elemAt_toNat, ofNat_mod_pow]
  exact hp k

end forms

/-! ## Integer operations on the bits of two elements (R170, R172) -/

section operations
variable {n : Nat} (a b : BitVec n)

theorem ofNat_toNat_self : BitVec.ofNat n a.toNat = a := by rw [BitVec.ofNat_toNat, BitVec.setWidth_eq]

theorem ofNat_ite_toNat (p : Prop) [Decidable p] : BitVec.ofNat n (if p then b.toNat else a.toNat) = if p then b else a := by
  split <;> exact ofNat_toNat_self _

theorem ofNat_sub_toNat : BitVec.ofNat n (a.toNat + 2 ^ n - b.toNat) = a - b := by
  have := b.isLt
  refine BitVec.eq_of_toNat_eq ?_
  rw [BitVec.toNat_ofNat, BitVec.toNat_sub]
  congr 1
  omega

theorem ofNat_shiftLeft_toNat (j : Nat) : BitVec.ofNat n (a.toNat <<< j) = a <<< j := BitVec.eq_of_toNat_eq (by simp)

theorem ofNat_shiftRight_toNat (j : Nat) : BitVec.ofNat n (a.toNat >>> j) = a >>> j :=
  BitVec.eq_of_toNat_eq (by rw [← BitVec.toNat_ushiftRight, ofNat_toNat_self])

theorem ofNat_ofSigned (i : Int) : BitVec.ofNat n (ofSigned n i) = BitVec.ofInt n i := by
  refine BitVec.eq_of_toNat_eq ?_
  have h : (i % (2 ^ n : Nat)).toNat < 2 ^ n := by
    have h0 := Int.emod_nonneg i (b := (2 ^ n : Nat)) (by exact_mod_cast (Nat.two_pow_pos n).ne')
    have h1 := Int.emod_lt_of_pos i (b := (2 ^ n : Nat)) (by exact_mod_cast Nat.two_pow_pos n)
    omega
  rw [BitVec.toNat_ofNat, BitVec.toNat_ofInt, ofSigned, Nat.mod_eq_of_lt h]

theorem ofNat_sra_toNat (j : Nat) : BitVec.ofNat n (ofSigned n (signed n a.toNat / 2 ^ j)) = a.sshiftRight j := by
  rw [ofNat_ofSigned, signed_toNat, BitVec.sshiftRight, Int.shiftRight_eq_div_pow, Nat.cast_pow, Nat.cast_ofNat]

theorem getLsbD_ofNat_clmul {j : Nat} (hj : j < n) : (BitVec.ofNat n (clmul a.toNat b.toNat n)).getLsbD j =
    decide (((List.range n).filter (fun i => decide (i ≤ j) && b.getLsbD i && a.getLsbD (j - i))).length % 2 = 1) := by
  have h (m : Nat) : (clmul a.toNat b.toNat m).testBit j =
      decide (((List.range m).filter (fun i => decide (i ≤ j) && b.getLsbD i && a.getLsbD (j - i))).length % 2 = 1) := by
    induction m with
    | zero => simp [clmul]
    | succ m ih =>
      rw [clmul, Nat.testBit_xor, ih, List.range_succ, List.filter_append, List.length_append]
      have hterm : (if b.toNat.testBit m then a.toNat <<< m else 0).testBit j = (decide (m ≤ j) && b.getLsbD m && a.getLsbD (j - m)) := by
        rw [BitVec.testBit_toNat]
        cases b.getLsbD m <;> simp [BitVec.testBit_toNat]
      rw [hterm]
      cases hb : decide (m ≤ j) && b.getLsbD m && a.getLsbD (j - m)
      · simp [hb]
      · simp only [hb, List.filter_cons_of_pos, List.filter_nil, List.length_singleton, Bool.xor_true]
        rw [← decide_not]
        congr 1
        apply propext
        omega
  rw [BitVec.getLsbD_ofNat, h n]
  simp [hj]

theorem popcount_eq_length (v n : Nat) : popcount v n = ((List.range n).filter v.testBit).length := by
  induction n with
  | zero => rfl
  | succ n ih =>
    rw [popcount, ih, List.range_succ, List.filter_append, List.length_append]
    cases h : v.testBit n <;> simp [h]

theorem toNat_ofNat_popcount : (BitVec.ofNat n (popcount a.toNat n)).toNat = ((List.range n).filter a.getLsbD).length := by
  have hle : popcount a.toNat n ≤ n := by
    rw [popcount_eq_length]
    exact (List.length_filter_le ..).trans_eq List.length_range
  rw [BitVec.toNat_ofNat, Nat.mod_eq_of_lt (hle.trans_lt Nat.lt_two_pow_self), popcount_eq_length]
  rfl

/-- clz counts the zeros above the highest 1 bit. -/
theorem ofNat_clz_toNat : (a = 0 → (BitVec.ofNat n (clz n a.toNat)).toNat = n) ∧
    (a ≠ 0 → (BitVec.ofNat n (clz n a.toNat)).toNat < n ∧ a.getLsbD (n - 1 - (BitVec.ofNat n (clz n a.toNat)).toNat) = true ∧
      ∀ j, n - 1 - (BitVec.ofNat n (clz n a.toNat)).toNat < j → a.getLsbD j = false) := by
  have hn : n < 2 ^ n := Nat.lt_two_pow_self
  have hclz : clz n a.toNat = if a.toNat = 0 then n else n - 1 - Nat.log2 a.toNat := by
    rw [clz, Nat.mod_eq_of_lt a.isLt]
  refine ⟨fun h0 => ?_, fun h0 => ?_⟩
  · rw [hclz, h0, BitVec.toNat_ofNat]
    exact Nat.mod_eq_of_lt hn
  · have ha : a.toNat ≠ 0 := fun h => h0 (BitVec.eq_of_toNat_eq h)
    have hlog : Nat.log2 a.toNat < n := (Nat.log2_lt ha).mpr a.isLt
    have hr : (BitVec.ofNat n (clz n a.toNat)).toNat = n - 1 - Nat.log2 a.toNat := by
      rw [hclz, if_neg ha, BitVec.toNat_ofNat]
      exact Nat.mod_eq_of_lt (by omega)
    rw [hr, show n - 1 - (n - 1 - Nat.log2 a.toNat) = Nat.log2 a.toNat by omega]
    refine ⟨by omega, ?_, fun j hj => ?_⟩
    · exact Nat.testBit_log2 ha
    · exact Nat.testBit_lt_two_pow (Nat.lt_of_lt_of_le Nat.lt_log2_self (Nat.pow_le_pow_right (by omega) hj))

theorem getLsbD_ofNat_abs {j : Nat} (hj : j < n) :
    (BitVec.ofNat n (a.toNat % 2 ^ (n - 1))).getLsbD j = (decide (j ≠ n - 1) && a.getLsbD j) := by
  rw [BitVec.getLsbD_ofNat, Nat.testBit_mod_two_pow, BitVec.testBit_toNat, decide_eq_true hj, Bool.true_and]
  congr 2
  apply propext
  omega

theorem getLsbD_ofNat_neg {j : Nat} (hj : j < n) :
    (BitVec.ofNat n (Nat.xor a.toNat (2 ^ (n - 1)))).getLsbD j = (a.getLsbD j ^^ decide (j = n - 1)) := by
  have h : (Nat.xor a.toNat (2 ^ (n - 1))).testBit j = (a.toNat.testBit j ^^ (2 ^ (n - 1)).testBit j) := Nat.testBit_xor ..
  rw [BitVec.getLsbD_ofNat, h, BitVec.testBit_toNat, Nat.testBit_two_pow, decide_eq_true hj, Bool.true_and]
  simp only [eq_comm]

theorem getLsbD_ofNat_copySign {j : Nat} (hj : j < n) :
    (BitVec.ofNat n (a.toNat % 2 ^ (n - 1) + b.toNat / 2 ^ (n - 1) * 2 ^ (n - 1))).getLsbD j =
      if j = n - 1 then b.getLsbD j else a.getLsbD j := by
  rw [BitVec.getLsbD_ofNat, decide_eq_true hj, Bool.true_and, Nat.add_comm, Nat.mul_comm,
    Nat.testBit_two_pow_mul_add _ (Nat.mod_lt _ (Nat.two_pow_pos _)), Nat.testBit_mod_two_pow, Nat.testBit_div_two_pow]
  by_cases h : j = n - 1
  · subst h
    simp [BitVec.testBit_toNat]
  · rw [if_pos (by omega), if_neg h, decide_eq_true (by omega), Bool.true_and, BitVec.testBit_toNat]

end operations

/-- The integer instructions (R172) and the sign operations (R170) write their lanes. -/
theorem vectorIntegerLanesAreComputed : Claims.VectorIntegerLanesAreComputed := by
  intro i s f h
  unfold vectorIntegerForm at h
  split at h <;> cases h
  case h_1 =>
    exact intLanes_completes (F := fun _ a b => a + b) rfl fun k => by rw [BitVec.ofNat_add, ofNat_toNat_self, ofNat_toNat_self]
  case h_2 =>
    exact intLanes_completes (F := fun n a b => a + 2 ^ n - b) rfl fun k => ofNat_sub_toNat ..
  case h_3 =>
    exact intLanes_completes (F := fun _ a b => a * b) rfl fun k => by rw [BitVec.ofNat_mul, ofNat_toNat_self, ofNat_toNat_self]
  case h_4 =>
    exact intLanes_completes (F := fun _ a b => a &&& b) rfl fun k => by rw [BitVec.ofNat_and, ofNat_toNat_self, ofNat_toNat_self]
  case h_5 =>
    exact intLanes_completes (F := fun _ a b => a ||| b) rfl fun k => by rw [BitVec.ofNat_or, ofNat_toNat_self, ofNat_toNat_self]
  case h_6 =>
    exact intLanes_completes (F := fun _ a b => a ^^^ b) rfl fun k => by rw [BitVec.ofNat_xor, ofNat_toNat_self, ofNat_toNat_self]
  case h_7 =>
    exact intLanes_completes (F := fun n a b => if signed n b < signed n a then b else a) rfl fun k => by
      rw [signed_toNat, signed_toNat, ofNat_ite_toNat]
  case h_8 =>
    exact intLanes_completes (F := fun n a b => if signed n a < signed n b then b else a) rfl fun k => by
      rw [signed_toNat, signed_toNat, ofNat_ite_toNat]
  case h_9 =>
    exact intLanes_completes (F := fun n a b => a <<< (b % n)) rfl fun k => ofNat_shiftLeft_toNat ..
  case h_10 =>
    exact intLanes_completes (F := fun n a b => a >>> (b % n)) rfl fun k => ofNat_shiftRight_toNat ..
  case h_11 =>
    exact intLanes_completes (F := fun n a b => ofSigned n (signed n a / 2 ^ (b % n))) rfl fun k => ofNat_sra_toNat ..
  case h_12 =>
    exact intLanes_completes (F := fun n a b => clmul a b n) rfl fun k j hj => getLsbD_ofNat_clmul _ _ hj
  case h_13 =>
    exact intLanes_completes (vb := 0) (F := fun n a _ => popcount a n) rfl fun k => toNat_ofNat_popcount _
  case h_14 =>
    exact intLanes_completes (vb := 0) (F := fun n a _ => clz n a) rfl fun k => ofNat_clz_toNat _
  case h_15 la ty m va vd =>
    exact laneForm_completes (F := fun k => vlane (s.cx.readV va) (tyBits ty) k % 2 ^ (tyBits ty - 1)) rfl fun k _ j hj => by
      rw [← elemAt_toNat]; exact getLsbD_ofNat_abs _ hj
  case h_16 la ty m va vd =>
    exact laneForm_completes (F := fun k => Nat.xor (vlane (s.cx.readV va) (tyBits ty) k) (2 ^ (tyBits ty - 1))) rfl fun k _ j hj => by
      rw [← elemAt_toNat]; exact getLsbD_ofNat_neg _ hj
  case h_17 la ty m vb va vd =>
    exact laneForm_completes (F := fun k => vlane (s.cx.readV va) (tyBits ty) k % 2 ^ (tyBits ty - 1) +
        vlane (s.cx.readV vb) (tyBits ty) k / 2 ^ (tyBits ty - 1) * 2 ^ (tyBits ty - 1)) rfl fun k _ j hj => by
      rw [← elemAt_toNat, ← elemAt_toNat]; exact getLsbD_ofNat_copySign _ _ hj

/-! ## Permutations (R185) and moves (R174, R186) -/

theorem ofNat_vlane (v : VWord) (n k : Nat) : BitVec.ofNat n (vlane v n k) = elemAt v n k := by
  rw [← elemAt_toNat, ofNat_toNat_self]

theorem bits_elemTy (ty : BitVec 3) : (elemTy ty).bits = tyBits ty := rfl

theorem decodeElem_vlane (s : State) (ty : BitVec 3) (v : BitVec 4) (k : Nat) :
    decodeElem (elemTy ty) (vlane (s.cx.readV v) (tyBits ty) k) = valueAt s ty v k := by
  rw [valueAt, laneAt, elemAt_toNat]

/-- An element that a test accepts stands in the filtered list behind those accepted before it. -/
theorem getElem?_filter_range {p : Nat → Bool} {j n : Nat} (hp : p j = true) (hj : j < n) :
    ((List.range n).filter p)[((List.range j).filter p).length]? = some j := by
  obtain ⟨c, rfl⟩ := Nat.exists_eq_add_of_lt hj
  rw [Nat.add_assoc, List.range_add, List.range_succ_eq_map, List.map_cons, Nat.add_zero, List.filter_append, List.filter_cons_of_pos hp,
    List.getElem?_append_right (Nat.le_refl _), Nat.sub_self]
  rfl

/-- The permutations move their lanes. -/
theorem permutationsMoveLanes : Claims.PermutationsMoveLanes := by
  intro i s f h
  unfold permuteForm at h
  split at h <;> cases h
  case h_1 la ty m vb va vd =>
    exact laneForm_completes (F := fun k => vlane (s.cx.readV va) (tyBits ty)
      (shuffleIndex (tyBits ty) k (vlane (s.cx.readV vb) (tyBits ty) k))) rfl fun k _ => by
        rw [ofNat_vlane, shuffleIndex, ← elemAt_toNat]; rfl
  case h_2 la ty m vb va vd =>
    exact laneForm_completes (F := fun k => vlane (s.cx.readV va) (tyBits ty)
      ((k + vlane (s.cx.readV vb) (tyBits ty) 0) % lanesOf (tyBits ty))) rfl fun k _ => by
        rw [ofNat_vlane, ← elemAt_toNat]; rfl
  case h_3 la ty m vb va vd =>
    exact laneForm_completes (F := fun k => if k = 0 then vlane (s.cx.readV vb) (tyBits ty) (lanesOf (tyBits ty) - 1)
      else vlane (s.cx.readV va) (tyBits ty) (k - 1)) rfl fun k _ => by
        split <;> exact ofNat_vlane ..
  case h_4 la ty m va vd =>
    refine wholeForm_completes (l := (trueLanes (s.cx.readM m) (lanesOf (tyBits ty))).map (vlane (s.cx.readV va) (tyBits ty))) rfl
      fun k _ => ⟨fun j hj hm hk => ?_, fun hk => ?_⟩
    · have hget : (trueLanes (s.cx.readM m) (lanesOf (tyBits ty)))[k]? = some j := hk ▸ getElem?_filter_range hm hj
      rw [List.getD_eq_getElem?_getD, List.getElem?_map, hget]
      exact ofNat_vlane ..
    · have hget : (trueLanes (s.cx.readM m) (lanesOf (tyBits ty)))[k]? = none := List.getElem?_eq_none hk
      rw [List.getD_eq_getElem?_getD, List.getElem?_map, hget]
      rfl
  case h_5 la ty m va vd =>
    exact laneForm_completes (F := fun k => vlane (s.cx.readV va) (tyBits ty) (trueLanes (s.cx.readM m) k).length) rfl
      fun k _ => ofNat_vlane ..
  case h_6 la ty m vd =>
    exact wholeForm_completes (l := (List.range (lanesOf (tyBits ty))).map fun k => (trueLanes (s.cx.readM m) k).length % 2 ^ tyBits ty) rfl
      fun k hk => by rw [getD_map_range _ hk, ofNat_mod_pow]; rfl
  case h_7 la ty m va vd =>
    exact laneForm_completes (F := fun _ => vlane (s.cx.readV va) (tyBits ty) 0) rfl fun k _ => ofNat_vlane ..
  case h_8 la ty m vb va vd =>
    exact laneForm_completes (F := fun k => if k % 2 = 0 then vlane (s.cx.readV va) (tyBits ty) (k / 2)
      else vlane (s.cx.readV vb) (tyBits ty) ((k - 1) / 2)) rfl fun k _ => by
        split <;> exact ofNat_vlane ..

theorem ofNat_toNat_mod (w : Word) (n : Nat) : BitVec.ofNat n (w.toNat % 2 ^ n) = w.setWidth n := by
  rw [ofNat_mod_pow, BitVec.ofNat_toNat]

/-- VPUT, VSPLAT, VMOV, VSEL and VCLASS write their lanes. -/
theorem vectorMovesWriteLanes : Claims.VectorMovesWriteLanes := by
  intro i s f h
  unfold vectorMoveForm at h
  split at h <;> cases h
  case h_1 la ty x va vd =>
    refine wholeForm_completes (l := (List.range (lanesOf (tyBits ty))).map fun k =>
      if k = 0 then (s.x x).toNat % 2 ^ tyBits ty else vlane (s.cx.readV va) (tyBits ty) (k - 1)) rfl fun k hk => ?_
    rw [getD_map_range _ hk]
    split
    · exact ofNat_toNat_mod ..
    · exact ofNat_vlane ..
  case h_2 la ty m x vd =>
    exact laneForm_completes (F := fun _ => (s.x x).toNat % 2 ^ tyBits ty) rfl fun k _ => ofNat_toNat_mod ..
  case h_3 la ty m va vd =>
    exact laneForm_completes (F := vlane (s.cx.readV va) (tyBits ty)) rfl fun k _ => ofNat_vlane ..
  case h_4 la ty m vb va vd =>
    exact completes_of_mapLanes (F := vlane (s.cx.readV va) (tyBits ty)) rfl fun k _ => ofNat_vlane ..
  case h_5 la ty m va vd =>
    exact laneForm_completes (F := fun k => 2 ^ classOf (floatOf ty) (vlane (s.cx.readV va) (tyBits ty) k)) rfl fun k _ => by
      rw [← elemAt_toNat]; rfl

/-- Settles O39, by the lanes of the integer instructions, the permutations and the moves. -/
theorem vectorLanesAreComputed : Obligations.VectorLanesAreComputed :=
  ⟨vectorIntegerLanesAreComputed, permutationsMoveLanes, vectorMovesWriteLanes⟩

end Sys2Proof.Laws.Lanes
end

section
/-!
SUPPORT. Vector instructions with a draw a lane (R157, R158, R170, R175).
-/

namespace Sys2Proof.Laws.FloatLanes

open Sys2Proof.Machine Sys2Proof.Claims Sys2Proof.Laws.Lanes

/-! ## Draws -/

theorem z_raise (n : Machine.Num) (g : Flags) : (n.raise g).z = (n.z.1, n.z.2.raise g) := by
  obtain ⟨mode, st, fl⟩ := n
  cases mode <;> rfl

theorem mode_z (n : Machine.Num) : n.z.2.mode = n.mode := by
  obtain ⟨mode, st, fl⟩ := n
  cases mode <;> rfl

theorem flags_z (n : Machine.Num) : n.z.2.flags = n.flags := by
  obtain ⟨mode, st, fl⟩ := n
  cases mode <;> rfl

theorem empty_or (g : Flags) : Flags.or {} g = g := rfl

theorem drawn_raise (n : Machine.Num) (g : Flags) (k : Nat) : drawn (n.raise g) k = (drawn n k).raise g := by
  induction k with
  | zero => rfl
  | succ k ih => rw [drawn, ih, z_raise]; rfl

theorem drawn_z (n : Machine.Num) (k : Nat) : drawn n.z.2 k = drawn n (k + 1) := by
  induction k with
  | zero => rfl
  | succ k ih => rw [drawn, ih]; rfl

/-! ## Lanes with a draw each (R158) -/

/-- What computing goes on with after a lane that draws. -/
def afterLane (f : Nat → Nat → Nat × Flags) (mask : Nat → Bool) (i : Nat) (n : Machine.Num) : Machine.Num :=
  if mask i then n.z.2.raise (f i n.z.1).2 else n.z.2

section lanes
variable (f : Nat → Nat → Nat × Flags) (old : Nat → Nat) (mask : Nat → Bool)

theorem goLanes_succ (k i : Nat) (n : Machine.Num) : goLanes f old mask true (k + 1) i n =
    ((if mask i then (f i n.z.1).1 else old i) :: (goLanes f old mask true k (i + 1) (afterLane f mask i n)).1,
      (goLanes f old mask true k (i + 1) (afterLane f mask i n)).2) := by
  rw [goLanes, afterLane]
  cases mask i <;> rfl

theorem mode_afterLane (i : Nat) (n : Machine.Num) : (afterLane f mask i n).mode = n.mode := by
  unfold afterLane
  split <;> exact mode_z n

theorem flags_afterLane (i : Nat) (n : Machine.Num) :
    (afterLane f mask i n).flags = if mask i then n.flags.or (f i n.z.1).2 else n.flags := by
  rw [← flags_z n, afterLane]
  split <;> rfl

/-- The flags of a lane do not show in the draws after it. -/
theorem drawn_afterLane (i k : Nat) (n : Machine.Num) : (drawn (afterLane f mask i n) k).z.1 = (drawn n (k + 1)).z.1 ∧
    (drawn (afterLane f mask i n) k).stream = (drawn n (k + 1)).stream := by
  unfold afterLane
  split
  · rw [drawn_raise, drawn_z, z_raise]
    exact ⟨rfl, rfl⟩
  · rw [drawn_z]
    exact ⟨rfl, rfl⟩

/-- The flags of the first k lanes from lane i on whose mask bits are 1, on top of those before. -/
def laneFlags (i k : Nat) (n : Machine.Num) : Flags :=
  ((List.range k).filter (fun j => mask (i + j))).foldl (fun g j => g.or (f (i + j) (drawn n j).z.1).2) n.flags

theorem laneFlags_succ (i k : Nat) (n : Machine.Num) : laneFlags f mask i (k + 1) n = laneFlags f mask (i + 1) k (afterLane f mask i n) := by
  have hadd (j : Nat) : i + 1 + j = i + (j + 1) := by omega
  unfold laneFlags
  rw [List.range_succ_eq_map, List.filter_cons, List.filter_map, flags_afterLane]
  simp only [Function.comp_def, (drawn_afterLane ..).1, Nat.succ_eq_add_one, hadd, Nat.add_zero]
  split <;> simp [List.foldl_map, drawn]

/-- Lanes in ascending order take one draw each; the true ones are computed and raise their flags, the others keep their values. -/
theorem goLanes_eq (k i : Nat) (n : Machine.Num) : goLanes f old mask true k i n =
    ((List.range k).map (fun j => if mask (i + j) then (f (i + j) (drawn n j).z.1).1 else old (i + j)),
      ⟨n.mode, (drawn n k).stream, laneFlags f mask i k n⟩) := by
  induction k generalizing i n with
  | zero => rfl
  | succ k ih =>
    have hadd (j : Nat) : i + 1 + j = i + (j + 1) := by omega
    rw [goLanes_succ, ih, laneFlags_succ, mode_afterLane, List.range_succ_eq_map]
    simp [(drawn_afterLane ..).1, (drawn_afterLane ..).2, hadd, Function.comp_def, drawn]

end lanes

/-- The flags of a form are those of its lanes from the first on. -/
theorem flags_eq_laneFlags (f : DrawForm) (s : State) :
    f.flags s = laneFlags f.compute (s.cx.readM f.m).getLsbD 0 f.count (s.num f.mode) := by
  simp only [laneFlags, Nat.zero_add]
  rfl

/-- A lane operation with a rounding mode completes as the form that computes its lanes. -/
theorem completes_of_vecNum {f : DrawForm} {i : Instr} {s : State} {word : BitVec 32} {F : Nat → Nat → Nat × Flags}
    (he : exec i s = s.vecNum f.la f.bits f.m f.vd word f.mode F) (hF : ∀ k z, F k z = f.compute k z)
    (hcount : f.count = lanesOf f.bits) : f.completes i s := by
  obtain rfl : F = f.compute := funext fun k => funext (hF k)
  intro _ ha
  rw [State.vecNum, goLanes_eq] at he
  obtain ⟨t, ht, hc, hv⟩ := vector_written he ha
  refine ⟨t, ht, ?_, fun k hk => ?_⟩
  · rw [flags_eq_laneFlags, hcount]
    exact hc
  · rw [hv, elemAt_ofVlanes hk, getD_map_range _ hk, Nat.zero_add]
    by_cases hm : (s.cx.readM f.m).getLsbD k = true
    · rw [if_pos hm, if_pos ⟨hcount ▸ hk, hm⟩]
      rfl
    · rw [if_neg hm, if_neg (fun h => hm h.2), ofNat_vlane]

/-! ## Floating-point lanes (R157, R170, R175) -/

/-- A floating-point lane instruction rounds F of its operands once. -/
theorem roundedForm_completes {i : Instr} {s : State} {needs : Option Bool} {la vb va vd : BitVec 4} {f : FloatFmt} {m : BitVec 3}
    {word : BitVec 32} {r : Nat → Result} (F : Val → Val → Val → Result) (he : exec i s = s.floatLanes la f m vb va vd word F)
    (hr : ∀ k, r k = F (floatAt s f va k) (floatAt s f vb k) (floatAt s f vd k)) : (roundedForm s needs la f m vd r).completes i s := by
  refine completes_of_vecNum he (fun k z => ?_) rfl
  simp only [roundedForm, hr, floatAt, elemAt_toNat]
  rfl

/-- Settles O9: each instruction hands its lanes to the one course of floating-point lanes, with its operation. -/
theorem floatLanesAreRoundedOnce : Obligations.FloatLanesAreRoundedOnce := by
  intro i s f h
  unfold floatForm at h
  split at h <;> cases h
  case h_1 => exact roundedForm_completes (fun a b _ => addVal a b) rfl fun _ => rfl
  case h_2 => exact roundedForm_completes (fun a b _ => addVal a (negVal b)) rfl fun _ => rfl
  case h_3 => exact roundedForm_completes (fun a b _ => mulVal a b) rfl fun _ => rfl
  case h_4 => exact roundedForm_completes (fun a b _ => divVal a b) rfl fun _ => rfl
  case h_5 => exact roundedForm_completes (fun a b c => fmaVal a b c) rfl fun _ => rfl
  case h_6 => exact roundedForm_completes (fun a b c => fmaVal a b (negVal c)) rfl fun _ => rfl
  case h_7 => exact roundedForm_completes (fun a b c => fmaVal (negVal a) b c) rfl fun _ => rfl
  case h_8 => exact roundedForm_completes (vb := 0) (fun a _ _ => sqrtVal a) rfl fun _ => rfl
  case h_9 => exact roundedForm_completes (vb := 0) (fun a _ _ => exp2Val a) rfl fun _ => rfl
  case h_10 => exact roundedForm_completes (vb := 0) (fun a _ _ => log2Val a) rfl fun _ => rfl
  case h_11 => exact roundedForm_completes (vb := 0) (fun a _ _ => rcpVal a) rfl fun _ => rfl
  case h_12 => exact roundedForm_completes (vb := 0) (fun a _ _ => rsqVal a) rfl fun _ => rfl
  case h_13 => exact roundedForm_completes (vb := 0) (fun a _ _ => tanhVal a) rfl fun _ => rfl
  case h_14 => exact roundedForm_completes (vb := 0) (fun a _ _ => sigVal a) rfl fun _ => rfl
  case h_15 => exact roundedForm_completes (vb := 0) (fun a _ _ => sinVal a) rfl fun _ => rfl
  case h_16 => exact roundedForm_completes (vb := 0) (fun a _ _ => cosVal a) rfl fun _ => rfl

end Sys2Proof.Laws.FloatLanes
end

section
/-!
SUPPORT. Compares (R173), mask operations (R187) and the moves of elements and masks to scalar registers (R186, R187).
-/

namespace Sys2Proof.Laws.Masks

open Sys2Proof.Machine Sys2Proof.Claims Sys2Proof.Laws.Lanes

/-! ## Compares (R173) -/

theorem bits_succ (c : Compare) (a b : Nat → Val) (mask : Nat → Bool) (n i : Nat) : c.bits a b mask (n + 1) i =
    ((mask i && (c.lane (a i) (b i)).1).toNat + 2 * (c.bits a b mask n (i + 1)).1,
      (mask i && (c.lane (a i) (b i)).2) || (c.bits a b mask n (i + 1)).2) := by
  rw [Compare.bits]
  cases mask i <;> simp

theorem testBit_bits (c : Compare) (a b : Nat → Val) (mask : Nat → Bool) (n i k : Nat) :
    (c.bits a b mask n i).1.testBit k = (decide (k < n) && mask (i + k) && (c.lane (a (i + k)) (b (i + k))).1) := by
  induction n generalizing i k with
  | zero => simp [Compare.bits]
  | succ n ih =>
    rw [bits_succ]
    cases k with
    | zero =>
      have hbit (v : Bool) (r : Nat) : (v.toNat + 2 * r).testBit 0 = v := by cases v <;> simp
      rw [hbit]
      simp
    | succ k =>
      have hdiv (v : Bool) (r : Nat) : (v.toNat + 2 * r) / 2 = r := by
        have := v.toNat_lt
        omega
      rw [Nat.testBit_succ, hdiv, ih, Nat.add_right_comm, Nat.add_assoc]
      simp

/-- A compare sets NV where one of its true lanes does. -/
theorem nv_bits (c : Compare) (a b : Nat → Val) (mask : Nat → Bool) (n i : Nat) : (c.bits a b mask n i).2 =
    (List.range n).any (fun k => mask (i + k) && (c.lane (a (i + k)) (b (i + k))).2) := by
  induction n generalizing i with
  | zero => rfl
  | succ n ih =>
    rw [bits_succ, ih, List.range_succ_eq_map, List.any_cons, List.any_map]
    simp [Function.comp_def, Nat.add_right_comm, Nat.add_assoc]

/-- The NV flag that a compare raises. -/
theorem nv_compare (s : State) (c : Compare) (ty m : BitVec 3) (vb va : BitVec 4) :
    (c.bits (valueAt s ty va) (valueAt s ty vb) (s.cx.readM m).getLsbD (elemTy ty).lanes 0).2 =
      (trueOf s ty m).any (fun k => (c.lane (valueAt s ty va k) (valueAt s ty vb k)).2) := by
  rw [nv_bits, trueOf, List.any_filter]
  simp only [Nat.zero_add]
  rfl

section writes
variable {i : Instr} {s : State} {la : BitVec 4} {word : BitVec 32} {n : Machine.Num}

theorem mask_written {vd : BitVec 3} {v : MWord} (he : exec i s = .next (s.vec la ⟨[], [], [vd]⟩ word n (fun c => c.writeM vd v)))
    (ha : s.admitsRing la ⟨[], [], [vd]⟩) : ∃ t, exec i s = .next t ∧ s.computed t la ⟨[], [], [vd]⟩ n.stream n.flags ∧
      (vd ≠ 0 → t.cx.rawM vd = v) := ⟨_, he, State.vecM_computed ha word n v⟩

theorem scalar_written {d : Reg} {v : Word} (he : exec i s = .next (s.vec la ⟨[d], [], []⟩ word n (fun c => c.writeX d v)))
    (ha : s.admitsRing la ⟨[d], [], []⟩) : ∃ t, exec i s = .next t ∧ s.computed t la ⟨[d], [], []⟩ n.stream n.flags ∧
      (d ≠ 0 → t.cx.rawX d = v) := ⟨_, he, State.vecX_computed ha word n v⟩

end writes

theorem compare_writes {i : Instr} {s : State} {c : Compare} {la vb va : BitVec 4} {ty m vd : BitVec 3} {word : BitVec 32}
    (he : exec i s = s.compare c la ty m vb va vd word) (ha : s.admitsRing la ⟨[], [], [vd]⟩) :
    ∃ t, exec i s = .next t ∧
      s.computed t la ⟨[], [], [vd]⟩ s.stream
        { nv := (trueOf s ty m).any (fun k => (c.lane (valueAt s ty va k) (valueAt s ty vb k)).2) } ∧
      (vd ≠ 0 → ∀ k, k < 1024 → (t.cx.rawM vd).getLsbD k = (decide (k < lanesOf (tyBits ty)) && (s.cx.readM m).getLsbD k &&
        (c.lane (valueAt s ty va k) (valueAt s ty vb k)).1)) := by
  simp only [State.compare, bits_elemTy, decodeElem_vlane] at he
  obtain ⟨t, ht, hc, hv⟩ := mask_written he ha
  refine ⟨t, ht, ?_, fun h0 k hk => ?_⟩
  · rw [← nv_compare]
    exact hc
  · rw [hv h0, BitVec.getLsbD_ofNat, testBit_bits, Nat.zero_add, decide_eq_true hk, Bool.true_and]
    rfl

theorem comparesWriteMasks : Claims.ComparesWriteMasks := by
  intro i s c la ty m vb va vd h
  unfold compareForm at h
  split at h <;> cases h <;> exact compare_writes rfl

/-! ## Mask operations (R187) -/

/-- MSET replaces one word of its mask. -/
theorem extractLsb'_replaceWord (old : MWord) (x : Word) {k w : Nat} (hk : k < 16) (hw : w < 16) :
    (BitVec.ofNat 1024 (old.toNat - lane old.toNat 64 (64 * k / 64) * 2 ^ (64 * k) + x.toNat * 2 ^ (64 * k))).extractLsb' (64 * w) 64 =
      if w = k then x else old.extractLsb' (64 * w) 64 := by
  rw [Nat.mul_div_cancel_left k (by decide)]
  apply BitVec.eq_of_getLsbD_eq
  intro j hj
  rw [BitVec.getLsbD_extractLsb', BitVec.getLsbD_ofNat, testBit_replaceLane _ x.isLt, decide_eq_true hj,
    decide_eq_true (by omega : 64 * w + j < 1024), Bool.true_and, Bool.true_and]
  by_cases h : w = k
  · subst h
    rw [if_pos (by omega), if_pos rfl, Nat.add_sub_cancel_left, BitVec.testBit_toNat]
  · rw [if_neg (by omega), if_neg h, BitVec.testBit_toNat, BitVec.getLsbD_extractLsb', decide_eq_true hj, Bool.true_and]

theorem maskOperationsWriteMasks : Claims.MaskOperationsWriteMasks := by
  intro i s la vd p h ha
  have written {v : MWord} {word : BitVec 32} (he : exec i s = s.maskTo la vd word v) (hp : p v) :
      ∃ t, exec i s = .next t ∧ s.computed t la ⟨[], [], [vd]⟩ s.stream {} ∧ (vd ≠ 0 → p (t.cx.rawM vd)) := by
    obtain ⟨t, ht, hc, hv⟩ := mask_written he ha
    exact ⟨t, ht, hc, fun h0 => hv h0 ▸ hp⟩
  unfold maskForm at h
  split at h <;> cases h
  case h_1 vb va => exact written (v := s.cx.readM va &&& s.cx.readM vb) rfl rfl
  case h_2 vb va => exact written (v := s.cx.readM va ||| s.cx.readM vb) rfl rfl
  case h_3 vb va => exact written (v := s.cx.readM va ^^^ s.cx.readM vb) rfl rfl
  case h_4 va => exact written (v := ~~~s.cx.readM va) rfl rfl
  case h_5 vb va =>
    exact written (v := BitVec.ofNat 1024 ((s.cx.rawM vd).toNat -
        lane (s.cx.rawM vd).toNat 64 (64 * ((s.x (lowReg vb)).toNat % 16) / 64) * 2 ^ (64 * ((s.x (lowReg vb)).toNat % 16)) +
        (s.x (lowReg va)).toNat * 2 ^ (64 * ((s.x (lowReg vb)).toNat % 16)))) rfl
      fun w hw => extractLsb'_replaceWord _ _ (Nat.mod_lt _ (by decide)) hw

/-! ## Moves to scalar registers (R186, R187) -/

/-- The lowest 1 bit of a number from a place on. -/
theorem ctz_spec (v n i : Nat) : i ≤ ctz v n i ∧ ctz v n i ≤ i + n ∧ (∀ j, i ≤ j → j < ctz v n i → v.testBit j = false) ∧
    (ctz v n i < i + n → v.testBit (ctz v n i) = true) := by
  induction n generalizing i with
  | zero => exact ⟨Nat.le_refl i, Nat.le_refl i, fun j hj hlt => absurd hlt (Nat.not_lt.mpr hj), fun h => absurd h (Nat.lt_irrefl i)⟩
  | succ n ih =>
    obtain ⟨hle, hend, hbelow, hat⟩ := ih (i + 1)
    rw [ctz]
    cases hb : v.testBit i
    · refine ⟨by simp; omega, by simp; omega, fun j hj hlt => ?_, fun h => hat (by simp at h; omega)⟩
      rcases Nat.eq_or_lt_of_le hj with rfl | hj
      · exact hb
      · exact hbelow j hj hlt
    · exact ⟨Nat.le_refl i, Nat.le_add_right .., fun j hj hlt => absurd hlt (Nat.not_lt.mpr hj), fun _ => hb⟩

/-- MFIRST gives the first place of a 1 bit, and 1,024 for a mask without one. -/
theorem ofNat_ctz_mask (v : MWord) : (v = 0 → BitVec.ofNat 64 (ctz v.toNat 1024 0) = 1024) ∧
    (v ≠ 0 → v.getLsbD (BitVec.ofNat 64 (ctz v.toNat 1024 0)).toNat = true ∧
      ∀ j, j < (BitVec.ofNat 64 (ctz v.toNat 1024 0)).toNat → v.getLsbD j = false) := by
  obtain ⟨-, hend, hbelow, hat⟩ := ctz_spec v.toNat 1024 0
  have hr : (BitVec.ofNat 64 (ctz v.toNat 1024 0)).toNat = ctz v.toNat 1024 0 := by
    rw [BitVec.toNat_ofNat]
    exact Nat.mod_eq_of_lt (by omega)
  refine ⟨?_, fun h => ⟨?_, fun j hj => ?_⟩⟩
  · rintro rfl
    have : ctz (0 : MWord).toNat 1024 0 = 1024 := by
      by_contra hne
      have hone := hat (by omega)
      rw [BitVec.testBit_toNat] at hone
      exact Bool.false_ne_true (BitVec.getLsbD_zero.symm.trans hone)
    rw [this]
    rfl
  · rw [hr]
    refine hat ?_
    by_contra hge
    refine h (BitVec.eq_of_getLsbD_eq fun j hj => ?_)
    rw [← BitVec.testBit_toNat, hbelow j (Nat.zero_le j) (by omega)]
    simp
  · exact hbelow j (Nat.zero_le j) (hr ▸ hj)

theorem toNat_ofNat_popcount_mask (v : MWord) : (BitVec.ofNat 64 (popcount v.toNat 1024)).toNat = trueBelow v 1024 := by
  have hle : trueBelow v 1024 ≤ 1024 := (List.length_filter_le ..).trans_eq List.length_range
  rw [popcount_eq_length, BitVec.toNat_ofNat]
  exact Nat.mod_eq_of_lt (Nat.lt_of_le_of_lt hle (by decide))

theorem ofNat_lane_mask (v : MWord) (k : Nat) : BitVec.ofNat 64 (lane v.toNat 64 k) = v.extractLsb' (64 * k) 64 :=
  BitVec.eq_of_toNat_eq (by simp [lane, Nat.shiftRight_eq_div_pow])

theorem vectorToScalarMovesWriteRegister : Claims.VectorToScalarMovesWriteRegister := by
  intro i s la d p h ha
  have written {v : Word} {word : BitVec 32}
      (he : exec i s = .next (s.vec la ⟨[d], [], []⟩ word (s.num .rne) (fun c => c.writeX d v))) (hp : p v) :
      ∃ t, exec i s = .next t ∧ s.computed t la ⟨[d], [], []⟩ s.stream {} ∧ (d ≠ 0 → p (t.cx.rawX d)) := by
    obtain ⟨t, ht, hc, hv⟩ := scalar_written he ha
    exact ⟨t, ht, hc, fun h0 => hv h0 ▸ hp⟩
  unfold toScalarForm at h
  split at h <;> cases h
  case h_1 ty va =>
    refine written (v := if 5 ≤ ty.toNat
      then wordOfInt (signed (tyBits ty) (vlane (s.cx.readV va) (tyBits ty) ((s.x d).toNat % lanesOf (tyBits ty))))
      else BitVec.ofNat 64 (vlane (s.cx.readV va) (tyBits ty) ((s.x d).toNat % lanesOf (tyBits ty)))) rfl ?_
    rw [← elemAt_toNat, signed_toNat, BitVec.ofNat_toNat]
    rfl
  case h_2 va vd => exact written (v := BitVec.ofNat 64 (popcount (s.cx.readM va).toNat 1024)) rfl (toNat_ofNat_popcount_mask _)
  case h_3 va vd => exact written (v := BitVec.ofNat 64 (ctz (s.cx.readM va).toNat 1024 0)) rfl (ofNat_ctz_mask _)
  case h_4 vb va vd =>
    exact written (v := BitVec.ofNat 64 (lane (s.cx.readM va).toNat 64 ((s.x (lowReg vb)).toNat % 16))) rfl (ofNat_lane_mask ..)

/-- Settles O41, by the compares, the mask operations and the moves to scalar registers. -/
theorem masksAndScalarsAreWritten : Obligations.MasksAndScalarsAreWritten :=
  ⟨comparesWriteMasks, maskOperationsWriteMasks, vectorToScalarMovesWriteRegister⟩

end Sys2Proof.Laws.Masks
end

section
/-!
SUPPORT. Reductions: integer ones are exact (R182), floating-point ones round once (R182, R183).
-/

namespace Sys2Proof.Laws.Reductions

open Sys2Proof.Machine Sys2Proof.Claims Sys2Proof.Laws.Lanes Sys2Proof.Laws.FloatLanes

/-! ## The course of a reduction (R182) -/

theorem reduce_completes {f : ReduceForm} {i : Instr} {s : State} {word : BitVec 32} {n : Machine.Num}
    (he : exec i s = s.reduceTo f.la f.vd word n f.value f.bytes) (hstream : n.stream = f.stream) (hflags : n.flags = f.flags) :
    f.completes i s := by
  intro ha
  obtain ⟨t, ht, hc, hv⟩ := vector_written he ha
  refine ⟨t, ht, hflags ▸ hstream ▸ hc, fun j hj => ?_⟩
  rw [hv, getLsbD_spliced _ _ _ hj]

theorem elemTy_of_int {ty : BitVec 3} (h : 5 ≤ ty.toNat) : elemTy ty = .int (tyBits ty) := by revert ty; decide

theorem elemTy_of_float {ty : BitVec 3} (h : ty.toNat < 5) : elemTy ty = .flt (floatOf ty) := by revert ty; decide

/-! ## Integer reductions -/

theorem sumIntLanes_eq (f : Nat → Int) (mask : Nat → Bool) (n : Nat) :
    sumIntLanes f mask n = (((List.range n).filter mask).map f).sum := by
  induction n with
  | zero => rfl
  | succ n ih =>
    rw [sumIntLanes, ih, List.range_succ, List.filter_append, List.map_append, List.sum_append]
    cases h : mask n <;> simp [h]

/-- VRSUM and VDOT on integers: the sum of the true lanes' terms. -/
theorem sumReduce_int {s : State} {ty : BitVec 3} (hty : 5 ≤ ty.toNat) (la : BitVec 4) (m : BitVec 3) (vb va vd : BitVec 4) (word : BitVec 32)
    (dot : Bool) : s.sumReduce la ty m vb va vd word dot = s.reduceTo la vd word (s.num .rne) (BitVec.ofInt 64 ((trueOf s ty m).map (fun k =>
      if dot then (laneAt s va ty k).toInt * (laneAt s vb ty k).toInt else (laneAt s va ty k).toInt)).sum).toNat 8 := by
  have hlane (v : BitVec 4) (k : Nat) : signed (tyBits ty) (vlane (s.cx.readV v) (tyBits ty) k) = (laneAt s v ty k).toInt := by
    rw [← elemAt_toNat, signed_toNat]; rfl
  unfold State.sumReduce
  rw [elemTy_of_int hty]
  simp only [ElemTy.bits, hlane, sumIntLanes_eq]
  rfl

/-- The bitwise reductions, whose combination of numbers is one of bit patterns. -/
theorem bitReduce_eq {s : State} {la : BitVec 4} {ty m : BitVec 3} {va vd : BitVec 4} {word : BitVec 32} {start : Nat → Nat}
    {f : Nat → Nat → Nat} {init : BitVec (tyBits ty)} {g : BitVec (tyBits ty) → BitVec (tyBits ty) → BitVec (tyBits ty)}
    (hstart : start (tyBits ty) = init.toNat) (hf : ∀ a b, f a.toNat b.toNat = (g a b).toNat) :
    s.bitReduce la ty m va vd word start f =
      s.reduceTo la vd word (s.num .rne) ((trueOf s ty m).foldl (fun r k => g r (laneAt s va ty k)) init).toNat (tyBits ty / 8) := by
  rw [State.bitReduce, hstart]
  simp only [← elemAt_toNat]
  rw [List.foldl_hom BitVec.toNat (g₁ := fun r k => g r (laneAt s va ty k)) (fun r k => hf r (laneAt s va ty k))]
  rfl

theorem integerReductionsAreExact : Claims.IntegerReductionsAreExact := by
  intro i s f h
  unfold integerReduceForm at h
  split at h
  case h_1 la ty m va vd =>
    split at h <;> cases h
    exact reduce_completes (sumReduce_int ‹_› la m 0 va vd _ false) rfl rfl
  case h_2 la ty m vb va vd =>
    split at h <;> cases h
    exact reduce_completes (sumReduce_int ‹_› la m vb va vd _ true) rfl rfl
  case h_3 la ty m va vd =>
    cases h
    exact reduce_completes (bitReduce_eq (start := fun n => 2 ^ n - 1) (f := fun a b => a &&& b) (by simp) (fun _ _ => by simp)) rfl rfl
  case h_4 la ty m va vd =>
    cases h
    exact reduce_completes (bitReduce_eq (start := fun _ => 0) (f := fun a b => a ||| b) (by simp) (fun _ _ => by simp)) rfl rfl
  case h_5 la ty m va vd =>
    cases h
    exact reduce_completes (bitReduce_eq (start := fun _ => 0) (f := fun a b => a ^^^ b) (by simp) (fun _ _ => by simp)) rfl rfl
  case h_6 => cases h

/-! ## Floating-point sums (R183) -/

theorem sumLanes_eq (f : Nat → Val × Bool) (mask : Nat → Bool) (n : Nat) :
    sumLanes f mask n = ((List.range n).filter mask).foldl (fun q k => q.add (f k).1 (f k).2) {} := by
  induction n with
  | zero => rfl
  | succ n ih =>
    rw [sumLanes, List.range_succ, List.filter_append, List.foldl_append, ← ih]
    cases h : mask n <;> simp [h]

/-- VRSUM and VDOT on floats: the sum of the true lanes' terms, rounded once. -/
theorem sumForm_completes {i : Instr} {s : State} {ty : BitVec 3} (hty : ty.toNat < 5) {la : BitVec 4} {m : BitVec 3} {vb va vd : BitVec 4}
    {word : BitVec 32} {dot : Bool} (he : exec i s = s.sumReduce la ty m vb va vd word dot) :
    (sumForm s la ty m vd (fun k => if dot then mulExact (floatAt s (floatOf ty) va k) (floatAt s (floatOf ty) vb k)
      else (floatAt s (floatOf ty) va k, false))).completes i s := by
  have hlane (v : BitVec 4) (k : Nat) : decodeFloat (floatOf ty) (vlane (s.cx.readV v) (floatOf ty).bits k) = floatAt s (floatOf ty) v k := by
    rw [floatAt, elemAt_toNat]
  unfold State.sumReduce at he
  rw [elemTy_of_float hty] at he
  have htrue : (List.range (ElemTy.flt (floatOf ty)).lanes).filter (s.cx.readM m).getLsbD = trueOf s ty m := by
    rw [← elemTy_of_float hty]; rfl
  simp only [ElemTy.bits, hlane, sumLanes_eq, htrue] at he
  refine reduce_completes he rfl ?_
  rw [Num.raise, flags_z]
  exact empty_or _

/-! ## VRMAX and VRMIN -/

/-- The best code so far after one more lane that is no NaN. -/
def better (t : ElemTy) (greater : Bool) (o : Option Nat) (c : Nat) : Option Nat :=
  match o with
  | none => some c
  | some d => if cmpVal true (decodeElem t d) (decodeElem t c) = (if greater then .lt else .gt) then some c else some d

/-- The best lane so far: a code, or whether a NaN was met. -/
def standing (met : Bool) : Option Nat → Best
  | some c => .code c
  | none => if met then .nan else .none

theorem join_standing (t : ElemTy) (greater met : Bool) (o : Option Nat) (c : Nat) : (standing met o).join t greater c =
    standing true (if isNan (decodeElem t c) then o else better t greater o c) := by
  unfold Best.join
  cases isNan (decodeElem t c)
  · cases o with
    | none => cases met <;> rfl
    | some d => cases greater <;> cases h : cmpVal true (decodeElem t d) (decodeElem t c) <;> simp [standing, better, h]
  · cases o with
    | none => cases met <;> rfl
    | some d => rfl

theorem bestLanes_eq (t : ElemTy) (greater : Bool) (code : Nat → Nat) (mask : Nat → Bool) (n : Nat) :
    bestLanes t greater code mask n =
      (standing (!((List.range n).filter mask).isEmpty) ((((List.range n).filter mask).filter (fun k => !isNan (decodeElem t (code k)))).foldl
          (fun o k => better t greater o (code k)) none),
        ((List.range n).filter mask).any (fun k => sigNan (decodeElem t (code k)))) := by
  induction n with
  | zero => rfl
  | succ n ih =>
    rw [bestLanes, ih, List.range_succ, List.filter_append]
    cases hm : mask n
    · simp [hm]
    · dsimp only
      rw [join_standing]
      have hne (l : List Nat) : (l ++ [n]).isEmpty = false := by cases l <;> rfl
      cases hn : isNan (decodeElem t (code n)) <;> simp [hm, hn, hne]

theorem better_ne_none (t : ElemTy) (greater : Bool) (o : Option Nat) (c : Nat) : better t greater o c ≠ none := by
  unfold better
  cases o with
  | none => simp
  | some d => dsimp only; split_ifs <;> simp

theorem better_foldl_ne_none {t : ElemTy} {greater : Bool} {code : Nat → Nat} {l : List Nat} (hl : l ≠ []) :
    l.foldl (fun o k => better t greater o (code k)) none ≠ none := by
  rw [← List.dropLast_append_getLast hl, List.foldl_append, List.foldl_cons, List.foldl_nil]
  exact better_ne_none _ _ _ _

/-- The best of the true lanes that are no NaN. -/
def bestTrue (s : State) (ty m : BitVec 3) (va : BitVec 4) (greater : Bool) : Option Nat :=
  ((trueOf s ty m).filter (fun k => !isNan (valueAt s ty va k))).foldl
    (fun o k => better (elemTy ty) greater o (laneAt s va ty k).toNat) none

/-- An integer lane is no NaN, so that one of the true lanes is the best. -/
theorem bestTrue_int {s : State} {ty m : BitVec 3} {va : BitVec 4} {greater : Bool} (hty : 5 ≤ ty.toNat) (htrue : trueOf s ty m ≠ []) :
    bestTrue s ty m va greater ≠ none := by
  refine better_foldl_ne_none (code := fun k => (laneAt s va ty k).toNat) ?_
  have hgood (k : Nat) : isNan (valueAt s ty va k) = false := by
    rw [valueAt, elemTy_of_int hty]; rfl
  simpa [hgood] using htrue

theorem bestReduce_eq (s : State) (la : BitVec 4) (ty m : BitVec 3) (va vd : BitVec 4) (word : BitVec 32) (greater : Bool) :
    s.bestReduce la ty m va vd word greater = s.reduceTo la vd word
      ((s.num .rne).raise { nv := (trueOf s ty m).any (fun k => sigNan (valueAt s ty va k)) })
      ((bestTrue s ty m va greater).getD (if trueOf s ty m = [] then emptyBest (elemTy ty) greater else (floatOf ty).nan))
      (tyBits ty / 8) := by
  have hcode : (fun k => vlane (s.cx.readV va) (elemTy ty).bits k) = fun k => (laneAt s va ty k).toNat :=
    funext fun k => (elemAt_toNat ..).symm
  have hbest := bestLanes_eq (elemTy ty) greater (fun k => (laneAt s va ty k).toNat) (s.cx.readM m).getLsbD (elemTy ty).lanes
  change bestLanes _ _ _ _ _ = (standing (!(trueOf s ty m).isEmpty) (bestTrue s ty m va greater),
    (trueOf s ty m).any (fun k => sigNan (valueAt s ty va k))) at hbest
  unfold State.bestReduce
  dsimp only
  rw [hcode, hbest]
  refine congrArg (fun v => s.reduceTo la vd word _ v _) ?_
  cases ho : bestTrue s ty m va greater with
  | some c => rfl
  | none =>
    by_cases htrue : trueOf s ty m = []
    · rw [htrue]
      rfl
    · have hfloat : ty.toNat < 5 := by
        by_contra hint
        exact bestTrue_int (by omega) htrue ho
      rw [List.isEmpty_eq_false_iff.mpr htrue, elemTy_of_float hfloat]
      simp [standing, htrue]

theorem bestForm_completes {i : Instr} {s : State} {la : BitVec 4} {ty m : BitVec 3} {va vd : BitVec 4} {word : BitVec 32} {greater : Bool}
    (he : exec i s = s.bestReduce la ty m va vd word greater) :
    (floatReduceForm.bestForm s la ty m va vd greater).completes i s :=
  reduce_completes (he.trans (bestReduce_eq ..)) rfl rfl

theorem floatReductionsRoundOnce : Claims.FloatReductionsRoundOnce := by
  intro i s f h
  unfold floatReduceForm at h
  split at h
  case h_1 la ty m va vd =>
    split at h <;> cases h
    exact sumForm_completes (vb := 0) (dot := false) ‹_› rfl
  case h_2 la ty m vb va vd =>
    split at h <;> cases h
    exact sumForm_completes (dot := true) ‹_› rfl
  case h_3 => cases h; exact bestForm_completes (greater := true) rfl
  case h_4 => cases h; exact bestForm_completes (greater := false) rfl
  case h_5 => cases h

/-- Settles O42, by the exact integer reductions and the floating-point ones that round once. -/
theorem reductionsRoundAtMostOnce : Obligations.ReductionsRoundAtMostOnce :=
  ⟨integerReductionsAreExact, floatReductionsRoundOnce⟩

end Sys2Proof.Laws.Reductions
end

section
/-!
SUPPORT. Widening (R155, R177), quantisation (R178 to R180), random numbers (R181) and sums into A64 (R184).
-/

namespace Sys2Proof.Laws.Quantisation

open Sys2Proof.Machine Sys2Proof.Claims Sys2Proof.Laws.Lanes Sys2Proof.Laws.FloatLanes

/-! ## A group of registers written (R155) -/

theorem withoutDests_none (w : Window) : withoutDests ⟨[], [], []⟩ w = w := by simp [withoutDests]

theorem withoutDests_snoc (l : List (BitVec 4)) (r : BitVec 4) (w : Window) :
    withoutDests ⟨[], [r], []⟩ (withoutDests ⟨[], l, []⟩ w) = withoutDests ⟨[], l ++ [r], []⟩ w := by
  simp [withoutDests, List.any_append, Bool.and_comm]

theorem groupRegs_succ (base : BitVec 4) (k : Nat) : groupRegs base (k + 1) = groupRegs base k ++ [base + BitVec.ofNat 4 k] := by
  simp [groupRegs, List.range_succ]

/-- The registers of a group are sixteen at most, each another. -/
theorem add_ofNat_ne (base : BitVec 4) {i j : Nat} (hi : i < j) (hj : j < 16) : base + BitVec.ofNat 4 i ≠ base + BitVec.ofNat 4 j := by
  bv_omega

theorem writeV_eq (c : Ctx) (r : BitVec 4) (v : VWord) :
    c.writeV r v = { c with v := (c.writeV r v).v, windows := c.windows.map (withoutDests ⟨[], [r], []⟩) } := by
  rw [← Ctx.writeV_windows c r v]; rfl

section group
variable (base : BitVec 4) (k bits : Nat) (codes : List Nat)

/-- A group written changes its registers, and what windows keep of them. -/
theorem writeGroup_eq (c : Ctx) (j : Nat) : writeGroup c base k bits codes j =
    { c with v := (writeGroup c base k bits codes j).v, windows := c.windows.map (withoutDests ⟨[], groupRegs base j, []⟩) } := by
  induction j with
  | zero =>
    have hid : (withoutDests ⟨[], groupRegs base 0, []⟩ : Window → Window) = id := funext withoutDests_none
    rw [hid, List.map_id]
    rfl
  | succ j ih =>
    have hwin : (c.windows.map (withoutDests ⟨[], groupRegs base j, []⟩)).map (withoutDests ⟨[], [base + BitVec.ofNat 4 j], []⟩) =
        c.windows.map (withoutDests ⟨[], groupRegs base (j + 1), []⟩) := by
      rw [List.map_map, groupRegs_succ]
      exact congrArg (fun g => c.windows.map g) (funext (withoutDests_snoc _ _))
    rw [← hwin]
    exact (writeV_eq ..).trans (congrArg (fun d : Ctx =>
      { d with v := (writeGroup c base k bits codes (j + 1)).v,
               windows := d.windows.map (withoutDests ⟨[], [base + BitVec.ofNat 4 j], []⟩) }) ih)

theorem rawV_writeGroup_other (c : Ctx) (j : Nat) {r : BitVec 4} (hr : r ∉ groupRegs base j) :
    (writeGroup c base k bits codes j).rawV r = c.rawV r := by
  induction j with
  | zero => rfl
  | succ j ih =>
    rw [groupRegs_succ, List.mem_append, List.mem_singleton, not_or] at hr
    rw [writeGroup, Ctx.rawV_writeV_other _ _ _ _ hr.2, ih hr.1]

theorem rawV_writeGroup_same (c : Ctx) {i j : Nat} (hi : i < j) (hj : j ≤ 16) :
    (writeGroup c base k bits codes j).rawV (base + BitVec.ofNat 4 i) =
      ofVlanes bits ((List.range (lanesOf bits)).map (fun q => codes.getD (q * k + i) 0)) := by
  induction j with
  | zero => exact absurd hi (Nat.not_lt_zero i)
  | succ j ih =>
    rw [writeGroup]
    rcases Nat.lt_succ_iff_lt_or_eq.mp hi with hlt | rfl
    · rw [Ctx.rawV_writeV_other _ _ _ _ (add_ofNat_ne base hlt (by omega)), ih hlt (by omega)]
    · exact Ctx.rawV_writeV_same ..

end group

/-! ## VWIDEN (R155, R177) -/

/-- A vector instruction that fills a group of registers. -/
theorem vec_group_computed {s : State} {la base : BitVec 4} {k : Nat} (h : s.admitsRing la ⟨[], groupRegs base k, []⟩) (word : BitVec 32)
    (n : Machine.Num) (bits : Nat) (codes : List Nat) :
    s.computed (s.vec la ⟨[], groupRegs base k, []⟩ word n (fun c => writeGroup c base k bits codes k)) la ⟨[], groupRegs base k, []⟩
      n.stream n.flags := by
  refine State.vec_computed h word n _ (fun c => ?_) (fun c r _ => ?_) (fun c r hr => rawV_writeGroup_other base k bits codes c k hr)
    (fun c r _ => ?_)
  all_goals rw [writeGroup_eq]
  · rfl
  · rfl

/-- A narrower type has whole groups of its lanes in a wider one. -/
theorem group_widths {tyd tys : BitVec 3} (h : tyBits tys < tyBits tyd) :
    0 < tyBits tyd / tyBits tys ∧ tyBits tyd / tyBits tys ≤ 16 ∧ lanesOf (tyBits tys) = lanesOf (tyBits tyd) * (tyBits tyd / tyBits tys) := by
  revert tyd tys; decide

/-- An admitted vector instruction leaves in its registers what its write leaves there. -/
theorem rawV_vec {s : State} {la : BitVec 4} {d : Dests} (h : s.admitsRing la d) (word : BitVec 32) (n : Machine.Num) (w : Ctx → Ctx)
    (r : BitVec 4) : (s.vec la d word n w).cx.rawV r = (w (s.cx.mergeFlags n.flags)).rawV r := by
  rw [State.vec, State.ringGate_admitted h]
  rfl

/-- What VWIDEN computes: each lane converted once. -/
def widenForm (s : State) (la : BitVec 4) (m rm : BitVec 2) (tyd tys : BitVec 3) (va vd : BitVec 4) : DrawForm :=
  ⟨none, la, tyBits tys, lanesOf (tyBits tys), m.zeroExtend 3, vd, s.cx.roundMode rm, fun i z =>
    roundVal (elemTy tyd) (s.cx.roundMode rm) z (valueAt s tys va i)⟩

section clauses
variable {s : State} {la : BitVec 4} {m rm : BitVec 2} {tyd tys : BitVec 3} {va vd : BitVec 4}

theorem vwiden_fills (hty : tyBits tys < tyBits tyd) (ha : s.admitsRing la ⟨[], groupRegs vd (tyBits tyd / tyBits tys), []⟩) :
    let k := tyBits tyd / tyBits tys
    let f := widenForm s la m rm tyd tys va vd
    ∃ t, exec (.vwiden la m rm tyd tys va vd) s = .next t ∧
      s.computed t la ⟨[], groupRegs vd k, []⟩ (drawn (s.num f.mode) f.count).stream (f.flags s) ∧
      ∀ i, i < lanesOf (tyBits tys) → elemAt (t.cx.rawV (vd + BitVec.ofNat 4 (i % k))) (tyBits tyd) (i / k) =
        if (s.cx.readM f.m).getLsbD i then BitVec.ofNat (tyBits tyd) (f.result s i).1
        else elemAt (s.cx.rawV (vd + BitVec.ofNat 4 (i % k))) (tyBits tyd) (i / k) := by
  intro k f
  obtain ⟨hpos, hle, hlanes⟩ := group_widths hty
  have he : exec (.vwiden la m rm tyd tys va vd) s = s.widen la (m.zeroExtend 3) rm tyd tys va vd
    (recordWord (wvtWord 0x22 vd.toNat va.toNat tys.toNat tyd.toNat rm.toNat m.toNat 1 la.toNat)) := rfl
  simp only [State.widen, decodeElem_vlane, goLanes_eq] at he
  refine ⟨_, he, ?_, fun i hi => ?_⟩
  · rw [flags_eq_laneFlags]
    exact vec_group_computed ha ..
  · have hq : i / k < lanesOf (tyBits tyd) := Nat.div_lt_of_lt_mul (by rw [Nat.mul_comm]; exact hlanes ▸ hi)
    rw [rawV_vec ha, rawV_writeGroup_same _ _ _ _ _ (Nat.mod_lt i hpos) hle, elemAt_ofVlanes hq, getD_map_range _ hq, Nat.div_add_mod',
      getD_map_range _ hi, Nat.zero_add]
    by_cases hm : (s.cx.readM (m.zeroExtend 3)).getLsbD i = true
    · rw [if_pos hm]
      exact (if_pos hm).symm
    · rw [if_neg hm, ofNat_vlane]
      exact (if_neg hm).symm

/-! ## VQMAX and VQNT (R178 to R180) -/

theorem scaleExp_eq (v : VWord) (need : Int) :
    (scaleExp v need : Int) = min 63 (max 0 (max need (elemAt v 32 0).toInt)) := by
  rw [scaleExp, ← elemAt_toNat, signed_toNat]
  omega

theorem scaleExp_lt (v : VWord) (need : Int) : scaleExp v need < 64 := by
  have := scaleExp_eq v need
  omega

theorem vqmax_writes (ha : s.admitsRing la ⟨[], [vd], []⟩) :
    let top := maxMagnitude (valueAt s tys va) (fun k => (s.cx.readM (m.zeroExtend 3)).getLsbD k) 124
    ∃ t, exec (.vqmax la m tyd tys va vd) s = .next t ∧ s.computed t la ⟨[], [vd], []⟩ s.stream { nv := top.2 } ∧
      (∀ j, 32 ≤ j → j < 4096 → (t.cx.rawV vd).getLsbD j = (s.cx.rawV vd).getLsbD j) ∧
      ((elemAt (t.cx.rawV vd) 32 0).toNat : Int) =
        min 63 (max 0 (max (scaleNeed tyd.toNat top.1) (elemAt (s.cx.readV vd) 32 0).toInt)) := by
  intro top
  have he : exec (.vqmax la m tyd tys va vd) s = s.quantMax la (m.zeroExtend 3) tyd.toNat tys va vd
    (recordWord (wvtWord 0x22 vd.toNat va.toNat tys.toNat tyd.toNat 0 m.toNat 4 la.toNat)) := rfl
  simp only [State.quantMax, decodeElem_vlane] at he
  obtain ⟨t, ht, hc, hv⟩ := vector_written he ha
  refine ⟨t, ht, hc, fun j hj hlt => ?_, ?_⟩
  · rw [hv, getLsbD_spliced _ _ _ hlt, if_neg (by omega)]
  · have hlt := scaleExp_lt (s.cx.readV vd) (scaleNeed tyd.toNat top.1)
    rw [hv, elemAt_spliced _ _ (by decide) (by decide), ← scaleExp_eq, lane, BitVec.toNat_ofNat]
    simp only [Nat.mul_zero, Nat.pow_zero, Nat.div_one]
    rw [Nat.mod_mod, Nat.mod_eq_of_lt (hlt.trans (by decide))]

/-- What VQNT computes: each lane scaled and rounded into its 4-bit kind. -/
def quantForm (s : State) (la : BitVec 4) (m rm : BitVec 2) (tyd tys : BitVec 3) (va vd : BitVec 4) : DrawForm :=
  ⟨none, la, 4, 124, m.zeroExtend 3, vd, s.cx.roundMode rm, fun k z =>
    roundVal4 tyd.toNat (s.cx.roundMode rm) z (scaleVal (valueAt s tys va k) (32 - min 63 (max 0 (elemAt (s.cx.readV vd) 32 0).toInt)))⟩

/-- A block: its format, the byte of its kind and scale, and its codes. -/
theorem lane_block {kind : Nat} (hkind : kind < 256) (codes : List Nat) :
    lane (4 + kind * 256 + ofLanes 4 codes * 65536) 8 0 = 4 ∧ lane (4 + kind * 256 + ofLanes 4 codes * 65536) 8 1 = kind ∧
      ∀ k, lane (4 + kind * 256 + ofLanes 4 codes * 65536) 4 (4 + k) = codes.getD k 0 % 2 ^ 4 := by
  refine ⟨by simp only [lane]; omega, by simp only [lane]; omega, fun k => ?_⟩
  rw [← lane_ofLanes, lane, lane, Nat.mul_add, Nat.pow_add, ← Nat.div_div_eq_div_mul]
  congr 2
  omega

theorem vqnt_writes (ha : s.admitsRing la ⟨[], [vd], []⟩) (hkind : tyd.toNat < 4) :
    let e := min 63 (max 0 (elemAt (s.cx.readV vd) 32 0).toInt)
    let f := quantForm s la m rm tyd tys va vd
    ∃ t, exec (.vqnt la m rm tyd tys va vd) s = .next t ∧
      s.computed t la ⟨[], [vd], []⟩ (drawn (s.num f.mode) 124).stream (f.flags s) ∧
      (∀ j, 512 ≤ j → j < 4096 → (t.cx.rawV vd).getLsbD j = (s.cx.rawV vd).getLsbD j) ∧
      elemAt (t.cx.rawV vd) 8 0 = 4 ∧ (elemAt (t.cx.rawV vd) 8 1).toNat = tyd.toNat * 64 + e.toNat ∧
      ∀ k, k < 124 → elemAt (t.cx.rawV vd) 4 (4 + k) =
        if (s.cx.readM f.m).getLsbD k then BitVec.ofNat 4 (f.result s k).1 else 0 := by
  intro e f
  have hscale : (scaleExp (s.cx.readV vd) 0 : Int) = min 63 (max 0 (elemAt (s.cx.readV vd) 32 0).toInt) := by
    rw [scaleExp_eq]
    omega
  have hlt := scaleExp_lt (s.cx.readV vd) 0
  have he : exec (.vqnt la m rm tyd tys va vd) s = s.quantise la (m.zeroExtend 3) rm tyd.toNat tys va vd
    (recordWord (wvtWord 0x22 vd.toNat va.toNat tys.toNat tyd.toNat rm.toNat m.toNat 3 la.toNat)) := rfl
  simp only [State.quantise, decodeElem_vlane, goLanes_eq, hscale] at he
  obtain ⟨t, ht, hc, hv⟩ := vector_written he ha
  refine ⟨t, ht, ?_, fun j hj hlt => ?_, ?_⟩
  · rw [flags_eq_laneFlags]
    dsimp only [f, quantForm] at hc ⊢
    exact hc
  · rw [hv, getLsbD_spliced _ _ _ hlt, if_neg (by omega)]
  · rw [hv]
    have hblock := lane_block (kind := tyd.toNat * 64 + scaleExp (s.cx.readV vd) 0) (by omega)
    refine ⟨?_, ?_, fun k hk => ?_⟩
    · rw [elemAt_spliced _ _ (by decide) (by decide), (hblock _).1]
      rfl
    · rw [elemAt_spliced _ _ (by decide) (by decide), (hblock _).2.1, BitVec.toNat_ofNat]
      change _ = tyd.toNat * 64 + (min 63 (max 0 (elemAt (s.cx.readV vd) 32 0).toInt)).toNat
      rw [← hscale, Int.toNat_natCast]
      exact Nat.mod_eq_of_lt (by omega)
    · rw [elemAt_spliced _ _ (by omega) (by omega), (hblock _).2.2, ofNat_mod_pow, getD_map_range _ hk, Nat.zero_add]
      by_cases hm : (s.cx.readM (m.zeroExtend 3)).getLsbD k = true
      · rw [if_pos hm]
        exact (if_pos hm).symm
      · rw [if_neg hm]
        exact (if_neg hm).symm

/-! ## VRNG (R181) -/

theorem drawLanes_eq (put : Word → Nat) (old : Nat → Nat) (mask : Nat → Bool) (mode : Mode) (g : Flags) (k i : Nat) (st : Stream) :
    drawLanes put old mask k i ⟨mode, st, g⟩ =
      ((List.range k).map (fun j => if mask (i + j) then put (draw (drawn ⟨.rsto, st, g⟩ j).stream).1 else old (i + j)),
        ⟨mode, (drawn ⟨.rsto, st, g⟩ k).stream, g⟩) := by
  induction k generalizing i st with
  | zero => rfl
  | succ k ih =>
    have hadd (j : Nat) : i + 1 + j = i + (j + 1) := by omega
    have hnext (j : Nat) : drawn ⟨.rsto, (draw st).2, g⟩ j = drawn ⟨.rsto, st, g⟩ (j + 1) := drawn_z ⟨.rsto, st, g⟩ j
    rw [drawLanes, List.range_succ_eq_map]
    simp only [Num.draw, ih, hnext, hadd, List.map_cons, List.map_map]
    rfl

theorem vrng_writes (ha : s.admitsRing la ⟨[], [vd], []⟩) :
    ∃ t, exec (.vrng la m tyd vd) s = .next t ∧
      s.computed t la ⟨[], [vd], []⟩ (drawn (s.num .rsto) (lanesOf (tyBits tyd))).stream {} ∧
      ∀ k, k < lanesOf (tyBits tyd) → elemAt (t.cx.rawV vd) (tyBits tyd) k =
        if (s.cx.readM (m.zeroExtend 3)).getLsbD k
        then BitVec.ofNat (tyBits tyd) (randomElem tyd (draw (drawn (s.num .rsto) k).stream).1)
        else elemAt (s.cx.rawV vd) (tyBits tyd) k := by
  have he : exec (.vrng la m tyd vd) s = s.random la (m.zeroExtend 3) tyd vd
    (recordWord (wvtWord 0x22 vd.toNat 0 0 tyd.toNat 0 m.toNat 5 la.toNat)) := rfl
  simp only [State.random, State.num, drawLanes_eq] at he
  obtain ⟨t, ht, hc, hv⟩ := vector_written he ha
  refine ⟨t, ht, hc, fun k hk => ?_⟩
  rw [hv, elemAt_ofVlanes hk, getD_map_range _ hk, Nat.zero_add]
  split
  · rfl
  · exact ofNat_vlane ..

/-! ## VRSUMA (R184) -/

theorem stream_windowLanes (f : Nat) (at_ : Nat → Val) (mask : Nat → Bool) (k i : Nat) (q : Int) (n : Machine.Num) :
    (windowLanes f at_ mask k i q n).2.stream = (drawn n k).stream := by
  induction k generalizing i q n with
  | zero => rfl
  | succ k ih =>
    rw [windowLanes]
    dsimp only
    split
    · rw [ih, drawn_raise, ← drawn_z]
      rfl
    · rw [ih, ← drawn_z]

theorem signed_low (v : VWord) : signed 64 v.toNat = (v.extractLsb' 0 64).toInt := by
  rw [← signed_toNat, signed, signed, BitVec.extractLsb'_toNat, Nat.shiftRight_zero, Nat.mod_mod]

theorem vrsuma_writes {ty m : BitVec 3} {vb : BitVec 4} (ha : s.admitsRing la ⟨[], [vd], []⟩) :
    let r := windowLanes (min 62 ((s.cx.readV vb).toNat % 64)) (valueAt s ty va) (s.cx.readM m).getLsbD (lanesOf (tyBits ty)) 0
      ((s.cx.readV vd).extractLsb' 0 64).toInt (s.num (modeOf s.cx.frm))
    ∃ t, exec (.vrsuma la ty m vb va vd) s = .next t ∧
      s.computed t la ⟨[], [vd], []⟩ (drawn (s.num (modeOf s.cx.frm)) (lanesOf (tyBits ty))).stream r.2.flags ∧
      elemAt (t.cx.rawV vd) 64 0 = BitVec.ofInt 64 r.1 ∧
      ∀ j, 64 ≤ j → j < 4096 → (t.cx.rawV vd).getLsbD j = (s.cx.rawV vd).getLsbD j := by
  intro r
  have he : exec (.vrsuma la ty m vb va vd) s = s.windowReduce la ty m vb va vd
    (recordWord (wvWord 0x23 vd.toNat va.toNat vb.toNat m.toNat ty.toNat 7 la.toNat)) := rfl
  simp only [State.windowReduce, bits_elemTy, decodeElem_vlane, signed_low] at he
  obtain ⟨t, ht, hc, hv⟩ := vector_written he ha
  refine ⟨t, ht, ?_, ?_, fun j hj hlt => ?_⟩
  · rw [← stream_windowLanes (min 62 ((s.cx.readV vb).toNat % 64)) (valueAt s ty va) (s.cx.readM m).getLsbD _ 0
      ((s.cx.readV vd).extractLsb' 0 64).toInt]
    exact hc
  · rw [hv, elemAt_spliced _ _ (by decide) (by decide), lane, Nat.mul_zero, Nat.pow_zero, Nat.div_one,
      ofNat_mod_pow, ofNat_toNat_self]
    rfl
  · rw [hv, getLsbD_spliced _ _ _ hlt, if_neg (by omega)]

end clauses

/-- Settles O10, instruction by instruction. -/
theorem wideningQuantisationAndRandomNumbersComplete : Obligations.WideningQuantisationAndRandomNumbersComplete :=
  ⟨fun _ _ _ _ _ _ _ _ hty ha => vwiden_fills hty ha, fun _ _ _ _ _ _ _ ha => vqmax_writes ha,
    fun _ _ _ _ _ _ _ _ ha hkind => vqnt_writes ha hkind, fun _ _ _ _ _ ha => vrng_writes ha, fun _ _ _ _ _ _ _ ha => vrsuma_writes ha⟩

end Sys2Proof.Laws.Quantisation
end

section
/-!
SUPPORT. The issue of the memory-accessing vector instructions (R163 to R169, R188, R471, R474), and what a faulted one keeps (R154, R164,
R165, R168).
-/

namespace Sys2Proof.Laws.VectorAccesses

open Sys2Proof.Machine Sys2Proof.Claims Sys2Proof.Laws.Lanes

/-! ## Span accesses that fault (R164, R168) -/

theorem fault_of_ok {r : VRun} (h : r.ok = true) : r.fault = none := by
  rw [VRun.ok, Bool.and_eq_true] at h
  exact Option.isNone_iff_eq_none.mp h.1

theorem runLoad_faulted {s : State} {m : VMem} {old : VWord} (h : (s.runLoad m old).fault ≠ none) :
    (s.runLoad m old).s = s ∧ (s.runLoad m old).value = old := by
  unfold State.runLoad at h ⊢
  dsimp only at h ⊢
  split at h
  · exact ⟨rfl, rfl⟩
  · split at h
    · exact absurd (fault_of_ok ‹_›) h
    · rename_i hok
      rw [if_neg hok]
      exact ⟨rfl, rfl⟩

theorem runStore_faulted {s : State} {m : VMem} (h : (s.runStore m).fault ≠ none) : (s.runStore m).s = s := by
  unfold State.runStore at h ⊢
  dsimp only at h ⊢
  split at h
  · rfl
  · split at h
    · exact absurd (fault_of_ok ‹_›) h
    · rename_i hok
      rw [if_neg hok]

theorem runRawBlocks_faulted {s : State} {m : VMem} {old : VWord} (h : (s.runRawBlocks m old).fault ≠ none) :
    (s.runRawBlocks m old).s = s ∧ (s.runRawBlocks m old).value = old := by
  unfold State.runRawBlocks at h ⊢
  dsimp only at h ⊢
  split at h
  · exact absurd (fault_of_ok ‹_›) h
  · rename_i hok
    rw [if_neg hok]
    exact ⟨rfl, rfl⟩

theorem faultedSpanAccessesLeaveEverything : Claims.FaultedSpanAccessesLeaveEverything := by
  intro s m old limit hkind hfault
  unfold State.runMem at hfault ⊢
  cases hk : m.kind <;> rw [hk] at hkind hfault
  case vld | vlds => exact ⟨(runLoad_faulted hfault).1, fun _ => (runLoad_faulted hfault).2⟩
  case vst | vsts => exact ⟨runStore_faulted hfault, fun hd => absurd (by rw [VMem.dest, hk]) hd⟩
  case vldbc => exact ⟨(runRawBlocks_faulted hfault).1, fun _ => (runRawBlocks_faulted hfault).2⟩
  all_goals exact absurd hkind (by decide)

/-! ## Gathers (R165, R169) -/

/-- One access of a load: it stops, with its register as it was, or it delivers one value. -/
theorem load_cases (r : VRun) (va : Word) (n unit : Nat) (level : BitVec 2) (put : VWord → Nat → VWord) :
    ((r.load va n unit level put).ok = false ∧ (r.load va n unit level put).value = r.value ∧
      ((r.load va n unit level put).units = r.units ∨ (r.load va n unit level put).units = unit)) ∨
    ((∃ x, (r.load va n unit level put).value = put r.value x) ∧ (r.load va n unit level put).units = r.units) := by
  unfold VRun.load
  split
  · exact .inl ⟨(Bool.not_eq_true' _).mp ‹_›, rfl, .inl rfl⟩
  · split
    · exact .inl ⟨rfl, rfl, .inr rfl⟩
    · split
      · exact .inl ⟨by simp [VRun.ok], rfl, .inl rfl⟩
      · exact .inl ⟨rfl, rfl, .inr rfl⟩
      · exact .inr ⟨⟨_, rfl⟩, rfl⟩

theorem load_stopped {r : VRun} (h : r.ok = false) (va : Word) (n unit : Nat) (level : BitVec 2) (put : VWord → Nat → VWord) :
    r.load va n unit level put = r := by
  simp [VRun.load, h]

/-- A lane that another replaces keeps its element. -/
theorem elemAt_setLane_other (v : VWord) {bits i k : Nat} (x : Nat) (hk : bits * (k + 1) ≤ 4096) (h : k ≠ i) :
    elemAt (setLane v bits i x) bits k = elemAt v bits k := by
  apply BitVec.eq_of_getLsbD_eq
  intro j hj
  rw [Nat.mul_succ] at hk
  have hout : ¬ (bits * i ≤ bits * k + j ∧ bits * k + j < bits * i + bits) := by
    rintro ⟨h1, h2⟩
    rw [← Nat.mul_succ] at h2
    rcases Nat.lt_or_gt_of_ne h with hlt | hgt
    · have := Nat.mul_le_mul_left bits (Nat.succ_le_of_lt hlt)
      rw [Nat.mul_succ] at this
      omega
    · have := Nat.mul_le_mul_left bits (Nat.succ_le_of_lt hgt)
      omega
  rw [getLsbD_elemAt, getLsbD_elemAt, setLane, BitVec.getLsbD_ofNat, vlane,
    testBit_replaceLane _ (Nat.mod_lt x (Nat.two_pow_pos bits)), if_neg hout, BitVec.testBit_toNat, decide_eq_true (by omega : bits * k + j < 4096),
    Bool.true_and]

/-- A gather's step: lane i is loaded. -/
def gatherLane (m : VMem) (r : VRun) (i : Nat) : VRun :=
  r.load (m.addr i) m.size i m.level (fun v x => setLane v (tyBits m.ty) i x)

theorem gatherLane_cases (m : VMem) (r : VRun) (i : Nat) :
    ((gatherLane m r i).ok = false ∧ (gatherLane m r i).value = r.value ∧
      ((gatherLane m r i).units = r.units ∨ (gatherLane m r i).units = i)) ∨
    ((∃ x, (gatherLane m r i).value = setLane r.value (tyBits m.ty) i x) ∧ (gatherLane m r i).units = r.units) := load_cases ..

theorem foldl_gatherLane_stopped (m : VMem) {r : VRun} (h : r.ok = false) (l : List Nat) : l.foldl (gatherLane m) r = r := by
  induction l with
  | nil => rfl
  | cons i l ih => rw [List.foldl_cons, gatherLane, load_stopped h, ih]

/-- Where a gather stands after some lanes: at its stop, or at one of them. -/
theorem units_foldl_gatherLane (m : VMem) (l : List Nat) (r : VRun) :
    (l.foldl (gatherLane m) r).units = r.units ∨ (l.foldl (gatherLane m) r).units ∈ l := by
  induction l generalizing r with
  | nil => exact .inl rfl
  | cons i l ih =>
    rw [List.foldl_cons]
    rcases gatherLane_cases m r i with ⟨hok, -, hunits⟩ | ⟨-, hunits⟩
    · rw [foldl_gatherLane_stopped m hok]
      exact hunits.imp_right (fun h => by rw [h]; exact List.mem_cons_self ..)
    · rcases ih (gatherLane m r i) with h | h
      · exact .inl (h.trans hunits)
      · exact .inr (List.mem_cons_of_mem _ h)

/-- A gather in ascending order changes no lane that it does not name, and none from the unit on at which it stops. -/
theorem elemAt_foldl_gatherLane (m : VMem) {k : Nat} (hk : k < m.lanes) {l : List Nat} (hl : l.Pairwise (· < ·)) {r : VRun}
    (hr : ∀ i ∈ l, i < r.units) (h : k ∉ l ∨ (l.foldl (gatherLane m) r).units ≤ k) :
    elemAt (l.foldl (gatherLane m) r).value (tyBits m.ty) k = elemAt r.value (tyBits m.ty) k := by
  induction l generalizing r with
  | nil => rfl
  | cons i l ih =>
    obtain ⟨hlt, hl⟩ := List.pairwise_cons.mp hl
    rw [List.foldl_cons] at h ⊢
    rcases gatherLane_cases m r i with ⟨hok, hvalue, -⟩ | ⟨⟨x, hvalue⟩, hunits⟩
    · rw [foldl_gatherLane_stopped m hok]
      rw [hvalue]
    · have hne : k ≠ i := by
        rintro rfl
        have hbound := hr k (List.mem_cons_self ..)
        rcases h with h | h
        · exact h (List.mem_cons_self ..)
        · rcases units_foldl_gatherLane m l (gatherLane m r k) with he | he
          · omega
          · exact absurd (hlt _ he) (Nat.not_lt.mpr h)
      rw [ih hl (fun j hj => hunits ▸ hr j (List.mem_cons_of_mem _ hj)) (h.imp_left (fun hn hm => hn (List.mem_cons_of_mem _ hm)))]
      rw [hvalue, elemAt_setLane_other _ x (lane_end_le hk) hne]

theorem mem_span {m : VMem} {stop i : Nat} : i ∈ m.span stop ↔ (i < m.lanes ∧ m.start ≤ i ∧ m.mask.getLsbD i = true) ∧ i < stop := by
  simp [VMem.span, VMem.trueLanes, and_assoc, and_comm, and_left_comm]

theorem gatherKeepsElementsFromItsFaultOn : Claims.GatherKeepsElementsFromItsFaultOn := by
  intro s m old limit k hk h
  refine elemAt_foldl_gatherLane m hk ((List.pairwise_lt_range.filter _).filter _) (fun i hi => (mem_span.mp hi).2) ?_
  rcases h with h | h | h
  · exact .inl (fun hm => Bool.false_ne_true (h.symm.trans (mem_span.mp hm).1.2.2))
  · exact .inl (fun hm => absurd (mem_span.mp hm).1.2.1 (Nat.not_le.mpr h))
  · exact .inr h

/-- Settles O44, by the spans that check before they act and by the order of a gather's lanes. -/
theorem faultedVectorAccessesKeepWhatTheyMust : Obligations.FaultedVectorAccessesKeepWhatTheyMust :=
  ⟨faultedSpanAccessesLeaveEverything, gatherKeepsElementsFromItsFaultOn⟩

/-! ## The issue of an access (R163, R471, R474) -/

theorem spanForm_issue (s : State) (kind : VKind) (maj : Nat) (la : BitVec 4) (o : BitVec 1) (ty m : BitVec 3) (xb xa : Reg) (v : BitVec 4)
    {update span : Word} (h : update = s.x xa + span) : s.issueWvm kind maj la o ty m xb xa v update =
      s.issueMem (spanForm s kind maj la o ty m xb xa v span).1 (spanForm s kind maj la o ty m xb xa v span).2.1
        (spanForm s kind maj la o ty m xb xa v span).2.2 := by
  rw [h]; rfl

/-- Every memory-accessing vector instruction issues its access. -/
theorem exec_vectorAccess {i : Instr} {s : State} {la : BitVec 4} {m : VMem} {u : Option (Reg × Word)}
    (h : Claims.vectorAccess s i = some (la, m, u)) : exec i s = s.issueMem la m u := by
  have hspan (xb xa : Reg) (n : Nat) : s.afterSpan xb xa n = s.x xa + (s.x xb + BitVec.ofNat 64 n) := BitVec.add_assoc ..
  have hstride (ty : BitVec 3) (xb xa : Reg) :
      s.afterStride ty xb xa = s.x xa + BitVec.ofNat 64 (lanesOf (tyBits ty)) * s.x xb :=
    congrArg (s.x xa + ·) (BitVec.mul_comm ..)
  unfold Claims.vectorAccess at h
  split at h
  case h_1 | h_4 | h_5 | h_8 => cases h; exact spanForm_issue _ _ _ _ _ _ _ _ _ _ (hspan ..)
  case h_2 | h_6 => cases h; exact spanForm_issue _ _ _ _ _ _ _ _ _ _ (hstride ..)
  case h_3 | h_7 | h_9 | h_10 => cases h; rfl
  case h_11 => cases h

section issue
variable {s : State} {la : BitVec 4} {m : VMem} {u : Option (Reg × Word)}

/-- The context after the delivery of a run, with its ring entry (R471). -/
def delivered (m : VMem) (r : VRun) (c : Ctx) : Ctx :=
  (m.dest.foldl (fun (c : Ctx) d => c.writeV d r.value) c).ringTake c.pc m.word 0 2 0 none

/-- The context once it goes on: with units left the access is pending (R169). -/
def goneOn (s : State) (la : BitVec 4) (m : VMem) (r : VRun) (c : Ctx) : Ctx :=
  if r.fault.isNone && r.more then (delivered m r c).retirePend s.cx la ⟨[], m.dest, []⟩ (.vector (m.after r)) 0 m.word 0
  else (delivered m r c).retireLong s.cx la ⟨[], m.dest, []⟩

/-- The context after the issue of an access that ran, once the run settles (R28, R474). -/
def issued (s : State) (la : BitVec 4) (m : VMem) (r : VRun) (c : Ctx) : Ctx := (goneOn s la m r c).settleRun m r la.toNat c.depth

/-- An access that waits: its address register is updated, and it is pending (R474). -/
def waiting (s : State) (la : BitVec 4) (m : VMem) (u : Option (Reg × Word)) (c : Ctx) : Ctx :=
  ((u.elim c (fun u => c.writeX u.1 u.2)).ringTake c.pc m.word 0 1 0 none).retirePend s.cx la ⟨[], m.dest, []⟩ (.vector m) 0 m.word 0

theorem issueMem_runs (ha : s.admitsRing la ⟨u.toList.map (·.1), m.dest, []⟩) (hw : vectorsWait s.cx = false)
    (hheld : (runOf s m u).held = false) :
    s.issueMem la m u = .next ((runOf s m u).s.withCx (issued s la m (runOf s m u))) := by
  have hw : (s.cx.replay.isSome || s.cx.pends.any Pend.isVector) = false := hw
  have hheld : ((s.withCx (fun c => u.elim c (fun u => c.writeX u.1 u.2))).runMem m (s.cx.destValue m) s.cx.limit).held = false := hheld
  unfold State.issueMem
  dsimp only
  rw [State.ringGate_admitted ha, hw, hheld]
  rfl

theorem issueMem_waits (ha : s.admitsRing la ⟨u.toList.map (·.1), m.dest, []⟩) (hw : vectorsWait s.cx = true) :
    s.issueMem la m u = .next (s.withCx (waiting s la m u)) := by
  have hw : (s.cx.replay.isSome || s.cx.pends.any Pend.isVector) = true := hw
  unfold State.issueMem
  dsimp only
  rw [State.ringGate_admitted ha, hw]
  rfl

end issue

/-! ## What the delivery of a run and its settling leave -/

theorem foldl_writeV_eq (l : List (BitVec 4)) (v : VWord) (c : Ctx) : l.foldl (fun (c : Ctx) d => c.writeV d v) c =
    { c with v := (l.foldl (fun (c : Ctx) d => c.writeV d v) c).v, windows := (l.foldl (fun (c : Ctx) d => c.writeV d v) c).windows } := by
  induction l generalizing c with
  | nil => rfl
  | cons a l ih => exact ih (c.writeV a v)

theorem rawV_foldl_writeV (l : List (BitVec 4)) (v : VWord) (c : Ctx) (d : BitVec 4) :
    (l.foldl (fun (c : Ctx) d => c.writeV d v) c).rawV d = if d ∈ l then v else c.rawV d := by
  induction l generalizing c with
  | nil => rfl
  | cons a l ih =>
    rw [List.foldl_cons, ih]
    by_cases hd : d = a
    · subst hd
      simp [Ctx.rawV_writeV_same]
    · simp [Ctx.rawV_writeV_other _ _ _ _ hd, hd]

theorem settleRun_keeps (c : Ctx) (m : VMem) (r : VRun) (left depth : Nat) :
    (c.settleRun m r left depth).pc = c.pc ∧ (c.settleRun m r left depth).x = c.x ∧ (c.settleRun m r left depth).v = c.v ∧
      (c.settleRun m r left depth).m = c.m ∧ (c.settleRun m r left depth).pends = c.pends := by
  unfold Ctx.settleRun
  cases r.fault with
  | none => cases r.more <;> exact ⟨rfl, rfl, rfl, rfl, rfl⟩
  | some f => exact ⟨rfl, rfl, rfl, rfl, rfl⟩

theorem replay_settleRun {m : VMem} {r : VRun} (h : r.fault = none) (c : Ctx) (left depth : Nat) :
    (c.settleRun m r left depth).replay = c.replay := by
  unfold Ctx.settleRun
  rw [h]
  cases r.more <;> rfl

/-- A run that faults is kept in the replay slot, with its late fault due (R471, R474). -/
theorem settleRun_faulted {m : VMem} {r : VRun} {f : Nat × Nat × Word × Nat} (h : r.fault = some f) (c : Ctx) (left depth : Nat) :
    (c.settleRun m r left depth).replay = some (m.after r) ∧
      ∃ g, g ∈ (c.settleRun m r left depth).faults ∧ g.seq = m.seq ∧ g.left = left := by
  obtain ⟨code, sub, va, pa⟩ := f
  unfold Ctx.settleRun
  rw [h]
  refine ⟨rfl, _, List.mem_append_left _ (List.mem_append_right _ (List.mem_singleton_self _)), ?_⟩
  split <;> exact ⟨rfl, rfl⟩

theorem rawV_congr {c d : Ctx} (h : c.v = d.v) (r : BitVec 4) : c.rawV r = d.rawV r := by simp only [Ctx.rawV, h]

theorem delivered_keeps (m : VMem) (r : VRun) (c : Ctx) : (delivered m r c).pc = c.pc ∧ (delivered m r c).x = c.x ∧
    (delivered m r c).m = c.m ∧ (delivered m r c).replay = c.replay ∧
    ∀ d, (delivered m r c).rawV d = if d ∈ m.dest then r.value else c.rawV d := by
  have hv (d : BitVec 4) : (delivered m r c).rawV d = if d ∈ m.dest then r.value else c.rawV d := rawV_foldl_writeV ..
  refine ⟨?_, ?_, ?_, ?_, hv⟩ <;> rw [delivered, foldl_writeV_eq] <;> rfl

theorem goneOn_keeps (s : State) (la : BitVec 4) (m : VMem) (r : VRun) (c : Ctx) : (goneOn s la m r c).pc = (c.pc + 4) &&& ~~~1 ∧
    (goneOn s la m r c).x = c.x ∧ (goneOn s la m r c).m = c.m ∧ (goneOn s la m r c).replay = c.replay ∧
    ∀ d, (goneOn s la m r c).rawV d = if d ∈ m.dest then r.value else c.rawV d := by
  obtain ⟨hpc, hx, hm, hreplay, hv⟩ := delivered_keeps m r c
  unfold goneOn
  split
  · refine ⟨?_, (Ctx.retirePend_x ..).trans hx, (Ctx.retirePend_m ..).trans hm, (Ctx.retirePend_replay ..).trans hreplay,
      fun d => (rawV_congr (Ctx.retirePend_v ..) d).trans (hv d)⟩
    rw [Ctx.retirePend_pc, hpc]
    rfl
  · refine ⟨?_, (Ctx.retireLong_x ..).trans hx, (Ctx.retireLong_m ..).trans hm, (Ctx.retireLong_replay ..).trans hreplay,
      fun d => (rawV_congr (Ctx.retireLong_v ..) d).trans (hv d)⟩
    rw [Ctx.retireLong_pc, hpc]
    rfl

/-- A long form with units left is the last of the pending instructions. -/
theorem pends_goneOn {m : VMem} {r : VRun} (hf : r.fault = none) (hmore : r.more = true) (s : State) (la : BitVec 4) (c : Ctx) :
    ∃ p, (goneOn s la m r c).pends.getLast? = some p ∧ p.kind = .vector (m.after r) := by
  rw [goneOn, hf, hmore]
  exact ⟨_, List.getLast?_concat, rfl⟩

theorem vectorAccessesComplete : Claims.VectorAccessesComplete := by
  intro i s la m u h ha hw hheld
  generalize hr : runOf s m u = r at *
  have hrun : exec i s = .next (r.s.withCx (issued s la m r)) := by
    rw [exec_vectorAccess h, ← hr]
    exact issueMem_runs ha hw (hr ▸ hheld)
  obtain ⟨hpc, hx, hm, hreplay, hv⟩ := goneOn_keeps s la m r r.s.cx
  obtain ⟨spc, sx, sv, sm, spends⟩ := settleRun_keeps (goneOn s la m r r.s.cx) m r la.toNat r.s.cx.depth
  have hraw (d : BitVec 4) : (issued s la m r r.s.cx).rawV d = if d ∈ m.dest then r.value else r.s.cx.rawV d :=
    (rawV_congr sv d).trans (hv d)
  refine ⟨_, hrun, rfl, rfl, spc.trans hpc, sx.trans hx, sm.trans hm, fun d hd => (hraw d).trans (if_pos hd),
    fun d hd => (hraw d).trans (if_neg hd), ?_⟩
  cases hf : r.fault with
  | none =>
    refine ⟨(replay_settleRun hf (goneOn s la m r r.s.cx) la.toNat r.s.cx.depth).trans hreplay, fun hmore => ?_⟩
    obtain ⟨p, hp, hkind⟩ := pends_goneOn (m := m) hf hmore s la r.s.cx
    exact ⟨p, (congrArg List.getLast? spends).trans hp, hkind⟩
  | some f => exact settleRun_faulted hf (goneOn s la m r r.s.cx) la.toNat r.s.cx.depth

theorem v_waiting (s : State) (la : BitVec 4) (m : VMem) (u : Option (Reg × Word)) (c : Ctx) : (waiting s la m u c).v = c.v := by
  rw [waiting, Ctx.retirePend_v, Ctx.ringTake_v]
  cases u with
  | none => rfl
  | some u => exact Ctx.writeX_v ..

theorem vectorAccessesWaitForTheReplaySlot : Claims.VectorAccessesWaitForTheReplaySlot := by
  intro i s la m u h ha hw
  exact ⟨_, (exec_vectorAccess h).trans (issueMem_waits ha hw), rfl, v_waiting s la m u s.cx, _, List.getLast?_concat, rfl⟩

/-- Settles O43, by the one course that the ten instructions issue through. -/
theorem vectorAccessesIssue : Obligations.VectorAccessesIssue := ⟨vectorAccessesComplete, vectorAccessesWaitForTheReplaySlot⟩

end Sys2Proof.Laws.VectorAccesses
end

section
/-!
SUPPORT. Stores that reach their homes (R248, R300, R301, R321): serving requests, taking their answers, writing lines back and cleaning a core
change only memory where those stores go, and leave a core's lines with no more to send than they had.
-/

namespace Sys2Proof.Laws.Stores

open Sys2Proof.Machine Sys2Proof.Claims

/-! ## Bytes that no store changes -/

theorem read_write_other (m : List Cell) {a c : Nat} (b : Byte) (h : c ≠ a) : Memory.read (Memory.write m a b) c = Memory.read m c := by
  induction m with
  | nil => unfold Memory.write; split <;> simp [Memory.read, Ne.symm h]
  | cons e m ih =>
    obtain ⟨k, d⟩ := e
    unfold Memory.write
    split_ifs with hlt hb heq hb
    · rfl
    · exact if_neg (Ne.symm h)
    · subst heq; exact (if_neg (Ne.symm h)).symm
    · subst heq; exact (if_neg (Ne.symm h)).trans (if_neg (Ne.symm h)).symm
    · rw [Memory.read, Memory.read, ih]

theorem read_writeCells_other {l : List Cell} {c : Nat} (h : ∀ e, e ∈ l → e.1 ≠ c) (m : List Cell) :
    Memory.read (Memory.writeCells m l) c = Memory.read m c := by
  induction l generalizing m with
  | nil => rfl
  | cons e l ih =>
    obtain ⟨he, hl⟩ := List.forall_mem_cons.mp h
    exact (ih hl _).trans (read_write_other m e.2 (Ne.symm he))

/-- Cells none of which is one of some bytes of the own device's memory. -/
def misses (A : Nat → Prop) (l : List Cell) : Prop := ∀ c, c ∈ l → ¬ A (c.1 % 2 ^ 48)

/-- No request that is a happening stores to one of some bytes. -/
def passes (A : Nat → Prop) (i : Happening) : Prop := ∀ q, i = .homeRequest q → misses A q.cells

/-- No request on its way stores to one of some bytes. -/
def quiet (A : Nat → Prop) (s : State) : Prop := ∀ i, i ∈ s.inflight → passes A i

theorem misses_noStoreTo {s : State} {cores : List Nat} {l : List Cell}
    (h : ∀ a, noStoreTo s cores a → ∀ c, c ∈ l → c.1 % 2 ^ 48 ≠ a) : misses (noStoreTo s cores) l :=
  fun c hc ha => h _ ha c hc rfl

theorem quiet_noStoreTo (s : State) (cores : List Nat) : quiet (noStoreTo s cores) s := by
  rintro i hi q rfl
  exact misses_noStoreTo (fun _ ha c hc => ha.1 q hi c hc)

theorem unsentCells_miss_noStoreTo (s : State) {cores : List Nat} {k : Nat} (hk : k ∈ cores) : misses (noStoreTo s cores) (s.unsentCells k) :=
  misses_noStoreTo (fun _ ha c hc => ha.2 k hk c hc)

/-! ## What a core keeps -/

/-- A core has cached no more instructions, and each of its lines is one that it had, held by the same contexts, with no more to send. -/
structure Keeps (c d : Core) : Prop where
  icache : c.icache = [] → d.icache = []
  lines : ∀ l, l ∈ d.lines → ∃ k, k ∈ c.lines ∧ l.held = k.held ∧ ∀ e, e ∈ l.unsentCells → e ∈ k.unsentCells

theorem Keeps.refl (c : Core) : Keeps c c := ⟨id, fun l hl => ⟨l, hl, rfl, fun _ => id⟩⟩

theorem Keeps.trans {c d e : Core} (h1 : Keeps c d) (h2 : Keeps d e) : Keeps c e := by
  refine ⟨h2.icache ∘ h1.icache, fun l hl => ?_⟩
  obtain ⟨k, hk, hheld, hsent⟩ := h2.lines l hl
  obtain ⟨j, hj, hheld', hsent'⟩ := h1.lines k hk
  exact ⟨j, hj, hheld.trans hheld', fun x hx => hsent' x (hsent x hx)⟩

/-- A core whose lines are changed one by one, each to one with no more to send. -/
theorem keeps_map (c : Core) {f : Line → Line} (hf : ∀ l, (f l).held = l.held ∧ ∀ e, e ∈ (f l).unsentCells → e ∈ l.unsentCells) :
    Keeps c { c with lines := c.lines.map f } := by
  refine ⟨id, fun l hl => ?_⟩
  obtain ⟨k, hk, rfl⟩ := List.mem_map.mp hl
  exact ⟨k, hk, hf k⟩

/-- A core that is clean: no instruction cached, and no line that no context holds (R248). -/
def cleaned (c : Core) : Prop := c.icache = [] ∧ ∀ l, l ∈ c.lines → l.held ≠ 0

theorem Keeps.cleaned {c d : Core} (h : Keeps c d) (hc : cleaned c) : cleaned d := by
  refine ⟨h.icache hc.1, fun l hl => ?_⟩
  obtain ⟨k, hk, hheld, -⟩ := h.lines l hl
  exact hheld ▸ hc.2 k hk

theorem unsentCells_nil {l : Line} (h : l.unsent = 0) : l.unsentCells = [] := by simp [Line.unsentCells, h]

theorem mem_cleanLines {lines : List Line} {l : Line} (h : l ∈ cleanLines lines) :
    ∃ k, k ∈ lines ∧ k.held ≠ 0 ∧ l = { k with closed := k.closed ||| ~~~k.held } := by
  obtain ⟨k, hk, hl⟩ := List.mem_filterMap.mp h
  split at hl
  · cases hl
  · rename_i hheld; cases hl; exact ⟨k, hk, hheld, rfl⟩

theorem keeps_clean (c : Core) : Keeps c { c with lines := cleanLines c.lines, icache := [] } := by
  refine ⟨fun _ => rfl, fun l hl => ?_⟩
  obtain ⟨k, hk, -, rfl⟩ := mem_cleanLines hl
  exact ⟨k, hk, rfl, fun _ => id⟩

theorem cleaned_clean (c : Core) : cleaned { c with lines := cleanLines c.lines, icache := [] } := by
  refine ⟨rfl, fun l hl => ?_⟩
  obtain ⟨k, -, hheld, rfl⟩ := mem_cleanLines hl
  exact hheld

/-! ## The frame of a store on its way -/

/-- From s to t stores and their answers have moved, of which none goes to the bytes of A: launch queues and those bytes are the same, cores keep
what they had, and no request to those bytes has joined. -/
structure Settles (A : Nat → Prop) (s t : State) : Prop where
  queues : t.queues = s.queues
  cores : ∀ k, Keeps (tget s.cores k Core.reset) (tget t.cores k Core.reset)
  mem : ∀ a, A a → Memory.read t.mem a = Memory.read s.mem a
  quiet : quiet A s → quiet A t

section frame
variable {A : Nat → Prop}

/-- A change of none of those parts. -/
theorem settles_of_eq {s t : State} (hq : t.queues = s.queues) (hc : t.cores = s.cores) (hm : t.mem = s.mem) (hi : t.inflight = s.inflight) :
    Settles A s t :=
  ⟨hq, fun k => hc ▸ Keeps.refl _, fun _ _ => by rw [hm], fun h i hm => h i (hi ▸ hm)⟩

theorem Settles.refl (s : State) : Settles A s s := settles_of_eq rfl rfl rfl rfl

theorem Settles.trans {s t u : State} (h1 : Settles A s t) (h2 : Settles A t u) : Settles A s u :=
  ⟨h2.queues.trans h1.queues, fun k => (h1.cores k).trans (h2.cores k), fun a ha => (h2.mem a ha).trans (h1.mem a ha), h2.quiet ∘ h1.quiet⟩

/-- The same from the last change back, where the state between is read off the later one. -/
theorem Settles.comp {s t u : State} (h2 : Settles A t u) (h1 : Settles A s t) : Settles A s u := h1.trans h2

theorem settles_foldl {α : Type} {f : State → α → State} (hf : ∀ s x, Settles A s (f s x)) (l : List α) (s : State) :
    Settles A s (l.foldl f s) := by
  induction l generalizing s with
  | nil => exact .refl s
  | cons x l ih => exact (hf s x).trans (ih _)

theorem settles_elim {α : Type} (o : Option α) {s : State} {f : α → State} (hf : ∀ a, Settles A s (f a)) : Settles A s (o.elim s f) := by
  cases o with
  | none => exact .refl s
  | some a => exact hf a

/-- Cells that a core has left to send miss what those that it had miss. -/
theorem Settles.unsent {s t : State} (h : Settles A s t) {k : Nat} (hm : misses A (s.unsentCells k)) : misses A (t.unsentCells k) := by
  intro e he
  obtain ⟨l, hl, hel⟩ := List.mem_flatMap.mp he
  obtain ⟨j, hj, -, hsent⟩ := (h.cores k).lines l hl
  exact hm e (List.mem_flatMap.mpr ⟨j, hj, hsent e hel⟩)

/-- Happenings may leave. -/
theorem settles_inflight {s : State} {l : List Happening} (h : ∀ i, i ∈ l → i ∈ s.inflight) : Settles A s { s with inflight := l } :=
  ⟨rfl, fun _ => Keeps.refl _, fun _ _ => rfl, fun hq i hi => hq i (h i hi)⟩

theorem settles_send {i : Happening} (s : State) (h : passes A i) : Settles A s (s.send i) :=
  ⟨rfl, fun _ => Keeps.refl _, fun _ _ => rfl, fun hq j hj => by
    rcases List.mem_append.mp hj with hj | hj
    · exact hq j hj
    · rwa [List.mem_singleton.mp hj]⟩

theorem settles_sendFirst {i : Happening} (s : State) (h : passes A i) : Settles A s (s.sendFirst i) :=
  ⟨rfl, fun _ => Keeps.refl _, fun _ _ => rfl, fun hq j hj => by
    rcases List.mem_cons.mp hj with rfl | hj
    · exact h
    · exact hq j hj⟩

theorem settles_sendMany {i : Happening} (s : State) (h : passes A i) (n : Nat) : Settles A s (s.sendMany i n) := by
  induction n generalizing s with
  | zero => exact .refl s
  | succ n ih => exact (settles_send s h).trans (ih _)

theorem settles_emit (s : State) (x : Sent) : Settles A s (s.emit x) := settles_of_eq rfl rfl rfl rfl

theorem settles_countErrors (s : State) (level n : Nat) : Settles A s (s.countErrors level n) := settles_of_eq rfl rfl rfl rfl

theorem settles_withTask (s : State) (tid : Word) (f : Ctx → Ctx) : Settles A s (s.withTask tid f) :=
  settles_of_eq (State.withTask_queues ..) (State.withTask_cores ..) (State.withTask_mem ..) (State.withTask_inflight ..)

theorem settles_withCluster (s : State) (k : Nat) (f : Cluster → Cluster) : Settles A s (s.withCluster k f) := settles_of_eq rfl rfl rfl rfl

theorem settles_withCore (s : State) {k : Nat} {f : Core → Core} (hf : Keeps (tget s.cores k Core.reset) (f (tget s.cores k Core.reset))) :
    Settles A s (s.withCore k f) := by
  refine ⟨rfl, fun j => ?_, fun _ _ => rfl, id⟩
  by_cases h : j = k
  · subst h; exact (SystemRegisters.tget_tset_same s.cores j _ Core.reset).symm ▸ hf
  · exact (SystemRegisters.tget_tset_other s.cores _ Core.reset h).symm ▸ Keeps.refl _

/-! ## Stores at their homes -/

theorem settles_wakeTask (s : State) (key : Nat) (v : Word) (test : Pend → Bool) (c : Ctx) : Settles A s (s.wakeTask key v test c) := by
  unfold State.wakeTask
  exact (settles_withTask ..).trans (settles_sendMany _ nofun _)

theorem settles_wakeFar (s : State) (v : Word) (test : FarWait → Bool) : Settles A s (s.wakeFar v test) := by
  unfold State.wakeFar
  exact .comp (settles_foldl (fun _ _ => settles_emit ..) _ _) (settles_of_eq rfl rfl rfl rfl)

theorem settles_testEntries (s : State) (key : Nat) : Settles A s (s.testEntries key) := by
  unfold State.testEntries
  exact .comp (settles_wakeFar ..) (.comp (settles_foldl (fun _ _ => settles_wakeTask ..) _ _) (settles_of_eq rfl rfl rfl rfl))

theorem settles_accept (s : State) {cells : List Cell} (h : misses A cells) : Settles A s (s.accept cells) := by
  have hwrite (a : Nat) (ha : A a) :
      Memory.read (Memory.writeCells s.mem (cells.map (fun c => (c.1 % 2 ^ 48, c.2)))) a = Memory.read s.mem a := by
    refine read_writeCells_other (fun e he => ?_) _
    obtain ⟨c, hc, rfl⟩ := List.mem_map.mp he
    exact fun hca => h c hc (hca ▸ ha :)
  unfold State.accept
  exact .comp (settles_foldl (fun _ _ => settles_testEntries ..) _ _) ⟨rfl, fun _ => Keeps.refl _, hwrite, id⟩

theorem settles_farPut (s : State) (c : Cell) : Settles A s (s.farPut c) := settles_of_eq rfl rfl rfl rfl

theorem settles_farAccept (s : State) (cells : List Cell) : Settles A s (s.farAccept cells) := by
  unfold State.farAccept
  exact .comp (settles_foldl (fun _ _ => settles_testEntries ..) _ _) (settles_foldl settles_farPut _ _)

theorem settles_fillWay (s : State) (h pa : Nat) (ros : Bool) : Settles A s (s.fillWay h pa ros) := by
  unfold State.fillWay
  split
  · exact settles_withCluster ..
  · dsimp only
    split
    · exact .refl s
    · exact .comp (settles_withCluster ..) (settles_elim _ (fun _ => settles_of_eq rfl rfl rfl rfl))

theorem settles_acceptHome (s : State) (part pa : Nat) {cells : List Cell} (h : misses A cells) : Settles A s (s.acceptHome part pa cells) := by
  unfold State.acceptHome
  refine (settles_elim _ (fun k => ?_)).trans (settles_accept _ h)
  exact (settles_fillWay ..).trans (settles_withCluster ..)

theorem settles_ack (s : State) (q : HomeReq) (level : Nat) : Settles A s (s.ack q level) := settles_sendMany _ nofun _

theorem settles_refuseFrom (s : State) (q : HomeReq) (pa level n : Nat) : Settles A s (s.refuseFrom q pa level n) := by
  induction n generalizing s pa with
  | zero => exact .refl s
  | succ n ih => exact (settles_send s nofun).trans (ih _ _)

theorem settles_refuse (s : State) (q : HomeReq) (pa : Nat) : Settles A s (s.refuse q pa) := settles_refuseFrom ..

theorem settles_portWrite (s : State) (o : Origin) (pa off : Nat) (bytes : List Byte) : Settles A s (s.portWrite o pa off bytes) := by
  unfold State.portWrite
  dsimp only
  split_ifs
  · exact settles_sendFirst s nofun
  · exact settles_sendFirst s nofun
  · exact settles_sendFirst s nofun
  · exact settles_refuse ..

theorem settles_serveFar (s : State) (q : HomeReq) (dev pa : Nat) : Settles A s (s.serveFar q dev pa) := by
  unfold State.serveFar
  split_ifs
  · exact settles_refuse ..
  · exact ((settles_emit ..).trans (settles_farAccept ..)).trans (settles_ack ..)
  · exact (settles_emit ..).trans (settles_send _ nofun)

/-- A request that its home serves: accepted, refused, passed on, or put back where its bank is busy (R301, R305, R318). -/
theorem settles_serve (s : State) {q : HomeReq} (h : misses A q.cells) : Settles A s (s.serve q) := by
  unfold State.serve
  split
  · exact settles_ack ..
  · rename_i pa b r hcells
    clear hcells
    dsimp only
    split
    · exact settles_sendFirst s (fun q' hq' => by cases hq'; exact h)
    · split
      · split_ifs
        · exact settles_serveFar ..
        · exact (settles_acceptHome _ _ _ h).trans (settles_ack ..)
        · exact settles_refuse ..
      · split_ifs
        · exact (settles_accept _ h).trans (settles_ack ..)
        · exact settles_refuse ..
      · split_ifs
        · exact settles_sendFirst s nofun
        · exact settles_refuse ..
      · split_ifs
        · exact settles_portWrite ..
        · exact settles_refuse ..
      · split_ifs
        · exact (settles_withCore s ⟨id, (Keeps.refl _).lines⟩).trans (settles_ack ..)
        · exact settles_refuse ..
      · exact settles_serveFar ..
      · exact settles_refuse ..

theorem settles_serveAll (s : State) {l : List HomeReq} (h : ∀ q, q ∈ l → misses A q.cells) : Settles A s (s.serveAll l) := by
  induction l generalizing s with
  | nil => exact .refl s
  | cons q l ih =>
    obtain ⟨hq, hl⟩ := List.forall_mem_cons.mp h
    exact (settles_serve s hq).trans (ih _ hl)

/-- What splitting finds is in flight. -/
theorem mem_of_splitBefore (s : State) (first : HomeReq → Bool) (l : List Happening) :
    (∀ q, q ∈ (s.splitBefore first l).1 → .homeRequest q ∈ l) ∧ ∀ i, i ∈ (s.splitBefore first l).2 → i ∈ l := by
  induction l with
  | nil => exact ⟨fun _ h => absurd h List.not_mem_nil, fun _ h => absurd h List.not_mem_nil⟩
  | cons i l ih =>
    obtain ⟨ih1, ih2⟩ := ih
    unfold State.splitBefore
    dsimp only
    split
    · split
      · refine ⟨fun q hq => ?_, fun j hj => List.mem_cons_of_mem _ (ih2 j hj)⟩
        rcases List.mem_cons.mp hq with rfl | hq
        · exact List.mem_cons_self
        · exact List.mem_cons_of_mem _ (ih1 q hq)
      · exact ⟨fun q hq => List.mem_cons_of_mem _ (ih1 q hq), fun j hj => List.mem_cons.mpr ((List.mem_cons.mp hj).imp id (ih2 j))⟩
    · exact ⟨fun q hq => List.mem_cons_of_mem _ (ih1 q hq), fun j hj => List.mem_cons.mpr ((List.mem_cons.mp hj).imp id (ih2 j))⟩

theorem settles_drainFirst {s : State} (h : quiet A s) (first : HomeReq → Bool) : Settles A s (s.drainFirst first) := by
  obtain ⟨hfirst, hrest⟩ := mem_of_splitBefore s first s.inflight
  unfold State.drainFirst
  exact (settles_inflight hrest).trans (settles_serveAll _ (fun q hq => h _ (hfirst q hq) q rfl))

/-! ## Acknowledgements -/

theorem settles_paid (s : State) (tid : Word) : Settles A s (s.paid tid) := settles_withTask ..

theorem settles_faultQueue (s : State) (part : Nat) (r : Record) : Settles A s (s.faultQueue part r) := by
  unfold State.faultQueue
  dsimp only
  split_ifs <;> exact settles_of_eq rfl rfl rfl rfl

theorem settles_deliver (s : State) (tid : Word) (part code sub : Nat) (r : Record) (unack : Bool) :
    Settles A s (s.deliver tid part code sub r unack) := by
  unfold State.deliver
  split
  · exact settles_faultQueue ..
  · exact settles_withTask ..

theorem settles_acked (s : State) (tid : Word) (part : Nat) (refusal : Option Record) (level : Nat) :
    Settles A s (s.acked tid part refusal level) := by
  unfold State.acked
  cases refusal with
  | none => exact .comp (settles_paid ..) (settles_withTask ..)
  | some r => exact .comp (settles_deliver ..) (settles_withTask ..)

theorem settles_ackedAll (s : State) (l : List (Word × Nat × Option Record × Nat)) : Settles A s (s.ackedAll l) := by
  induction l generalizing s with
  | nil => exact .refl s
  | cons a l ih => exact (settles_acked ..).trans (ih _)

theorem settles_updateArrives (s : State) (n : Nat) (u : Update) : Settles A s (s.updateArrives n u) := by
  unfold State.updateArrives
  split
  · exact settles_paid ..
  · dsimp only
    split
    · exact settles_acked ..
    · exact (settles_acked ..).trans (settles_of_eq rfl rfl rfl rfl)

theorem settles_landAll (s : State) {l : List Happening} (h : ∀ i, i ∈ l → passes A i) : Settles A s (s.landAll l) := by
  induction l generalizing s with
  | nil => exact .refl s
  | cons i l ih =>
    obtain ⟨hi, hl⟩ := List.forall_mem_cons.mp h
    unfold State.landAll
    split
    · exact .refl s
    · rename_i q r heq
      obtain ⟨rfl, rfl⟩ := List.cons.inj heq
      exact (settles_serve s (hi q rfl)).trans (ih _ hl)
    · rename_i n u r heq
      obtain ⟨rfl, rfl⟩ := List.cons.inj heq
      exact (settles_updateArrives ..).trans (ih _ hl)
    · rename_i j r _ _ heq
      obtain ⟨rfl, rfl⟩ := List.cons.inj heq
      exact ih s hl

theorem settles_drain {s : State} (h : quiet A s) (core : Nat) : Settles A s (s.drain core) := by
  unfold State.drain
  exact (settles_inflight (fun _ hi => List.mem_of_mem_filter hi)).trans (settles_landAll _ (fun i hi => h i (List.mem_of_mem_filter hi)))

theorem settles_ackRoom {s : State} (h : quiet A s) (tid : Word) (n : Nat) : Settles A s (s.ackRoom tid n) := by
  unfold State.ackRoom
  split
  · exact .refl s
  · split
    · exact .refl s
    · exact ((settles_drain h _).trans (settles_inflight (fun _ hi => List.mem_of_mem_filter hi))).trans (settles_ackedAll ..)

/-! ## Lines written back -/

theorem settles_mendLine (s : State) (core num j n : Nat) : Settles A s (s.mendLine core num j n) := by
  unfold State.mendLine
  dsimp only
  split
  · exact .refl s
  · refine .comp (settles_countErrors ..) (settles_withCore s (keeps_map _ (fun l => ?_)))
    split <;> exact ⟨rfl, fun _ => id⟩

theorem settles_sendBack {s : State} (h : quiet A s) {q : HomeReq} (hq : misses A q.cells) (lines : List Line) :
    Settles A s (s.sendBack q lines) := by
  unfold State.sendBack
  dsimp only
  have howe : Settles A s ((s.ackRoom q.origin.tid q.count).oweMany q.origin.tid q.count) :=
    (settles_ackRoom h _ _).trans (settles_withTask ..)
  split
  · exact howe.trans (settles_foldl (fun s _ => settles_send s nofun) _ _)
  · exact howe.trans (settles_send _ (fun q' hq' => by cases hq'; exact hq))

/-- A line and its mate are lines of their core. -/
theorem mem_of_withMate {lines : List Line} {l k : Line} (hl : l ∈ lines) (h : k ∈ withMate lines l) : k ∈ lines := by
  unfold withMate at h
  split at h
  · rwa [List.mem_singleton.mp h]
  · rename_i m hm
    have hmate : m ∈ lines := by
      split at hm
      · exact List.mem_of_find?_eq_some hm
      · cases hm
    have hboth : k = l ∨ k = m := by
      split at h
      · exact List.mem_pair.mp h
      · exact (List.mem_pair.mp h).symm
    rcases hboth with rfl | rfl
    · exact hl
    · exact hmate

/-- A write-back sends what its core's lines have to send, and they have no more to send after it. -/
theorem settles_writeBack {s : State} {core : Nat} (h : quiet A s) (hc : misses A (s.unsentCells core)) (num : Nat) (by_ : List Before)
    (loads : List Word) : Settles A s (s.writeBack core num by_ loads) := by
  unfold State.writeBack
  dsimp only
  split
  · exact .refl s
  · rename_i l hl
    split
    · exact .refl s
    · have hmend := settles_foldl (A := A) (fun s (k : Line) => settles_mendLine s core k.num 0 32)
        (withMate (tget s.cores core Core.reset).lines l) s
      refine hmend.trans ((settles_sendBack (hmend.quiet h) (fun c hcell => ?_) _).trans (settles_withCore _ (keeps_map _ (fun k => ?_))))
      · obtain ⟨k, hk, hck⟩ := List.mem_flatMap.mp hcell
        exact hc c (List.mem_flatMap.mpr ⟨k, mem_of_withMate (List.mem_of_find?_eq_some hl) hk, hck⟩)
      · split
        · exact ⟨rfl, fun e he => by rw [unsentCells_nil rfl] at he; cases he⟩
        · exact ⟨rfl, fun _ => id⟩

theorem settles_writeBackAll {s : State} {core : Nat} (h : quiet A s) (hc : misses A (s.unsentCells core)) (by_ : List Before)
    (loads : List Word) (l : List Nat) : Settles A s (s.writeBackAll core by_ loads l) := by
  induction l generalizing s with
  | nil => exact .refl s
  | cons n l ih =>
    have hback := settles_writeBack h hc n by_ loads
    exact hback.trans (ih (hback.quiet h) (hback.unsent hc))

/-! ## Cleaning (R248) -/

theorem settles_cleanCore {s : State} {core : Nat} (h : quiet A s) (hc : misses A (s.unsentCells core)) : Settles A s (s.cleanCore core) := by
  have hback := settles_writeBackAll h hc [] [] (s.dirtyLines core)
  unfold State.cleanCore
  exact (hback.trans (settles_drainFirst (hback.quiet h) _)).trans (settles_withCore _ (keeps_clean _))

/-- A core that cleans is clean. -/
theorem cleaned_cleanCore (s : State) (core : Nat) : cleaned (tget (s.cleanCore core).cores core Core.reset) := by
  unfold State.cleanCore State.withCore
  dsimp only
  rw [SystemRegisters.tget_tset_same]
  exact cleaned_clean _

/-- Cores that clean one after another are all clean in the end: what cleans later leaves a clean core clean. -/
theorem foldl_cleanCore {s : State} {cores : List Nat} (h : quiet A s) (hc : ∀ k, k ∈ cores → misses A (s.unsentCells k)) :
    Settles A s (cores.foldl State.cleanCore s) ∧
      ∀ k, k ∈ cores → cleaned (tget (cores.foldl State.cleanCore s).cores k Core.reset) := by
  induction cores generalizing s with
  | nil => exact ⟨.refl s, nofun⟩
  | cons k cores ih =>
    obtain ⟨hk, hcores⟩ := List.forall_mem_cons.mp hc
    have hclean := settles_cleanCore h hk
    obtain ⟨hrest, hall⟩ := ih (hclean.quiet h) (fun j hj => hclean.unsent (hcores j hj))
    exact ⟨hclean.trans hrest, List.forall_mem_cons.mpr ⟨(hrest.cores k).cleaned (cleaned_cleanCore s k), hall⟩⟩

end frame

end Sys2Proof.Laws.Stores
end

section
/-!
SUPPORT. Launch queues (R240 to R259, R487): the packet at a queue's head, the clean between phases, and gangs that are placed and age.
-/

namespace Sys2Proof.Laws.Packets

open Sys2Proof.Machine Sys2Proof.Claims
open Sys2Proof.Laws.Stores

/-! ## The head of a queue -/

/-- The state in which a queue issues: of its issues none is on its way. -/
def issueTurn (s : State) (q : Nat) : State := { s with inflight := s.inflight.filter (fun i => i != .packetIssue q) }

theorem exec_packetIssue (q : Nat) (s : State) : exec (.packetIssue q) s = .next
    (if (s.queue q).state ≠ 1 ∨ !(s.queue q).enable ∨ (s.queue q).gang.isSome then issueTurn s q
     else if (s.partition (s.queue q).part).gone then issueTurn s q else (issueTurn s q).issueHead q) := rfl

theorem exec_packetIssue_stopped {q : Nat} {s : State} (h : (s.queue q).state ≠ 1) : exec (.packetIssue q) s = .next (issueTurn s q) := by
  rw [exec_packetIssue, if_pos (.inl h)]

theorem exec_packetIssue_issuing {q : Nat} {s : State} (h : issuing s q) : exec (.packetIssue q) s = .next ((issueTurn s q).issueHead q) := by
  obtain ⟨hstate, henable, hgang, hgone⟩ := h
  rw [exec_packetIssue, if_neg (by simp [hstate, henable, hgang]), if_neg (by simp [hgone])]

theorem issueHead_empty {n : Nat} {s : State} (h : (s.queue n).prod = (s.queue n).cons) : s.issueHead n = s.send (.packetIssue n) := by
  have havail : ((s.queue n).prod - (s.queue n).cons).toNat = 0 := by rw [h, BitVec.sub_self]; rfl
  unfold State.issueHead
  dsimp only
  rw [havail, if_neg (Nat.not_lt_zero _), if_pos rfl]

theorem count_of_no_gang {p : Packet} (h : p.gang = false) : p.count = 1 := if_neg (by simp [h])

/-- The packet that heads a queue, which belongs to no gang, its queue having some within its ring. -/
structure Heads (s : State) (n : Nat) (p : Packet) : Prop where
  waiting : 0 < ((s.queue n).prod - (s.queue n).cons).toNat
  fits : ((s.queue n).prod - (s.queue n).cons).toNat ≤ 2 ^ (s.queue n).logslots
  packet : s.packetAt (s.queue n) (s.queue n).cons.toNat = some p
  single : p.gang = false

/-- The packet at the head is checked, waits for its phase and behind its barrier, and is issued (R243 to R248). -/
theorem issueHead_single {n : Nat} {s : State} {p : Packet} (h : Heads s n p) : s.issueHead n =
    if s.packetError (s.queue n) (s.queue n).cons.toNat [p] ≠ 0 then s.stopQueue n (s.packetError (s.queue n) (s.queue n).cons.toNat [p])
    else if p.phase ≠ (s.queue n).phase then
      (if (s.queue n).done = (s.queue n).cons then s.send (.phaseClean n p.phase) else s.send (.packetIssue n))
    else if p.barrier ∧ (s.queue n).done ≠ (s.queue n).cons then s.send (.packetIssue n)
    else s.issue n (s.queue n) (s.queue n).cons.toNat [p] := by
  have hcount : ¬ ((s.queue n).prod - (s.queue n).cons).toNat < p.count := by rw [count_of_no_gang h.single]; exact Nat.not_lt.mpr h.waiting
  have hone : s.packetsAt (s.queue n) (s.queue n).cons.toNat p.count = some [p] := by
    rw [count_of_no_gang h.single, State.packetsAt, h.packet]; rfl
  unfold State.issueHead
  dsimp only
  rw [if_neg (Nat.not_lt.mpr h.fits), if_neg (Nat.ne_of_gt h.waiting), h.packet]
  dsimp only
  rw [if_neg hcount, hone]

/-- What is on its way says nothing of the packet at a queue's head. -/
theorem heads_issueTurn {s : State} {q : Nat} {p : Packet} (h : Heads s q p) : Heads (issueTurn s q) q p := ⟨h.waiting, h.fits, h.packet, h.single⟩

theorem packetError_issueTurn (s : State) (q : Nat) (r : Queue) (pos : Nat) (l : List Packet) :
    (issueTurn s q).packetError r pos l = s.packetError r pos l := rfl

/-! ## A packet issues (R245) -/

/-- An event that its actor's home, on this device, takes is delivered. -/
theorem deliverEvent_queues {s : State} {e : Event} (hd : s.targetDevice e.part e.target = s.dev.toNat) (ht : takesEvents s e.part)
    (hl : comesLate s e = false) (hr : roomAt s (s.homeCore e.part (actorAddr e.target))) : ∃ n, s.deliverEvent e =
      ({ s with events := s.events ++ [Events.queued e (s.homeCore e.part (actorAddr e.target)) n] }.send (.eventSafe e.part (actorAddr e.target)), 0) := by
  unfold State.deliverEvent
  dsimp only
  rw [if_pos hd]
  exact Events.arrive_queues ht hl hr

/-- A queue that has issued a packet of a phase goes on to the next. -/
def passed (p : Packet) (q : Queue) : Queue := { q with cons := q.cons + 1, phase := p.phase }

theorem issue_single {s s1 : State} {n pos : Nat} {q : Queue} {p : Packet} (hg : p.gang = false)
    (h : s.deliverEvent (s.packetEvent n q pos p none) = (s1, 0)) :
    s.issue n q pos [p] = (s1.withQueue n (passed p)).send (.packetIssue n) := by
  have hgang : [p].any Packet.gang = false := by simp [hg]
  have hall : s.deliverAll [s.packetEvent n q pos p none] = some s1 := by
    unfold State.deliverAll
    dsimp only
    rw [h]
    rfl
  unfold State.issue
  dsimp only
  rw [hgang]
  change (match s.deliverAll [s.packetEvent n q pos p none] with | none => _ | some s1 => _) = _
  rw [hall]
  rfl

theorem withQueue_queue (s : State) (n : Nat) (f : Queue → Queue) : (s.withQueue n f).queue n = f (s.queue n) := SystemRegisters.tget_tset_same ..

theorem withQueue_queue_other (s : State) {n k : Nat} (f : Queue → Queue) (h : k ≠ n) : (s.withQueue n f).queue k = s.queue k :=
  SystemRegisters.tget_tset_other _ _ _ h

theorem queueOnly_withQueue (s : State) (n : Nat) (f : Queue → Queue) : queueOnly s (s.withQueue n f) n :=
  ⟨rfl, rfl, rfl, rfl, rfl, fun _ hk => withQueue_queue_other s f hk⟩

/-- A packet that may issue does, with its event at its actor's home (R245). -/
theorem packetIssue_issues {q : Nat} {s : State} {p : Packet} (hi : issuing s q) (hh : Heads s q p)
    (herr : s.packetError (s.queue q) (s.queue q).cons.toNat [p] = 0) (hphase : p.phase = (s.queue q).phase)
    (hbar : p.barrier = true → (s.queue q).done = (s.queue q).cons) (hdev : s.targetDevice (s.queue q).part p.target = s.dev.toNat)
    (ht : takesEvents s (s.queue q).part) (hl : comesLate s (s.packetEvent q (s.queue q) (s.queue q).cons.toNat p none) = false)
    (hr : roomAt s (s.homeCore (s.queue q).part (actorAddr p.target))) : ∃ t, exec (.packetIssue q) s = .next t ∧
      (t.queue q).cons = (s.queue q).cons + 1 ∧
      (∃ d, t.events = s.events ++ [d] ∧ d.event = s.packetEvent q (s.queue q) (s.queue q).cons.toNat p none) ∧
      t.inflight.getLast? = some (.packetIssue q) := by
  obtain ⟨n, hdeliver⟩ := deliverEvent_queues (s := issueTurn s q) (e := s.packetEvent q (s.queue q) (s.queue q).cons.toNat p none) hdev ht hl hr
  have hhead : (issueTurn s q).issueHead q = (issueTurn s q).issue q (s.queue q) (s.queue q).cons.toNat [p] := by
    refine (issueHead_single (heads_issueTurn hh)).trans ?_
    rw [packetError_issueTurn]
    exact (if_neg (not_not.mpr herr)).trans ((if_neg (not_not.mpr hphase)).trans (if_neg (fun h => h.2 (hbar h.1))))
  refine ⟨_, by rw [exec_packetIssue_issuing hi, hhead, issue_single hh.single hdeliver], ?_, ⟨_, rfl, rfl⟩, List.getLast?_concat⟩
  exact congrArg Queue.cons (withQueue_queue _ q (passed p))

/-- A packet with an error stops its queue (R243). -/
theorem packetIssue_stops {q : Nat} {s : State} {p : Packet} (hi : issuing s q) (hh : Heads s q p)
    (herr : s.packetError (s.queue q) (s.queue q).cons.toNat [p] ≠ 0) : exec (.packetIssue q) s =
      .next ((issueTurn s q).stopQueue q (s.packetError (s.queue q) (s.queue q).cons.toNat [p])) := by
  rw [exec_packetIssue_issuing hi, issueHead_single (heads_issueTurn hh)]
  exact congrArg _ (if_pos herr)

/-! ## The clean between phases (R248) -/

/-- A queue whose next packets are of a phase, for which no core has started a reaction. -/
def inPhase (phase : Byte) (q : Queue) : Queue := { q with phase := phase, cores := [] }

theorem exec_phaseClean (q : Nat) (phase : Byte) (s : State) : exec (.phaseClean q phase) s = .next
    (if (s.queue q).done ≠ (s.queue q).cons then s.send (.phaseClean q phase)
     else (((s.queue q).cores.foldl State.cleanCore s).withQueue q (inPhase phase)).send (.packetIssue q)) := rfl

/-- Once every earlier packet is done the queue's cores are clean, stores that they had to send have landed, and the phase changes. -/
theorem phaseClean_cleans {q : Nat} (phase : Byte) {s : State} (h : (s.queue q).done = (s.queue q).cons) :
    ∃ t, exec (.phaseClean q phase) s = .next t ∧ t.queue q = { s.queue q with phase := phase, cores := [] } ∧
      t.inflight.getLast? = some (.packetIssue q) ∧ (∀ a, noStoreTo s (s.queue q).cores a → Memory.read t.mem a = Memory.read s.mem a) ∧
      ∀ c, c ∈ (s.queue q).cores → cleaned (tget t.cores c Core.reset) := by
  obtain ⟨hsettles, hcleaned⟩ := foldl_cleanCore (quiet_noStoreTo s (s.queue q).cores) (fun _ hk => unsentCells_miss_noStoreTo s hk)
  have hqueue : ((s.queue q).cores.foldl State.cleanCore s).queue q = s.queue q :=
    congrArg (fun l => tget l q Queue.reset) hsettles.queues
  have hexec := (exec_phaseClean q phase s).trans (congrArg _ (if_neg (not_not.mpr h)))
  refine ⟨_, hexec, ?_, List.getLast?_concat, hsettles.mem, hcleaned⟩
  exact (withQueue_queue _ q (inPhase phase)).trans (congrArg (inPhase phase) hqueue)

/-! ## Gangs (R254, R259) -/

theorem exec_gangPlace {q : Nat} {s : State} {g : Gang} (h : (s.queue q).gang = some g) :
    exec (.gangPlace q) s = .next ((s.placeGang q).getD (s.send (.gangPlace q))) := by
  change Host.Outcome.next _ = _
  rw [h]

/-- A gang for which there are no units is not placed. -/
theorem placeGang_of_no_units {q : Nat} {s : State} {g : Gang} (h : (s.queue q).gang = some g)
    (hu : (s.gangUnits q (s.queue q) g).isNone = true) : s.placeGang q = none := by
  unfold State.placeGang
  dsimp only
  rw [h]
  dsimp only
  split
  · rfl
  · rw [Option.isNone_iff_eq_none.mp hu]

/-- A queue whose gang has aged, when its limit has passed. -/
def ageQueue (clock : Nat) (r : Queue) : Queue :=
  { r with gang := r.gang.map (fun g => if g.since + r.age.toNat ≤ clock then { g with aged := true } else g) }

theorem ageQueue_of_not_due {clock : Nat} {r : Queue} (h : ∀ g, r.gang = some g → clock < g.since + r.age.toNat) : ageQueue clock r = r := by
  have hgang : r.gang.map (fun g => if g.since + r.age.toNat ≤ clock then { g with aged := true } else g) = r.gang := by
    cases hr : r.gang with
    | none => rfl
    | some g => exact congrArg some (if_neg (Nat.not_le.mpr (h g hr)))
  unfold ageQueue
  rw [hgang]

theorem tget_map {α : Type} (f : α → α) (l : List (Nat × α)) (k : Nat) (d : α) : tget (l.map (fun e => (e.1, f e.2))) k (f d) = f (tget l k d) := by
  induction l with
  | nil => rfl
  | cons e l ih =>
    rw [List.map_cons, tget, tget, ih]
    exact (apply_ite f _ _ _).symm

/-- The state in which the gangs whose limit has passed have aged, before they reserve. -/
def withAged (s : State) : State := { s with queues := s.queues.map (fun e => (e.1, ageQueue s.clock e.2)) }

theorem ageGangs_eq (s : State) : s.ageGangs = (withAged s).agedGangs.foldl (fun s n => s.reserveFor n 64) (withAged s) := rfl

theorem withAged_queue (s : State) (q : Nat) : (withAged s).queue q = ageQueue s.clock (s.queue q) := tget_map (ageQueue s.clock) s.queues q Queue.reset

/-- Whether a queue's gang has aged. -/
def hasAged (s : State) (q : Nat) : Prop := ∃ g, (s.queue q).gang = some g ∧ g.aged = true

/-- Reserving contexts leaves aged gangs aged. -/
theorem hasAged_reserveFor {s : State} {q : Nat} (h : hasAged s q) (n fuel : Nat) : hasAged (s.reserveFor n fuel) q := by
  induction fuel generalizing s with
  | zero => exact h
  | succ fuel ih =>
    unfold State.reserveFor
    dsimp only
    split
    · exact h
    · rename_i g hg
      split
      · exact h
      · split
        · exact h
        · refine ih ?_
          obtain ⟨g', hg', haged⟩ := h
          by_cases hq : q = n
          · subst hq
            obtain rfl : g' = g := Option.some.inj (hg'.symm.trans hg)
            exact ⟨_, congrArg Queue.gang (withQueue_queue ..), haged⟩
          · exact ⟨g', (congrArg Queue.gang (withQueue_queue_other _ _ hq)).trans hg', haged⟩

/-- A gang whose limit has passed ages. -/
theorem hasAged_ageGangs {s : State} {q : Nat} {g : Gang} (hg : (s.queue q).gang = some g) (hdue : g.since + (s.queue q).age.toNat ≤ s.clock) :
    hasAged s.ageGangs q := by
  have haged : hasAged (withAged s) q := by
    refine ⟨{ g with aged := true }, ?_, rfl⟩
    rw [withAged_queue, ageQueue, hg]
    exact congrArg some (if_pos hdue)
  rw [ageGangs_eq]
  generalize (withAged s).agedGangs = l
  generalize withAged s = s1 at haged
  induction l generalizing s1 with
  | nil => exact haged
  | cons n l ih => exact ih _ (hasAged_reserveFor haged n 64)

/-- With no gang that has aged or that is due, ageing changes nothing. -/
theorem ageGangs_of_none_due {s : State}
    (h : ∀ e, e ∈ s.queues → ∀ g, e.2.gang = some g → s.clock < g.since + e.2.age.toNat ∧ g.aged = false) : s.ageGangs = s := by
  have hsame : withAged s = s := by
    have hmap : s.queues.map (fun e => (e.1, ageQueue s.clock e.2)) = s.queues :=
      (List.map_congr_left (fun e he => congrArg (Prod.mk e.1) (ageQueue_of_not_due (fun g hg => (h e he g hg).1)))).trans (List.map_id _)
    unfold withAged
    rw [hmap]
  have hnone : s.agedGangs = [] := by
    have hfilter : s.queues.filterMap (fun e => e.2.gang.bind (fun g => if g.aged then some (g.since + e.2.age.toNat, e.1) else none)) = [] := by
      refine List.filterMap_eq_nil_iff.mpr (fun e he => Option.bind_eq_none_iff.mpr (fun g hg => ?_))
      simp [(h e he g hg).2]
    unfold State.agedGangs
    rw [hfilter]
    rfl
  rw [ageGangs_eq, hsame, hnone]
  rfl

/-- A device with one queue record, whose gang is known, has no other. -/
theorem queues_of_one {s : State} {q : Nat} {g : Gang} (hg : (s.queue q).gang = some g) (h : s.queues.length = 1) :
    s.queues = [(q, s.queue q)] := by
  obtain ⟨⟨k, r⟩, hk⟩ := List.length_eq_one_iff.mp h
  have hqueue : s.queue q = if k = q then r else Queue.reset := by unfold State.queue; rw [hk]; rfl
  by_cases hkq : k = q
  · rw [hqueue, if_pos hkq, hk, hkq]
  · rw [hqueue, if_neg hkq] at hg
    cases hg

theorem exec_gangAge (q : Nat) (s : State) : exec (.gangAge q) s = .next (match (s.ageGangs.queue q).gang with
    | none => s.ageGangs
    | some g => if g.aged then s.ageGangs else s.ageGangs.send (.gangAge q)) := rfl

theorem exec_gangAge_due {s : State} {q : Nat} {g : Gang} (hg : (s.queue q).gang = some g) (hdue : g.since + (s.queue q).age.toNat ≤ s.clock) :
    exec (.gangAge q) s = .next s.ageGangs := by
  obtain ⟨h, hh, haged⟩ := hasAged_ageGangs hg hdue
  rw [exec_gangAge, hh]
  exact congrArg _ (if_pos haged)

theorem exec_gangAge_early {s : State} {q : Nat} {g : Gang} (hg : (s.queue q).gang = some g) (hdue : s.clock < g.since + (s.queue q).age.toNat)
    (haged : g.aged = false) (hone : s.queues.length = 1) : exec (.gangAge q) s = .next (s.send (.gangAge q)) := by
  have hsame : s.ageGangs = s := by
    refine ageGangs_of_none_due (fun e he g' hg' => ?_)
    rw [queues_of_one hg hone, List.mem_singleton] at he
    subst he
    obtain rfl : g = g' := Option.some.inj (hg.symm.trans hg')
    exact ⟨hdue, haged⟩
  rw [exec_gangAge, hsame, hg]
  exact congrArg _ (if_neg (by simp [haged]))

/-- Settles O20, by the head of the queue, by what cleaning cores leaves of their stores, and by the ageing of gangs. -/
theorem packetsAreIssuedInOrder : Obligations.PacketsAreIssuedInOrder := by
  refine ⟨?_, ?_, ?_, ?_, ?_, ?_, ?_, ?_, ?_⟩
  · intro q s p hi hsome hfits hp hg herr hphase hbar hdev ht e hl hr
    exact packetIssue_issues hi ⟨hsome, hfits, hp, hg⟩ herr hphase hbar hdev ht hl hr
  · intro q s hi hempty
    have hexec := (exec_packetIssue_issuing hi).trans (congrArg _ (issueHead_empty (s := issueTurn s q) hempty))
    exact ⟨_, hexec, ⟨rfl, rfl, rfl, rfl, rfl, fun _ _ => rfl⟩, rfl, List.getLast?_concat⟩
  · intro q s p hi hsome hfits hp hg herr
    have hqueue := withQueue_queue (issueTurn s q) q
      (fun r => { r with state := 2, err := BitVec.ofNat 8 (s.packetError (s.queue q) (s.queue q).cons.toNat [p]) })
    exact ⟨_, packetIssue_stops hi ⟨hsome, hfits, hp, hg⟩ herr, queueOnly_withQueue (issueTurn s q) q _,
      congrArg Queue.state hqueue, congrArg Queue.err hqueue, (congrArg Queue.cons hqueue :)⟩
  · intro q s h
    exact ⟨_, exec_packetIssue_stopped h, ⟨rfl, rfl, rfl, rfl, rfl, fun _ _ => rfl⟩, rfl⟩
  · intro q phase s h
    exact phaseClean_cleans phase h
  · intro q phase s h
    rw [exec_phaseClean, if_pos h]
  · intro q s g hg hu
    rw [exec_gangPlace hg, placeGang_of_no_units hg hu, Option.getD_none]
  · intro q s t g hg ht
    rw [exec_gangPlace hg, ht, Option.getD_some]
  · intro q s g hg
    refine ⟨fun hdue => ?_, exec_gangAge_early hg⟩
    obtain ⟨h, hh, haged⟩ := hasAged_ageGangs hg hdue
    exact ⟨_, h, exec_gangAge_due hg hdue, hh, haged⟩

end Sys2Proof.Laws.Packets
end
